-- ==== Sys2Proof/Word.lean ====
section
/-! DEFINITION. The word types of the e200z759n3 (spec/10_state.md R50, R55; bit 0 of the manual is the most significant bit). -/

namespace Sys2Proof

/-- A byte of memory (20_memory.md R201). -/
abbrev Byte := BitVec 8
/-- A halfword, and a 16-bit VLE instruction. -/
abbrev Half := BitVec 16
/-- A 32-bit word: an address, an SPR, the low half of a GPR, an instruction. -/
abbrev Word := BitVec 32
/-- A doubleword: a whole GPR (10_state.md R50), the accumulator, the time base. -/
abbrev DWord := BitVec 64
/-- The number of a general purpose register (30_encoding.md R504). -/
abbrev Gpr := BitVec 5
/-- The number of a CR field CR0..CR7 (10_state.md R58). -/
abbrev CrField := BitVec 3
/-- The number of a CR bit, 0 the most significant (10_state.md R58). -/
abbrev CrBit := BitVec 5

end Sys2Proof
end

