-- ==== Sys2Proof/Machine/Bits.lean ====
section
/-! DEFINITION. Bit-field helpers in the manual's numbering (00_scope.md R3, R12), rotates and masks
(40_base_integer.md R601), byte order (20_memory.md R210), and lists keyed by a number in one canonical form. -/

namespace Sys2Proof.Machine

/-- Bit `n` of a word in the manual's numbering, bit 0 the most significant (00_scope.md R3). -/
def mbit (w : Word) (n : Nat) : Bool := w.getMsbD n

/-- The word with bits `mask` replaced by those of `v`. -/
def insertBits (w mask v : Word) : Word := (w &&& ~~~mask) ||| (v &&& mask)

/-- The word with the bits of `mask` all set or all cleared. -/
def putBits (w mask : Word) (on : Bool) : Word := if on then w ||| mask else w &&& ~~~mask

/-- One or zero as a word. -/
def boolWord (b : Bool) : Word := if b then 1#32 else 0#32

/-- Sign extension of a 16-bit immediate (40_base_integer.md R601). -/
def sext16 (v : BitVec 16) : Word := v.signExtend 32
/-- Zero extension of a 16-bit immediate. -/
def zext16 (v : BitVec 16) : Word := v.zeroExtend 32

/-- Rotate left (40_base_integer.md R601). -/
def rotl (w : Word) (n : Nat) : Word := w.rotateLeft n

/-- Ones from bit `mb` to bit `me`, wrapping round when `mb > me` (40_base_integer.md R601). -/
def maskMbMe (mb me : BitVec 5) : Word :=
  let from' : Word := 0xFFFFFFFF#32 >>> mb.toNat
  let upto : Word := 0xFFFFFFFF#32 <<< (31 - me.toNat)
  if mb.toNat ≤ me.toNat then from' &&& upto else from' ||| upto

/-- How many of the bits `n - 1 … 0` are zero before the first one, from the top. -/
def leadingZeros (w : Word) : Nat → Nat
  | 0 => 0
  | n + 1 => if w.getLsbD n then 0 else leadingZeros w n + 1

/-- The number of leading zeros of a word (40_base_integer.md R667). -/
def clz32 (w : Word) : Nat := leadingZeros w 32

/-- The bytes of a word, most significant first. -/
def wordBytes (w : Word) : List Byte :=
  [w.extractLsb' 24 8, w.extractLsb' 16 8, w.extractLsb' 8 8, w.extractLsb' 0 8]
/-- The bytes of a halfword, most significant first. -/
def halfBytes (h : Half) : List Byte := [h.extractLsb' 8 8, h.extractLsb' 0 8]
/-- The bytes of a doubleword, most significant first. -/
def dwordBytes (d : DWord) : List Byte := wordBytes (d.extractLsb' 32 32) ++ wordBytes (d.extractLsb' 0 32)

/-- The number whose bytes, most significant first, are the list. -/
def bytesNat (l : List Byte) : Nat := l.foldl (fun a b => a * 256 + b.toNat) 0

/-- The low word of the big-endian number the bytes are. -/
def bytesWord (l : List Byte) : Word := BitVec.ofNat 32 (bytesNat l)
/-- The low doubleword of the big-endian number the bytes are. -/
def bytesDWord (l : List Byte) : DWord := BitVec.ofNat 64 (bytesNat l)

/-- The bytes of an access in the order of the page: as they are (big-endian) or reversed (20_memory.md R210). -/
def endian (e : Bool) (l : List Byte) : List Byte := if e then l.reverse else l

/-- The high word of a doubleword, bits 0:31 of the manual. -/
def hiW (d : DWord) : Word := d.extractLsb' 32 32
/-- The low word of a doubleword, bits 32:63 of the manual. -/
def loW (d : DWord) : Word := d.extractLsb' 0 32

/-- What a keyed list says of a key; `d` where the key is not listed. -/
def sparseGet {α : Type} (d : α) : List (Nat × α) → Nat → α
  | [], _ => d
  | (k, v) :: t, a => if a = k then v else sparseGet d t a

/-- A keyed list with one key changed, in the canonical form: keys strictly rising, no entry equal to `d`. -/
def sparsePut {α : Type} [DecidableEq α] (d : α) : List (Nat × α) → Nat → α → List (Nat × α)
  | [], a, x => if x = d then [] else [(a, x)]
  | (k, v) :: t, a, x =>
    if a < k then (if x = d then (k, v) :: t else (a, x) :: (k, v) :: t)
    else if a = k then (if x = d then t else (a, x) :: t)
    else (k, v) :: sparsePut d t a x

/-- The canonical form: keys from `lo` on, strictly rising, no entry equal to `d`. -/
def sparseWf {α : Type} [DecidableEq α] (d : α) : Nat → List (Nat × α) → Bool
  | _, [] => true
  | lo, (k, v) :: t => decide (lo ≤ k) && decide (v ≠ d) && sparseWf d (k + 1) t

end Sys2Proof.Machine
end

