-- ==== Sys2Proof/Config.lean ====
section
/-! DEFINITION. What an implementation fixes, and the values the spec leaves free. A free value is an opaque function of a
counter of State (or of the operands): it has no body, so nothing about it can be proved. -/

namespace Sys2Proof.Config

/-- MMUCFG (21_mmu.md R310). -/
def mmucfg : Word := 0x004009C4#32
/-- TLB0CFG (21_mmu.md R311). -/
def tlb0cfg : Word := 0x00000000#32
/-- TLB1CFG (21_mmu.md R312). -/
def tlb1cfg : Word := 0x200BE020#32
/-- L1CFG0 (22_cache.md R413). -/
def l1cfg0 : Word := 0x28581810#32
/-- L1CFG1 (22_cache.md R414). -/
def l1cfg1 : Word := 0x08581810#32
/-- The fixed high half of PVR (10_state.md R67). -/
def pvrHigh : BitVec 16 := 0x8169#16

/-- A free word, the `n`th drawn (00_scope.md R15, treatment `any value` of 93_implementation_defined.md). -/
opaque freeWord : Nat → BitVec 32
/-- A free doubleword, the `n`th drawn. -/
opaque freeDWord : Nat → BitVec 64
/-- A free bit, the `n`th drawn. -/
opaque freeBit : Nat → Bool
/-- A free number, the `n`th drawn; its users bound it. -/
opaque freeNat : Nat → Nat

/-- A free byte: byte `k` of what a device answers to the `n`th read (20_memory.md R225). -/
opaque freeByte : Nat → Nat → BitVec 8

/-- One step of the signature register of the Parallel Signature Unit, the parameter PSU_MISR_STEP
(64_external_debug_psu.md R2281, 91_not_in_source.md N75): old signature, data. -/
opaque psuMisrStep : BitVec 32 → BitVec 32 → BitVec 32
/-- Which code the check bits of a cache tag are (23_cache_errors_coherency.md R470, log entry 33): the choices that give
each bit of the tag its column, and the constant the check bits are inverted with (the column X of the table). -/
opaque tagPick : Nat → Nat
opaque tagPolarity : BitVec 6
/-- The eight check bits of an instruction cache doubleword, the parameter `dchk` (23_cache_errors_coherency.md R471). -/
opaque dataCheck : BitVec 64 → BitVec 8

/-- Which double-precision words of the EFPU are defined operations (91_not_in_source.md N21; 45_efpu_scalar.md R1156): those
take the SPE/EFPU Unavailable interrupt while MSR[SPE] is 0. -/
opaque efpDoubleDefined : BitVec 32 → Bool

end Sys2Proof.Config
end

