-- ==== Sys2Proof/Machine/State.lean ====
section
/-! DEFINITION. The state of the e200z759n3 as plain data: every register and every piece of hidden state the spec
gives the machine, the inputs of the core, and the model's own bookkeeping. INVENTORY.md lists each field with its rule. -/

namespace Sys2Proof.Machine

/-- Why the machine stops. `cacheMultipleHit`: a cache lookup hit two ways of one set, which 93_implementation_defined.md
U43 treats as `stuck`; raised by every access that looks a cache up; safe (the hardware goes on somehow). -/
inductive Fault where
  | cacheMultipleHit
deriving DecidableEq, Repr

/-- Why an instruction has no meaning. `notModelled`: its arm of `exec` has none yet; raised by `exec` alone; safe. -/
inductive Refusal where
  | notModelled (mnemonic : String)
deriving DecidableEq, Repr

/-- Memory: bytes by real address (20_memory.md R201), addresses strictly rising, no byte listed that equals what an
unlisted address reads as. -/
abbrev Memory := List Host.Cell

/-- The save/restore pairs, the syndrome and address registers, the vector registers and the pending latches of the
interrupt mechanism (60_exceptions.md R2003 to R2006, R2010, R2038; 10_state.md R70, R74). -/
structure IntRegs where
  srr0 : Word
  srr1 : Word
  csrr0 : Word
  csrr1 : Word
  dsrr0 : Word
  dsrr1 : Word
  mcsrr0 : Word
  mcsrr1 : Word
  esr : Word
  dear : Word
  mcsr : Word
  mcar : Word
  ivpr : Word
  /-- IVOR0 to IVOR15 at 0 to 15, IVOR32 to IVOR35 at 16 to 19. -/
  ivor : Vector Word 20
  /-- A non-maskable interrupt is latched (60_exceptions.md R2034). -/
  nmiPend : Bool
  /-- The next fetch is the first one of an interrupt handler (60_exceptions.md R2012). -/
  handlerFetch : Bool
deriving DecidableEq, Repr

/-- The software-use SPRs (10_state.md R69). -/
structure SprgRegs where
  sprg : Vector Word 10
  usprg0 : Word
deriving DecidableEq, Repr

/-- PIR, HID0, HID1 and BUCSR (10_state.md R66, R80, R83, R84). -/
structure HidRegs where
  pir : Word
  hid0 : Word
  hid1 : Word
  bucsr : Word
deriving DecidableEq, Repr

/-- The time base and the timers (10_state.md R76 to R79). -/
structure Timers where
  /-- TBU || TBL. -/
  tb : DWord
  dec : Word
  decar : Word
  tcr : Word
  tsr : Word
deriving DecidableEq, Repr

/-- A TLB entry (21_mmu.md R302). -/
structure TlbEntry where
  v : Bool
  iprot : Bool
  tid : Byte
  ts : Bool
  size : BitVec 5
  epn : BitVec 22
  vle : Bool
  w : Bool
  i : Bool
  m : Bool
  g : Bool
  e : Bool
  rpn : BitVec 22
  /-- The user bits U0 to U3, U0 most significant. -/
  u : BitVec 4
  ux : Bool
  sx : Bool
  uw : Bool
  sw : Bool
  ur : Bool
  sr : Bool
deriving DecidableEq, Repr

/-- The MMU registers and the TLB (21_mmu.md R301). -/
structure Mmu where
  pid0 : Word
  mas0 : Word
  mas1 : Word
  mas2 : Word
  mas3 : Word
  mas4 : Word
  mas6 : Word
  tlb : Vector TlbEntry 32
deriving DecidableEq, Repr

/-- A cache line (22_cache.md R401, 23_cache_errors_coherency.md R460). The check bits are held as their error
pattern: 0 where the stored check bits are those of the stored tag or data. -/
structure CacheLine where
  tag : BitVec 22
  valid : Bool
  /-- The four stored copies of the lock bit. -/
  lock : BitVec 4
  /-- The three stored copies of the dirty bit (data cache). -/
  dirty : BitVec 3
  /-- The 32 bytes, byte 0 at the lowest address. -/
  data : Vector Byte 32
  /-- Error pattern of the six tag check bits. -/
  tagErr : BitVec 6
  /-- Error pattern of the check bits of each doubleword: byte parity (data cache) or EDC (instruction cache). -/
  dataErr : Vector Byte 4
deriving DecidableEq, Repr

/-- One cache: its lines that are not the all-zero line, by `set * 4 + way` strictly rising, and its replacement
pointer (22_cache.md R401, R424). -/
structure Cache where
  lines : List (Nat × CacheLine)
  rp : BitVec 2
deriving DecidableEq, Repr

/-- The two caches and the cache control registers (22_cache.md R401, R410 to R416, R436;
23_cache_errors_coherency.md R475, R476). -/
structure Caches where
  icache : Cache
  dcache : Cache
  l1csr0 : Word
  l1csr1 : Word
  l1finv0 : Word
  l1finv1 : Word
  hdbcr0 : Word
  cdacntl : Word
  cdadata : Word
deriving DecidableEq, Repr

/-- The window after a value-compare data address event (61_debug.md R2213): how many instructions complete in it, how many
have, and whether the event is software's, hardware's. -/
structure DvcWindow where
  total : Nat
  done : Nat
  soft : Bool
  hard : Bool
deriving DecidableEq, Repr

/-- The debug registers (61_debug.md R2217 to R2235; 64_external_debug_psu.md R2250 to R2252) and the debug
conditions in flight. -/
structure Debug where
  dbcr0 : Word
  dbcr1 : Word
  dbcr2 : Word
  dbcr3 : Word
  dbcr4 : Word
  dbcr5 : Word
  dbcr6 : Word
  dbsr : Word
  iac : Vector Word 8
  dac1 : Word
  dac2 : Word
  dvc1 : DWord
  dvc2 : DWord
  dbcnt : Word
  dberc0 : Word
  devent : Word
  ddam : Word
  edbcr0 : Word
  edbsr0 : Word
  edbsrmsk0 : Word
  /-- The CPU is halted in debug mode (64_external_debug_psu.md R2260, R2263). -/
  halted : Bool
  /-- A value-compare data address event waits (61_debug.md R2213). -/
  dvcPend : Option DvcWindow
  /-- A critical interrupt recorded CIRPT with Debug interrupts enabled: the Debug interrupt comes before the first
  instruction of its handler (10_state.md R82, log entry 56). -/
  cirptDue : Bool
  /-- A debug session has been left and no instruction has begun since: asynchronous interrupts are blocked
  (64_external_debug_psu.md R2261). -/
  exiting : Bool
deriving DecidableEq, Repr

/-- The performance monitor (62_perfmon_power.md R2320 to R2323, R2331). -/
structure PerfMon where
  pmgc0 : Word
  pmlca : Vector Word 4
  pmlcb : Vector Word 4
  pmc : Vector Word 4
  /-- The latched time-base event. -/
  tbEvent : Bool
deriving DecidableEq, Repr

/-- The Parallel Signature Unit (64_external_debug_psu.md R2280 to R2283). -/
structure Psu where
  pscr : Word
  pssr : Word
  pshr : Word
  pslr : Word
  psctr : Word
deriving DecidableEq, Repr

/-- The power states (62_perfmon_power.md R2350). -/
structure Power where
  waiting : Bool
  halted : Bool
  stopped : Bool
deriving DecidableEq, Repr

/-- The SPE loads and stores by their indexed and immediate forms together (49_spe_multiply_word_loadstore.md R1610 to
R1645). -/
inductive SpeForm where
  | evldd
  | evldw
  | evldh
  | evlhhesplat
  | evlhhousplat
  | evlhhossplat
  | evlwhe
  | evlwhou
  | evlwhos
  | evlwwsplat
  | evlwhsplat
  | evstdd
  | evstdw
  | evstdh
  | evstwhe
  | evstwho
  | evstwwe
  | evstwwo
deriving DecidableEq, Repr

/-- The value of the parameter SPE_ALIGN for a form (00_scope.md R9). -/
inductive SpeAlign where
  | two
  | four
  | eight
deriving DecidableEq, Repr

/-- What a range of real addresses is where it is not RAM (92_eei_decisions.md D58; 20_memory.md R225): an address that
answers with a bus error, a device. -/
inductive Region where
  | busError
  | device
deriving DecidableEq, Repr

/-- A range of real addresses, both ends in it. -/
structure MapRange where
  first : Word
  last : Word
  kind : Region
deriving DecidableEq, Repr

/-- The inputs of the core: the static straps and parameters of 00_scope.md R8 and R9, and the levels of the run-time
inputs (65_external_signals.md R2602). A level field is true while its signal is asserted. -/
structure Pins where
  rstbase : BitVec 30
  rstEndmode : Bool
  rstVlemode : Bool
  cpuid : Byte
  pvrin : Half
  sysvers : Word
  /-- DCRN_CDACNTL and DCRN_CDADATA (92_eei_decisions.md D43). -/
  dcrnCdacntl : Option (BitVec 10)
  dcrnCdadata : Option (BitVec 10)
  /-- The memory map, a function of the real address (00_scope.md R9, 92_eei_decisions.md D58, log entry 35): the first range
  that holds an address says what it is; an address in none is RAM. -/
  memMap : List MapRange
  /-- RESET_ON_WRS and RESET_ON_DBRSTC (92_eei_decisions.md D65): the reset requests of the watchdog and of DBCR0[RST] are
  wired back to `p_reset_b`. -/
  resetOnWrs : Bool
  resetOnDbrstc : Bool
  /-- SNOOP_LOGIC_PRESENT (92_eei_decisions.md D55). -/
  snoopLogic : Bool
  /-- SPE_ALIGN where it differs from the access size (92_eei_decisions.md D20). -/
  speAlign : List (SpeForm × SpeAlign)
  extint : Bool
  critint : Bool
  /-- `p_avec_b` asserted: the interrupt inputs are autovectored (60_exceptions.md R2007). -/
  avec : Bool
  voffset : Half
  nmi : Bool
  mcp : Bool
  ude : Bool
  devt1 : Bool
  devt2 : Bool
  halt : Bool
  stop : Bool
  tbdisable : Bool
  extpidEn : Bool
  extpid : BitVec 2
  pmEvent : Bool
  pmcQual : BitVec 4
  xfail : Bool
  /-- `jd_en_once`: OnCE operation is enabled (64_external_debug_psu.md R2253, R2254). -/
  enOnce : Bool
deriving DecidableEq, Repr

/-- An input that arrives (00_scope.md R6, 92_eei_decisions.md section 6). -/
inductive EnvEvent where
  /-- One time base clock (60_exceptions.md R2100). -/
  | tick
  /-- The levels of the two interrupt request inputs, with `p_avec_b` and `p_voffset` (60_exceptions.md R2007). -/
  | extint (on avec : Bool) (voffset : Half)
  | critint (on avec : Bool) (voffset : Half)
  | nmi (on : Bool)
  | mcp (on : Bool)
  | ude (on : Bool)
  | devt1 (on : Bool)
  | devt2 (on : Bool)
  | halt (on : Bool)
  | stop (on : Bool)
  | tbdisable (on : Bool)
  | extpid (en : Bool) (v : BitVec 2)
  | pmEvent (on : Bool)
  | pmcQual (v : BitVec 4)
  | xfail (on : Bool)
  | enOnce (on : Bool)
  /-- `p_rsrv_clr` (65_external_signals.md R2628). -/
  | rsrvClr
  /-- A snoop invalidate of a real address, and the synchronization of the snoop queue by a SYNC command or
  `p_sync_req_in` (23_cache_errors_coherency.md R481 to R485). -/
  | snoopInv (ra : Word)
  | snoopSync
  /-- `m_por`, `p_reset_b` and `j_trst_b` (70_reset_and_hazards.md R2400). -/
  | powerOn
  | reset
  | debugReset
  /-- The external debugger writes EDBCR0, EDBSRMSK0 or DBERC0, clears bits of EDBSR0, or lets the CPU leave debug mode
  at an address (64_external_debug_psu.md R2250 to R2252, R2261; 61_debug.md R2231), or asks for
  debug mode by OCR[DR] or `jd_de_b` (64_external_debug_psu.md R2260). -/
  | debugRequest
  | setEdbcr0 (v : Word)
  | setEdbsrmsk0 (v : Word)
  | setDberc0 (v : Word)
  | clearEdbsr0 (v : Word)
  | debugExit (pc : Word)
deriving DecidableEq, Repr

/-- One data access of the instruction in progress, as the debug compares see it (61_debug.md R2207): its effective
address, store or load, its size (0 for a cache instruction), and the bytes of its first beat in address order. -/
structure Access where
  ea : Word
  store : Bool
  size : Nat
  bytes : List Byte
deriving DecidableEq, Repr

/-- The class of an interrupt (60_exceptions.md R2001). -/
inductive IntClass where
  | nonCritical
  | critical
  | debug
  | machineCheck
deriving DecidableEq, Repr

/-- An interrupt type (60_exceptions.md R2002). -/
inductive IntType where
  | criticalInput
  | machineCheck
  | dataStorage
  | instrStorage
  | externalInput
  | alignment
  | program
  | systemCall
  | decrementer
  | fixedInterval
  | watchdog
  | dataTlb
  | instrTlb
  | debug
  | speUnavailable
  | fpData
  | fpRound
  | perfMonitor
deriving DecidableEq, Repr

/-- The instruction in progress: fetched from a VLE page or not, and its word (a halfword instruction in the high
half). -/
structure Current where
  vle : Bool
  ir : Word
deriving DecidableEq, Repr

/-- What the instruction in progress did that debug events and performance counters look at. -/
structure Ev where
  accesses : List Access
  /-- The interrupts taken, newest first. -/
  ints : List IntType
  /-- The DEVNT pulses written (61_debug.md R2234). -/
  devnt : Byte
  /-- The watchpoints signalled (61_debug.md R2236), watchpoint `n` at bit `n`. -/
  wp : BitVec 30
  /-- The bits of DBCNT that an `mtspr` wrote (61_debug.md R2226, R2227). -/
  dbcntWritten : Word
  /-- A return that the step came to in supervisor mode: `rfi` (true), `rfci` (61_debug.md R2212). -/
  ret : Option Bool
  /-- The access stopped in a Data TLB Error or Data Storage interrupt, or in a machine check. -/
  dataFail : Bool
  /-- 0 to 1 transitions of `p_pm_event`, and of the time base bit PMGC0[TBSEL] selects (62_perfmon_power.md R2340). -/
  pmEdges : Nat
  tbEdges : Nat
  /-- Rises and falls of `p_pmc0_qual` to `p_pmc3_qual` (62_perfmon_power.md R2322). -/
  qualRise : BitVec 4
  qualFall : BitVec 4
  /-- How many of the oldest entries of the snoop queue a synchronization has asked for (23_cache_errors_coherency.md R485). -/
  snoopDue : Nat
deriving DecidableEq, Repr

/-- An entry of the store buffer: its real address, and what the bytes that it changes held before (22_cache.md R429). -/
structure StoreEntry where
  ra : Word
  old : List Host.Cell
deriving DecidableEq, Repr

/-- Work the core has accepted and not finished. -/
structure Buffers where
  /-- The snoop queue, oldest first: the line addresses of invalidates that have not taken effect
  (23_cache_errors_coherency.md R483). -/
  snoops : List Word
  /-- Bus errors of buffered stores that are not reported yet, oldest first (60_exceptions.md R2035;
  93_implementation_defined.md U83). -/
  storeErrs : List Word
  /-- The entries of the store buffer that may not have reached memory, newest first, at most eight (22_cache.md R429;
  93_implementation_defined.md U60). -/
  entries : List StoreEntry
  /-- Older bytes that an instruction fetch may still read, with their real addresses (20_memory.md R246; 22_cache.md
  R434). -/
  stale : List Host.Cell
  /-- Those of them that no `msync` has waited for (22_cache.md R434). -/
  unsynced : List Host.Cell
  /-- Older bytes of memory that a fill of the instruction cache may still bring in, as no `icbi` of their line has followed
  (22_cache.md R434). -/
  unpurged : List Host.Cell
deriving DecidableEq, Repr

/-- No work in the buffers. -/
def Buffers.none : Buffers := { snoops := [], storeErrs := [], entries := [], stale := [], unsynced := [], unpurged := [] }

/-- A register whose change software must follow with a context synchronizing instruction (10_state.md R115;
64_external_debug_psu.md R2284). -/
inductive SyncReg where
  | msr
  | pid0
  | spefscr
  | hid0
  | hid1
  | bucsr
  | l1csr0
  | l1csr1
  | dbcr (n : Fin 7)
  | dbsr
  | dbcnt
  | pscr
  | mas0
  | mas1
  | mas2
  | mas3
  | mas4
  | mas6
deriving DecidableEq, Repr

/-- Changes that no context synchronizing event has followed yet (93_implementation_defined.md U5). -/
structure Sync where
  /-- The values the registers held before each change, newest first. -/
  old : List (SyncReg × Word)
  /-- In a step in which old values are in effect: the new ones. -/
  new : List (SyncReg × Word)
deriving DecidableEq, Repr

/-- Every change is synchronized. -/
def Sync.none : Sync := { old := [], new := [] }

/-- The whole machine. -/
structure State where
  /-- GPR0 to GPR31 (10_state.md R50). -/
  gpr : Vector DWord 32
  pc : Word
  cr : Word
  xer : Word
  lr : Word
  ctr : Word
  acc : DWord
  spefscr : Word
  msr : Word
  /-- The reservation flag (20_memory.md R242). -/
  resv : Bool
  ints : IntRegs
  sprg : SprgRegs
  hid : HidRegs
  tmr : Timers
  mmu : Mmu
  cache : Caches
  dbg : Debug
  pm : PerfMon
  psu : Psu
  pwr : Power
  mem : Memory
  buf : Buffers
  sync : Sync
  pins : Pins
  /-- The inputs still to arrive, one batch a step (the model's own). -/
  env : List (List EnvEvent)
  /-- Counts the free values drawn (the model's own). -/
  free : Nat
  cur : Current
  ev : Ev
deriving DecidableEq, Repr

/-- An invalid TLB entry, every field zero. -/
def TlbEntry.zero : TlbEntry :=
  { v := false, iprot := false, tid := 0, ts := false, size := 0, epn := 0, vle := false, w := false, i := false,
    m := false, g := false, e := false, rpn := 0, u := 0, ux := false, sx := false, uw := false, sw := false,
    ur := false, sr := false }

/-- TLB entry 0 after reset (21_mmu.md R342). -/
def TlbEntry.atReset (p : Pins) : TlbEntry :=
  { v := true, iprot := true, tid := 0, ts := false, size := 2, epn := p.rstbase.extractLsb' 8 22, vle := p.rstVlemode,
    w := false, i := true, m := false, g := false, e := p.rstEndmode, rpn := p.rstbase.extractLsb' 8 22, u := 0,
    ux := true, sx := true, uw := true, sw := true, ur := true, sr := true }

/-- The invalid cache line, every field zero. -/
def CacheLine.zero : CacheLine :=
  { tag := 0, valid := false, lock := 0, dirty := 0, data := Vector.replicate 32 0, tagErr := 0,
    dataErr := Vector.replicate 4 0 }

/-- No event. -/
def Ev.none : Ev :=
  { accesses := [], ints := [], devnt := 0, wp := 0, dbcntWritten := 0, ret := Option.none, dataFail := false,
    pmEdges := 0, tbEdges := 0, qualRise := 0, qualFall := 0, snoopDue := 0 }

/-- The inputs of the core in the configuration the model resets in (log entry 11): the defaults of 00_scope.md R8 and R9
where it gives one; every run-time input negated except `p_avec_b`, which is asserted (DESIGN CHOICE: the interrupt inputs
are autovectored). -/
def Pins.default : Pins :=
  { rstbase := 0x3FFFFC00, rstEndmode := false, rstVlemode := false, cpuid := 0, pvrin := 0, sysvers := 0,
    dcrnCdacntl := none, dcrnCdadata := none, memMap := [], resetOnWrs := false, resetOnDbrstc := false,
    snoopLogic := false, speAlign := [], extint := false, critint := false, avec := true,
    voffset := 0, nmi := false, mcp := false, ude := false, devt1 := false, devt2 := false, halt := false, stop := false,
    tbdisable := false, extpidEn := false, extpid := 0, pmEvent := false, pmcQual := 0, xfail := false,
    enOnce := false }

/-- The machine after a power-on reset with the inputs `p` (70_reset_and_hazards.md R2401 to R2403). Registers the
spec states no reset value for are zero (log entries 1 to 9, 12, 13). -/
def State.resetWith (p : Pins) : State :=
  { gpr := Vector.replicate 32 0
    pc := p.rstbase ++ 0#2
    cr := 0, xer := 0, lr := 0, ctr := 0, acc := 0, spefscr := 0, msr := 0, resv := false
    ints :=
      { srr0 := 0, srr1 := 0, csrr0 := 0, csrr1 := 0, dsrr0 := 0, dsrr1 := 0, mcsrr0 := 0, mcsrr1 := 0, esr := 0,
        dear := 0, mcsr := 0, mcar := 0, ivpr := 0, ivor := Vector.replicate 20 0, nmiPend := false,
        handlerFetch := false }
    sprg := { sprg := Vector.replicate 10 0, usprg0 := 0 }
    hid := { pir := 0#24 ++ p.cpuid, hid0 := 0, hid1 := 0, bucsr := 0 }
    tmr := { tb := 0, dec := 0, decar := 0, tcr := 0, tsr := 0 }
    mmu :=
      { pid0 := 0, mas0 := 0, mas1 := 0, mas2 := 0, mas3 := 0, mas4 := 0, mas6 := 0,
        tlb := (Vector.replicate 32 TlbEntry.zero).set 0 (TlbEntry.atReset p) }
    cache :=
      { icache := { lines := [], rp := 0 }, dcache := { lines := [], rp := 0 }, l1csr0 := 0, l1csr1 := 0, l1finv0 := 0,
        l1finv1 := 0, hdbcr0 := 0, cdacntl := 0, cdadata := 0 }
    dbg :=
      { dbcr0 := 0, dbcr1 := 0, dbcr2 := 0, dbcr3 := 0, dbcr4 := 0, dbcr5 := 0, dbcr6 := 0, dbsr := 0x10000000,
        iac := Vector.replicate 8 0, dac1 := 0, dac2 := 0, dvc1 := 0, dvc2 := 0, dbcnt := 0, dberc0 := 0, devent := 0,
        ddam := 0, edbcr0 := 0, edbsr0 := 0, edbsrmsk0 := 0, halted := false, dvcPend := none, cirptDue := false, exiting := false }
    pm :=
      { pmgc0 := 0, pmlca := Vector.replicate 4 0, pmlcb := Vector.replicate 4 0, pmc := Vector.replicate 4 0,
        tbEvent := false }
    psu := { pscr := 0, pssr := 0, pshr := 0, pslr := 0, psctr := 0 }
    pwr := { waiting := false, halted := false, stopped := false }
    mem := []
    buf := Buffers.none
    sync := Sync.none
    pins := p
    env := []
    free := 0
    cur := { vle := false, ir := 0 }
    ev := Ev.none }

/-- The machine right after reset (70_reset_and_hazards.md R2402). -/
def State.reset : State := State.resetWith Pins.default

end Sys2Proof.Machine
end

