-- ==== Sys2Proof/Machine/Ops.lean ====
section
/-! DEFINITION. The named operations over registers and memory bytes, taking an interrupt and returning from one
(spec/60_exceptions.md R2012, R2013, R2015). -/

namespace Sys2Proof.Machine

/-! General registers (10_state.md R50, R51). -/

/-- The 64 bits of a GPR. -/
def State.gprD (s : State) (r : Gpr) : DWord := s.gpr[r.toNat]'r.isLt
/-- The low 32 bits of a GPR: what base, VLE and scalar EFPU instructions read (10_state.md R51). -/
def State.gprW (s : State) (r : Gpr) : Word := loW (s.gprD r)
/-- The high 32 bits of a GPR. -/
def State.gprH (s : State) (r : Gpr) : Word := hiW (s.gprD r)
/-- Write all 64 bits of a GPR. -/
def State.setGprD (s : State) (r : Gpr) (v : DWord) : State := { s with gpr := s.gpr.set r.toNat v r.isLt }
/-- Write the low 32 bits of a GPR; the high 32 bits stay (10_state.md R51). -/
def State.setGprW (s : State) (r : Gpr) (v : Word) : State := s.setGprD r (s.gprH r ++ v)

/-! The program counter (10_state.md R56). -/

/-- The address of the instruction after one of `n` bytes. -/
def State.nextPc (s : State) (n : Nat) : Word := s.pc + BitVec.ofNat 32 n

/-! The condition register (10_state.md R58). -/

/-- The four bits of CR field `n`, LT the most significant. -/
def crField (cr : Word) (n : CrField) : BitVec 4 := (cr >>> (28 - 4 * n.toNat)).extractLsb' 0 4
/-- CR with field `n` replaced. -/
def withCrField (cr : Word) (n : CrField) (v : BitVec 4) : Word :=
  insertBits cr (0xF#32 <<< (28 - 4 * n.toNat)) ((v.zeroExtend 32) <<< (28 - 4 * n.toNat))
/-- Bit `n` of CR, 0 the most significant. -/
def crBit (cr : Word) (n : CrBit) : Bool := cr.getMsbD n.toNat
/-- CR with bit `n` replaced. -/
def withCrBit (cr : Word) (n : CrBit) (b : Bool) : Word := putBits cr (0x80000000#32 >>> n.toNat) b
/-- Write CR field `n`. -/
def State.setCrField (s : State) (n : CrField) (v : BitVec 4) : State := { s with cr := withCrField s.cr n v }

/-! Bits of the MSR, HID0 and XER by name (10_state.md R62, R64, R80). -/

def State.user (s : State) : Bool := s.msr.getLsbD 14
def State.msrUcle (s : State) : Bool := s.msr.getLsbD 26
def State.msrSpe (s : State) : Bool := s.msr.getLsbD 25
def State.msrWe (s : State) : Bool := s.msr.getLsbD 18
def State.msrCe (s : State) : Bool := s.msr.getLsbD 17
def State.msrEe (s : State) : Bool := s.msr.getLsbD 15
def State.msrMe (s : State) : Bool := s.msr.getLsbD 12
def State.msrDe (s : State) : Bool := s.msr.getLsbD 9
def State.msrIs (s : State) : Bool := s.msr.getLsbD 5
def State.msrDs (s : State) : Bool := s.msr.getLsbD 4
def State.msrPmm (s : State) : Bool := s.msr.getLsbD 2
def State.hidEmcp (s : State) : Bool := s.hid.hid0.getLsbD 31
def State.hidIcr (s : State) : Bool := s.hid.hid0.getLsbD 17
def State.hidTben (s : State) : Bool := s.hid.hid0.getLsbD 14
def State.hidDclree (s : State) : Bool := s.hid.hid0.getLsbD 12
def State.hidDclrce (s : State) : Bool := s.hid.hid0.getLsbD 11
def State.hidCiclrde (s : State) : Bool := s.hid.hid0.getLsbD 10
def State.hidMcclrde (s : State) : Bool := s.hid.hid0.getLsbD 9
def State.dapuen (s : State) : Bool := s.hid.hid0.getLsbD 8
def State.hidNopti (s : State) : Bool := s.hid.hid0.getLsbD 0
def State.xerSo (s : State) : Bool := s.xer.getLsbD 31
def State.xerCa (s : State) : Bool := s.xer.getLsbD 29

/-- The implemented bits of the MSR (10_state.md R64). -/
def msrMask : Word := 0x0606FB36#32
/-- The implemented bits of XER (10_state.md R62). -/
def xerMask : Word := 0xE000007F#32

/-! Free values (00_scope.md R15). -/

/-- A free bit, and the state with it drawn. -/
def State.drawBit (s : State) : Bool × State := (Config.freeBit s.free, { s with free := s.free + 1 })
/-- A free number below `n`, and the state with it drawn. -/
def State.drawBelow (s : State) (n : Nat) : Nat × State := (Config.freeNat s.free % n, { s with free := s.free + 1 })

/-! Memory by real address (20_memory.md R201). -/

/-- What a byte that nothing has written reads as (log entry 10). -/
def Memory.unlisted : Byte := 0x00#8
/-- The byte at a real address. -/
def Memory.byte (m : Memory) (a : Nat) : Byte := sparseGet Memory.unlisted m a
/-- Memory with one byte changed. -/
def Memory.put (m : Memory) (a : Nat) (b : Byte) : Memory := sparsePut Memory.unlisted m a b
/-- The canonical form of memory. -/
def Memory.wf (m : Memory) : Bool := sparseWf Memory.unlisted 0 m
/-- `n` bytes from a real address on, addresses modulo 2^32 (20_memory.md R202). -/
def Memory.bytes (m : Memory) (ra : Word) : Nat → List Byte
  | 0 => []
  | n + 1 => m.byte ra.toNat :: Memory.bytes m (ra + 1#32) n
/-- Memory with consecutive bytes changed. -/
def Memory.putBytes (m : Memory) (ra : Word) : List Byte → Memory
  | [] => m
  | b :: t => Memory.putBytes (m.put ra.toNat b) (ra + 1#32) t

/-! Taking an interrupt (60_exceptions.md R2012). -/

/-- The class of an interrupt type (60_exceptions.md R2001). -/
def IntType.cls (t : IntType) : IntClass :=
  match t with
  | .criticalInput => .critical
  | .watchdog => .critical
  | .machineCheck => .machineCheck
  | .debug => .debug
  | .dataStorage => .nonCritical
  | .instrStorage => .nonCritical
  | .externalInput => .nonCritical
  | .alignment => .nonCritical
  | .program => .nonCritical
  | .systemCall => .nonCritical
  | .decrementer => .nonCritical
  | .fixedInterval => .nonCritical
  | .dataTlb => .nonCritical
  | .instrTlb => .nonCritical
  | .speUnavailable => .nonCritical
  | .fpData => .nonCritical
  | .fpRound => .nonCritical
  | .perfMonitor => .nonCritical

/-- Where in `ivor` an interrupt type's vector register stands: IVOR0 to IVOR15 at their number, IVOR32 to IVOR35 at 16
to 19 (60_exceptions.md R2002, R2006). -/
def IntType.ivorIndex (t : IntType) : Fin 20 :=
  match t with
  | .criticalInput => 0
  | .machineCheck => 1
  | .dataStorage => 2
  | .instrStorage => 3
  | .externalInput => 4
  | .alignment => 5
  | .program => 6
  | .systemCall => 8
  | .decrementer => 10
  | .fixedInterval => 11
  | .watchdog => 12
  | .dataTlb => 13
  | .instrTlb => 14
  | .debug => 15
  | .speUnavailable => 16
  | .fpData => 17
  | .fpRound => 18
  | .perfMonitor => 19

/-- The MSR bits an interrupt of a class keeps (60_exceptions.md R2013). -/
def State.keepMask (s : State) (c : IntClass) : Word :=
  match c with
  | .nonCritical => 0x00021202#32
  | .critical => 0x00001002#32 ||| (if s.dapuen && !s.hidCiclrde then 0x200#32 else 0#32)
  | .debug =>
    0x00001002#32 ||| (if s.dapuen && !s.hidDclrce then 0x20000#32 else 0#32) |||
      (if s.dapuen && !s.hidDclree then 0x8000#32 else 0#32)
  | .machineCheck => if s.dapuen && !s.hidMcclrde then 0x200#32 else 0#32

/-- The address of a handler (60_exceptions.md R2006, R2007): an External or Critical Input interrupt that is not
autovectored uses `p_voffset`. -/
def State.vector (s : State) (t : IntType) : Word :=
  let base := s.ints.ivpr &&& 0xFFFF0000#32
  let own := s.ints.ivor.get t.ivorIndex &&& 0x0000FFF0#32
  let off := s.pins.voffset.zeroExtend 32 &&& 0x0000FFF0#32
  match t with
  | .externalInput => base ||| (if s.pins.avec then own else off)
  | .criticalInput => base ||| (if s.pins.avec then own else off)
  | _ => base ||| own

/-- Save the pc and the MSR in the pair of the class (60_exceptions.md R2003, R2012). -/
def State.saveIn (s : State) (c : IntClass) (save : Word) : IntRegs :=
  match c with
  | .nonCritical => { s.ints with srr0 := save, srr1 := s.msr }
  | .critical => { s.ints with csrr0 := save, csrr1 := s.msr }
  | .debug =>
    if s.dapuen then { s.ints with dsrr0 := save, dsrr1 := s.msr } else { s.ints with csrr0 := save, csrr1 := s.msr }
  | .machineCheck => { s.ints with mcsrr0 := save, mcsrr1 := s.msr }

/-- TAKING AN INTERRUPT (60_exceptions.md R2012): save `save` and the MSR, clear MSR bits, go to the handler. A waiting
core leaves the waiting state (62_perfmon_power.md R2351). The syndrome registers are the caller's. -/
def takeInterrupt (t : IntType) (save : Word) (s : State) : State :=
  { s with
    ints := { s.saveIn t.cls save with handlerFetch := true }
    msr := s.msr &&& s.keepMask t.cls
    resv := if s.hidIcr && (t == .externalInput || t == .criticalInput) then false else s.resv
    pwr := { s.pwr with waiting := false }
    ev := { s.ev with ints := t :: s.ev.ints }
    pc := s.vector t }

/-- ESR replaced (60_exceptions.md R2008: the whole register is written). -/
def State.setEsr (s : State) (v : Word) : State := { s with ints := { s.ints with esr := v } }
/-- DEAR replaced (60_exceptions.md R2004). -/
def State.setDear (s : State) (v : Word) : State := { s with ints := { s.ints with dear := v } }
/-- MCSR bits set (60_exceptions.md R2040: hardware only sets bits). -/
def State.orMcsr (s : State) (v : Word) : State := { s with ints := { s.ints with mcsr := s.ints.mcsr ||| v } }
/-- `ESR[VLEMI]` when the instruction came from a VLE page (10_state.md R72). -/
def State.vlemi (s : State) : Word := if s.cur.vle then 0x20#32 else 0#32

/-- A non-critical synchronous interrupt of the instruction at the pc, with its ESR bits and VLEMI. -/
def raiseSync (t : IntType) (esr : Word) (s : State) : State := takeInterrupt t s.pc (s.setEsr (esr ||| s.vlemi))

/-- Illegal Instruction exception (60_exceptions.md R2054). -/
def raiseIllegal (s : State) : State := raiseSync .program 0x08000000#32 s
/-- Privileged Instruction exception (60_exceptions.md R2053). -/
def raisePrivileged (s : State) : State := raiseSync .program 0x04000000#32 s
/-- Trap exception (60_exceptions.md R2055). -/
def raiseTrap (s : State) : State := raiseSync .program 0x02000000#32 s
/-- SPE/EFPU Unavailable interrupt (60_exceptions.md R2064). -/
def raiseSpeUnavailable (s : State) : State := raiseSync .speUnavailable 0x80#32 s
/-- Alignment interrupt (60_exceptions.md R2050): `bits` are `ESR[ST]` and `ESR[SPE]`. -/
def raiseAlignment (ea : Word) (bits : Word) (s : State) : State := raiseSync .alignment bits (s.setDear ea)
/-- System Call interrupt (60_exceptions.md R2057): the saved address is that of the next instruction. -/
def raiseSystemCall (len : Nat) (s : State) : State := takeInterrupt .systemCall (s.nextPc len) (s.setEsr s.vlemi)

/-- Returning (60_exceptions.md R2015): the MSR and the pc from a save/restore pair. -/
def returnFrom (r0 r1 : Word) (s : State) : State := { s with msr := r1 &&& msrMask, pc := r0 &&& 0xFFFFFFFE#32 }

/-! Asynchronous machine check conditions (60_exceptions.md R2035, R2038). -/

/-- Log an address in MCAR unless one is logged (60_exceptions.md R2038); `ea` says it is an effective address. -/
def State.logMcar (s : State) (a : Word) (ea : Bool) : State :=
  if s.ints.mcsr.getLsbD 19 then s
  else { s with ints := { s.ints with mcar := a, mcsr := putBits (s.ints.mcsr ||| 0x00080000#32) 0x00040000#32 ea } }

/-- An asynchronous machine check condition with its address: its MCSR bits are set at once (60_exceptions.md R2035). -/
def State.asyncMcheck (s : State) (bits : Word) (a : Word) (ea : Bool) : State := (s.logMcar a ea).orMcsr bits

/-- An error report machine check of the instruction at the pc (60_exceptions.md R2033, R2040). -/
def errorReport (bits : Word) (s : State) : State := takeInterrupt .machineCheck s.pc (s.orMcsr bits)

/-! Outcomes. -/

/-- What part of an instruction comes to: a value and the state to go on in, an interrupt taken (the whole
instruction's next state), or a stop. -/
inductive Res (α : Type) where
  | ok (a : α) (s : State)
  | exc (s : State)
  | stop (f : Fault)
deriving DecidableEq, Repr

/-- Go on with the value, unless an interrupt or a stop ended the instruction. -/
def Res.andThen {α β : Type} (r : Res α) (k : α → State → Res β) : Res β :=
  match r with
  | .ok a s => k a s
  | .exc s => .exc s
  | .stop f => .stop f

/-- The outcome of an instruction whose parts are done: `k` ends it. -/
def Res.finish {α : Type} (r : Res α) (k : α → State → State) : Host.Outcome State Fault Refusal :=
  match r with
  | .ok a s => .next (k a s)
  | .exc s => .next s
  | .stop f => .fault f

/-- The instruction's effect, unless it is privileged and the mode is user (60_exceptions.md R2053). -/
def privileged (s : State) (k : State → Host.Outcome State Fault Refusal) : Host.Outcome State Fault Refusal :=
  if s.user then .next (raisePrivileged s) else k s

/-- The instruction's effect, unless the SPE APU is unavailable (60_exceptions.md R2064). -/
def speAvail (s : State) (k : State → Host.Outcome State Fault Refusal) : Host.Outcome State Fault Refusal :=
  if s.msrSpe then k s else .next (raiseSpeUnavailable s)

end Sys2Proof.Machine
end

