-- ==== Sys2Proof/Machine/Debug.lean ====
section
/-! DEFINITION. Debug events: ownership, recording, the address and value compares, the counters (spec/61_debug.md R2200 to
R2227; spec/64_external_debug_psu.md R2250 to R2253). -/

namespace Sys2Proof.Machine

/-! Modes and ownership (61_debug.md R2200, R2201). -/

/-- DBCR0[EDM]. -/
def Debug.edm (d : Debug) : Bool := d.dbcr0.getLsbD 31
/-- DBCR0[IDM]. -/
def Debug.idm (d : Debug) : Bool := d.dbcr0.getLsbD 30
/-- Internal or external debug mode. -/
def Debug.active (d : Debug) : Bool := d.edm || d.idm
/-- Debug events and watchpoints can occur: in external debug mode not while OnCE operation is disabled
(64_external_debug_psu.md R2253). -/
def State.debugOn (s : State) : Bool := s.dbg.active && (!s.dbg.edm || s.pins.enOnce)
/-- The resource of the DBERC0 bits `own` is software's. -/
def Debug.softOwns (d : Debug) (own : Word) : Bool :=
  !d.edm || (d.dberc0.getLsbD 30 && d.dberc0 &&& own == own)

/-! The bits of DBSR and EDBSR0 (61_debug.md R2230). -/

def dbIde : Word := 0x80000000#32
def dbUde : Word := 0x40000000#32
def dbIcmp : Word := 0x08000000#32
def dbBrt : Word := 0x04000000#32
def dbIrpt : Word := 0x02000000#32
def dbTrap : Word := 0x01000000#32
def dbRet : Word := 0x00008000#32
def dbDevt1 : Word := 0x00000400#32
def dbDevt2 : Word := 0x00000200#32
def dbDcnt1 : Word := 0x00000100#32
def dbDcnt2 : Word := 0x00000080#32
def dbCirpt : Word := 0x00000040#32
def dbCret : Word := 0x00000020#32
def dbVles : Word := 0x00000010#32

/-- The bit an IAC event of register `n` (0 for IAC1) sets (61_debug.md R2206). -/
def dbIac (n : Nat) : Word := if n < 3 then 0x00800000#32 >>> n else 0x00100000#32
/-- The DBCR0 enable and the DBERC0 bit of IAC register `n` (61_debug.md R2220, R2231). -/
def iacBit (n : Nat) : Word := if n < 4 then 0x00800000#32 >>> n else 0x00004000#32 >>> (n - 4)

/-! Recording an event (61_debug.md R2202; 64_external_debug_psu.md R2253). -/

/-- A change of DBSR by hardware, or of its bits that an `mtspr` clears: it is one of every value that may be in effect (61_debug.md
R2203, log entry 16). -/
def State.mapDbsr (s : State) (f : Word → Word) : State :=
  let g (p : SyncReg × Word) : SyncReg × Word := if p.1 == .dbsr then (p.1, f p.2) else p
  { s with
    dbg := { s.dbg with dbsr := f s.dbg.dbsr }
    sync := { old := s.sync.old.map g, new := s.sync.new.map g } }

/-- Record an enabled event: `own` are the DBERC0 bits of its resource, `bits` its status bits, `vle` whether a VLE
instruction caused it (`none` where VLES is undefined, 93_implementation_defined.md U78), `de` MSR[DE]. VLES is ORed
(92_eei_decisions.md D50). A debug session freezes DBSR, not EDBSR0 (64_external_debug_psu.md R2253, R2260). -/
def State.postEvent (s : State) (own bits : Word) (vle : Option Bool) (de : Bool) : State :=
  let free := match vle with | some _ => s.free | none => s.free + 1
  let vles : Word → Word := fun w =>
    match vle with
    | some v => if v then w ||| dbVles else w
    | none => if Config.freeBit s.free then w ||| dbVles else w
  if s.dbg.softOwns own then
    if s.dbg.idm && !s.dbg.halted then
      { s.mapDbsr (fun w => vles (w ||| bits ||| (if de then 0#32 else dbIde))) with free := free }
    else s
  else { s with dbg := { s.dbg with edbsr0 := vles (s.dbg.edbsr0 ||| bits) }, free := free }

/-- Record an event if its DBCR0 bits `en` are set. -/
def State.postIf (s : State) (en own bits : Word) (vle : Option Bool) (de : Bool) : State :=
  if s.dbg.dbcr0 &&& en != 0#32 then s.postEvent own bits vle de else s

/-- A Debug interrupt is to be taken (61_debug.md R2202); that of a CIRPT event recorded with MSR[DE] = 1 is, where the critical
interrupt has cleared MSR[DE] and the Debug APU is enabled (10_state.md R82, log entry 56). -/
def State.debugPending (s : State) : Bool :=
  s.dbg.dbsr &&& 0xCFFFFFE0#32 != 0#32 && s.dbg.idm && (s.msrDe || s.dbg.cirptDue)

/-- The Debug interrupt (61_debug.md R2202). -/
def takeDebug (s : State) : State :=
  takeInterrupt .debug s.pc { s with dbg := { s.dbg with cirptDue := false } }

/-- Hardware-owned events make the CPU enter debug mode, while OnCE operation is enabled (64_external_debug_psu.md R2252,
R2253). -/
def State.haltPending (s : State) : Bool :=
  s.dbg.edm && s.pins.enOnce && s.dbg.edbsr0 &&& ~~~s.dbg.edbsrmsk0 &&& 0x6FFF87E0#32 != 0#32

/-- The CPU enters debug mode (64_external_debug_psu.md R2260). -/
def State.enterHalt (s : State) : State := { s with dbg := { s.dbg with halted := true } }

/-! Instruction address compares (61_debug.md R2206). -/

/-- The user or supervisor, and the address space, restriction of a compare; the reserved and the unimplemented value
never match (93_implementation_defined.md U50). -/
def spaceOk (f : BitVec 2) (bit : Bool) : Bool :=
  match f.toNat with
  | 0 => true
  | 2 => !bit
  | 3 => bit
  | _ => false

/-- An exact compare with the low `xm` bits masked, of addresses without their `low` lowest bits; reserved values of `xm`
never match. -/
def exactOk (a k : Word) (xm : BitVec 4) (low : Nat) : Bool :=
  decide (xm.toNat ≤ 12) && ((a >>> low ^^^ k >>> low) >>> (xm.toNat - low) == 0#32)

/-- The hits of a pair of compare registers: mode, address, the two registers, the exact hits, the restrictions. -/
def pairHits (m : BitVec 2) (range : Bool) (a ka kb : Word) (exa exb oka okb : Bool) : Bool × Bool :=
  match m.toNat with
  | 0 => (exa && oka, exb && okb)
  | 1 => (a &&& kb == ka &&& kb && oka, false)
  | 2 => (range && decide (ka.toNat ≤ a.toNat ∧ a.toNat < kb.toNat) && oka, false)
  | _ => (range && decide (a.toNat < ka.toNat ∨ kb.toNat ≤ a.toNat) && oka, false)

/-- The US and ER fields of the `n`th register (0 to 3) of DBCR1 or DBCR5. -/
def iacSpace (r : Word) (n : Nat) (pr is : Bool) : Bool :=
  let at' := if n < 2 then 28 - 4 * n else 12 - 4 * (n - 2)
  spaceOk (r.extractLsb' (at' + 2) 2) pr && spaceOk (r.extractLsb' at' 2) is

/-- The hits of registers `n` and `n + 1` (0, 2, 4, 6). -/
def State.iacPair (s : State) (ia : Word) (vle : Bool) (n : Nat) : Bool × Bool :=
  let r := if n < 4 then s.dbg.dbcr1 else s.dbg.dbcr5
  let j := n % 4
  let low := if vle then 1 else 2
  let ka := s.dbg.iac.toList.getD n 0#32
  let kb := s.dbg.iac.toList.getD (n + 1) 0#32
  let xm (k : Nat) : BitVec 4 := s.dbg.dbcr6.extractLsb' (28 - 4 * k) 4
  pairHits (r.extractLsb' (if j = 0 then 22 else 6) 2) (decide (n < 4)) (ia >>> low) (ka >>> low) (kb >>> low)
    (exactOk ia ka (xm n) low) (exactOk ia kb (xm (n + 1)) low)
    (iacSpace r j s.user s.msrIs) (iacSpace r (j + 1) s.user s.msrIs)

/-- The eight instruction address compares of an instruction; none where no debug event can occur. -/
def State.iacHits (s : State) (ia : Word) (vle : Bool) : List Bool :=
  if s.debugOn then
    let p1 := s.iacPair ia vle 0
    let p2 := s.iacPair ia vle 2
    let p3 := s.iacPair ia vle 4
    let p4 := s.iacPair ia vle 6
    [p1.1, p1.2, p2.1, p2.2, p3.1, p3.2, p4.1, p4.2]
  else []

/-- DBCR2[DAC1LNK], DBCR2[DAC2LNK]: IAC1, IAC3 are linked and have no event of their own (61_debug.md R2207). -/
def Debug.linked (d : Debug) (n : Nat) : Bool :=
  if n = 0 then d.dbcr2.getLsbD 21
  else if n = 2 then d.dbcr2.getLsbD 20 && d.dbcr2.extractLsb' 22 2 == 0#2
  else false

/-- Record the IAC events of the registers from `n` on. -/
def State.postIacFrom (s : State) (vle : Bool) : Nat → List Bool → State
  | _, [] => s
  | n, h :: l =>
    let s := if h && !s.dbg.linked n then s.postIf (iacBit n) (iacBit n) (dbIac n) (some vle) s.msrDe else s
    s.postIacFrom vle (n + 1) l

/-! Data address compares (61_debug.md R2207). -/

/-- What the value compare sees of the eight byte lanes from `i` on: enabled and active, equal. -/
def dvcLanes (be : Byte) (dvc : DWord) (ea : Word) (b : List Byte) : Nat → List (Bool × Bool)
  | 0 => []
  | k + 1 =>
    let i := 8 - (k + 1)
    let off := ea.toNat % 8
    let on := be.getLsbD (7 - i) && decide (off ≤ i) && decide (i < off + b.length)
    (on, b.getD (i - off) 0#8 == dvc.extractLsb' (56 - 8 * i) 8) :: dvcLanes be dvc ea b k

/-- One halfword of the lanes matches: at least one enabled lane, all of them equal (92_eei_decisions.md D48). -/
def dvcHalf (l : List (Bool × Bool)) : Bool := l.any Prod.fst && l.all fun p => !p.1 || p.2

/-- The value compare (61_debug.md R2207): inverted or not, mode, byte enables, value, access. With no byte enabled the
inverted compares follow the quantifiers literally (DESIGN CHOICE, log entry 58; 92_eei_decisions.md D48): no event in mode
01, an event in mode 10. -/
def dvcOk (inv : Bool) (m : BitVec 2) (be : Byte) (dvc : DWord) (a : Access) : Bool :=
  let l := dvcLanes be dvc a.ea a.bytes 8
  if m == 0#2 then !inv
  else if inv then
    match m.toNat with
    | 1 => l.any fun p => p.1 && !p.2
    | 2 => l.all fun p => !p.1 || !p.2
    | _ => false
  else if be == 0#8 then true
  else
    match m.toNat with
    | 1 => l.all fun p => !p.1 || p.2
    | 2 => l.any fun p => p.1 && p.2
    | _ => dvcHalf (l.take 2) || dvcHalf ((l.drop 2).take 2) || dvcHalf ((l.drop 4).take 2) || dvcHalf (l.drop 6)

/-- A value compare takes part in DAC1 (0) or DAC2 (1). -/
def Debug.dvcOn (d : Debug) (k : Nat) : Bool := d.dbcr2.extractLsb' (18 - 2 * k) 2 != 0#2

/-- The hits of DAC1 and DAC2 on one access; `failed`: the access was not performed. With a value compare such an access has no
event: 61_debug.md R2207 says so for a Data Storage or Data TLB Error interrupt, and that it holds for a machine check too is the
model's choice (DESIGN CHOICE, log entry 58). -/
def State.dacHits (s : State) (iac : List Bool) (failed : Bool) (a : Access) : Bool × Bool :=
  let d := s.dbg
  let ok (at' : Nat) : Bool :=
    spaceOk (d.dbcr2.extractLsb' (at' + 2) 2) s.user && spaceOk (d.dbcr2.extractLsb' at' 2) s.msrDs
  let h := pairHits (d.dbcr2.extractLsb' 22 2) true a.ea d.dac1 d.dac2
    (exactOk a.ea d.dac1 (d.dbcr4.extractLsb' 12 4) 0) (exactOk a.ea d.dac2 (d.dbcr4.extractLsb' 8 4) 0) (ok 28) (ok 24)
  let v1 := !(failed && d.dvcOn 0) &&
    dvcOk (d.dbcr4.getLsbD 30) (d.dbcr2.extractLsb' 18 2) (d.dbcr2.extractLsb' 8 8) d.dvc1 a
  let v2 := !(failed && d.dvcOn 1) &&
    dvcOk (d.dbcr4.getLsbD 28) (d.dbcr2.extractLsb' 16 2) (d.dbcr2.extractLsb' 0 8) d.dvc2 a
  (h.1 && v1 && (!d.linked 0 || iac.getD 0 false), h.2 && v2 && (!d.linked 2 || iac.getD 2 false))

/-- The DAC compares of an instruction by register and kind. -/
structure DacHits where
  d1r : Bool
  d1w : Bool
  d2r : Bool
  d2w : Bool
deriving DecidableEq, Repr

/-- No compare hit. -/
def DacHits.none : DacHits := ⟨false, false, false, false⟩
/-- Any compare hit. -/
def DacHits.any (h : DacHits) : Bool := h.d1r || h.d1w || h.d2r || h.d2w

/-- The compares of the accesses of an instruction, newest first; `failed` says the newest was not performed. -/
def State.dacAll (s : State) (iac : List Bool) : Bool → List Access → DacHits
  | _, [] => DacHits.none
  | failed, a :: l =>
    let h := s.dacHits iac failed a
    let r := s.dacAll iac false l
    ⟨r.d1r || (h.1 && !a.store), r.d1w || (h.1 && a.store), r.d2r || (h.2 && !a.store), r.d2w || (h.2 && a.store)⟩

/-- The compares of the instruction that `s` ends, none where no debug event can occur. -/
def State.dacOf (s : State) (iac : List Bool) (failed : Bool) (l : List Access) : DacHits :=
  if s.debugOn then s.dacAll iac failed l else DacHits.none

/-- The kinds DBCR0 allows DAC1 (`at' = 18`) or DAC2 (16): stores, loads. -/
def Debug.dacEn (d : Debug) (at' : Nat) (store : Bool) : Bool :=
  if store then d.dbcr0.getLsbD at' else d.dbcr0.getLsbD (at' + 1)

/-- The hits that DBCR0 enables as events. -/
def Debug.dacEvents (d : Debug) (h : DacHits) : DacHits :=
  ⟨h.d1r && d.dacEn 18 false, h.d1w && d.dacEn 18 true, h.d2r && d.dacEn 16 false, h.d2w && d.dacEn 16 true⟩

/-- The hits that count and signal watchpoints: restricted only where DBCR0 enables one kind alone (61_debug.md R2223,
R2236). -/
def Debug.dacCounted (d : Debug) (h : DacHits) : DacHits :=
  let off (at' : Nat) : Bool := !d.dacEn at' false && !d.dacEn at' true
  ⟨h.d1r && (off 18 || d.dacEn 18 false), h.d1w && (off 18 || d.dacEn 18 true),
    h.d2r && (off 16 || d.dacEn 16 false), h.d2w && (off 16 || d.dacEn 16 true)⟩

/-- The status bits of DAC1 and of DAC2 events. -/
def dac1Bits (h : DacHits) : Word := (boolWord h.d1r <<< 19) ||| (boolWord h.d1w <<< 18)
def dac2Bits (h : DacHits) : Word := (boolWord h.d2r <<< 17) ||| (boolWord h.d2w <<< 16)

/-- The DBERC0 bits of DAC1 and DAC2. -/
def ownDac1 : Word := 0x00080000#32
def ownDac2 : Word := 0x00020000#32

/-- DAC_OFST replaced in the status register of software (which records while DBCR0[IDM] = 1), of hardware (61_debug.md
R2213, R2230; 64_external_debug_psu.md R2251). -/
def State.setOfst (s : State) (soft hard : Bool) (v : Word) : State :=
  let t := if soft && s.dbg.idm then s.mapDbsr fun w => insertBits w 0xE#32 v else s
  if hard then { t with dbg := { t.dbg with edbsr0 := insertBits t.dbg.edbsr0 0xE#32 v } } else t

/-- Status bits of an event that all its hits mask in EDBSRMSK0, where hardware owns it (64_external_debug_psu.md R2252). -/
def Debug.masked (d : Debug) (own bits : Word) : Bool := !d.softOwns own && d.edbsrmsk0 &&& bits == bits

/-- Record DAC events; `imprecise` adds IDE; DAC_OFST of the owner is overwritten (61_debug.md R2213, R2230;
92_eei_decisions.md D50). -/
def State.postDac (s : State) (h : DacHits) (imprecise de : Bool) : State :=
  let post (s : State) (own bits : Word) : State :=
    if bits == 0#32 then s
    else
      let ide := if imprecise && !s.dbg.masked own bits then dbIde else 0#32
      let soft := s.dbg.softOwns own
      let s := s.postEvent own (bits ||| ide) (some s.cur.vle) de
      s.setOfst soft (!soft) 0#32
  post (post s ownDac1 (dac1Bits h)) ownDac2 (dac2Bits h)

/-! The counters (61_debug.md R2215, R2226). -/

/-- What happened in a step that the counters and the watchpoints look at. -/
structure DbgEvents where
  iac : List Bool
  dac : DacHits
  devt1 : Bool
  devt2 : Bool
  icmp : Bool
  irpt : Bool
  cirpt : Bool
  ret : Bool
  cret : Bool
deriving DecidableEq, Repr

/-- The events in the positions of DBCR3 (61_debug.md R2223). -/
def DbgEvents.word (e : DbgEvents) : Word :=
  let b (x : Bool) (m : Word) : Word := if x then m else 0#32
  b e.devt1 0x80040080#32 ||| b e.devt2 0x40020040#32 ||| b e.icmp 0x20010000#32 |||
    b (e.iac.getD 0 false) 0x10008020#32 ||| b (e.iac.getD 1 false) 0x08004000#32 |||
    b (e.iac.getD 2 false) 0x04002010#32 ||| b (e.iac.getD 3 false) 0x02001000#32 |||
    b e.dac.d1r 0x01000808#32 ||| b e.dac.d1w 0x00800404#32 ||| b e.dac.d2r 0x00400200#32 |||
    b e.dac.d2w 0x00200100#32 ||| b e.irpt 0x00100000#32 ||| b e.ret 0x00080000#32

/-- The count enables of counter 1 (true) or 2 in the positions of counter 1. -/
def countEnables (dbcr3 : Word) (first : Bool) : Word :=
  if first then dbcr3 &&& 0xFFF80000#32 else (dbcr3 &&& 0x0007FF00#32) <<< 13

/-- A combination of count enables that the source supports (61_debug.md R2226; others are 93_implementation_defined.md
U51). -/
def countsSupported (en : Word) : Bool :=
  en &&& ~~~0x1FE00000#32 == 0#32 || en &&& ~~~0xC0000000#32 == 0#32 || en &&& ~~~0x00180000#32 == 0#32 ||
    en &&& ~~~0x20000000#32 == 0#32

/-- The positions of DBCR3 whose events software owns (61_debug.md R2232). -/
def Debug.ownedCounts (d : Debug) : Word :=
  let iac (n : Nat) : Bool := d.softOwns (iacBit n)
  DbgEvents.word
    { iac := [iac 0, iac 1, iac 2, iac 3]
      dac := ⟨d.softOwns ownDac1, d.softOwns ownDac1, d.softOwns ownDac2, d.softOwns ownDac2⟩
      devt1 := d.softOwns dbDevt1, devt2 := d.softOwns dbDevt2, icmp := d.softOwns dbIcmp, irpt := d.softOwns dbIrpt
      cirpt := false, ret := d.softOwns dbRet, cret := false }

/-- The events of `enables` that software's counter (its DBERC0 bit is `own`) looks at and software does not own
(61_debug.md R2232; 93_implementation_defined.md U51). -/
def Debug.strayCounts (d : Debug) (own enables : Word) : Word :=
  if d.edm && d.softOwns own then enables &&& ~~~d.ownedCounts else 0#32

/-- One count: the new value and whether it reached zero; the value is free where what the counter does is undefined
(93_implementation_defined.md U51). -/
def countDown (undef : Bool) (fw : Word) (v : Word) : Word × Bool :=
  if undef then (fw, fw.getLsbD 31) else if v == 0#32 then (v, false) else (v - 1#32, v == 1#32)

/-- The outcome of counting: the new DBCNT, which counter reached zero, whether counter 1 was triggered. -/
structure Counted where
  dbcnt : Word
  zero1 : Bool
  zero2 : Bool
  trig : Bool
deriving DecidableEq, Repr

/-- What decides the open points of counting: a trigger event is itself counted, a trigger event that software does not own
triggers, the words of counters whose value is undefined. -/
structure CountFree where
  counted : Bool
  strayTrig : Bool
  w1 : Word
  w2 : Word
deriving DecidableEq, Repr

/-- Counting under the controls `dbcr3` with the trigger state `trg`, from the value `cnt` (61_debug.md R2226); `d` says
who owns what. -/
def countStep (d : Debug) (dbcr3 : Word) (trg : Bool) (e : DbgEvents) (f : CountFree) (cnt : Word) : Counted :=
  let ev := e.word
  let joined := dbcr3.getLsbD 0
  let en1 := dbcr3 &&& 0xFFF80000#32
  let en2 := dbcr3 &&& 0x0007FF00#32
  let undef1 := !countsSupported (countEnables dbcr3 true) || d.strayCounts 0x100#32 en1 != 0#32
  let undef2 := !countsSupported (countEnables dbcr3 false) || d.strayCounts 0x80#32 en2 != 0#32
  let c2 := cnt &&& 0xFFFF#32
  let r2 := if !joined && en2 &&& ev != 0#32 then countDown undef2 (f.w2 &&& 0x8000FFFF#32) c2 else (c2, false)
  let enT := dbcr3 &&& 0x000000FC#32
  let stray := d.strayCounts 0x100#32 enT
  let trigNow :=
    enT &&& ~~~stray &&& ev != 0#32 || (stray &&& ev != 0#32 && f.strayTrig) || (dbcr3.getLsbD 1 && r2.2)
  let armed := dbcr3 &&& 0xFE#32 == 0#32 || trg || (trigNow && f.counted)
  let hit1 := armed && en1 &&& ev != 0#32
  if joined then
    let r1 := if hit1 then countDown undef1 f.w1 cnt else (cnt, false)
    ⟨r1.1, r1.2, false, trigNow⟩
  else
    let c1 := cnt >>> 16
    let r1 := if hit1 then countDown undef1 (f.w1 &&& 0x8000FFFF#32) c1 else (c1, false)
    ⟨(r1.1 <<< 16) ||| (r2.1 &&& 0xFFFF#32), r1.2, r2.2, trigNow⟩

/-- CNT1TRG of the owner of counter 1. -/
def Debug.triggered (d : Debug) : Bool :=
  if d.softOwns 0x100#32 then d.dbsr.getLsbD 0 else d.edbsr0.getLsbD 0

/-- Set CNT1TRG of the owner of counter 1. -/
def State.triggerCount (s : State) : State :=
  if s.dbg.softOwns 0x100#32 then s.mapDbsr (· ||| 1#32)
  else { s with dbg := { s.dbg with edbsr0 := s.dbg.edbsr0 ||| 1#32 } }

/-- The counters at the end of a step that began in the debug registers `old` (61_debug.md R2226, R2227): under the old
controls, or, after an `mtspr` that changed them, under either (93_implementation_defined.md U52). `imprecise` adds IDE to
a counter's event (R2213). What an `mtspr` has written of DBCNT stays as written: the bits software owns (R2226, R2227, R2232).
A counter that counts IAC together with DAC events records its event at the end of the same step too, without IDE (DESIGN CHOICE,
log entry 49: R2226 lets it come some instructions later, with IDE). Says whether an event was recorded. -/
def State.countDebug (s : State) (old : Debug) (e : DbgEvents) (imprecise de : Bool) : Bool × State :=
  if !old.active || s.dbg.halted || (old.dbcr3 == 0#32 && s.dbg.dbcr3 == 0#32) then (false, s)
  else
    let changed := old.dbcr3 != s.dbg.dbcr3 || old.dbcr0 != s.dbg.dbcr0
    let useNew := changed && Config.freeBit s.free
    let ctl := if useNew then s.dbg.dbcr3 else old.dbcr3
    let written := s.ev.dbcntWritten
    let cnt := insertBits s.dbg.dbcnt written old.dbcnt
    let f : CountFree :=
      ⟨Config.freeBit (s.free + 1), Config.freeBit (s.free + 4), Config.freeWord (s.free + 2),
        Config.freeWord (s.free + 3)⟩
    let r := countStep old ctl old.triggered e f cnt
    let s := { s with free := s.free + 5 }
    let s := { s with dbg := { s.dbg with dbcnt := insertBits r.dbcnt written s.dbg.dbcnt } }
    let s := if r.trig then s.triggerCount else s
    let en := if useNew then s.dbg.dbcr0 else old.dbcr0
    let wp : BitVec 30 := (if r.zero1 then 0x40#30 else 0#30) ||| (if r.zero2 then 0x80#30 else 0#30)
    let s := { s with ev := { s.ev with wp := s.ev.wp ||| wp } }
    let post (s : State) (own bit : Word) : State :=
      s.postEvent own (if imprecise && !s.dbg.masked own bit then bit ||| dbIde else bit) none de
    let on1 := r.zero1 && en.getLsbD 8
    let on2 := r.zero2 && en.getLsbD 7
    let s := if on1 then post s 0x100#32 dbDcnt1 else s
    (on1 || on2, if on2 then post s 0x80#32 dbDcnt2 else s)

/-- The watchpoints of the debug events (61_debug.md R2236); none in a debug session. -/
def DbgEvents.watchpoints (e : DbgEvents) : BitVec 30 :=
  let b (x : Bool) (n : Nat) : BitVec 30 := if x then 1#30 <<< n else 0#30
  b (e.iac.getD 0 false) 0 ||| b (e.iac.getD 1 false) 1 ||| b (e.iac.getD 2 false) 2 ||| b (e.iac.getD 3 false) 3 |||
    b (e.iac.getD 4 false) 8 ||| b (e.iac.getD 5 false) 9 ||| b (e.iac.getD 6 false) 14 ||| b (e.iac.getD 7 false) 15 |||
    b (e.dac.d1r || e.dac.d1w) 4 ||| b (e.dac.d2r || e.dac.d2w) 5 ||| b e.irpt 16 ||| b e.ret 17 ||| b e.cirpt 18 |||
    b e.cret 19

/-- The watchpoints a write of DEVENT[DEVNT] signals (61_debug.md R2236). -/
def devntWatchpoints (v : Byte) : BitVec 30 :=
  let b (n k : Nat) : BitVec 30 := if v.getLsbD n then 1#30 <<< k else 0#30
  b 0 12 ||| b 1 13 ||| b 2 20 ||| b 3 21

end Sys2Proof.Machine
end

