-- ==== Sys2Proof/Machine/Mmu.lean ====
section
/-! DEFINITION. Address translation, the TLB operations and the storage interrupts (spec/21_mmu.md; spec/60_exceptions.md
R2044, R2046, R2062, R2063). -/

namespace Sys2Proof.Machine

/-- What an access asks of its page (21_mmu.md R308). `either`: execute or read (`icbtls`, `icblc`, 22_cache.md R440). -/
inductive AccessKind where
  | fetch
  | load
  | store
  | either
deriving DecidableEq, Repr

/-- What translation gives an access: its real address, the attributes and the permissions of its page. -/
structure Page where
  ra : Word
  w : Bool
  i : Bool
  m : Bool
  g : Bool
  e : Bool
  vle : Bool
  ux : Bool
  sx : Bool
  uw : Bool
  sw : Bool
  ur : Bool
  sr : Bool
deriving DecidableEq, Repr

/-- The address bits a page size compares (21_mmu.md R304). -/
def pageMask (n : Nat) : Word := 0xFFFFFFFF#32 <<< (10 + n)

/-- The effective page number compared with an address (21_mmu.md R304). -/
def TlbEntry.epnMatch (t : TlbEntry) (ea : Word) : Bool :=
  (ea &&& pageMask t.size.toNat) == ((t.epn ++ 0#10 : Word) &&& pageMask t.size.toNat)

/-- A page size the spec defines (21_mmu.md R321). -/
def TlbEntry.sizeOk (t : TlbEntry) : Bool := decide (t.size.toNat ≤ 22)

/-- The process identifier compared with entry `i`, external override included (21_mmu.md R304, R309). -/
def pidMatch (p : Pins) (i : Nat) (t : TlbEntry) (pid : Byte) : Bool :=
  if p.extpidEn && decide (i ≤ 15) && t.tid.extractLsb' 4 4 == 0xF#4 then
    t.tid.extractLsb' 2 6 == pid.extractLsb' 2 6 &&
      (t.tid.extractLsb' 0 2 == 3#2 || t.tid.extractLsb' 0 2 == p.extpid)
  else t.tid == pid

/-- Entry `i` matches but for its page number (21_mmu.md R304). -/
def spaceMatch (p : Pins) (as : Bool) (pid : Byte) (i : Nat) (t : TlbEntry) : Bool :=
  t.v && t.ts == as && (t.tid == 0#8 || pidMatch p i t pid)

/-- The entries of a list, numbered from `i`, that satisfy `f`. -/
def hitsFrom (f : Nat → TlbEntry → Bool) : Nat → List TlbEntry → List (Nat × TlbEntry)
  | _, [] => []
  | i, t :: l => if f i t then (i, t) :: hitsFrom f (i + 1) l else hitsFrom f (i + 1) l

/-- The TLB entries that match a virtual address (21_mmu.md R304). -/
def State.tlbHits (s : State) (as : Bool) (pid : Byte) (ea : Word) : List (Nat × TlbEntry) :=
  hitsFrom (fun i t => spaceMatch s.pins as pid i t && t.sizeOk && t.epnMatch ea) 0 s.mmu.tlb.toList

/-- Some entry whose page size is undefined could match (93_implementation_defined.md U31). -/
def State.tlbOpen (s : State) (as : Bool) (pid : Byte) : Bool :=
  !(hitsFrom (fun i t => spaceMatch s.pins as pid i t && !t.sizeOk) 0 s.mmu.tlb.toList).isEmpty

/-- The page an entry gives an address (21_mmu.md R305, R344). -/
def TlbEntry.page (t : TlbEntry) (ea : Word) : Page :=
  { ra := ((t.rpn ++ 0#10 : Word) &&& pageMask t.size.toNat) ||| (ea &&& ~~~pageMask t.size.toNat)
    w := t.w, i := t.i, m := t.m, g := t.g, e := t.e, vle := t.vle
    ux := t.ux, sx := t.sx, uw := t.uw, sw := t.sw, ur := t.ur, sr := t.sr }

/-- A free page: real address, attributes and permissions of an access that hits several entries
(93_implementation_defined.md U30). -/
def freePage (n : Nat) : Page :=
  let b := Config.freeWord (n + 1)
  { ra := Config.freeWord n
    w := b.getLsbD 0, i := b.getLsbD 1, m := b.getLsbD 2, g := b.getLsbD 3, e := b.getLsbD 4, vle := b.getLsbD 5
    ux := b.getLsbD 6, sx := b.getLsbD 7, uw := b.getLsbD 8, sw := b.getLsbD 9, ur := b.getLsbD 10, sr := b.getLsbD 11 }

/-- A free page, and the state with it drawn. -/
def State.drawPage (s : State) : Page × State := (freePage s.free, { s with free := s.free + 2 })

/-- The outcome of a lookup by the number of entries that match (21_mmu.md R307). -/
def State.lookupPage (s : State) (hits : List (Nat × TlbEntry)) (ea : Word) : Option Page × State :=
  match hits with
  | [] => (none, s)
  | [h] => (some (h.2.page ea), s)
  | _ => let (p, s) := s.drawPage; (some p, s)

/-- The process identifier (21_mmu.md R306). -/
def State.pid (s : State) : Byte := s.mmu.pid0.extractLsb' 0 8

/-- Translation of an effective address in an address space (21_mmu.md R303 to R307). -/
def State.translate (s : State) (as : Bool) (ea : Word) : Option Page × State :=
  let hits := s.tlbHits as s.pid ea
  if s.tlbOpen as s.pid then
    let (b, s) := s.drawBit
    if b then (let (p, s) := s.drawPage; (some p, s)) else s.lookupPage hits ea
  else s.lookupPage hits ea

/-- The page allows the access (21_mmu.md R308). -/
def Page.allows (p : Page) (user : Bool) (k : AccessKind) : Bool :=
  match k with
  | .fetch => if user then p.ux else p.sx
  | .load => if user then p.ur else p.sr
  | .store => if user then p.uw else p.sw
  | .either => if user then p.ux || p.ur else p.sx || p.sr

/-! The MMU assist registers (21_mmu.md R320 to R325, R340). -/

/-- MAS1 as `tlbre` forms it (21_mmu.md R330). -/
def TlbEntry.mas1 (t : TlbEntry) : Word :=
  (boolWord t.v <<< 31) ||| (boolWord t.iprot <<< 30) ||| (t.tid.zeroExtend 32 <<< 16) ||| (boolWord t.ts <<< 12) |||
    (t.size.zeroExtend 32 <<< 7)
/-- MAS2 as `tlbre` forms it (21_mmu.md R330). -/
def TlbEntry.mas2 (t : TlbEntry) : Word :=
  (t.epn ++ 0#10 : Word) ||| (boolWord t.vle <<< 5) ||| (boolWord t.w <<< 4) ||| (boolWord t.i <<< 3) |||
    (boolWord t.m <<< 2) ||| (boolWord t.g <<< 1) ||| boolWord t.e
/-- MAS3 as `tlbre` forms it (21_mmu.md R330). -/
def TlbEntry.mas3 (t : TlbEntry) : Word :=
  (t.rpn ++ 0#10 : Word) ||| (t.u.zeroExtend 32 <<< 6) ||| (boolWord t.ux <<< 5) ||| (boolWord t.sx <<< 4) |||
    (boolWord t.uw <<< 3) ||| (boolWord t.sw <<< 2) ||| (boolWord t.ur <<< 1) ||| boolWord t.sr

/-- The entry that MAS1, MAS2 and MAS3 describe (21_mmu.md R331). -/
def TlbEntry.ofMas (m1 m2 m3 : Word) : TlbEntry :=
  { v := m1.getLsbD 31, iprot := m1.getLsbD 30, tid := m1.extractLsb' 16 8, ts := m1.getLsbD 12
    size := m1.extractLsb' 7 5, epn := m2.extractLsb' 10 22, vle := m2.getLsbD 5, w := m2.getLsbD 4, i := m2.getLsbD 3
    m := m2.getLsbD 2, g := m2.getLsbD 1, e := m2.getLsbD 0, rpn := m3.extractLsb' 10 22, u := m3.extractLsb' 6 4
    ux := m3.getLsbD 5, sx := m3.getLsbD 4, uw := m3.getLsbD 3, sw := m3.getLsbD 2, ur := m3.getLsbD 1
    sr := m3.getLsbD 0 }

/-- MAS0 with TLBSEL and ESEL replaced. -/
def mas0With (mas0 : Word) (tlbsel : BitVec 2) (esel : BitVec 5) : Word :=
  (mas0 &&& 0x0000001F#32) ||| (tlbsel.zeroExtend 32 <<< 28) ||| (esel.zeroExtend 32 <<< 16)

/-- The defaults a miss loads into MAS0, MAS1, MAS2 and MAS3 (21_mmu.md R332, R340). -/
def Mmu.loadDefaults (m : Mmu) (valid : Bool) (tid : Byte) (as : Bool) (ea : Word) : Mmu :=
  { m with
    mas0 := mas0With m.mas0 (m.mas4.extractLsb' 28 2) (m.mas0.extractLsb' 0 5)
    mas1 := (boolWord valid <<< 31) ||| (tid.zeroExtend 32 <<< 16) ||| (boolWord as <<< 12) ||| (m.mas4 &&& 0x00000F80#32)
    mas2 := (ea &&& 0xFFFFFC00#32) ||| (m.mas4 &&& 0x0000003F#32)
    mas3 := 0#32 }

/-- What a TLB miss writes to the MAS registers (21_mmu.md R340); the TID of a reserved TIDSELD is free
(93_implementation_defined.md U33). -/
def State.missMas (s : State) (as : Bool) (ea : Word) : State :=
  let sel := s.mmu.mas4.extractLsb' 16 2
  let tid : Byte := if sel == 0#2 then s.pid else if sel == 3#2 then 0#8 else (Config.freeWord s.free).extractLsb' 0 8
  let m := s.mmu.loadDefaults true tid as ea
  { s with
    mmu := { m with mas6 := (s.pid.zeroExtend 32 <<< 16) ||| boolWord as }
    free := if sel == 0#2 || sel == 3#2 then s.free else s.free + 1 }

/-! The storage interrupts. -/

/-- Data TLB Error interrupt (60_exceptions.md R2062): `bits` are `ESR[ST]` and `ESR[SPE]`. -/
def raiseDataTlb (ea : Word) (bits : Word) (s : State) : State :=
  raiseSync .dataTlb bits ((s.missMas s.msrDs ea).setDear ea)
/-- Data Storage interrupt for access control or byte ordering (60_exceptions.md R2044). -/
def raiseDsi (ea : Word) (bits : Word) (s : State) : State := raiseSync .dataStorage bits (s.setDear ea)
/-- Data Storage interrupt for cache locking (60_exceptions.md R2044): DEAR stays. -/
def raiseLockDsi (bits : Word) (s : State) : State := raiseSync .dataStorage bits s
/-- Instruction TLB Error interrupt (60_exceptions.md R2063): `missEa` is the address that missed, `mif` the second half
of a straddling instruction. -/
def raiseInstrTlb (missEa : Word) (mif : Bool) (s : State) : State :=
  takeInterrupt .instrTlb s.pc ((s.missMas s.msrIs missEa).setEsr (if mif then 0x2#32 else 0#32))
/-- Instruction Storage interrupt (60_exceptions.md R2046): `bits` are `ESR[BO]`, `ESR[MIF]`, `ESR[VLEMI]`. -/
def raiseIsi (bits : Word) (s : State) : State := takeInterrupt .instrStorage s.pc (s.setEsr bits)

/-! The TLB management operations (21_mmu.md R313, R330 to R333). -/

/-- The entry `MAS0[ESEL]` names. -/
def Mmu.esel (m : Mmu) : Fin 32 := (m.mas0.extractLsb' 16 5).toFin

/-- `tlbre` (21_mmu.md R330). -/
def Mmu.readEntry (m : Mmu) : Mmu :=
  let t := m.tlb.get m.esel
  { m with mas1 := t.mas1, mas2 := t.mas2, mas3 := t.mas3 }

/-- `tlbwe` (21_mmu.md R331). -/
def Mmu.writeEntry (m : Mmu) : Mmu :=
  { m with tlb := m.tlb.set m.esel.val (TlbEntry.ofMas m.mas1 m.mas2 m.mas3) m.esel.isLt }

/-- A search hit on entry `i` (21_mmu.md R332). -/
def Mmu.searchHit (m : Mmu) (i : Nat) (t : TlbEntry) : Mmu :=
  { m with mas0 := mas0With m.mas0 1#2 (BitVec.ofNat 5 i), mas1 := t.mas1, mas2 := t.mas2, mas3 := t.mas3 }

/-- A search miss (21_mmu.md R332). -/
def Mmu.searchMiss (m : Mmu) (ea : Word) : Mmu :=
  m.loadDefaults false (m.mas6.extractLsb' 16 8) (m.mas6.getLsbD 0) ea

/-- A search by the number of entries that match; which of several is reported is free (93_implementation_defined.md
U30). -/
def State.searchBy (s : State) (hits : List (Nat × TlbEntry)) (ea : Word) : State :=
  match hits with
  | [] => { s with mmu := s.mmu.searchMiss ea }
  | [(i, t)] => { s with mmu := s.mmu.searchHit i t }
  | _ =>
    let k : BitVec 5 := BitVec.ofNat 5 (Config.freeNat s.free)
    { s with mmu := s.mmu.searchHit k.toNat (s.mmu.tlb.get k.toFin), free := s.free + 1 }

/-- `tlbsx` of an address (21_mmu.md R332): an entry of undefined size may or may not match
(93_implementation_defined.md U31). -/
def State.tlbSearch (s : State) (ea : Word) : State :=
  let pid := s.mmu.mas6.extractLsb' 16 8
  let as := s.mmu.mas6.getLsbD 0
  let all := hitsFrom (fun i t => spaceMatch s.pins as pid i t && (!t.sizeOk || t.epnMatch ea)) 0 s.mmu.tlb.toList
  if s.tlbOpen as pid then
    let (b, s) := s.drawBit
    s.searchBy (if b then all else s.tlbHits as pid ea) ea
  else s.searchBy (s.tlbHits as pid ea) ea

/-- A list with `f` applied to each element and its number, from `i`. -/
def mapFrom {α : Type} (f : Nat → α → α) : Nat → List α → List α
  | _, [] => []
  | i, a :: l => f i a :: mapFrom f (i + 1) l

theorem length_mapFrom {α : Type} (f : Nat → α → α) (i : Nat) (l : List α) : (mapFrom f i l).length = l.length := by
  induction l generalizing i with
  | nil => rfl
  | cons a l ih => simp [mapFrom, ih]

/-- A vector with `f` applied to each element and its number. -/
def vmap {α : Type} {n : Nat} (f : Nat → α → α) (v : Vector α n) : Vector α n :=
  ⟨(mapFrom f 0 v.toList).toArray, by simp [length_mapFrom]⟩

/-- The TLB with the unprotected entries that satisfy `f` made invalid (21_mmu.md R333, R341). -/
def Mmu.invalidate (m : Mmu) (f : Nat → TlbEntry → Bool) : Mmu :=
  { m with tlb := vmap (fun i t => if !t.iprot && f i t then { t with v := false } else t) m.tlb }

/-- `tlbivax` of a command word (21_mmu.md R333). Whether an entry of undefined size matches is free
(93_implementation_defined.md U31). -/
def State.tlbInvalidate (s : State) (ea : Word) : State :=
  { s with
    mmu := s.mmu.invalidate fun i t =>
      ea.getLsbD 2 || (t.v && (if t.sizeOk then t.epnMatch ea else Config.freeBit (s.free + i)))
    free := s.free + 32 }

/-- The flash invalidation that `MMUCSR0[TLB1_FI]` starts (21_mmu.md R313). -/
def Mmu.flashInvalidate (m : Mmu) : Mmu := m.invalidate fun _ _ => true

end Sys2Proof.Machine
end

