-- ==== Sys2Proof/Machine/Cache.lean ====
section
/-! DEFINITION. The cache arrays: lookup with its error actions, fills, pushes and the operations by set and way
(spec/22_cache.md; spec/23_cache_errors_coherency.md; spec/60_exceptions.md R2036, R2037). -/

namespace Sys2Proof.Machine

/-- Which of the two caches. -/
inductive Side where
  | instr
  | data
deriving DecidableEq, Repr

/-- What a lookup is for: the error rules differ (23_cache_errors_coherency.md R462 to R466). `fetch`; `access`: load,
store; `alloc`: `dcbz` and the lock-set instructions; `atomic`: the reservation instructions; `clean`: `dcbst`; `flush`:
`dcbf`; `unlock`: `dcblc`, `icblc`; `discard`: `dcbi`; `purge`: `icbi`. -/
inductive LookOp where
  | fetch
  | access
  | alloc
  | atomic
  | clean
  | flush
  | unlock
  | discard
  | purge
deriving DecidableEq, Repr

/-- The outcome of a lookup: a hit in a way, a miss, a machine check (with a lock error), two ways hit. -/
inductive Look where
  | hit (w : Nat)
  | miss
  | mc (lk : Bool)
  | many
deriving DecidableEq, Repr

/-! Reading the control registers (22_cache.md R410, R412). -/

def State.cacheOf (s : State) (side : Side) : Cache :=
  match side with | .instr => s.cache.icache | .data => s.cache.dcache
def State.setCache (s : State) (side : Side) (c : Cache) : State :=
  match side with
  | .instr => { s with cache := { s.cache with icache := c } }
  | .data => { s with cache := { s.cache with dcache := c } }
/-- L1CSR1 or L1CSR0. -/
def State.l1csr (s : State) (side : Side) : Word :=
  match side with | .instr => s.cache.l1csr1 | .data => s.cache.l1csr0
/-- Set bits of L1CSR1 or L1CSR0 (the status bits hardware sets). -/
def State.setCsrBits (s : State) (side : Side) (bits : Word) : State :=
  match side with
  | .instr => { s with cache := { s.cache with l1csr1 := s.cache.l1csr1 ||| bits } }
  | .data => { s with cache := { s.cache with l1csr0 := s.cache.l1csr0 ||| bits } }
/-- ICE, DCE. -/
def State.cacheOn (s : State) (side : Side) : Bool := (s.l1csr side).getLsbD 0
/-- ICECE, DCECE. ICEDT and DCEDT are never looked at: 00 defaults to 01 (22_cache.md R410, R412), and the reserved values 1x
act as 01 too (DESIGN CHOICE, log entry 30). -/
def State.checkOn (s : State) (side : Side) : Bool := (s.l1csr side).getLsbD 16
/-- ICEA, DCEA is 01. The reserved values 1x act as 00, a machine check (DESIGN CHOICE, log entry 30). -/
def State.autoFix (s : State) (side : Side) : Bool := (s.l1csr side).extractLsb' 5 2 == 1#2
/-- ICEI, DCEI, whatever ICEDT is: 00 defaults to 01, and the reserved values 1x inject as 01 does too (DESIGN CHOICE, log
entry 30). -/
def State.inject (s : State) (side : Side) : Bool := (s.l1csr side).getLsbD 15
/-- WID, WDD of a way. -/
def State.wayOff (s : State) (side : Side) (w : Nat) : Bool :=
  match side with | .instr => s.cache.l1csr0.getLsbD (31 - w) | .data => s.cache.l1csr0.getLsbD (27 - w)
/-- DCWM = 0: writethrough mode. -/
def State.writeThrough (s : State) : Bool := !s.cache.l1csr0.getLsbD 20
/-- The MCSR bits of a tag error: IC_TPERR or DC_TPERR, with IC_LKERR or DC_LKERR (60_exceptions.md R2037). -/
def tagErrorBits (side : Side) (lk : Bool) : Word :=
  match side with
  | .instr => 0x04000000#32 ||| (if lk then 0x01000000#32 else 0#32)
  | .data => 0x02000000#32 ||| (if lk then 0x00800000#32 else 0#32)
/-- The MCSR bit of a read bus error: BUS_IRERR or BUS_DRERR. -/
def readErrorBit (side : Side) : Word := match side with | .instr => 0x10#32 | .data => 0x8#32
/-- The MCSR bit of a data array error: IC_DPERR or DC_DPERR. -/
def dataErrorBit (side : Side) : Word := match side with | .instr => 0x40000000#32 | .data => 0x10000000#32
/-- IC_LKERR or DC_LKERR. -/
def lockErrorBit (side : Side) : Word := match side with | .instr => 0x01000000#32 | .data => 0x00800000#32

/-! Lines (22_cache.md R401, R402). -/

/-- The set an effective address selects. -/
def setOf (ea : Word) : Nat := (ea.extractLsb' 5 7).toNat
/-- The tag of a real address. -/
def tagOf (ra : Word) : BitVec 22 := ra.extractLsb' 10 22
/-- A line of a cache. -/
def Cache.line (c : Cache) (set w : Nat) : CacheLine := sparseGet CacheLine.zero c.lines (set * 4 + w)
/-- A cache with one line changed. -/
def Cache.put (c : Cache) (set w : Nat) (l : CacheLine) : Cache :=
  { c with lines := sparsePut CacheLine.zero c.lines (set * 4 + w) l }
/-- The lines of a set with their ways. -/
def Cache.ways (c : Cache) (set : Nat) : List (Nat × CacheLine) :=
  [(0, c.line set 0), (1, c.line set 1), (2, c.line set 2), (3, c.line set 3)]
/-- A cache with every line of a set changed. -/
def Cache.mapSet (c : Cache) (set : Nat) (f : CacheLine → CacheLine) : Cache :=
  (c.ways set).foldl (fun c p => c.put set p.1 (f p.2)) c
/-- The real address a line's bytes belong to (22_cache.md R433). -/
def lineAddr (set : Nat) (l : CacheLine) : Word := (l.tag ++ 0#10 : Word) ||| (BitVec.ofNat 32 (set % 32) <<< 5)

/-- How many bits of a list are set. -/
def countTrue (l : List Bool) : Nat := (l.filter id).length
/-- How many of the four copies of the lock bit are set. -/
def CacheLine.lockCount (l : CacheLine) : Nat :=
  countTrue [l.lock.getLsbD 0, l.lock.getLsbD 1, l.lock.getLsbD 2, l.lock.getLsbD 3]
/-- The tag has an EDC error. -/
def CacheLine.tagBad (l : CacheLine) : Bool := l.tagErr != 0#6
/-- The copies of the lock bit disagree. -/
def CacheLine.lockBad (l : CacheLine) : Bool := l.lock != 0#4 && l.lock != 0xF#4
/-- The copies of the dirty bit disagree. -/
def CacheLine.dirtyBad (l : CacheLine) : Bool := l.dirty != 0#3 && l.dirty != 7#3
/-- Locked or possibly locked. -/
def CacheLine.lockedAny (l : CacheLine) : Bool := l.lock != 0#4
/-- Dirty or possibly dirty. -/
def CacheLine.dirtyAny (l : CacheLine) : Bool := l.dirty != 0#3
/-- The line is valid and holds the tag. -/
def CacheLine.here (l : CacheLine) (tag : BitVec 22) : Bool := l.valid && l.tag == tag
/-! The code of the tag check bits (23_cache_errors_coherency.md R470, log entry 33). Each of the 23 bits of a tag and its
valid bit has a column of six check bits; a code that locates single errors and detects double ones has distinct columns
of odd weight, those of weight one being the check bits themselves. -/

/-- The columns of odd weight above one. -/
def tagPool : List (BitVec 6) :=
  ((List.range 64).map (BitVec.ofNat 6)).filter fun c =>
    let n := countTrue [c.getLsbD 0, c.getLsbD 1, c.getLsbD 2, c.getLsbD 3, c.getLsbD 4, c.getLsbD 5]
    n == 3 || n == 5

/-- Columns taken one after the other out of a pool, as the parameter `Config.tagPick` says. -/
def pickColumns : Nat → List (BitVec 6) → List (BitVec 6)
  | 0, _ => []
  | k + 1, pool =>
    let i := Config.tagPick k % pool.length
    pool.getD i 0#6 :: pickColumns k (pool.eraseIdx i)

/-- The columns of the valid bit (first) and of the 22 bits of the tag, lowest first. -/
def tagColumns : List (BitVec 6) := pickColumns 23 tagPool

/-- The check bits of a tag and its valid bit, the parameter `tchk`. -/
def tagCheck (tag : BitVec 22) (v : Bool) : BitVec 6 :=
  let on (j : Nat) : Bool := if j = 0 then v else tag.getLsbD (j - 1)
  (List.range 23).foldl (fun c j => if on j then c ^^^ tagColumns.getD j 0#6 else c) Config.tagPolarity

/-- What an error pattern of the check bits corrects: the bits of the tag and, lowest, the valid bit that are wrong (none
of them where a check bit itself is); `none` for an error that cannot be located. -/
def tagFix (e : BitVec 6) : Option (BitVec 23) :=
  if countTrue [e.getLsbD 0, e.getLsbD 1, e.getLsbD 2, e.getLsbD 3, e.getLsbD 4, e.getLsbD 5] = 1 then some 0#23
  else (tagColumns.findIdx? (· == e)).map fun j => 1#23 <<< j

/-- An auto-invalidated line: the lock copies stay (23_cache_errors_coherency.md R463, R464); the tag is stored again
with its check bits (log entry 46). -/
def CacheLine.drop (l : CacheLine) : CacheLine := { l with valid := false, tagErr := 0 }
/-- A line invalidated and unlocked: by a snoop, or by command 00 of L1FINV0 (22_cache.md R433). -/
def CacheLine.release (l : CacheLine) : CacheLine := { l with valid := false, tagErr := 0, lock := 0 }
/-- A line invalidated by an instruction or a command: its lock and dirty bits are cleared. -/
def CacheLine.discard (l : CacheLine) : CacheLine := { l with valid := false, tagErr := 0, lock := 0, dirty := 0 }

/-- Correction of what is correctable in a line (23_cache_errors_coherency.md R463, R464, R470): the tag, a single lock
bit, and the dirty bits, which all become 1. -/
def CacheLine.repair (l : CacheLine) : CacheLine :=
  let l :=
    match (if l.tagErr == 0#6 then none else tagFix l.tagErr) with
    | none => l
    | some m => { l with tag := l.tag ^^^ m.extractLsb' 1 22, valid := Bool.xor l.valid (m.getLsbD 0), tagErr := 0 }
  let l := if l.lockCount == 1 then { l with lock := 0 } else if l.lockCount == 3 then { l with lock := 0xF } else l
  if l.dirtyBad then { l with dirty := 7 } else l

/-! Lookup (22_cache.md R402; 23_cache_errors_coherency.md R461 to R467). -/

/-- The outcome by the number of ways that hit; two ways are 93_implementation_defined.md U43. -/
def hitWay (ws : List (Nat × CacheLine)) : Look :=
  match ws with | [] => .miss | [(w, _)] => .hit w | _ => .many

/-- The operations that may fill a line: their cacheable miss looks at lock errors. -/
def LookOp.fills (op : LookOp) : Bool := [LookOp.fetch, .access, .alloc].contains op

/-- The operations whose miss may invalidate locked lines in auto-invalidation mode. -/
def LookOp.dropsLocked (op : LookOp) : Bool := op.fills || op == .unlock

/-- The operations that invalidate a line and never are a machine check. -/
def LookOp.drops (op : LookOp) : Bool := op == .discard || op == .purge

/-- A line with an uncorrectable tag error that makes the operation a machine check when nothing hits. For a reservation access a
line that may be dirty does, also with CEA = 00, as 23_cache_errors_coherency.md R462 and 60_exceptions.md R2037 say; the
condensed rows of R2036 do not name that condition (DEDUCED, log entry 65). -/
def LookOp.blames (op : LookOp) (l : CacheLine) : Bool :=
  let dirtyMatters := [LookOp.atomic, .clean, .flush].contains op
  let lockMatters := [LookOp.flush, .unlock].contains op
  op.fills || (dirtyMatters && l.dirtyAny) || (lockMatters && l.lockedAny)

/-- The ways of a set that hit without a tag error. -/
def Cache.goodWays (c : Cache) (set : Nat) (tag : BitVec 22) : List (Nat × CacheLine) :=
  (c.ways set).filter fun p => p.2.here tag && !p.2.tagBad
/-- The lines of a set with a tag error. -/
def Cache.badLines (c : Cache) (set : Nat) : List CacheLine := ((c.ways set).map Prod.snd).filter CacheLine.tagBad

/-- Some line of the set has a lock error, and the operation may fill: on a cacheable miss it is a lock error machine check
(23_cache_errors_coherency.md R464). -/
def Cache.lockLost (c : Cache) (op : LookOp) (set : Nat) : Bool := op.fills && (c.ways set).any fun p => p.2.lockBad
/-- Such a miss, whatever other error the set has: the clean lines with a lock error are invalidated
(23_cache_errors_coherency.md R464). -/
def Cache.dropLockBad (c : Cache) (op : LookOp) (set : Nat) : Cache :=
  if c.lockLost op set then c.mapSet set fun l => if l.lockBad && !l.dirtyAny then l.drop else l else c

/-- The end of a lookup that checks for errors: `c` is the cache after a correction cycle, if one was run. With CEA = 00 a `dcbf`
that hits only a clean, unlocked line with a tag error is a miss and leaves that line valid (DESIGN CHOICE, log entry 64:
23_cache_errors_coherency.md R466 names no machine check for it and does not say what becomes of the line). -/
def Cache.judge (c : Cache) (auto ci : Bool) (op : LookOp) (set : Nat) (tag : BitVec 22) : Look × Cache :=
  match hitWay (c.goodWays set tag) with
  | .hit w => (.hit w, c)
  | .many => (.many, c)
  | .mc lk => (.mc lk, c)
  | .miss =>
    if op.drops then
      (if auto then .miss
        else hitWay ((c.ways set).filter fun p => p.2.here tag && p.2.tagBad && !p.2.dirtyAny && !p.2.lockedAny), c)
    else if ci then (.miss, c)
    else
      let blamed := (c.badLines set).filter op.blames
      if !blamed.isEmpty then
        (.mc (c.lockLost op set || (op != .fetch && blamed.any CacheLine.lockBad)), c.dropLockBad op set)
      else if c.lockLost op set then (.mc true, c.dropLockBad op set)
      else (.miss, c)

/-- The lines auto-invalidation drops (23_cache_errors_coherency.md R463, R464, R466): an uncorrectable tag error on a
clean line that is not locked, or on any clean line when the operation misses and may drop locked lines. -/
def dropped (missing : Bool) (op : LookOp) (l : CacheLine) : Bool :=
  l.tagBad && !l.dirtyAny && (!l.lockedAny || (missing && op.dropsLocked))

/-- A lookup: its outcome, and the cache after the correction and auto-invalidation it makes. `check`: error checking is
on; `auto`: errors are corrected (CEA = 01); `ci`: the access is cache-inhibited. A line that is invalidated counts as one that was
locked, or had a lock error, by its lock copies after the correction cycle: that a single-bit lock error which this cycle corrects
to unlocked is no machine check is the model's choice (DESIGN CHOICE, log entry 68; 23_cache_errors_coherency.md R463, R464). -/
def Cache.lookup (c : Cache) (check auto ci : Bool) (op : LookOp) (set : Nat) (tag : BitVec 22) : Look × Cache :=
  if !check then (hitWay ((c.ways set).filter fun p => p.2.here tag), c)
  else if auto then
    let r := c.mapSet set CacheLine.repair
    let missing := (r.goodWays set tag).isEmpty && !ci
    if op == .purge && ((r.ways set).all fun p => !p.2.here tag) then (.miss, c)
    else
      let lost := (r.ways set).any fun p => dropped missing op p.2 && p.2.lockedAny
      let kept := r.mapSet set fun l => if dropped missing op l then l.drop else l
      if lost then (.mc true, if missing then kept.dropLockBad op set else kept) else kept.judge auto ci op set tag
  else if (op == .access || op == .fetch) && !ci && !(c.badLines set).isEmpty then
    let missing := (c.goodWays set tag).isEmpty
    (.mc ((missing && c.lockLost op set) || (op == .access && (c.badLines set).any CacheLine.lockBad)),
      if missing then c.dropLockBad op set else c)
  else c.judge auto ci op set tag

/-- A lookup in one of the machine's caches by effective and real address. -/
def State.lookup (s : State) (side : Side) (ci : Bool) (op : LookOp) (ea ra : Word) : Look × State :=
  let r := (s.cacheOf side).lookup (s.checkOn side) (s.autoFix side) ci op (setOf ea) (tagOf ra)
  (r.1, s.setCache side r.2)

/-! Memory as the bus reaches it. -/

/-- The range of the memory map that holds a real address (92_eei_decisions.md D58). -/
def State.region (s : State) (ra : Word) : Option Region :=
  (s.pins.memMap.find? fun r => decide (r.first ≤ ra) && decide (ra ≤ r.last)).map MapRange.kind

/-- The real address answers with a bus error (92_eei_decisions.md D58). -/
def State.busErr (s : State) (ra : Word) : Bool := s.region ra == some .busError

/-- The real address belongs to a device (20_memory.md R225): what it answers is free, and what is written there changes no
byte of memory (log entry 35). -/
def State.onDevice (s : State) (ra : Word) : Bool := s.region ra == some .device

/-- Something holds of one of `n` addresses from `ra` on (20_memory.md R202). -/
def anyFrom (f : Word → Bool) (ra : Word) : Nat → Bool
  | 0 => false
  | n + 1 => f ra || anyFrom f (ra + 1#32) n

/-- A transfer of `n` bytes ends in a bus error: one of its bytes does. -/
def State.busErrIn (s : State) (ra : Word) (n : Nat) : Bool := anyFrom s.busErr ra n

/-- The bytes that cells hold for a real address. -/
def cellsAt (l : List Host.Cell) (ra : Word) : List Byte := (l.filter fun c => c.1 == ra.toNat).map Prod.snd

/-- The older bytes that an instruction fetch of a real address may still read (20_memory.md R246). -/
def Buffers.olds (b : Buffers) (ra : Word) : List Byte := cellsAt b.stale ra

/-- Bytes from a real address on, of which each may be an older one of `l` instead, by a free choice (20_memory.md R246;
22_cache.md R434); the first is byte `k`, `n` is where the free values begin. -/
def seenBytes (n : Nat) (l : List Host.Cell) (k : Nat) (ra : Word) : List Byte → List Byte
  | [] => []
  | m :: t =>
    (match cellsAt l ra with
      | [] => m
      | o :: r => (m :: o :: r).getD (Config.freeNat (n + k) % (r.length + 2)) m) :: seenBytes n l (k + 1) (ra + 1#32) t

/-- There is an older byte for one of `n` addresses. -/
def anyOlder (l : List Host.Cell) (ra : Word) (n : Nat) : Bool := anyFrom (fun a => !(cellsAt l a).isEmpty) ra n

/-- `n` free values drawn, if any are needed. -/
def State.drawIf (s : State) (b : Bool) (n : Nat) : State := if b then { s with free := s.free + n } else s

/-- Byte `k` of what the bus answers a read with. -/
def State.busByte (s : State) (k : Nat) (ra : Word) : Byte :=
  if s.onDevice ra then Config.freeByte s.free k else s.mem.byte ra.toNat

/-- The bytes the bus answers a read with, the first being byte `k`. -/
def State.busBytes (s : State) (k : Nat) (ra : Word) : Nat → List Byte
  | 0 => []
  | n + 1 => s.busByte k ra :: s.busBytes (k + 1) (ra + 1#32) n
/-- The state once such a read is done: what a device answers is free. -/
def State.drawBus (s : State) (ra : Word) (n : Nat) : State := s.drawIf (anyFrom s.onDevice ra n) n

/-! Writing memory, and the store buffer (22_cache.md R429). -/

/-- Memory with bytes written where it is RAM. -/
def State.putRam (s : State) (m : Memory) (ra : Word) : List Byte → Memory
  | [] => m
  | b :: t => s.putRam (if s.onDevice ra then m else m.put ra.toNat b) (ra + 1#32) t

/-- The bytes of memory that a write changes, as they are before it. -/
def State.changed (s : State) (ra : Word) : List Byte → List Host.Cell
  | [] => []
  | b :: t =>
    let l := s.changed (ra + 1#32) t
    if s.onDevice ra || s.mem.byte ra.toNat == b then l else (ra.toNat, s.mem.byte ra.toNat) :: l

/-- The real address is one of `n` from `ra` on. -/
def inRange (ra : Word) (n : Nat) (c : Host.Cell) : Bool := anyFrom (fun a => a.toNat == c.1) ra n

/-- The entries of the store buffer with bytes that are written in memory from now on whatever becomes of the entries. -/
def Buffers.settle (b : Buffers) (ra : Word) (n : Nat) : Buffers :=
  { b with entries := b.entries.map fun e => { e with old := e.old.filter fun c => !inRange ra n c } }

/-- The entries a buffered store takes: one for up to four bytes, two for more (22_cache.md R429), the last one first. -/
def State.newEntries (s : State) (ra : Word) (b : List Byte) : List StoreEntry :=
  if b.length ≤ 4 then [⟨ra, s.changed ra b⟩]
  else [⟨ra + 4#32, s.changed (ra + 4#32) (b.drop 4)⟩, ⟨ra, s.changed ra (b.take 4)⟩]

/-- Cells put before others that are not among them. -/
def addCells (l m : List Host.Cell) : List Host.Cell := l.filter (fun c => !m.contains c) ++ m

/-- Older bytes that a fetch may still read, none twice; no `msync` has waited for them (22_cache.md R434). -/
def Buffers.addStale (b : Buffers) (l : List Host.Cell) : Buffers :=
  { b with stale := addCells l b.stale, unsynced := addCells l b.unsynced }

/-- Bytes of memory that have been replaced: the instruction cache may have taken them in, too. -/
def Buffers.addReplaced (b : Buffers) (l : List Host.Cell) : Buffers := { b.addStale l with unpurged := addCells l b.unpurged }

/-- A linefill of data waits for the buffered stores of its index and those before them (22_cache.md R429). -/
def State.awaitIndex (s : State) (side : Side) (ra : Word) : State :=
  match side with
  | .instr => s
  | .data => { s with buf := { s.buf with entries := s.buf.entries.takeWhile fun e => setOf e.ra != setOf ra } }

/-- Bytes written to memory, through the store buffer (`late`) or past it. -/
def State.putMem (s : State) (late : Bool) (ra : Word) (b : List Byte) : State :=
  let f := s.buf.addReplaced (s.changed ra b)
  { s with
    mem := s.putRam s.mem ra b
    buf := if late then { f with entries := (s.newEntries ra b ++ f.entries).take 8 } else f.settle ra b.length }

/-- The real address of the line of an address. -/
def lineBase (ra : Word) : Word := ra &&& 0xFFFFFFE0#32

/-- The line of a real address has been dropped from the instruction cache, or was not there: from now on a fill brings in what
memory holds (22_cache.md R434). -/
def State.purge (s : State) (ra : Word) : State :=
  { s with buf := { s.buf with unpurged := s.buf.unpurged.filter fun c => !inRange (lineBase ra) 32 c } }

/-- The older bytes of a line of the instruction cache that is dropped: a fetch may have read them ahead (20_memory.md
R246). -/
def State.staleLine (s : State) (set : Nat) (l : CacheLine) : State :=
  let ra := lineAddr set l
  if l.valid then
    { s with
      buf := s.buf.addStale <|
        ((List.range 32).map fun k => ((ra + BitVec.ofNat 32 k).toNat, l.data.toList.getD k 0)).filter fun c =>
          s.mem.byte c.1 != c.2 }
  else s

/-- The bus errors of buffered stores, reported one after the other (60_exceptions.md R2035, R2037). -/
def State.reportAll (s : State) : List Word → State
  | [] => s
  | ra :: l => (s.asyncMcheck 0x4#32 ra false).reportAll l

/-- The store buffer is emptied (22_cache.md R430): its bus errors are reported. -/
def State.flushBuffers (s : State) : State :=
  let t := s.reportAll s.buf.storeErrs
  { t with buf := { t.buf with storeErrs := [], entries := [] } }

/-- `msync` waits for what the store buffer, the push buffer and `icbi` have begun, so that the next context synchronizing event
leaves no older byte to fetch (22_cache.md R430, R434). -/
def State.syncBuffers (s : State) : State :=
  let t := s.flushBuffers
  { t with buf := { t.buf with unsynced := [] } }

/-- Thirty-two bytes of a list as a vector. -/
def vec32 (l : List Byte) : Vector Byte 32 := Vector.ofFn fun i => l.getD i.val 0

/-- The older bytes that a fill may bring into a cache: into that of instructions, those of lines that no `icbi` has dropped since
(22_cache.md R434). -/
def State.fillOlds (s : State) (side : Side) : List Host.Cell := match side with | .instr => s.buf.unpurged | .data => []
/-- The bytes of a line as a fill reads them. -/
def State.memLine (s : State) (side : Side) (ra : Word) : Vector Byte 32 :=
  vec32 (seenBytes s.free (s.fillOlds side) 0 (lineBase ra) (s.busBytes 0 (lineBase ra) 32))
/-- The burst that fills a line ends in a bus error (22_cache.md R423). -/
def State.fillFails (s : State) (ra : Word) : Bool := s.busErrIn (lineBase ra) 32
/-- The state once a line has been read. -/
def State.drawLine (s : State) (side : Side) (ra : Word) : State :=
  s.drawIf (anyFrom s.onDevice (lineBase ra) 32 || anyOlder (s.fillOlds side) (lineBase ra) 32) 32

/-- How many bytes of a push are written: its doublewords in order, up to the first that ends in a bus error (22_cache.md
R430). -/
def State.pushLength (s : State) (ra : Word) : Nat :=
  8 * ([0, 1, 2, 3].takeWhile fun k => !s.busErrIn (ra + BitVec.ofNat 32 (8 * k)) 8).length

/-- A push of the line would end in a bus error. -/
def State.pushFails (s : State) (set : Nat) (l : CacheLine) : Bool := decide (s.pushLength (lineAddr set l) < 32)

/-- Write the bytes of a line to memory: CP_PERR for a data error (unless `quiet`: a cache-inhibited access ignores it,
23_cache_errors_coherency.md R462, R467), BUS_WRERR for a bus error, which ends the writing (22_cache.md R430; 60_exceptions.md
R2037). Says whether the push met no error. -/
def State.push (s : State) (quiet : Bool) (set : Nat) (l : CacheLine) : Bool × State :=
  let ra := lineAddr set l
  let bad := !quiet && s.checkOn .data && l.dataErr.toList.any (· != 0#8)
  let s1 := if bad then s.asyncMcheck 0x20000000#32 ra false else s
  let s2 := s1.putMem false ra (l.data.toList.take (s1.pushLength ra))
  if s1.pushFails set l then (false, s2.asyncMcheck 0x4#32 ra false) else (!bad, s2)

/-! Fills (22_cache.md R423, R424). -/

/-- The error pattern of data that a fill writes (23_cache_errors_coherency.md R469). -/
def State.fillErr (s : State) (side : Side) : Byte :=
  if s.inject side then (match side with | .instr => 0xC0#8 | .data => 0xFF#8) else 0#8

/-- A way available for a fill. -/
def State.available (s : State) (side : Side) (set w : Nat) : Bool :=
  !s.wayOff side w && ((s.cacheOf side).line set w).lock == 0#4

/-- The first way from the replacement pointer on that satisfies `f` (22_cache.md R424). -/
def pickWay (rp : BitVec 2) (f : Nat → Bool) : Option Nat :=
  [rp.toNat, (rp + 1#2).toNat, (rp + 2#2).toNat, (rp + 3#2).toNat].find? f

/-- The new line a fill puts in a way, clean and unlocked. -/
def newLine (ra : Word) (data : Vector Byte 32) (err : Byte) : CacheLine :=
  { tag := tagOf ra, valid := true, lock := 0, dirty := 0, data := data, tagErr := 0, dataErr := Vector.replicate 4 err }

/-- Put a new line in a way: a dirty victim is pushed, and the pointer moves past the way (22_cache.md R424). -/
def State.replace (s : State) (side : Side) (set w : Nat) (l : CacheLine) : State :=
  let old := (s.cacheOf side).line set w
  let s := if side == .data && old.valid && old.dirtyAny then (s.push false set old).2 else s
  s.setCache side { (s.cacheOf side).put set w l with rp := BitVec.ofNat 2 (w + 1) }

/-- The outcome of a fill. -/
inductive Fill where
  /-- No way was available. -/
  | noWay
  /-- The victim's dirty bits disagree (23_cache_errors_coherency.md R462). -/
  | mc (s : State)
  /-- The line's memory answered with a bus error. -/
  | busErr (s : State)
  /-- The line is in a way. -/
  | ok (w : Nat) (s : State)

/-- The replacement pointer moved to a way: the search for a victim ends there (22_cache.md R424). -/
def State.pointAt (s : State) (side : Side) (w : Nat) : State :=
  s.setCache side { s.cacheOf side with rp := BitVec.ofNat 2 w }

/-- Fill a line from memory into a given way. A bus error marks the line of that way invalid (22_cache.md R423); that it
loses its lock and dirty bits with that, a locked line that an overlocking fill displaces included, is the model's choice
(DESIGN CHOICE, log entry 57). -/
def State.fillWay (s : State) (side : Side) (set w : Nat) (ra : Word) : Fill :=
  let old := (s.cacheOf side).line set w
  if s.checkOn side && !s.autoFix side && old.dirtyBad then .mc (s.pointAt side w)
  else
    let s := s.awaitIndex side ra
    if s.fillFails ra then
      let s := if side == .data && old.valid && old.dirtyAny then (s.push false set old).2 else s
      .busErr ((s.setCache side ((s.cacheOf side).put set w old.discard)).pointAt side w)
    else .ok w ((s.replace side set w (newLine ra (s.memLine side ra) (s.fillErr side))).drawLine side ra)

/-- Fill a line from memory (22_cache.md R421, R424). -/
def State.fill (s : State) (side : Side) (ea ra : Word) : Fill :=
  match pickWay (s.cacheOf side).rp (s.available side (setOf ea)) with
  | none => .noWay
  | some w => s.fillWay side (setOf ea) w ra

/-! The bytes of a line. -/

/-- The offset of an address in its line. -/
def lineOff (ea : Word) : Nat := (ea.extractLsb' 0 5).toNat
/-- The doubleword of an address in its line. -/
def lineDw (ea : Word) : Nat := (ea.extractLsb' 3 2).toNat
/-- Bytes of a line from an address on. -/
def CacheLine.read (l : CacheLine) (ea : Word) (n : Nat) : List Byte := (l.data.toList.drop (lineOff ea)).take n
/-- The error pattern of the doubleword of an address. -/
def CacheLine.errAt (l : CacheLine) (ea : Word) : Byte := l.dataErr.toList.getD (lineDw ea) 0
/-- The bits of a byte-parity pattern that `n` bytes from an address on have: byte 0 is the most significant. -/
def laneMask (ea : Word) (n : Nat) : Byte :=
  (0xFF#8 <<< (8 - n)) >>> (ea.extractLsb' 0 3).toNat
/-- A data cache line with bytes of one doubleword written; the parity of those bytes is right, or wrong under error
injection (23_cache_errors_coherency.md R469). -/
def CacheLine.write (l : CacheLine) (ea : Word) (b : List Byte) (inj : Bool) : CacheLine :=
  let d := l.data.toList
  let m := laneMask ea b.length
  let e := (l.errAt ea &&& ~~~m) ||| (if inj then m else 0#8)
  { l with
    data := vec32 (d.take (lineOff ea) ++ b ++ d.drop (lineOff ea + b.length))
    dataErr := Vector.ofFn fun i => if i.val = lineDw ea then e else l.dataErr.get i }

/-! The whole-cache operations (22_cache.md R431, R432). -/

/-- The older bytes of the lines of the instruction cache that a flash invalidation drops; it leaves none that a fill may bring in
(`State.purgeAll`). -/
def State.staleAll (s : State) : List (Nat × CacheLine) → State
  | [] => s
  | (k, l) :: t => (s.staleLine (k / 4) l).staleAll t

/-- No line is left in the instruction cache (22_cache.md R405, R431). -/
def State.purgeAll (s : State) : State := { s with buf := { s.buf with unpurged := [] } }

/-- A cache with every line changed; `f` keeps the zero line. -/
def Cache.mapAll (c : Cache) (f : CacheLine → CacheLine) : Cache :=
  { c with lines := c.lines.filterMap fun p => if f p.2 = CacheLine.zero then none else some (p.1, f p.2) }
/-- Flash invalidation: the lock and dirty bits stay, the pointer goes to way 0. -/
def Cache.flashInvalidate (c : Cache) : Cache :=
  { c.mapAll (fun l => { l with valid := false, tagErr := 0 }) with rp := 0 }
/-- Lock flash clear. -/
def Cache.flashUnlock (c : Cache) : Cache := c.mapAll fun l => { l with lock := 0 }

/-! The commands of L1FINV0 and L1FINV1 (22_cache.md R433; 23_cache_errors_coherency.md R466). -/

/-- CWAY and CSET. -/
def finvWay (v : Word) : Nat := (v.extractLsb' 24 2).toNat
def finvSet (v : Word) : Nat := (v.extractLsb' 5 7).toNat

/-- Replace a line of a cache. -/
def State.putLine (s : State) (side : Side) (set w : Nat) (l : CacheLine) : State :=
  s.setCache side ((s.cacheOf side).put set w l)

/-- Flush a line by set and way, then invalidate it if `inv`. A line with a tag error that is dirty or may be is left as it is and
is a machine check, whatever its valid bit, which the check bits cover too (23_cache_errors_coherency.md R466, R470). A push that
meets an error leaves the line as it is (for a data error only when it would be invalidated). -/
def State.finvFlush (s : State) (set w : Nat) (inv : Bool) : Res Unit :=
  let check := s.checkOn .data
  let l0 := s.cache.dcache.line set w
  let l := if check && s.autoFix .data then l0.repair else l0
  let s := s.putLine .data set w l
  let done (s : State) : State := if inv then s.putLine .data set w l.discard else s.putLine .data set w { l with dirty := 0 }
  if check && l.tagBad then
    if l.dirtyAny then
      .exc (errorReport 0x8000#32 (s.asyncMcheck (tagErrorBits .data false) (lineAddr set l) false))
    else .ok () (if inv then s.putLine .data set w l.discard else s)
  else if l.valid && l.dirtyAny then
    let r := s.push false set l
    .ok () (if r.1 then done r.2 else if r.2.pushFails set l then r.2 else if inv then r.2 else done r.2)
  else .ok () (if inv then s.putLine .data set w l.discard else s)

/-- The command a write of L1FINV0 performs; a tag error on a dirty line is an error report machine check
(60_exceptions.md R2036). -/
def State.finv0 (s : State) (v : Word) : Res Unit :=
  let w := finvWay v
  let set := finvSet v
  match (v.extractLsb' 0 2).toNat with
  | 0 => .ok () (s.putLine .data set w (s.cache.dcache.line set w).release)
  | 1 => s.finvFlush set w false
  | 2 => s.finvFlush set w true
  | _ => .ok () <| s.setCache .data { s.cache.dcache with rp := BitVec.ofNat 2 w }

/-- The command a write of L1FINV1 performs; a reserved one invalidates the line or does nothing, which is free
(93_implementation_defined.md U40; DESIGN CHOICE, log entry 30). -/
def State.finv1 (s : State) (v : Word) : State :=
  let w := finvWay v
  let set := finvSet v
  let l := s.cache.icache.line set w
  let gone := if l.valid then (s.staleLine set l).purge (lineAddr set l) else s
  let inv := gone.putLine .instr set w l.discard
  let ptr := s.setCache .instr { s.cache.icache with rp := BitVec.ofNat 2 w }
  match (v.extractLsb' 0 2).toNat with
  | 0 => inv
  | 3 => ptr
  | _ => { (if Config.freeBit s.free then inv else s) with free := s.free + 1 }

/-! Snooping (23_cache_errors_coherency.md R468, R480 to R482). -/

/-- The snoop port accepts requests that look the cache up (23_cache_errors_coherency.md R480, R486): coherency logic is
attached, snooping and the data cache are on, no stop is asked for. -/
def State.snooping (s : State) : Bool :=
  s.pins.snoopLogic && s.cacheOn .data && !s.cache.hdbcr0.getLsbD 5 && !s.pins.stop && !s.pwr.stopped

/-- A snoop invalidate of a real address takes effect. Of two ways that hit, one is invalidated, which one is free
(93_implementation_defined.md U43, log entry 28). A locked line that is invalidated is a machine check too
(23_cache_errors_coherency.md R468; log entry 28). -/
def State.snoopInvalidate (s : State) (ra : Word) : State :=
  if !s.cacheOn .data || s.cache.hdbcr0.getLsbD 5 || s.pwr.stopped then s
  else
    let c := s.cache.dcache
    let set := setOf ra
    let check := s.checkOn .data
    let err (s : State) : State := s.asyncMcheck 0x02000020#32 (ra &&& 0xFFFFF000#32) false
    let hits := (c.ways set).filter fun p => p.2.here (tagOf ra) && !(check && p.2.tagBad)
    let (k, s) := if hits.length ≤ 1 then (0, s) else s.drawBelow hits.length
    match hits[k]? with
    | none => if check && !(c.badLines set).isEmpty then err s else s
    | some (w, l) =>
      let s' := s.putLine .data set w l.release
      if l.lockedAny then err (s'.setCsrBits .data 0x800#32) else s'

/-- The oldest entries of the snoop queue take effect, at most `k`. -/
def State.snoopSome : Nat → State → State
  | 0, s => s
  | k + 1, s =>
    match s.buf.snoops with
    | [] => s
    | ra :: l => ({ s with buf := { s.buf with snoops := l } }.snoopInvalidate ra).snoopSome k

/-- A snoop invalidate enters the queue (23_cache_errors_coherency.md R483). -/
def State.queueSnoop (s : State) (ra : Word) : State :=
  if !s.snooping then s else { s with buf := { s.buf with snoops := s.buf.snoops ++ [ra] } }

/-- The synchronization of the snoop queue: all that is in it is due (23_cache_errors_coherency.md R485); none is served in the
Stopped state (R486). -/
def State.syncSnoops (s : State) : State :=
  if s.pwr.stopped then s else { s with ev := { s.ev with snoopDue := s.buf.snoops.length } }

/-- The oldest bus errors of buffered stores are reported, at most `k`. -/
def State.reportSome (s : State) (k : Nat) : State :=
  let t := s.reportAll (s.buf.storeErrs.take k)
  { t with buf := { t.buf with storeErrs := s.buf.storeErrs.drop k } }

/-- How many of the oldest snoops this boundary must serve. -/
def State.snoopsDue (s : State) : Nat := max s.ev.snoopDue (s.buf.snoops.length - 8)

/-- What a step boundary finishes of the work in the buffers: how many store errors (93_implementation_defined.md U83) and how
many snoops (U84) is free, but that those a synchronization asked for, and those a queue of eight has no place for
(23_cache_errors_coherency.md R483, R485), are among them. Where both log an address, the store error is first (60_exceptions.md
R2039). -/
def State.settleBuffers (s : State) : State :=
  if s.buf.snoops.isEmpty && s.buf.storeErrs.isEmpty then s
  else
    let (k, s) := s.drawBelow (s.buf.snoops.length + 1)
    let (n, s) := s.drawBelow (s.buf.storeErrs.length + 1)
    State.snoopSome (max k s.snoopsDue) (s.reportSome n)

/-! Debug access to the arrays (23_cache_errors_coherency.md R475 to R477). -/

/-- The parity bits of a doubleword of the data cache, odd parity, byte 0 most significant; or the check bits of the
instruction cache. -/
def dwCheck (side : Side) (b : List Byte) : Byte :=
  match side with
  | .instr => Config.dataCheck (bytesDWord b)
  | .data =>
    b.foldl (fun a x => (a <<< 1) ||| (if (countTrue [x.getLsbD 0, x.getLsbD 1, x.getLsbD 2, x.getLsbD 3, x.getLsbD 4,
      x.getLsbD 5, x.getLsbD 6, x.getLsbD 7]) % 2 = 0 then 1#8 else 0#8)) 0#8

/-- The doubleword of a line that holds a word. -/
def CacheLine.dwOf (l : CacheLine) (word : Nat) : List Byte := (l.data.toList.drop (word / 2 * 8)).take 8

/-- What a write of CDACNTL does to CDACNTL, CDADATA and the arrays; an operation empties the store buffer first
(22_cache.md R430). The reserved values 1x of GO are stored as written and start nothing (DESIGN CHOICE, log entry 30). -/
def State.writeCdacntl (s : State) (v : Word) : State :=
  let v := v &&& 0xB3FFFF0F#32
  if v.extractLsb' 0 2 == 1#2 then
    let s := s.flushBuffers
    let side : Side := if v.getLsbD 3 then .instr else .data
    let w := (v.extractLsb' 28 2).toNat
    let set := (v.extractLsb' 19 7).toNat
    let word := (v.extractLsb' 16 3).toNat
    let l := (s.cacheOf side).line set w
    let idle := v &&& 0xFFFFFFFC#32
    if v.getLsbD 2 then
      let check : Byte :=
        if v.getLsbD 31 then (tagCheck l.tag l.valid ^^^ l.tagErr) ++ 0#2
        else dwCheck side (l.dwOf word) ^^^ (l.dataErr.toList.getD (word / 2) 0)
      let data : Word :=
        if v.getLsbD 31 then
          (l.tag ++ 0#10 : Word) ||| (boolWord l.valid <<< 8) ||| (l.lock.zeroExtend 32 <<< 4) |||
            (l.dirty.zeroExtend 32 <<< 1)
        else bytesWord ((l.data.toList.drop (word * 4)).take 4)
      { s with
        cache :=
          { s.cache with
            cdacntl := (idle &&& 0xFFFF00FF#32) ||| (check.zeroExtend 32 <<< 8)
            cdadata := data } }
    else
      let d := s.cache.cdadata
      let chk : Byte := v.extractLsb' 8 8
      let l' : CacheLine :=
        if v.getLsbD 31 then
          { l with
            tag := d.extractLsb' 10 22
            valid := d.getLsbD 8
            lock := d.extractLsb' 4 4
            dirty := match side with | .instr => 0#3 | .data => d.extractLsb' 1 3
            tagErr := chk.extractLsb' 2 6 ^^^ tagCheck (d.extractLsb' 10 22) (d.getLsbD 8) }
        else
          let b := l.data.toList
          let l1 := { l with data := vec32 (b.take (word * 4) ++ wordBytes d ++ b.drop (word * 4 + 4)) }
          { l1 with
            dataErr := Vector.ofFn fun i =>
              if i.val = word / 2 then chk ^^^ dwCheck side (l1.dwOf word) else l1.dataErr.get i }
      let s' := s.putLine side set w l'
      { s' with cache := { s'.cache with cdacntl := idle } }
  else { s with cache := { s.cache with cdacntl := v } }

end Sys2Proof.Machine
end

