-- ==== Sys2Proof/Machine/Access.lean ====
section
/-! DEFINITION. Data accesses and instruction fetches: translation, the caches, the bus, the Parallel Signature Unit
(spec/20_memory.md R210 to R217; spec/22_cache.md R421 to R455; spec/64_external_debug_psu.md R2281). -/

namespace Sys2Proof.Machine

/-- ESR[ST]. -/
def esrSt : Word := 0x00800000#32
/-- ESR[SPE]. -/
def esrSpe : Word := 0x00000080#32
/-- ESR[BO]. -/
def esrBo : Word := 0x00020000#32
/-- ESR[DLK]. -/
def esrDlk : Word := 0x00200000#32
/-- ESR[ILK]. -/
def esrIlk : Word := 0x00100000#32

/-- The access in progress did not complete. -/
def State.markFail (s : State) : State := { s with ev := { s.ev with dataFail := true } }
/-- An error report machine check of a data access, with MCSR bits LD, ST or G. -/
def failReport {α : Type} (bits : Word) (s : State) : Res α := .exc (errorReport bits s.markFail)

/-- Note an access for the debug compares. -/
def State.logAccess (s : State) (ea : Word) (store : Bool) (size : Nat) : State :=
  { s with ev := { s.ev with accesses := { ea := ea, store := store, size := size, bytes := [] } :: s.ev.accesses } }
/-- Give the newest noted access its bytes. -/
def State.logBytes (s : State) (b : List Byte) : State :=
  match s.ev.accesses with
  | [] => s
  | a :: l => { s with ev := { s.ev with accesses := { a with bytes := b } :: l } }

/-! The Parallel Signature Unit (64_external_debug_psu.md R2281). -/

/-- Both signatures advanced by a doubleword, the counter if enabled. -/
def Psu.accumulate (p : Psu) (d : DWord) : Psu :=
  { p with
    pshr := Config.psuMisrStep p.pshr (hiW d)
    pslr := Config.psuMisrStep p.pslr (loW d)
    psctr := if p.pscr.getLsbD 5 then p.psctr + 1#32 else p.psctr }

/-- The doubleword of the byte lanes of an access: inactive lanes are zero. -/
def lanes (ea : Word) (b : List Byte) : DWord :=
  bytesDWord (List.replicate (ea.toNat % 8) 0#8 ++ b ++ List.replicate (8 - ea.toNat % 8 - b.length) 0#8)

/-- A beat of a data access is accumulated when its kind is enabled. -/
def State.psuBeat (s : State) (store : Bool) (ea : Word) (b : List Byte) : State :=
  if s.psu.pscr.getLsbD (if store then 1 else 2) then { s with psu := s.psu.accumulate (lanes ea b) } else s
/-- A read beat that ended in a bus error: zeros are accumulated and PSSR[TERR] is set. -/
def State.psuReadError (s : State) : State :=
  if s.psu.pscr.getLsbD 2 then { s with psu := { s.psu.accumulate 0#64 with pssr := s.psu.pssr ||| 1#32 } } else s

/-! Reading one beat: at most eight bytes of one doubleword. -/

/-- The error report bits of a read: LD (with G where the page is guarded and `bus`), or IF. -/
def readReport (side : Side) (p : Page) (bus : Bool) : Word :=
  match side with
  | .instr => 0x00010000#32
  | .data => 0x8000#32 ||| (if bus && p.g then 0x2000#32 else 0#32)

/-- A single-beat read on the bus (22_cache.md R421, R426; 60_exceptions.md R2035). One of data does not bypass the stores in
the store buffer (22_cache.md R429). -/
def State.busRead (s : State) (side : Side) (p : Page) (n : Nat) : Res (List Byte) :=
  let s := match side with | .instr => s | .data => s.flushBuffers
  if s.busErrIn p.ra n then
    let s := match side with | .instr => s | .data => s.psuReadError
    failReport (readReport side p true) (s.asyncMcheck (readErrorBit side) p.ra false)
  else .ok (s.busBytes 0 p.ra n) (s.drawBus p.ra n)

/-- The bytes of a line in a way. -/
def State.lineBytes (s : State) (side : Side) (ea : Word) (w n : Nat) : List Byte :=
  ((s.cacheOf side).line (setOf ea) w).read ea n

/-- A machine check of a lookup (60_exceptions.md R2036, R2037). -/
def State.lookupFail {α : Type} (s : State) (side : Side) (ra : Word) (lk : Bool) (report : Word) : Res α :=
  failReport report (s.asyncMcheck (tagErrorBits side lk) ra false)

/-- A hit whose doubleword has a data error (23_cache_errors_coherency.md R462 to R464, R467): read round the cache when
cache-inhibited, a machine check, or a refill in place. -/
def State.readDataError (s : State) (side : Side) (ea : Word) (p : Page) (n w : Nat) : Res (List Byte) :=
  let l := (s.cacheOf side).line (setOf ea) w
  if p.i then s.busRead side p n
  else if !s.autoFix side || l.dirtyAny then
    failReport (readReport side p false) (s.asyncMcheck (dataErrorBit side) p.ra false)
  else
    let s := s.awaitIndex side p.ra
    if s.fillFails p.ra then
      let s := match side with | .instr => s | .data => s.psuReadError
      let s := s.putLine side (setOf ea) w { l with valid := false, tagErr := 0 }
      let s := s.asyncMcheck (readErrorBit side ||| (if l.lockedAny then lockErrorBit side else 0#32)) p.ra false
      failReport (readReport side p true) s
    else
      let l' := { l with data := s.memLine side p.ra, dataErr := Vector.replicate 4 (s.fillErr side) }
      .ok (l'.read ea n) ((s.putLine side (setOf ea) w l').drawLine side p.ra)

/-- A read miss: a fill, or a single beat (22_cache.md R421). -/
def State.readMiss (s : State) (side : Side) (ea : Word) (p : Page) (n : Nat) : Res (List Byte) :=
  if p.i then s.busRead side p n
  else
    match s.fill side ea p.ra with
    | .noWay => s.busRead side p n
    | .mc s => s.lookupFail side p.ra false (readReport side p false)
    | .busErr s =>
      let s := match side with | .instr => s | .data => s.psuReadError
      failReport (readReport side p true) (s.asyncMcheck (readErrorBit side) p.ra false)
    | .ok w s => .ok (s.lineBytes side ea w n) s

/-- A read of one beat (22_cache.md R420, R421). -/
def State.readBeat (s : State) (side : Side) (ea : Word) (p : Page) (n : Nat) : Res (List Byte) :=
  if !s.cacheOn side then s.busRead side p n
  else
    let (r, s) := s.lookup side p.i (match side with | .instr => .fetch | .data => .access) ea p.ra
    match r with
    | .many => .stop .cacheMultipleHit
    | .mc lk => s.lookupFail side p.ra lk (readReport side p false)
    | .hit w =>
      if s.checkOn side && ((s.cacheOf side).line (setOf ea) w).errAt ea != 0#8 then s.readDataError side ea p n w
      else .ok (s.lineBytes side ea w n) s
    | .miss => s.readMiss side ea p n

/-- A read of one beat of a load, accumulated by the Parallel Signature Unit. -/
def State.loadBeat (s : State) (ea : Word) (p : Page) (n : Nat) : Res (List Byte) :=
  (s.readBeat .data ea p n).andThen fun b s => .ok b (s.psuBeat false ea b)

/-! Writing one beat. -/

/-- The store buffer takes the write: HDBCR0[DSB] = 0 and not cache-inhibited and guarded (22_cache.md R429, R436). -/
def State.buffers (s : State) (p : Page) : Bool := !(p.i && p.g) && !s.cache.hdbcr0.getLsbD 3

/-- What of the store buffer a write waits for (22_cache.md R428 to R430, R436): a cache-inhibited guarded one for all of it, one
that is not buffered for the stores before it. -/
def State.awaitStores (s : State) (p : Page) : State :=
  if p.i && p.g then s.flushBuffers
  else if s.buffers p then s
  else { s with buf := { s.buf with entries := [] } }

/-- A write on the bus, performed or not (22_cache.md R428 to R430; 60_exceptions.md R2035). A bus error is precise where the
page is cache-inhibited and guarded; that of a buffered write is reported later. -/
def State.busWrite (s : State) (p : Page) (b : List Byte) : Res Bool :=
  let s := s.awaitStores p
  if s.busErrIn p.ra b.length then
    if p.i && p.g then failReport 0x6000#32 (s.asyncMcheck 0x4#32 p.ra false)
    else if s.buffers p then .ok false { s with buf := { s.buf with storeErrs := s.buf.storeErrs ++ [p.ra] } }
    else .ok false (s.asyncMcheck 0x4#32 p.ra false)
  else .ok true (s.putMem (s.buffers p) p.ra b)

/-- The store must reach memory (22_cache.md R422). -/
def State.storeThrough (s : State) (p : Page) : Bool := s.writeThrough || p.w
/-- L1CSR0[DCWA]. -/
def State.dcwa (s : State) : Nat := (s.cache.l1csr0.extractLsb' 18 2).toNat
/-- A store miss allocates (22_cache.md R422); the reserved DCWA value leaves it open (93_implementation_defined.md
U40). -/
def State.storeAllocates (s : State) (p : Page) : Bool :=
  !p.i && !p.g &&
    (match s.dcwa with
     | 0 => false
     | 1 => !s.storeThrough p
     | 2 => true
     | _ => Config.freeBit s.free)
/-- The state once the allocation choice is made. -/
def State.drawDcwa (s : State) : State := if s.dcwa = 3 then { s with free := s.free + 1 } else s

/-- Bytes written into a line of the data cache; dirty unless the store also goes to memory. -/
def State.writeLine (s : State) (ea : Word) (w : Nat) (b : List Byte) (wt : Bool) : State :=
  let l := (s.cache.dcache.line (setOf ea) w).write ea b (s.inject .data)
  s.putLine .data (setOf ea) w (if wt then l else { l with dirty := 7 })

/-- A store into a line that is present (22_cache.md R422). -/
def State.storeIn (s : State) (ea : Word) (p : Page) (w : Nat) (b : List Byte) : Res Bool :=
  let s' := s.writeLine ea w b (s.storeThrough p)
  if s.storeThrough p then s'.busWrite p b else .ok true s'

/-- A store miss (22_cache.md R422, R423). A store that a cache error stops is not accumulated by the Parallel Signature
Unit (64_external_debug_psu.md R2281). -/
def State.storeMiss (s : State) (ea : Word) (p : Page) (b : List Byte) : Res Bool :=
  let s' := s.drawDcwa
  if s.storeAllocates p then
    match s'.fill .data ea p.ra with
    | .noWay => (s'.psuBeat true ea b).busWrite p b
    | .mc s => s.lookupFail .data p.ra false 0x4000#32
    | .busErr s => ((s.asyncMcheck 0x8#32 p.ra false).psuBeat true ea b).busWrite p b
    | .ok w s => (s.psuBeat true ea b).storeIn ea p w b
  else (s'.psuBeat true ea b).busWrite p b

/-- A store of one beat (22_cache.md R420, R422): performed, or ended in a bus error that is reported by itself. -/
def State.storeBeat (s : State) (ea : Word) (p : Page) (b : List Byte) : Res Bool :=
  if !s.cacheOn .data then (s.psuBeat true ea b).busWrite p b
  else
    let (r, s) := s.lookup .data p.i .access ea p.ra
    match r with
    | .many => .stop .cacheMultipleHit
    | .mc lk => s.lookupFail .data p.ra lk 0x4000#32
    | .hit w => (s.psuBeat true ea b).storeIn ea p w b
    | .miss => s.storeMiss ea p b

/-! A whole access: one beat, or two where it crosses an aligned doubleword (20_memory.md R215). -/

/-- How many bytes are left in the doubleword of an address. -/
def room (ea : Word) : Nat := 8 - ea.toNat % 8

/-- One beat of an access: its page, its address and its size. -/
structure Beat where
  page : Page
  ea : Word
  n : Nat
deriving DecidableEq, Repr

/-- The beats of an access, translated and checked (20_memory.md R217; 60_exceptions.md R2011, R2044, R2062): a TLB miss before
a permission failure, the first beat before the second, then a byte order mismatch: that permission is tested before the byte
order, so that ESR[BO] stays 0 where both fail, is the model's choice (DESIGN CHOICE, log entry 62; 60_exceptions.md R2011 gives
them one priority). `part` is what a fault of the second beat may leave done of the first (93_implementation_defined.md U60). -/
def State.beats (s : State) (k : AccessKind) (esr : Word) (ea : Word) (n : Nat) (part : Page → State → State) :
    Res (List Beat) :=
  let (t1, s) := s.translate s.msrDs ea
  match t1 with
  | none => .exc (raiseDataTlb ea esr s.markFail)
  | some p1 =>
    if n ≤ room ea then
      if p1.allows s.user k then .ok [⟨p1, ea, n⟩] s else .exc (raiseDsi ea esr s.markFail)
    else
      let ea2 := ea + BitVec.ofNat 32 (room ea)
      let (t2, s) := s.translate s.msrDs ea2
      let half (s : State) : State := if p1.allows s.user k then part p1 s else s
      match t2 with
      | none => .exc (raiseDataTlb ea2 esr (half s).markFail)
      | some p2 =>
        if !p1.allows s.user k then .exc (raiseDsi ea esr s.markFail)
        else if !p2.allows s.user k then .exc (raiseDsi ea2 esr (half s).markFail)
        else if p1.e != p2.e then .exc (raiseDsi ea (esr ||| esrBo) (half s).markFail)
        else .ok [⟨p1, ea, room ea⟩, ⟨p2, ea2, n - room ea⟩] s

/-- Read the beats of a load in order. -/
def State.loadBeats (s : State) : List Beat → Res (List Byte)
  | [] => .ok [] s
  | t :: l => (s.loadBeat t.ea t.page t.n).andThen fun b s => (s.loadBeats l).andThen fun b' s => .ok (b ++ b') s

/-- Write the beats of a store in order: a bus error of one aborts the next (65_external_signals.md R2622). -/
def State.storeBeats (s : State) : List Beat → List Byte → Res Bool
  | [], _ => .ok true s
  | t :: l, b =>
    (s.storeBeat t.ea t.page (b.take t.n)).andThen fun done s =>
      if done then s.storeBeats l (b.drop t.n) else .ok false s

/-- Bytes with each element of `el` bytes reversed; `fuel` bounds the number of elements. -/
def revElems (el : Nat) : Nat → List Byte → List Byte
  | 0, b => b
  | fuel + 1, b => if b.isEmpty then [] else (b.take el).reverse ++ revElems el fuel (b.drop el)

/-- Bytes between register order and memory order: on a little-endian page each element is reversed (20_memory.md R210,
R211). -/
def elemOrder (e : Bool) (el : Nat) (b : List Byte) : List Byte := if e then revElems el b.length b else b

/-- The byte order of the page of an access. -/
def beatsE (l : List Beat) : Bool := match l with | [] => false | t :: _ => t.page.e
/-- The size of the first beat of an access. -/
def beatsN (l : List Beat) : Nat := match l with | [] => 0 | t :: _ => t.n

/-- A load of `n` bytes in elements of `el` bytes, in register order (20_memory.md R210, R211). -/
def State.load (s : State) (esr : Word) (ea : Word) (n el : Nat) : Res (List Byte) :=
  ((s.logAccess ea false n).beats .load esr ea n (fun _ s => s)).andThen fun l s =>
    (s.loadBeats l).andThen fun b s => .ok (elemOrder (beatsE l) el b) (s.logBytes (b.take (beatsN l)))

/-- The first beat of a store that faults on its second: written or not (93_implementation_defined.md U60). -/
def storePart (ea : Word) (el : Nat) (b : List Byte) (p : Page) (s : State) : State :=
  let s' := { s with free := s.free + 1 }
  if Config.freeBit s.free then
    match s'.storeBeat ea p ((elemOrder p.e el b).take (room ea)) with
    | .ok _ t => t
    | .exc _ => s'
    | .stop _ => s'
  else s'

/-- A store of bytes in register order in elements of `el` bytes (20_memory.md R210, R211): performed whole, or ended in a
bus error that is reported by itself. -/
def State.storeDone (s : State) (esr : Word) (ea : Word) (el : Nat) (b : List Byte) : Res Bool :=
  ((s.logAccess ea true b.length).beats .store (esr ||| esrSt) ea b.length (storePart ea el b)).andThen fun l s =>
    let m := elemOrder (beatsE l) el b
    (s.logBytes (m.take (beatsN l))).storeBeats l m

/-- A store whose instruction goes on either way. -/
def State.store (s : State) (esr : Word) (ea : Word) (el : Nat) (b : List Byte) : Res Unit :=
  (s.storeDone esr ea el b).andThen fun _ s => .ok () s

/-! Reservation accesses (20_memory.md R242 to R244; 22_cache.md R435; 23_cache_errors_coherency.md R465). -/

/-- Push and clean the line a reservation access hits; `report` is LD or ST. The way that hit, if any. A cache-inhibited
access ignores all parity errors (23_cache_errors_coherency.md R462). A bus error on the push marks the line invalid (22_cache.md
R430); its lock status does not change (R435; 23_cache_errors_coherency.md R465). -/
def State.atomicFlush (s : State) (ea : Word) (p : Page) (report : Word) : Res (Option Nat) :=
  if !s.cacheOn .data then .ok none s
  else
    let (r, s) := s.lookup .data p.i .atomic ea p.ra
    match r with
    | .many => .stop .cacheMultipleHit
    | .mc lk => s.lookupFail .data p.ra lk report
    | .miss => .ok none s
    | .hit w =>
      let l := s.cache.dcache.line (setOf ea) w
      if s.checkOn .data && !s.autoFix .data && !p.i && l.dirtyBad then s.lookupFail .data p.ra false report
      else if l.dirtyAny then
        let r := s.push p.i (setOf ea) l
        if r.1 then .ok (some w) (r.2.putLine .data (setOf ea) w { l with dirty := 0 })
        else if r.2.pushFails (setOf ea) l then failReport report (r.2.putLine .data (setOf ea) w { l with valid := false })
        else failReport report (r.2.putLine .data (setOf ea) w { l with dirty := 0 })
      else .ok (some w) s

/-- A load and reserve of `n` aligned bytes. -/
def State.loadReserve (s : State) (ea : Word) (n : Nat) : Res (List Byte) :=
  ((s.logAccess ea false n).beats .load 0#32 ea n (fun _ s => s)).andThen fun l s =>
    match l with
    | [] => .ok [] s
    | t :: _ =>
      (s.atomicFlush ea t.page 0x8000#32).andThen fun _ s =>
        (s.busRead .data t.page n).andThen fun b s =>
          .ok (elemOrder t.page.e n b) { (s.psuBeat false ea b).logBytes b with resv := true }

/-- A store conditional of aligned bytes with the reservation held: says whether the store was performed; an external
failure (XFAIL) leaves memory as it is. The write is a cache-inhibited guarded one (20_memory.md R244): the store buffer is
emptied first (22_cache.md R428, R430). That a bus error reports MCSR[G] by the page's own G bit, here and in `readReport`, is the
model's choice (DESIGN CHOICE, log entry 65; 60_exceptions.md R2036). -/
def State.storeConditional (s : State) (ea : Word) (b : List Byte) : Res Bool :=
  ((s.logAccess ea true b.length).beats .store esrSt ea b.length (fun _ s => s)).andThen fun l s =>
    match l with
    | [] => .ok false s
    | t :: _ =>
      (s.atomicFlush ea t.page 0x4000#32).andThen fun hit s =>
        let m := elemOrder t.page.e b.length b
        let s := (s.flushBuffers.psuBeat true ea m).logBytes m
        if s.busErrIn t.page.ra b.length then
          failReport (0x4000#32 ||| (if t.page.g then 0x2000#32 else 0#32)) (s.asyncMcheck 0x4#32 t.page.ra false)
        else if s.pins.xfail then .ok false { s with resv := false }
        else
          let s := match hit with | none => s | some w => s.writeLine ea w m true
          .ok true { s.putMem false t.page.ra m with resv := false }

/-! The cache block operations (22_cache.md R440 to R455). -/

/-- Translation of a block operation as an access of a kind. -/
def State.blockPage (s : State) (k : AccessKind) (ea : Word) : Res Page :=
  let esr : Word := if k == .store then esrSt else 0#32
  let (t, s) := (s.logAccess ea (k == .store) 0).translate s.msrDs ea
  match t with
  | none => .exc (raiseDataTlb ea esr s.markFail)
  | some p => if p.allows s.user k then .ok p s else .exc (raiseDsi ea esr s.markFail)

/-- The lookup of a block operation: the way that hit. -/
def State.blockLook (s : State) (side : Side) (op : LookOp) (ea : Word) (p : Page) (report : Word) : Res (Option Nat) :=
  let (r, s) := s.lookup side p.i op ea p.ra
  match r with
  | .many => .stop .cacheMultipleHit
  | .mc lk => s.lookupFail side p.ra lk report
  | .miss => .ok none s
  | .hit w => .ok (some w) s

/-- The line has a data error that its push would report (23_cache_errors_coherency.md R462). -/
def State.pushBad (s : State) (l : CacheLine) : Bool := s.checkOn .data && l.dirtyAny && l.dataErr.toList.any (· != 0#8)

/-- `dcbst` (22_cache.md R445) and `dcbf` (R443): push the line if dirty, then clean or invalidate it. A bus error on the push
marks the line invalid (R430), and `dcbst` leaves its lock (R456). A cache-inhibited form is not performed on a line whose
push would be a machine check (23_cache_errors_coherency.md R467). -/
def State.blockFlush (s : State) (ea : Word) (inv : Bool) : Res Unit :=
  if !s.cacheOn .data then .ok () s
  else
    (s.blockPage .load ea).andThen fun p s =>
      (s.blockLook .data (if inv then .flush else .clean) ea p 0x8000#32).andThen fun hit s =>
        match hit with
        | none => .ok () s
        | some w =>
          let l := s.cache.dcache.line (setOf ea) w
          if p.i && s.pushBad l then .ok () s
          else
            let r := if l.dirtyAny then s.push false (setOf ea) l else (true, s)
            let l' :=
              if inv then l.discard
              else if !r.1 && r.2.pushFails (setOf ea) l then { l with valid := false }
              else { l with dirty := 0 }
            .ok () (r.2.putLine .data (setOf ea) w l')

/-- `dcbi` (22_cache.md R444) and `icbi` (R440): drop the line; after `icbi` a fill of it brings in no older byte (R434). With
the cache off neither does anything (DEDUCED, log entry 47). -/
def State.blockDiscard (s : State) (side : Side) (ea : Word) : Res Unit :=
  if !s.cacheOn side then .ok () s
  else
    (s.blockPage (match side with | .instr => .load | .data => .store) ea).andThen fun p s =>
      (s.blockLook side (match side with | .instr => .purge | .data => .discard) ea p 0#32).andThen fun hit s =>
        match hit with
        | none => .ok () (match side with | .instr => s.purge p.ra | .data => s)
        | some w =>
          let l := (s.cacheOf side).line (setOf ea) w
          let s := match side with | .instr => (s.staleLine (setOf ea) l).purge p.ra | .data => s
          .ok () (s.putLine side (setOf ea) w l.discard)

/-- A line of zeros in the data cache, dirty. -/
def zeroLine (l : CacheLine) (inj : Bool) : CacheLine :=
  { l with data := Vector.replicate 32 0, dirty := 7, dataErr := Vector.replicate 4 (if inj then 0xFF#8 else 0#8) }

/-- `dcbz` (22_cache.md R448). -/
def State.blockZero (s : State) (ea : Word) : Res Unit :=
  if !s.cacheOn .data then .exc (raiseAlignment ea esrSt s)
  else
    (s.blockPage .store ea).andThen fun p s =>
      if s.storeThrough p then .exc (raiseAlignment ea esrSt s)
      else
        (s.blockLook .data .alloc ea p 0x4000#32).andThen fun hit s =>
          match hit with
          | some w =>
            .ok () (s.putLine .data (setOf ea) w (zeroLine (s.cache.dcache.line (setOf ea) w) (s.inject .data)))
          | none =>
            if p.i then .exc (raiseAlignment ea esrSt s)
            else
              match pickWay s.cache.dcache.rp (s.available .data (setOf ea)) with
              | none => .exc (raiseAlignment ea esrSt s)
              | some w =>
                if s.checkOn .data && !s.autoFix .data && (s.cache.dcache.line (setOf ea) w).dirtyBad then
                  (s.pointAt .data w).lookupFail .data p.ra false 0x4000#32
                else
                  .ok () (s.replace .data (setOf ea) w
                    (zeroLine (newLine p.ra (Vector.replicate 32 0) 0) (s.inject .data)))

/-- Translation of a lock operation (22_cache.md R449, R452): a TLB miss, then a lock that user mode may not set, then
the permission. -/
def State.lockPage (s : State) (side : Side) (ea : Word) : Res Page :=
  let (t, s) := (s.logAccess ea false 0).translate s.msrDs ea
  match t with
  | none => .exc (raiseDataTlb ea 0#32 s.markFail)
  | some p =>
    if s.user && !s.msrUcle then
      .exc (raiseLockDsi (match side with | .instr => esrIlk | .data => esrDlk) s.markFail)
    else if p.allows s.user (match side with | .instr => .either | .data => .load) then .ok p s
    else .exc (raiseDsi ea 0#32 s.markFail)

/-- Lock the line in a way. -/
def State.lockWay (s : State) (side : Side) (ea : Word) (w : Nat) : State :=
  s.putLine side (setOf ea) w { (s.cacheOf side).line (setOf ea) w with lock := 0xF }

/-- A fill that locks what it fills. -/
def State.lockFill (s : State) (side : Side) (ea : Word) (p : Page) (f : Fill) : Res Unit :=
  match f with
  | .noWay => .ok () s
  | .mc s => s.lookupFail side p.ra false (readReport side p false)
  | .busErr s => failReport (readReport side p true) (s.asyncMcheck (readErrorBit side) p.ra false)
  | .ok w s => .ok () (s.lockWay side ea w)

/-- `dcbtls`, `dcbtstls` (22_cache.md R449, R450) and `icbtls` (R452). Which locked line an overlocking fill replaces is
free (91_not_in_source.md N67). That the replacement pointer then stands past that way, or at it where the fill meets an
error, is the model's choice (DESIGN CHOICE, log entry 48): 22_cache.md R424 moves it by the ways that are available, and
here none is. -/
def State.blockLock (s : State) (side : Side) (ct : BitVec 4) (ea : Word) : Res Unit :=
  if ct != 0#4 || !s.cacheOn side then .ok () (s.setCsrBits side 0x400#32)
  else
    (s.lockPage side ea).andThen fun p s =>
      (s.blockLook side .alloc ea p (readReport side p false)).andThen fun hit s =>
        match hit with
        | some w => .ok () (s.lockWay side ea w)
        | none =>
          let ways := [0, 1, 2, 3].filter fun w => !s.wayOff side w
          if p.i || ways.isEmpty then .ok () (s.setCsrBits side 0x400#32)
          else
            match pickWay (s.cacheOf side).rp (s.available side (setOf ea)) with
            | some w => s.lockFill side ea p (s.fillWay side (setOf ea) w p.ra)
            | none =>
              let s := s.setCsrBits side 0x200#32
              if (s.l1csr side).getLsbD 7 then
                let (k, s) := s.drawBelow ways.length
                s.lockFill side ea p (s.fillWay side (setOf ea) (ways.getD k 0) p.ra)
              else .ok () s

/-- `dcblc` (22_cache.md R451) and `icblc` (R453). -/
def State.blockUnlock (s : State) (side : Side) (ct : BitVec 4) (ea : Word) : Res Unit :=
  if ct != 0#4 || !s.cacheOn side then .ok () s
  else
    (s.lockPage side ea).andThen fun p s =>
      (s.blockLook side .unlock ea p (readReport side p false)).andThen fun hit s =>
        match hit with
        | none => .ok () s
        | some w => .ok () (s.putLine side (setOf ea) w { (s.cacheOf side).line (setOf ea) w with lock := 0 })

end Sys2Proof.Machine
end

