-- ==== Sys2Proof/Machine/Sync.lean ====
section
/-! DEFINITION. Changes of registers that a context synchronizing event has not followed: each later instruction works with
the old or the new value (spec/10_state.md R115; spec/70_reset_and_hazards.md R2410; 93_implementation_defined.md U5). -/

namespace Sys2Proof.Machine

/-- The bits of a register whose change asks for a context synchronizing instruction (10_state.md R115; 61_debug.md R2203;
64_external_debug_psu.md R2284): the control bits of SPEFSCR and of the cache control registers, no status bits, and not
DBCR0[EDM], which is the debugger's. The enables of the caches are among them (93_implementation_defined.md U46, log entry
16). -/
def SyncReg.mask (r : SyncReg) : Word :=
  match r with
  | .msr => 0x06000004#32
  | .spefscr => 0x0000007F#32
  | .l1csr0 => 0xFF1DB0ED#32
  | .l1csr1 => 0x0001B0E5#32
  | .dbcr 0 => 0x7FFFFFFF#32
  | .pscr => 0x00000026#32
  | _ => 0xFFFFFFFF#32

/-- DBCR0 to DBCR6. -/
def Debug.dbcrs (d : Debug) : List Word := [d.dbcr0, d.dbcr1, d.dbcr2, d.dbcr3, d.dbcr4, d.dbcr5, d.dbcr6]

/-- The value of a register. -/
def State.syncGet (s : State) (r : SyncReg) : Word :=
  match r with
  | .msr => s.msr
  | .pid0 => s.mmu.pid0
  | .spefscr => s.spefscr
  | .hid0 => s.hid.hid0
  | .hid1 => s.hid.hid1
  | .bucsr => s.hid.bucsr
  | .l1csr0 => s.cache.l1csr0
  | .l1csr1 => s.cache.l1csr1
  | .dbcr n => s.dbg.dbcrs.getD n.val 0#32
  | .dbsr => s.dbg.dbsr
  | .dbcnt => s.dbg.dbcnt
  | .pscr => s.psu.pscr
  | .mas0 => s.mmu.mas0
  | .mas1 => s.mmu.mas1
  | .mas2 => s.mmu.mas2
  | .mas3 => s.mmu.mas3
  | .mas4 => s.mmu.mas4
  | .mas6 => s.mmu.mas6

/-- A register with its bits under the mask replaced. -/
def State.syncPut (s : State) (r : SyncReg) (v : Word) : State :=
  let w := insertBits (s.syncGet r) r.mask v
  match r with
  | .msr => { s with msr := w }
  | .pid0 => { s with mmu := { s.mmu with pid0 := w } }
  | .spefscr => { s with spefscr := w }
  | .hid0 => { s with hid := { s.hid with hid0 := w } }
  | .hid1 => { s with hid := { s.hid with hid1 := w } }
  | .bucsr => { s with hid := { s.hid with bucsr := w } }
  | .l1csr0 => { s with cache := { s.cache with l1csr0 := w } }
  | .l1csr1 => { s with cache := { s.cache with l1csr1 := w } }
  | .dbcr 0 => { s with dbg := { s.dbg with dbcr0 := w } }
  | .dbcr 1 => { s with dbg := { s.dbg with dbcr1 := w } }
  | .dbcr 2 => { s with dbg := { s.dbg with dbcr2 := w } }
  | .dbcr 3 => { s with dbg := { s.dbg with dbcr3 := w } }
  | .dbcr 4 => { s with dbg := { s.dbg with dbcr4 := w } }
  | .dbcr 5 => { s with dbg := { s.dbg with dbcr5 := w } }
  | .dbcr _ => { s with dbg := { s.dbg with dbcr6 := w } }
  | .dbsr => { s with dbg := { s.dbg with dbsr := w } }
  | .dbcnt => { s with dbg := { s.dbg with dbcnt := w } }
  | .pscr => { s with psu := { s.psu with pscr := w } }
  | .mas0 => { s with mmu := { s.mmu with mas0 := w } }
  | .mas1 => { s with mmu := { s.mmu with mas1 := w } }
  | .mas2 => { s with mmu := { s.mmu with mas2 := w } }
  | .mas3 => { s with mmu := { s.mmu with mas3 := w } }
  | .mas4 => { s with mmu := { s.mmu with mas4 := w } }
  | .mas6 => { s with mmu := { s.mmu with mas6 := w } }

/-- Before a register is written: its value is one that later instructions may still work with. -/
def State.owe (s : State) (r : SyncReg) : State :=
  { s with sync := { s.sync with old := (r, s.syncGet r) :: s.sync.old } }

/-- The fields of the MAS registers that `tlbre`, `tlbsx` and a TLB miss write (21_mmu.md R340): MAS0[NV] is not among
them. -/
def readFields : List (SyncReg × Word) := [(.mas1, 0xFFFFFFFF#32), (.mas2, 0xFFFFFFFF#32), (.mas3, 0xFFFFFFFF#32)]
def searchFields : List (SyncReg × Word) := (.mas0, 0xFFFFFFE0#32) :: readFields
def missFields : List (SyncReg × Word) := (.mas6, 0xFFFFFFFF#32) :: searchFields

/-- A value that may be in effect, with the fields that hardware has written. -/
def State.withFields (s : State) (fields : List (SyncReg × Word)) (p : SyncReg × Word) : SyncReg × Word :=
  match fields.find? fun f => f.1 == p.1 with
  | none => p
  | some f => (p.1, insertBits p.2 f.2 (s.syncGet p.1))

/-- After a hardware write of fields of the MAS registers: every value that may be in effect has them. -/
def State.settleMas (s : State) (fields : List (SyncReg × Word)) : State :=
  { s with sync := { old := s.sync.old.map (s.withFields fields), new := s.sync.new.map (s.withFields fields) } }

/-- The machine as the instruction of this step works with it: for each value that may still be in effect a free bit decides
whether it is; the new values are kept for the end of the step. -/
def State.viewOld (s : State) : List (SyncReg × Word) → State
  | [] => s
  | (r, v) :: l =>
    let t := { s with free := s.free + 1 }
    let kept := if s.sync.new.any fun p => p.1 == r then s.sync.new else (r, s.syncGet r) :: s.sync.new
    if Config.freeBit s.free then ({ t with sync := { t.sync with new := kept } }.syncPut r v).viewOld l else t.viewOld l

/-- How often a register stands in what is owed. -/
def Sync.count (y : Sync) (r : SyncReg) : Nat := y.old.countP fun p => p.1 == r

/-- The new values back in their registers, but in those that the step has written: where the count of what is owed for a
register changed. That of DBSR is always put back: what the step records or clears goes into it too. -/
def State.restore (s : State) (y : Sync) : List (SyncReg × Word) → State
  | [] => s
  | (r, v) :: l => (if s.sync.count r = y.count r || r == .dbsr then s.syncPut r v else s).restore y l

/-- The MSR that an interrupt of a class saved, with the new value of the bits that were seen as old. -/
def IntRegs.resave (i : IntRegs) (dapu : Bool) (c : IntClass) (v : Word) : IntRegs :=
  let f (w : Word) : Word := insertBits w SyncReg.msr.mask v
  match c with
  | .nonCritical => { i with srr1 := f i.srr1 }
  | .critical => { i with csrr1 := f i.csrr1 }
  | .debug => if dapu then { i with dsrr1 := f i.dsrr1 } else { i with csrr1 := f i.csrr1 }
  | .machineCheck => { i with mcsrr1 := f i.mcsrr1 }

/-- The new values put back at the end of a step that began with `y` owed: an interrupt has saved the new MSR and cleared
the bits in question, in the pair that HID0[DAPUEN] selected as the interrupt saw it (60_exceptions.md R2067); a return (`back`)
has replaced them, a TLB miss has written MAS registers (21_mmu.md R340). -/
def State.endView (s : State) (y : Sync) (back : Bool) : State :=
  let s := if s.ev.ints.any fun t => t == .dataTlb || t == .instrTlb then s.settleMas missFields else s
  let others := s.sync.new.filter fun p => p.1 != .msr
  match s.ev.ints.getLast? with
  | none => s.restore y (if back then others else s.sync.new)
  | some t =>
    let s' := s.restore y others
    match s.sync.new.find? fun p => p.1 == .msr with
    | none => s'
    | some (_, v) => { s' with ints := s'.ints.resave s.dapuen t.cls v }

/-- What the stores in the store buffer replaced, newest first. -/
def Buffers.replaced (b : Buffers) : List Host.Cell := b.entries.flatMap StoreEntry.old

/-- After a context synchronizing event an instruction fetch may see of the older bytes those that no `msync` has waited for
(22_cache.md R434). -/
def Buffers.synced (b : Buffers) : Buffers := { b with stale := b.unsynced }

/-- What is owed after a step that began with `y` owed: nothing after a context synchronizing event, which discards what was
fetched ahead. -/
def State.endSync (s : State) (y : Sync) (csi back : Bool) : State :=
  let t := if y.new.isEmpty then s else s.endView y back
  if csi || !s.ev.ints.isEmpty then { t with sync := Sync.none, buf := t.buf.synced }
  else { t with sync := { t.sync with new := [] } }

end Sys2Proof.Machine
end

