-- ==== Sys2Proof/Machine/Timers.lean ====
section
/-! DEFINITION. The time base, the decrementer, the fixed-interval timer and the watchdog (spec/60_exceptions.md R2100 to
R2108), and the performance monitor's time base event (spec/62_perfmon_power.md R2331). -/

namespace Sys2Proof.Machine

/-- The time base bit the fixed-interval timer watches, `TCR[FPEXT] || TCR[FP]` (10_state.md R78). -/
def fitSel (tcr : Word) : Nat := (tcr.extractLsb' 13 4 ++ tcr.extractLsb' 24 2).toNat
/-- The time base bit the watchdog watches, `TCR[WPEXT] || TCR[WP]` (10_state.md R78). -/
def watchdogSel (tcr : Word) : Nat := (tcr.extractLsb' 17 4 ++ tcr.extractLsb' 30 2).toNat

/-- A bit of the time base goes from 0 to 1. -/
def rises (old new : DWord) (n : Nat) : Bool := !old.getMsbD n && new.getMsbD n

/-- TSR after a fixed-interval time-out, if there is one (60_exceptions.md R2104). -/
def fitUpdate (tcr tsr : Word) (old new : DWord) : Word :=
  if rises old new (fitSel tcr) then tsr ||| 0x04000000#32 else tsr

/-- TSR after a watchdog time-out, if there is one (60_exceptions.md R2108). -/
def watchdogUpdate (tcr tsr : Word) (old new : DWord) : Word :=
  if rises old new (watchdogSel tcr) then
    if !tsr.getLsbD 31 then tsr ||| 0x80000000#32
    else if !tsr.getLsbD 30 then tsr ||| 0x40000000#32
    else if tcr.extractLsb' 28 2 == 0#2 then tsr
    else (tsr &&& 0xCFFFFFFF#32) ||| (tcr &&& 0x30000000#32)
  else tsr

/-- The time base bit PMGC0[TBSEL] selects (62_perfmon_power.md R2320). -/
def tbselBit (pmgc0 : Word) : Nat :=
  match (pmgc0.extractLsb' 11 2).toNat with
  | 0 => 63
  | 1 => 55
  | 2 => 51
  | _ => 47

/-- A new value of the time base, with what its transitions set: an `mtspr` counts as a tick does (60_exceptions.md
R2104). That the performance monitor's event 110, 'transitions' of a bit, counts those from 0 to 1 alone is the model's choice
(DESIGN CHOICE, log entry 36; 62_perfmon_power.md R2340). -/
def State.setTb (s : State) (new : DWord) : State :=
  let old := s.tmr.tb
  { s with
    tmr :=
      { s.tmr with
        tb := new
        tsr := watchdogUpdate s.tmr.tcr (fitUpdate s.tmr.tcr s.tmr.tsr old new) old new }
    pm := { s.pm with tbEvent := s.pm.tbEvent || (s.pm.pmgc0.getLsbD 8 && rises old new (tbselBit s.pm.pmgc0)) }
    ev := { s.ev with tbEdges := s.ev.tbEdges + (if rises old new (tbselBit s.pm.pmgc0) then 1 else 0) } }

/-- One tick of the decrementer (60_exceptions.md R2102). -/
def Timers.decTick (t : Timers) : Timers :=
  if t.dec = 0#32 then t
  else if t.dec = 1#32 then
    { t with tsr := t.tsr ||| 0x08000000#32, dec := if t.tcr.getLsbD 22 then t.decar else 0#32 }
  else { t with dec := t.dec - 1#32 }

/-- The timers are frozen by DBCR0[FT] (61_debug.md R2220): a bit of the status register of FT's owner other than MRR
and CNT1TRG is set. -/
def State.timersFrozen (s : State) : Bool :=
  let hw := s.dbg.dbcr0.getLsbD 31 && !(s.dbg.dberc0.getLsbD 30 && s.dbg.dberc0.getLsbD 0)
  s.dbg.dbcr0.getLsbD 0 &&
    (if hw then s.dbg.edbsr0 &&& 0xFFFFFFFE#32 != 0#32 else s.dbg.dbsr &&& 0xCFFFFFFE#32 != 0#32)

/-- The time base, and with it its taps, is frozen in a debug session (64_external_debug_psu.md R2250). -/
def State.tbHeld (s : State) : Bool := s.dbg.halted && !s.dbg.edbcr0.getLsbD 29
/-- The decrementer is frozen in a debug session. -/
def State.decHeld (s : State) : Bool := s.dbg.halted && !s.dbg.edbcr0.getLsbD 28

/-- One time base clock (60_exceptions.md R2100, R2102). -/
def State.tick (s : State) : State :=
  if s.hidTben && !s.pins.tbdisable && !s.timersFrozen then
    let s := if s.tbHeld then s else s.setTb (s.tmr.tb + 1#64)
    if s.decHeld then s else { s with tmr := s.tmr.decTick }
  else s

/-- TCR after a write: the watchdog reset control is sticky (10_state.md R78). -/
def tcrWrite (old v : Word) : Word :=
  let v := v &&& 0xFFDFE000#32
  if old &&& 0x30000000#32 == 0#32 then v else insertBits v 0x30000000#32 old

end Sys2Proof.Machine
end

