-- ==== Sys2Proof/Machine/Spr.lean ====
section
/-! DEFINITION. The special purpose registers: the map from numbers, reads and writes with their masks and side effects
(spec/10_state.md R60 to R84, R110 to R114), and the device control registers (spec/43_apu_misc.md R912, R913). -/

namespace Sys2Proof.Machine

/-- A special purpose register (10_state.md R113). `sprg` are SPRG0 to SPRG9; `ivor` IVOR0 to IVOR15 and, from 16 on,
IVOR32 to IVOR35; `iac` IAC1 to IAC8. -/
inductive Spr where
  | xer
  | lr
  | ctr
  | dec
  | srr0
  | srr1
  | pid0
  | decar
  | csrr0
  | csrr1
  | dear
  | esr
  | ivpr
  | usprg0
  | sprg (n : Fin 10)
  | tbl
  | tbu
  | pir
  | pvr
  | dbsr
  | dbcr0
  | dbcr1
  | dbcr2
  | iac (n : Fin 8)
  | dac1
  | dac2
  | dvc1
  | dvc2
  | tsr
  | tcr
  | ivor (n : Fin 20)
  | spefscr
  | l1cfg0
  | l1cfg1
  | dbcr3
  | dbcnt
  | dbcr4
  | dbcr5
  | dberc0
  | mcsrr0
  | mcsrr1
  | mcsr
  | mcar
  | dsrr0
  | dsrr1
  | ddam
  | dbcr6
  | mas0
  | mas1
  | mas2
  | mas3
  | mas4
  | mas6
  | tlb0cfg
  | tlb1cfg
  | l1finv1
  | devent
  | hdbcr0
  | hid0
  | hid1
  | l1csr0
  | l1csr1
  | mmucsr0
  | bucsr
  | mmucfg
  | l1finv0
  | svr
deriving DecidableEq, Repr

/-- What a number names: the register, and whether `mfspr` and `mtspr` may use it. -/
structure SprEntry where
  reg : Spr
  readable : Bool
  writable : Bool
deriving DecidableEq, Repr

/-- The SPR map (10_state.md R113). -/
def sprNamed (n : Nat) : Option SprEntry :=
  match n with
  | 1 => some ⟨.xer, true, true⟩
  | 8 => some ⟨.lr, true, true⟩
  | 9 => some ⟨.ctr, true, true⟩
  | 22 => some ⟨.dec, true, true⟩
  | 26 => some ⟨.srr0, true, true⟩
  | 27 => some ⟨.srr1, true, true⟩
  | 48 => some ⟨.pid0, true, true⟩
  | 54 => some ⟨.decar, true, true⟩
  | 58 => some ⟨.csrr0, true, true⟩
  | 59 => some ⟨.csrr1, true, true⟩
  | 61 => some ⟨.dear, true, true⟩
  | 62 => some ⟨.esr, true, true⟩
  | 63 => some ⟨.ivpr, true, true⟩
  | 256 => some ⟨.usprg0, true, true⟩
  | 260 => some ⟨.sprg 4, true, false⟩
  | 261 => some ⟨.sprg 5, true, false⟩
  | 262 => some ⟨.sprg 6, true, false⟩
  | 263 => some ⟨.sprg 7, true, false⟩
  | 268 => some ⟨.tbl, true, false⟩
  | 269 => some ⟨.tbu, true, false⟩
  | 272 => some ⟨.sprg 0, true, true⟩
  | 273 => some ⟨.sprg 1, true, true⟩
  | 274 => some ⟨.sprg 2, true, true⟩
  | 275 => some ⟨.sprg 3, true, true⟩
  | 276 => some ⟨.sprg 4, true, true⟩
  | 277 => some ⟨.sprg 5, true, true⟩
  | 278 => some ⟨.sprg 6, true, true⟩
  | 279 => some ⟨.sprg 7, true, true⟩
  | 284 => some ⟨.tbl, false, true⟩
  | 285 => some ⟨.tbu, false, true⟩
  | 286 => some ⟨.pir, true, true⟩
  | 287 => some ⟨.pvr, true, false⟩
  | 304 => some ⟨.dbsr, true, true⟩
  | 308 => some ⟨.dbcr0, true, true⟩
  | 309 => some ⟨.dbcr1, true, true⟩
  | 310 => some ⟨.dbcr2, true, true⟩
  | 312 => some ⟨.iac 0, true, true⟩
  | 313 => some ⟨.iac 1, true, true⟩
  | 314 => some ⟨.iac 2, true, true⟩
  | 315 => some ⟨.iac 3, true, true⟩
  | 316 => some ⟨.dac1, true, true⟩
  | 317 => some ⟨.dac2, true, true⟩
  | 318 => some ⟨.dvc1, true, true⟩
  | 319 => some ⟨.dvc2, true, true⟩
  | 336 => some ⟨.tsr, true, true⟩
  | 340 => some ⟨.tcr, true, true⟩
  | 400 => some ⟨.ivor 0, true, true⟩
  | 401 => some ⟨.ivor 1, true, true⟩
  | 402 => some ⟨.ivor 2, true, true⟩
  | 403 => some ⟨.ivor 3, true, true⟩
  | 404 => some ⟨.ivor 4, true, true⟩
  | 405 => some ⟨.ivor 5, true, true⟩
  | 406 => some ⟨.ivor 6, true, true⟩
  | 407 => some ⟨.ivor 7, true, true⟩
  | 408 => some ⟨.ivor 8, true, true⟩
  | 409 => some ⟨.ivor 9, true, true⟩
  | 410 => some ⟨.ivor 10, true, true⟩
  | 411 => some ⟨.ivor 11, true, true⟩
  | 412 => some ⟨.ivor 12, true, true⟩
  | 413 => some ⟨.ivor 13, true, true⟩
  | 414 => some ⟨.ivor 14, true, true⟩
  | 415 => some ⟨.ivor 15, true, true⟩
  | 512 => some ⟨.spefscr, true, true⟩
  | 515 => some ⟨.l1cfg0, true, false⟩
  | 516 => some ⟨.l1cfg1, true, false⟩
  | 528 => some ⟨.ivor 16, true, true⟩
  | 529 => some ⟨.ivor 17, true, true⟩
  | 530 => some ⟨.ivor 18, true, true⟩
  | 531 => some ⟨.ivor 19, true, true⟩
  | 561 => some ⟨.dbcr3, true, true⟩
  | 562 => some ⟨.dbcnt, true, true⟩
  | 563 => some ⟨.dbcr4, true, true⟩
  | 564 => some ⟨.dbcr5, true, true⟩
  | 565 => some ⟨.iac 4, true, true⟩
  | 566 => some ⟨.iac 5, true, true⟩
  | 567 => some ⟨.iac 6, true, true⟩
  | 568 => some ⟨.iac 7, true, true⟩
  | 569 => some ⟨.dberc0, true, false⟩
  | 570 => some ⟨.mcsrr0, true, true⟩
  | 571 => some ⟨.mcsrr1, true, true⟩
  | 572 => some ⟨.mcsr, true, true⟩
  | 573 => some ⟨.mcar, true, true⟩
  | 574 => some ⟨.dsrr0, true, true⟩
  | 575 => some ⟨.dsrr1, true, true⟩
  | 576 => some ⟨.ddam, true, true⟩
  | 603 => some ⟨.dbcr6, true, true⟩
  | 604 => some ⟨.sprg 8, true, true⟩
  | 605 => some ⟨.sprg 9, true, true⟩
  | 624 => some ⟨.mas0, true, true⟩
  | 625 => some ⟨.mas1, true, true⟩
  | 626 => some ⟨.mas2, true, true⟩
  | 627 => some ⟨.mas3, true, true⟩
  | 628 => some ⟨.mas4, true, true⟩
  | 630 => some ⟨.mas6, true, true⟩
  | 688 => some ⟨.tlb0cfg, true, false⟩
  | 689 => some ⟨.tlb1cfg, true, false⟩
  | 959 => some ⟨.l1finv1, true, true⟩
  | 975 => some ⟨.devent, true, true⟩
  | 976 => some ⟨.hdbcr0, true, true⟩
  | 1008 => some ⟨.hid0, true, true⟩
  | 1009 => some ⟨.hid1, true, true⟩
  | 1010 => some ⟨.l1csr0, true, true⟩
  | 1011 => some ⟨.l1csr1, true, true⟩
  | 1012 => some ⟨.mmucsr0, true, true⟩
  | 1013 => some ⟨.bucsr, true, true⟩
  | 1015 => some ⟨.mmucfg, true, false⟩
  | 1016 => some ⟨.l1finv0, true, true⟩
  | 1023 => some ⟨.svr, true, false⟩
  | _ => none

/-- The privilege bit of an SPR number (10_state.md R111). -/
def sprPrivileged (n : BitVec 10) : Bool := n.getLsbD 4

/-! Ownership of debug registers (61_debug.md R2201, R2232). -/

/-- The bits of a mask list that software owns: each with the DBERC0 bits it needs. -/
def Debug.ownBits (d : Debug) (l : List (Word × Word)) : Word :=
  l.foldl (fun a p => if d.softOwns p.1 then a ||| p.2 else a) 0#32

/-- DBCR1 or DBCR5: US and ER of four registers (whose DBERC0 bits are given) and the two pair modes. -/
def Debug.ownPairs (d : Debug) (a b c e : Word) : Word :=
  d.ownBits [(a, 0xF0000000#32), (b, 0x0F000000#32), (a ||| b, 0x00C00000#32), (c, 0x0000F000#32), (e, 0x00000F00#32),
    (c ||| e, 0x000000C0#32)]

/-- DBCR0: the bits at the positions of DBERC0, and RST, DAC1, DAC2. -/
def Debug.ownDbcr0 (d : Debug) : Word :=
  if !d.edm then 0x7FFFFFE1#32
  else
    (if d.dberc0.getLsbD 30 then d.dberc0 &&& 0x4FF0FFE1#32 else 0#32) |||
      d.ownBits [(0x20000000#32, 0x30000000#32), (ownDac1, 0x000C0000#32), (ownDac2, 0x00030000#32)]

/-- The bits of a debug register that software owns, of those it implements; all ones for other registers. -/
def Debug.ownMask (d : Debug) (r : Spr) : Word :=
  match r with
  | .dbcr0 => d.ownDbcr0
  | .dbcr1 => d.ownPairs 0x00800000#32 0x00400000#32 0x00200000#32 0x00100000#32
  | .dbcr2 =>
    d.ownBits [(ownDac1, 0xF00CFF00#32), (ownDac2, 0x0F0300FF#32), (ownDac1 ||| ownDac2, 0x00C00000#32),
      (ownDac1 ||| 0x00800000#32, 0x00200000#32), (ownDac2 ||| 0x00200000#32, 0x00100000#32)]
  | .dbcr3 => d.ownBits [(0x100#32, 0xFFF800FE#32), (0x80#32, 0x0007FF00#32), (0x180#32, 1#32)]
  | .dbcr4 => d.ownBits [(ownDac1, 0x4000F000#32), (ownDac2, 0x10000F00#32)]
  | .dbcr5 => d.ownPairs 0x00004000#32 0x00002000#32 0x00001000#32 0x00000800#32
  | .dbcr6 =>
    d.ownBits [(iacBit 0, 0xF0000000#32), (iacBit 1, 0x0F000000#32), (iacBit 2, 0x00F00000#32), (iacBit 3, 0x000F0000#32),
      (iacBit 4, 0x0000F000#32), (iacBit 5, 0x00000F00#32), (iacBit 6, 0x000000F0#32), (iacBit 7, 0x0000000F#32)]
  | .dbcnt => d.ownBits [(0x100#32, 0xFFFF0000#32), (0x80#32, 0x0000FFFF#32)]
  | .iac n => d.ownBits [(iacBit n.val, 0xFFFFFFFF#32)]
  | .dac1 => d.ownBits [(ownDac1, 0xFFFFFFFF#32)]
  | .dac2 => d.ownBits [(ownDac2, 0xFFFFFFFF#32)]
  | .dvc1 => d.ownBits [(ownDac1, 0xFFFFFFFF#32)]
  | .dvc2 => d.ownBits [(ownDac2, 0xFFFFFFFF#32)]
  | .devent => if !d.edm || d.dberc0.getLsbD 3 then 0xFF0000FF#32 else 0x000000FF#32
  | .ddam => if !d.edm || d.dberc0.getLsbD 3 then 0xFFFFFFFF#32 else 0#32
  | _ => 0xFFFFFFFF#32

/-! Reading (10_state.md R110). -/

/-- The value of a 32-bit register; DDAM reads as zeros (63_nexus.md R2583). -/
def State.sprValue (s : State) (r : Spr) : Word :=
  match r with
  | .xer => s.xer
  | .lr => s.lr
  | .ctr => s.ctr
  | .dec => s.tmr.dec
  | .srr0 => s.ints.srr0
  | .srr1 => s.ints.srr1
  | .pid0 => s.mmu.pid0
  | .decar => s.tmr.decar
  | .csrr0 => s.ints.csrr0
  | .csrr1 => s.ints.csrr1
  | .dear => s.ints.dear
  | .esr => s.ints.esr
  | .ivpr => s.ints.ivpr
  | .usprg0 => s.sprg.usprg0
  | .sprg n => s.sprg.sprg.get n
  | .tbl => loW s.tmr.tb
  | .tbu => hiW s.tmr.tb
  | .pir => s.hid.pir
  | .pvr => Config.pvrHigh ++ s.pins.pvrin
  | .dbsr => s.dbg.dbsr
  | .dbcr0 => s.dbg.dbcr0
  | .dbcr1 => s.dbg.dbcr1
  | .dbcr2 => s.dbg.dbcr2
  | .iac n => s.dbg.iac.get n
  | .dac1 => s.dbg.dac1
  | .dac2 => s.dbg.dac2
  | .dvc1 => loW s.dbg.dvc1
  | .dvc2 => loW s.dbg.dvc2
  | .tsr => s.tmr.tsr
  | .tcr => s.tmr.tcr
  | .ivor n => s.ints.ivor.get n
  | .spefscr => s.spefscr
  | .l1cfg0 => Config.l1cfg0
  | .l1cfg1 => Config.l1cfg1
  | .dbcr3 => s.dbg.dbcr3
  | .dbcnt => s.dbg.dbcnt
  | .dbcr4 => s.dbg.dbcr4
  | .dbcr5 => s.dbg.dbcr5
  | .dberc0 => s.dbg.dberc0
  | .mcsrr0 => s.ints.mcsrr0
  | .mcsrr1 => s.ints.mcsrr1
  | .mcsr => s.ints.mcsr
  | .mcar => s.ints.mcar
  | .dsrr0 => s.ints.dsrr0
  | .dsrr1 => s.ints.dsrr1
  | .ddam => 0#32
  | .dbcr6 => s.dbg.dbcr6
  | .mas0 => s.mmu.mas0
  | .mas1 => s.mmu.mas1
  | .mas2 => s.mmu.mas2
  | .mas3 => s.mmu.mas3
  | .mas4 => s.mmu.mas4
  | .mas6 => s.mmu.mas6
  | .tlb0cfg => Config.tlb0cfg
  | .tlb1cfg => Config.tlb1cfg
  | .l1finv1 => s.cache.l1finv1
  | .devent => s.dbg.devent
  | .hdbcr0 => s.cache.hdbcr0
  | .hid0 => s.hid.hid0
  | .hid1 => s.hid.hid1 ||| (boolWord s.resv <<< 7)
  | .l1csr0 => s.cache.l1csr0
  | .l1csr1 => s.cache.l1csr1
  | .mmucsr0 => 0#32
  | .bucsr => s.hid.bucsr
  | .mmucfg => Config.mmucfg
  | .l1finv0 => s.cache.l1finv0
  | .svr => s.pins.sysvers

/-- The bits of a debug register that software owns when no debugger owns any (61_debug.md R2201); all ones for other
registers. -/
def Debug.implMask (d : Debug) (r : Spr) : Word := { d with dbcr0 := 0#32 }.ownMask r

/-- The bits of a register that read as any value: ESR bits 12, 13 and 15 once written 1 (10_state.md R71), DEVENT[DEVNT]
(61_debug.md R2234), and debug fields that software does not own (R2201); none of DDAM. -/
def State.sprOpen (s : State) (r : Spr) : Word :=
  match r with
  | .esr => s.ints.esr &&& 0x000D0000#32
  | .ddam => 0#32
  | .devent => (~~~s.dbg.ownMask .devent ||| 0x000000FF#32) &&& s.dbg.implMask .devent
  | _ => ~~~s.dbg.ownMask r &&& s.dbg.implMask r

/-- The high word of DVC1 or DVC2 (61_debug.md R2218); the other registers have none. -/
def State.sprHigh (s : State) (r : Spr) : Option Word :=
  match r with
  | .dvc1 => some (hiW s.dbg.dvc1)
  | .dvc2 => some (hiW s.dbg.dvc2)
  | _ => none

/-- `mfspr`'s effect on its register: the low word, or all 64 bits for DVC1 and DVC2. -/
def State.mfspr (s : State) (r : Spr) (rt : Gpr) : State :=
  let o := s.sprOpen r
  let f (w : Word) (k : Nat) : Word := if o == 0#32 then w else insertBits w o (Config.freeWord (s.free + k))
  let s' := if o == 0#32 then s else { s with free := s.free + 2 }
  match s.sprHigh r with
  | none => s'.setGprW rt (f (s.sprValue r) 0)
  | some h => s'.setGprD rt (f h 1 ++ f (s.sprValue r) 0)

/-! Writing (10_state.md R112; the masks and the side effects are those of each register's rule). -/

/-- L1CSR0 or L1CSR1 written: a 1 in CINV or CLFC runs its operation, and both read 0 (22_cache.md R411, R431, R432). A write of L1CSR0 empties the store buffer first (R430). -/
def State.writeL1csr (s : State) (side : Side) (v : Word) : State :=
  let s := match side with | .instr => s | .data => s.flushBuffers
  let c := s.cacheOf side
  let s := match side with | .instr => if v.getLsbD 1 then (s.staleAll c.lines).purgeAll else s | .data => s
  let c := if v.getLsbD 1 then c.flashInvalidate else c
  let c := if v.getLsbD 8 then c.flashUnlock else c
  let s := s.setCache side c
  match side with
  | .data => { s with cache := { s.cache with l1csr0 := v &&& 0xFF1DBEED#32 } }
  | .instr => { s with cache := { s.cache with l1csr1 := v &&& 0x0001B6E5#32 } }

/-- A write of a debug control register: only the bits software owns change. -/
def State.writeDbg (s : State) (r : Spr) (v : Word) : State :=
  let w (old mask : Word) : Word := insertBits old (s.dbg.ownMask r &&& mask) v
  let d := s.dbg
  match r with
  | .dbcr0 => { s with dbg := { d with dbcr0 := w d.dbcr0 0x7FFFFFE1#32 } }
  | .dbcr1 => { s with dbg := { d with dbcr1 := w d.dbcr1 0xFFC0FFC0#32 } }
  | .dbcr2 => { s with dbg := { d with dbcr2 := w d.dbcr2 0xFFFFFFFF#32 } }
  | .dbcr3 => { s with dbg := { d with dbcr3 := w d.dbcr3 0xFFFFFFFF#32 } }
  | .dbcr4 => { s with dbg := { d with dbcr4 := w d.dbcr4 0x5000FF00#32 } }
  | .dbcr5 => { s with dbg := { d with dbcr5 := w d.dbcr5 0xFFC0FFC0#32 } }
  | .dbcr6 => { s with dbg := { d with dbcr6 := w d.dbcr6 0xFFFFFFFF#32 } }
  | .dbcnt => { s with dbg := { d with dbcnt := w d.dbcnt 0xFFFFFFFF#32 }, ev := { s.ev with dbcntWritten := d.ownMask .dbcnt } }
  | .iac n => { s with dbg := { d with iac := d.iac.set n.val (w (d.iac.get n) 0xFFFFFFFF#32) n.isLt } }
  | .dac1 => { s with dbg := { d with dac1 := w d.dac1 0xFFFFFFFF#32 } }
  | .dac2 => { s with dbg := { d with dac2 := w d.dac2 0xFFFFFFFF#32 } }
  | .ddam => { s with dbg := { d with ddam := w d.ddam 0xFFFFFFFF#32 } }
  | .devent =>
    { s with
      dbg := { d with devent := w d.devent 0xFF0000FF#32 }
      ev := { s.ev with devnt := s.ev.devnt ||| v.extractLsb' 0 8 } }
  | _ => s

/-- A write of DBSR clears bits of the newest value (61_debug.md R2230); older values that may still be in effect stay. -/
def State.clearDbsr (s : State) (v : Word) : State :=
  { s with
    dbg := { s.dbg with dbsr := s.dbg.dbsr &&& ~~~v }
    sync :=
      { s.sync with new := s.sync.new.map fun p => if p.1 == .dbsr then (p.1, p.2 &&& ~~~v) else p } }

/-- `mtspr` of a 32-bit register. A tag error met by an L1FINV0 command is an error report machine check. -/
def State.writeSpr (s : State) (r : Spr) (v : Word) : Res Unit :=
  match r with
  | .xer => .ok () { s with xer := v &&& xerMask }
  | .lr => .ok () { s with lr := v }
  | .ctr => .ok () { s with ctr := v }
  | .dec => .ok () { s with tmr := { s.tmr with dec := v } }
  | .srr0 => .ok () { s with ints := { s.ints with srr0 := v } }
  | .srr1 => .ok () { s with ints := { s.ints with srr1 := v } }
  | .pid0 => .ok () { s with mmu := { s.mmu with pid0 := v &&& 0x000000FF#32 } }
  | .decar => .ok () { s with tmr := { s.tmr with decar := v } }
  | .csrr0 => .ok () { s with ints := { s.ints with csrr0 := v } }
  | .csrr1 => .ok () { s with ints := { s.ints with csrr1 := v } }
  | .dear => .ok () { s with ints := { s.ints with dear := v } }
  | .esr => .ok () { s with ints := { s.ints with esr := v &&& 0x0FBF00A2#32 } }
  | .ivpr => .ok () { s with ints := { s.ints with ivpr := v &&& 0xFFFF0000#32 } }
  | .usprg0 => .ok () { s with sprg := { s.sprg with usprg0 := v } }
  | .sprg n => .ok () { s with sprg := { s.sprg with sprg := s.sprg.sprg.set n.val v n.isLt } }
  | .tbl => .ok () (s.setTb (hiW s.tmr.tb ++ v))
  | .tbu => .ok () (s.setTb (v ++ loW s.tmr.tb))
  | .pir => .ok () { s with hid := { s.hid with pir := v } }
  | .pvr => .ok () s
  | .dbsr => .ok () (s.clearDbsr v)
  | .dbcr0 => .ok () (s.writeDbg .dbcr0 v)
  | .dbcr1 => .ok () (s.writeDbg .dbcr1 v)
  | .dbcr2 => .ok () (s.writeDbg .dbcr2 v)
  | .iac n => .ok () (s.writeDbg (.iac n) v)
  | .dac1 => .ok () (s.writeDbg .dac1 v)
  | .dac2 => .ok () (s.writeDbg .dac2 v)
  | .dvc1 => .ok () s
  | .dvc2 => .ok () s
  | .tsr => .ok () { s with tmr := { s.tmr with tsr := s.tmr.tsr &&& ~~~v } }
  | .tcr => .ok () { s with tmr := { s.tmr with tcr := tcrWrite s.tmr.tcr v } }
  | .ivor n => .ok () { s with ints := { s.ints with ivor := s.ints.ivor.set n.val (v &&& 0x0000FFF0#32) n.isLt } }
  | .spefscr => .ok () { s with spefscr := v &&& 0xFF3EFF7F#32 }
  | .l1cfg0 => .ok () s
  | .l1cfg1 => .ok () s
  | .dbcr3 => .ok () (s.writeDbg .dbcr3 v)
  | .dbcnt => .ok () (s.writeDbg .dbcnt v)
  | .dbcr4 => .ok () (s.writeDbg .dbcr4 v)
  | .dbcr5 => .ok () (s.writeDbg .dbcr5 v)
  | .dberc0 => .ok () s
  | .mcsrr0 => .ok () { s with ints := { s.ints with mcsrr0 := v } }
  | .mcsrr1 => .ok () { s with ints := { s.ints with mcsrr1 := v } }
  | .mcsr => .ok () { s with ints := { s.ints with mcsr := s.ints.mcsr &&& ~~~v } }
  | .mcar => .ok () { s with ints := { s.ints with mcar := v } }
  | .dsrr0 => .ok () { s with ints := { s.ints with dsrr0 := v } }
  | .dsrr1 => .ok () { s with ints := { s.ints with dsrr1 := v } }
  | .ddam => .ok () (s.writeDbg .ddam v)
  | .dbcr6 => .ok () (s.writeDbg .dbcr6 v)
  | .mas0 => .ok () { s with mmu := { s.mmu with mas0 := v &&& 0x301F001F#32 } }
  | .mas1 => .ok () { s with mmu := { s.mmu with mas1 := v &&& 0xC0FF1F80#32 } }
  | .mas2 => .ok () { s with mmu := { s.mmu with mas2 := v &&& 0xFFFFFC3F#32 } }
  | .mas3 => .ok () { s with mmu := { s.mmu with mas3 := v &&& 0xFFFFFFFF#32 } }
  | .mas4 => .ok () { s with mmu := { s.mmu with mas4 := v &&& 0x30030FBF#32 } }
  | .mas6 => .ok () { s with mmu := { s.mmu with mas6 := v &&& 0x00FF0001#32 } }
  | .tlb0cfg => .ok () s
  | .tlb1cfg => .ok () s
  | .l1finv1 =>
    let s := s.finv1 v
    .ok () { s with cache := { s.cache with l1finv1 := v &&& 0x03000FE3#32 } }
  | .devent => .ok () (s.writeDbg .devent v)
  | .hdbcr0 => .ok () { s with cache := { s.cache with hdbcr0 := v &&& 0x0000006D#32 } }
  | .hid0 => .ok () { s with hid := { s.hid with hid0 := v &&& 0x80E37F01#32 } }
  | .hid1 => .ok () { s with hid := { s.hid with hid1 := v &&& 0x0000FF00#32 } }
  | .l1csr0 => .ok () (s.writeL1csr .data v)
  | .l1csr1 => .ok () (s.writeL1csr .instr v)
  | .mmucsr0 => .ok () (if v.getLsbD 1 then { s with mmu := s.mmu.flashInvalidate } else s)
  | .bucsr => .ok () { s with hid := { s.hid with bucsr := v &&& 0x00000037#32 } }
  | .mmucfg => .ok () s
  | .l1finv0 =>
    (s.finv0 v).andThen fun _ s => .ok () { s with cache := { s.cache with l1finv0 := v &&& 0x03000FE3#32 } }
  | .svr => .ok () s

/-- The register whose change a write of an SPR owes a context synchronizing instruction, if it does (10_state.md R115;
61_debug.md R2203; log entry 16). -/
def Spr.owes (r : Spr) : Option SyncReg :=
  match r with
  | .pid0 => some .pid0
  | .spefscr => some .spefscr
  | .hid0 => some .hid0
  | .hid1 => some .hid1
  | .bucsr => some .bucsr
  | .l1csr0 => some .l1csr0
  | .l1csr1 => some .l1csr1
  | .dbcr0 => some (.dbcr 0)
  | .dbcr1 => some (.dbcr 1)
  | .dbcr2 => some (.dbcr 2)
  | .dbcr3 => some (.dbcr 3)
  | .dbcr4 => some (.dbcr 4)
  | .dbcr5 => some (.dbcr 5)
  | .dbcr6 => some (.dbcr 6)
  | .dbsr => some .dbsr
  | .dbcnt => some .dbcnt
  | .mas0 => some .mas0
  | .mas1 => some .mas1
  | .mas2 => some .mas2
  | .mas3 => some .mas3
  | .mas4 => some .mas4
  | .mas6 => some .mas6
  | _ => none

/-- Some debug counter may count: a count enable is set in a debug mode. -/
def Debug.counting (d : Debug) : Bool := d.active && d.dbcr3 &&& 0xFFFFFF00#32 != 0#32

/-- What a write of an SPR owes in a state: that of DBCNT nothing while no counter is enabled (10_state.md R115). -/
def State.owes (s : State) (r : Spr) : Option SyncReg :=
  match r.owes with
  | none => none
  | some q => if q == .dbcnt && !s.dbg.counting then none else some q

/-- `mtspr`'s effect from a register: all 64 bits for DVC1 and DVC2 (61_debug.md R2218). -/
def State.mtspr (s : State) (r : Spr) (rs : Gpr) : Res Unit :=
  match r with
  | .dvc1 => .ok () (if s.dbg.softOwns ownDac1 then { s with dbg := { s.dbg with dvc1 := s.gprD rs } } else s)
  | .dvc2 => .ok () (if s.dbg.softOwns ownDac2 then { s with dbg := { s.dbg with dvc2 := s.gprD rs } } else s)
  | _ =>
    let s' := match s.owes r with | none => s | some q => s.owe q
    s'.writeSpr r (s.gprW rs)

/-- The answer to an invalid SPR reference (10_state.md R112). -/
def badSpr (n : BitVec 10) (s : State) : State :=
  if sprPrivileged n && s.user then raisePrivileged s else raiseIllegal s

/-! Device control registers (43_apu_misc.md R912, R913; 64_external_debug_psu.md R2280 to R2283;
23_cache_errors_coherency.md R475, R476). -/

/-- A device control register. -/
inductive Dcr where
  | pscr
  | pssr
  | pshr
  | pslr
  | psctr
  | psuhr
  | psulr
  | cdacntl
  | cdadata
deriving DecidableEq, Repr

/-- The register of a DCR number; the numbers of CDACNTL and CDADATA are straps (92_eei_decisions.md D43). -/
def dcrNamed (p : Pins) (n : BitVec 10) : Option Dcr :=
  match n.toNat with
  | 272 => some .pscr
  | 273 => some .pssr
  | 274 => some .pshr
  | 275 => some .pslr
  | 276 => some .psctr
  | 277 => some .psuhr
  | 278 => some .psulr
  | _ => if p.dcrnCdacntl == some n then some .cdacntl else if p.dcrnCdadata == some n then some .cdadata else none

/-- `mfdcr`'s value: all accumulations of earlier loads and stores, whether or not an `mbar` or `msync` stands before it (DESIGN
CHOICE, log entry 61; 64_external_debug_psu.md R2284 lets it miss some without one). -/
def State.readDcr (s : State) (r : Dcr) : Word :=
  match r with
  | .pscr => s.psu.pscr
  | .pssr => s.psu.pssr
  | .pshr => s.psu.pshr
  | .pslr => s.psu.pslr
  | .psctr => s.psu.psctr
  | .psuhr => 0#32
  | .psulr => 0#32
  | .cdacntl => s.cache.cdacntl
  | .cdadata => s.cache.cdadata

/-- A write of PSCR: INIT clears the signatures and the count, and reads 0 (64_external_debug_psu.md R2282). -/
def Psu.writeControl (p : Psu) (v : Word) : Psu :=
  let c := v &&& 0x00000026#32
  if v.getLsbD 0 then { p with pscr := c, pshr := 0, pslr := 0, psctr := 0 } else { p with pscr := c }

/-- `mtdcr`'s effect. A context synchronizing instruction must follow one of PSCR: until then the loads and stores of each
instruction are accumulated under the old or the new control value (64_external_debug_psu.md R2284; 93_implementation_defined.md
U5). INIT, and a write of another register, take effect at once (DESIGN CHOICE, log entry 61). -/
def State.writeDcr (s : State) (r : Dcr) (v : Word) : State :=
  let p := s.psu
  match r with
  | .pscr => let t := s.owe .pscr; { t with psu := p.writeControl v }
  | .pssr => { s with psu := { p with pssr := p.pssr &&& ~~~v } }
  | .pshr => { s with psu := { p with pshr := v } }
  | .pslr => { s with psu := { p with pslr := v } }
  | .psctr => { s with psu := { p with psctr := v } }
  | .psuhr => { s with psu := { p with pshr := Config.psuMisrStep p.pshr v } }
  | .psulr =>
    { s with
      psu :=
        { p with
          pslr := Config.psuMisrStep p.pslr v
          psctr := if p.pscr.getLsbD 5 then p.psctr + 1#32 else p.psctr } }
  | .cdacntl => s.writeCdacntl v
  | .cdadata => { s with cache := { s.cache with cdadata := v } }

end Sys2Proof.Machine
end

