-- ==== Sys2Proof/Machine/Flags.lean ====
section
/-! DEFINITION. Flag computations of the integer instructions (spec/10_state.md R58, R59, R62; spec/40_base_integer.md R601,
R640), and the one operation that writes an integer result with its flags. -/

namespace Sys2Proof.Machine

/-- A CR field from a comparison: less, greater, equal, summary overflow (40_base_integer.md R640). -/
def crBits (lt gt eq so : Bool) : BitVec 4 :=
  (if lt then 8#4 else 0#4) ||| (if gt then 4#4 else 0#4) ||| (if eq then 2#4 else 0#4) ||| (if so then 1#4 else 0#4)

/-- A signed comparison. -/
def cmpSigned (a b : Word) (so : Bool) : BitVec 4 := crBits (a.slt b) (b.slt a) (a == b) so
/-- An unsigned comparison. -/
def cmpUnsigned (a b : Word) (so : Bool) : BitVec 4 := crBits (a.ult b) (b.ult a) (a == b) so

/-- `add3`: the sum of two words and a carry, the carry out, the signed overflow (40_base_integer.md R601). -/
def add3 (a b : Word) (c : Bool) : Word × Bool × Bool :=
  let n := a.toNat + b.toNat + (if c then 1 else 0)
  let r := BitVec.ofNat 32 n
  (r, decide (2 ^ 32 ≤ n), a.msb == b.msb && r.msb != a.msb)

/-- Write XER[CA], if at all. -/
def State.putCa (s : State) (ca : Option Bool) : State :=
  match ca with
  | none => s
  | some c => { s with xer := putBits s.xer 0x20000000#32 c }

/-- Write XER[OV], if at all; an overflow sets SO (40_base_integer.md R601). -/
def State.putOv (s : State) (ov : Option Bool) : State :=
  match ov with
  | none => s
  | some v => { s with xer := putBits s.xer 0x40000000#32 v ||| (if v then 0x80000000#32 else 0#32) }

/-- `record`: CR0 from a result and XER[SO] (10_state.md R59). -/
def State.record (s : State) (r : Word) : State := s.setCrField 0#3 (cmpSigned r 0#32 s.xerSo)

/-- `record` when the instruction asks for it. -/
def State.recordIf (s : State) (rc : Bool) (r : Word) : State := if rc then s.record r else s

/-- On to the next instruction, past one of `n` bytes. -/
def State.advance (s : State) (n : Nat) : State := { s with pc := s.nextPc n }

/-- Write an integer result: the low word of a register, CA and OV if given, CR0 if recorded; then go on past an
instruction of `len` bytes (40_base_integer.md R600 to R602). -/
def State.result (s : State) (len : Nat) (rt : Gpr) (r : Word) (ca ov : Option Bool) (rc : Bool) : State :=
  ((((s.setGprW rt r).putCa ca).putOv ov).recordIf rc r).advance len

/-- Write a sum with its carry (when `carry`) and its overflow (when `oe`). -/
def State.resultAdd (s : State) (len : Nat) (rt : Gpr) (x : Word × Bool × Bool) (carry oe rc : Bool) : State :=
  s.result len rt x.1 (if carry then some x.2.1 else none) (if oe then some x.2.2 else none) rc

/-- Write a CR field and go on. -/
def State.resultCr (s : State) (len : Nat) (crf : CrField) (v : BitVec 4) : State := (s.setCrField crf v).advance len

/-- The signed product of two words. -/
def mulSigned (a b : Word) : DWord := a.signExtend 64 * b.signExtend 64
/-- The unsigned product of two words. -/
def mulUnsigned (a b : Word) : DWord := a.zeroExtend 64 * b.zeroExtend 64

/-- A product does not fit in a signed word (40_base_integer.md R627). -/
def mulOverflow (p : DWord) : Bool := p != (loW p).signExtend 64

/-- Shift left by 0 to 63 (40_base_integer.md R673). -/
def shiftLeft (s : Word) (n : Nat) : Word := if 32 ≤ n then 0#32 else s <<< n
/-- Shift right by 0 to 63, zeros in (40_base_integer.md R674). -/
def shiftRight (s : Word) (n : Nat) : Word := if 32 ≤ n then 0#32 else s >>> n
/-- Shift right by 0 to 63, the sign in (40_base_integer.md R675). -/
def shiftSigned (s : Word) (n : Nat) : Word :=
  if 32 ≤ n then (if s.msb then 0xFFFFFFFF#32 else 0#32) else s.sshiftRight n
/-- The carry of an algebraic right shift: negative, and a 1 was shifted out (40_base_integer.md R675). -/
def shiftCarry (s : Word) (n : Nat) : Bool :=
  if 32 ≤ n then s.msb else s.msb && s &&& ((1#32 <<< n) - 1#32) != 0#32

/-- The 6-bit shift amount in a register. -/
def shiftAmount (w : Word) : Nat := (w.extractLsb' 0 6).toNat

/-- The quotient of signed words truncated toward zero (40_base_integer.md R630). -/
def quotSigned (a b : Word) : Word := BitVec.ofInt 32 (a.toInt.tdiv b.toInt)
/-- The quotient of unsigned words. -/
def quotUnsigned (a b : Word) : Word := BitVec.ofNat 32 (a.toNat / b.toNat)

/-- The signed division has no defined quotient (40_base_integer.md R630). -/
def divOpen (a b : Word) : Bool := b == 0#32 || (a == 0x80000000#32 && b == 0xFFFFFFFF#32)

/-- A division without a defined quotient (40_base_integer.md R630, R631; 93_implementation_defined.md U61): the result is
free, and so are LT, GT and EQ of a recorded CR0; OV and SO are set as usual. -/
def State.resultOpen (s : State) (rt : Gpr) (oe rc : Bool) : State :=
  let r := Config.freeWord s.free
  let f := (Config.freeWord (s.free + 1)).extractLsb' 1 3
  let s1 := ({ s with free := s.free + 2 }.setGprW rt r).putOv (if oe then some true else none)
  (if rc then s1.setCrField 0#3 (f ++ (if s1.xerSo then 1#1 else 0#1)) else s1).advance 4

end Sys2Proof.Machine
end

