-- ==== Sys2Proof/Syntax.lean ====
section
/-! DEFINITION. The instructions of the e200z759n3: one constructor for each row of the opcode table.
An operand is the encoded field, with three exceptions: the 4-bit register fields of the 16-bit VLE forms are already
the GPR number they name (44_vle.md R1020), the split SPR, DCR and PMR numbers are joined (30_encoding.md R505),
and OIMM is the value 1 to 32 that the OIM5 field stands for (44_vle.md R1067). -/

namespace Sys2Proof

/-- The instructions (30_encoding.md R503, 44_vle.md R1021). -/
inductive Instr where
  -- spec/21_mmu.md
  /-- `tlbre`: 21_mmu.md R330. -/
  | tlbre
  /-- `tlbwe`: 21_mmu.md R331. -/
  | tlbwe
  /-- `tlbsx`: 21_mmu.md R332. -/
  | tlbsx (ra rb : Gpr)
  /-- `tlbivax`: 21_mmu.md R333. -/
  | tlbivax (ra rb : Gpr)
  /-- `tlbsync`: 21_mmu.md R334. -/
  | tlbsync
  -- spec/22_cache.md
  /-- `icbi`: 22_cache.md R440. -/
  | icbi (ra rb : Gpr)
  /-- `icbt`: 22_cache.md R441. -/
  | icbt (ct : BitVec 4) (ra rb : Gpr)
  /-- `dcba`: 22_cache.md R442. -/
  | dcba (ra rb : Gpr)
  /-- `dcbf`: 22_cache.md R443. -/
  | dcbf (ra rb : Gpr)
  /-- `dcbi`: 22_cache.md R444. -/
  | dcbi (ra rb : Gpr)
  /-- `dcbst`: 22_cache.md R445. -/
  | dcbst (ra rb : Gpr)
  /-- `dcbt`: 22_cache.md R446. -/
  | dcbt (ct : BitVec 4) (ra rb : Gpr)
  /-- `dcbtst`: 22_cache.md R447. -/
  | dcbtst (ct : BitVec 4) (ra rb : Gpr)
  /-- `dcbz`: 22_cache.md R448. -/
  | dcbz (ra rb : Gpr)
  /-- `dcbtls`: 22_cache.md R449. -/
  | dcbtls (ct : BitVec 4) (ra rb : Gpr)
  /-- `dcbtstls`: 22_cache.md R450. -/
  | dcbtstls (ct : BitVec 4) (ra rb : Gpr)
  /-- `dcblc`: 22_cache.md R451. -/
  | dcblc (ct : BitVec 4) (ra rb : Gpr)
  /-- `icbtls`: 22_cache.md R452. -/
  | icbtls (ct : BitVec 4) (ra rb : Gpr)
  /-- `icblc`: 22_cache.md R453. -/
  | icblc (ct : BitVec 4) (ra rb : Gpr)
  -- spec/40_base_integer.md
  /-- `addi`: 40_base_integer.md R610. -/
  | addi (rt ra : Gpr) (si : BitVec 16)
  /-- `addis`: 40_base_integer.md R611. -/
  | addis (rt ra : Gpr) (si : BitVec 16)
  /-- `addic`: 40_base_integer.md R612. -/
  | addic (rt ra : Gpr) (si : BitVec 16)
  /-- `addic.`: 40_base_integer.md R613. -/
  | addicDot (rt ra : Gpr) (si : BitVec 16)
  /-- `subfic`: 40_base_integer.md R614. -/
  | subfic (rt ra : Gpr) (si : BitVec 16)
  /-- `mulli`: 40_base_integer.md R615. -/
  | mulli (rt ra : Gpr) (si : BitVec 16)
  /-- `add`: 40_base_integer.md R616. -/
  | add (rt ra rb : Gpr) (oe rc : Bool)
  /-- `addc`: 40_base_integer.md R617. -/
  | addc (rt ra rb : Gpr) (oe rc : Bool)
  /-- `adde`: 40_base_integer.md R618. -/
  | adde (rt ra rb : Gpr) (oe rc : Bool)
  /-- `addme`: 40_base_integer.md R619. -/
  | addme (rt ra : Gpr) (oe rc : Bool)
  /-- `addze`: 40_base_integer.md R620. -/
  | addze (rt ra : Gpr) (oe rc : Bool)
  /-- `subf`: 40_base_integer.md R621. -/
  | subf (rt ra rb : Gpr) (oe rc : Bool)
  /-- `subfc`: 40_base_integer.md R622. -/
  | subfc (rt ra rb : Gpr) (oe rc : Bool)
  /-- `subfe`: 40_base_integer.md R623. -/
  | subfe (rt ra rb : Gpr) (oe rc : Bool)
  /-- `subfme`: 40_base_integer.md R624. -/
  | subfme (rt ra : Gpr) (oe rc : Bool)
  /-- `subfze`: 40_base_integer.md R625. -/
  | subfze (rt ra : Gpr) (oe rc : Bool)
  /-- `neg`: 40_base_integer.md R626. -/
  | neg (rt ra : Gpr) (oe rc : Bool)
  /-- `mullw`: 40_base_integer.md R627. -/
  | mullw (rt ra rb : Gpr) (oe rc : Bool)
  /-- `divw`: 40_base_integer.md R630. -/
  | divw (rt ra rb : Gpr) (oe rc : Bool)
  /-- `divwu`: 40_base_integer.md R631. -/
  | divwu (rt ra rb : Gpr) (oe rc : Bool)
  /-- `mulhw`: 40_base_integer.md R628. -/
  | mulhw (rt ra rb : Gpr) (rc : Bool)
  /-- `mulhwu`: 40_base_integer.md R629. -/
  | mulhwu (rt ra rb : Gpr) (rc : Bool)
  /-- `cmpi`: 40_base_integer.md R641. -/
  | cmpi (crf : CrField) (ra : Gpr) (si : BitVec 16)
  /-- `cmp`: 40_base_integer.md R642. -/
  | cmp (crf : CrField) (ra rb : Gpr)
  /-- `cmpli`: 40_base_integer.md R643. -/
  | cmpli (crf : CrField) (ra : Gpr) (ui : BitVec 16)
  /-- `cmpl`: 40_base_integer.md R644. -/
  | cmpl (crf : CrField) (ra rb : Gpr)
  /-- `andi.`: 40_base_integer.md R651. -/
  | andiDot (ra rs : Gpr) (ui : BitVec 16)
  /-- `andis.`: 40_base_integer.md R652. -/
  | andisDot (ra rs : Gpr) (ui : BitVec 16)
  /-- `ori`: 40_base_integer.md R653. -/
  | ori (ra rs : Gpr) (ui : BitVec 16)
  /-- `oris`: 40_base_integer.md R654. -/
  | oris (ra rs : Gpr) (ui : BitVec 16)
  /-- `xori`: 40_base_integer.md R655. -/
  | xori (ra rs : Gpr) (ui : BitVec 16)
  /-- `xoris`: 40_base_integer.md R656. -/
  | xoris (ra rs : Gpr) (ui : BitVec 16)
  /-- `and`: 40_base_integer.md R657. -/
  | and (ra rs rb : Gpr) (rc : Bool)
  /-- `andc`: 40_base_integer.md R658. -/
  | andc (ra rs rb : Gpr) (rc : Bool)
  /-- `or`: 40_base_integer.md R659. -/
  | or (ra rs rb : Gpr) (rc : Bool)
  /-- `orc`: 40_base_integer.md R660. -/
  | orc (ra rs rb : Gpr) (rc : Bool)
  /-- `xor`: 40_base_integer.md R661. -/
  | xor (ra rs rb : Gpr) (rc : Bool)
  /-- `nand`: 40_base_integer.md R662. -/
  | nand (ra rs rb : Gpr) (rc : Bool)
  /-- `nor`: 40_base_integer.md R663. -/
  | nor (ra rs rb : Gpr) (rc : Bool)
  /-- `eqv`: 40_base_integer.md R664. -/
  | eqv (ra rs rb : Gpr) (rc : Bool)
  /-- `extsb`: 40_base_integer.md R665. -/
  | extsb (ra rs : Gpr) (rc : Bool)
  /-- `extsh`: 40_base_integer.md R666. -/
  | extsh (ra rs : Gpr) (rc : Bool)
  /-- `cntlzw`: 40_base_integer.md R667. -/
  | cntlzw (ra rs : Gpr) (rc : Bool)
  /-- `rlwinm`: 40_base_integer.md R670. -/
  | rlwinm (ra rs : Gpr) (sh mb me : BitVec 5) (rc : Bool)
  /-- `rlwimi`: 40_base_integer.md R671. -/
  | rlwimi (ra rs : Gpr) (sh mb me : BitVec 5) (rc : Bool)
  /-- `rlwnm`: 40_base_integer.md R672. -/
  | rlwnm (ra rs rb : Gpr) (mb me : BitVec 5) (rc : Bool)
  /-- `slw`: 40_base_integer.md R673. -/
  | slw (ra rs rb : Gpr) (rc : Bool)
  /-- `srw`: 40_base_integer.md R674. -/
  | srw (ra rs rb : Gpr) (rc : Bool)
  /-- `sraw`: 40_base_integer.md R675. -/
  | sraw (ra rs rb : Gpr) (rc : Bool)
  /-- `srawi`: 40_base_integer.md R676. -/
  | srawi (ra rs : Gpr) (sh : BitVec 5) (rc : Bool)
  -- spec/41_base_loadstore.md
  /-- `lbz`: 41_base_loadstore.md R710. -/
  | lbz (rt : Gpr) (d : BitVec 16) (ra : Gpr)
  /-- `lbzu`: 41_base_loadstore.md R711. -/
  | lbzu (rt : Gpr) (d : BitVec 16) (ra : Gpr)
  /-- `lhz`: 41_base_loadstore.md R712. -/
  | lhz (rt : Gpr) (d : BitVec 16) (ra : Gpr)
  /-- `lhzu`: 41_base_loadstore.md R713. -/
  | lhzu (rt : Gpr) (d : BitVec 16) (ra : Gpr)
  /-- `lha`: 41_base_loadstore.md R714. -/
  | lha (rt : Gpr) (d : BitVec 16) (ra : Gpr)
  /-- `lhau`: 41_base_loadstore.md R715. -/
  | lhau (rt : Gpr) (d : BitVec 16) (ra : Gpr)
  /-- `lwz`: 41_base_loadstore.md R716. -/
  | lwz (rt : Gpr) (d : BitVec 16) (ra : Gpr)
  /-- `lwzu`: 41_base_loadstore.md R717. -/
  | lwzu (rt : Gpr) (d : BitVec 16) (ra : Gpr)
  /-- `stb`: 41_base_loadstore.md R720. -/
  | stb (rs : Gpr) (d : BitVec 16) (ra : Gpr)
  /-- `stbu`: 41_base_loadstore.md R721. -/
  | stbu (rs : Gpr) (d : BitVec 16) (ra : Gpr)
  /-- `sth`: 41_base_loadstore.md R722. -/
  | sth (rs : Gpr) (d : BitVec 16) (ra : Gpr)
  /-- `sthu`: 41_base_loadstore.md R723. -/
  | sthu (rs : Gpr) (d : BitVec 16) (ra : Gpr)
  /-- `stw`: 41_base_loadstore.md R724. -/
  | stw (rs : Gpr) (d : BitVec 16) (ra : Gpr)
  /-- `stwu`: 41_base_loadstore.md R725. -/
  | stwu (rs : Gpr) (d : BitVec 16) (ra : Gpr)
  /-- `lbzx`: 41_base_loadstore.md R726. -/
  | lbzx (rt ra rb : Gpr)
  /-- `lbzux`: 41_base_loadstore.md R727. -/
  | lbzux (rt ra rb : Gpr)
  /-- `lhzx`: 41_base_loadstore.md R728. -/
  | lhzx (rt ra rb : Gpr)
  /-- `lhzux`: 41_base_loadstore.md R729. -/
  | lhzux (rt ra rb : Gpr)
  /-- `lhax`: 41_base_loadstore.md R730. -/
  | lhax (rt ra rb : Gpr)
  /-- `lhaux`: 41_base_loadstore.md R731. -/
  | lhaux (rt ra rb : Gpr)
  /-- `lwzx`: 41_base_loadstore.md R732. -/
  | lwzx (rt ra rb : Gpr)
  /-- `lwzux`: 41_base_loadstore.md R733. -/
  | lwzux (rt ra rb : Gpr)
  /-- `stbx`: 41_base_loadstore.md R734. -/
  | stbx (rs ra rb : Gpr)
  /-- `stbux`: 41_base_loadstore.md R735. -/
  | stbux (rs ra rb : Gpr)
  /-- `sthx`: 41_base_loadstore.md R736. -/
  | sthx (rs ra rb : Gpr)
  /-- `sthux`: 41_base_loadstore.md R737. -/
  | sthux (rs ra rb : Gpr)
  /-- `stwx`: 41_base_loadstore.md R738. -/
  | stwx (rs ra rb : Gpr)
  /-- `stwux`: 41_base_loadstore.md R739. -/
  | stwux (rs ra rb : Gpr)
  /-- `lhbrx`: 41_base_loadstore.md R740. -/
  | lhbrx (rt ra rb : Gpr)
  /-- `lwbrx`: 41_base_loadstore.md R741. -/
  | lwbrx (rt ra rb : Gpr)
  /-- `sthbrx`: 41_base_loadstore.md R742. -/
  | sthbrx (rs ra rb : Gpr)
  /-- `stwbrx`: 41_base_loadstore.md R743. -/
  | stwbrx (rs ra rb : Gpr)
  /-- `lmw`: 41_base_loadstore.md R750. -/
  | lmw (rt : Gpr) (d : BitVec 16) (ra : Gpr)
  /-- `stmw`: 41_base_loadstore.md R751. -/
  | stmw (rs : Gpr) (d : BitVec 16) (ra : Gpr)
  -- spec/42_base_branch_cr_system.md
  /-- `b`: 42_base_branch_cr_system.md R802. -/
  | b (li : BitVec 24) (aa lk : Bool)
  /-- `bc`: 42_base_branch_cr_system.md R803. -/
  | bc (bo : BitVec 5) (bi : CrBit) (bd : BitVec 14) (aa lk : Bool)
  /-- `bclr`: 42_base_branch_cr_system.md R804. -/
  | bclr (bo : BitVec 5) (bi : CrBit) (lk : Bool)
  /-- `bcctr`: 42_base_branch_cr_system.md R805. -/
  | bcctr (bo : BitVec 5) (bi : CrBit) (lk : Bool)
  /-- `crand`: 42_base_branch_cr_system.md R811. -/
  | crand (bt ba bb : CrBit)
  /-- `crandc`: 42_base_branch_cr_system.md R812. -/
  | crandc (bt ba bb : CrBit)
  /-- `creqv`: 42_base_branch_cr_system.md R813. -/
  | creqv (bt ba bb : CrBit)
  /-- `crnand`: 42_base_branch_cr_system.md R814. -/
  | crnand (bt ba bb : CrBit)
  /-- `crnor`: 42_base_branch_cr_system.md R815. -/
  | crnor (bt ba bb : CrBit)
  /-- `cror`: 42_base_branch_cr_system.md R816. -/
  | cror (bt ba bb : CrBit)
  /-- `crorc`: 42_base_branch_cr_system.md R817. -/
  | crorc (bt ba bb : CrBit)
  /-- `crxor`: 42_base_branch_cr_system.md R818. -/
  | crxor (bt ba bb : CrBit)
  /-- `mcrf`: 42_base_branch_cr_system.md R819. -/
  | mcrf (crf crs : CrField)
  /-- `mcrxr`: 42_base_branch_cr_system.md R820. -/
  | mcrxr (crf : CrField)
  /-- `mfcr`: 42_base_branch_cr_system.md R821. -/
  | mfcr (rt : Gpr)
  /-- `mtcrf`: 42_base_branch_cr_system.md R822. -/
  | mtcrf (fxm : BitVec 8) (rs : Gpr)
  /-- `tw`: 42_base_branch_cr_system.md R831. -/
  | tw (tmask : BitVec 5) (ra rb : Gpr)
  /-- `twi`: 42_base_branch_cr_system.md R832. -/
  | twi (tmask : BitVec 5) (ra : Gpr) (simm : BitVec 16)
  /-- `sc`: 42_base_branch_cr_system.md R840. -/
  | sc
  /-- `rfi`: 42_base_branch_cr_system.md R841. -/
  | rfi
  /-- `rfci`: 42_base_branch_cr_system.md R842. -/
  | rfci
  /-- `isync`: 42_base_branch_cr_system.md R845. -/
  | isync
  /-- `mfmsr`: 42_base_branch_cr_system.md R847. -/
  | mfmsr (rt : Gpr)
  /-- `mtmsr`: 42_base_branch_cr_system.md R848. -/
  | mtmsr (rs : Gpr)
  /-- `wrtee`: 42_base_branch_cr_system.md R849. -/
  | wrtee (rs : Gpr)
  /-- `wrteei`: 42_base_branch_cr_system.md R852. -/
  | wrteei (e : Bool)
  /-- `mfspr`: 42_base_branch_cr_system.md R850. -/
  | mfspr (rt : Gpr) (sprn : BitVec 10)
  /-- `mtspr`: 42_base_branch_cr_system.md R851. -/
  | mtspr (sprn : BitVec 10) (rs : Gpr)
  -- spec/43_apu_misc.md
  /-- `isel`: 43_apu_misc.md R901. -/
  | isel (rt ra rb : Gpr) (crb : CrBit)
  /-- `rfdi`: 43_apu_misc.md R902. -/
  | rfdi
  /-- `rfmci`: 43_apu_misc.md R904. -/
  | rfmci
  /-- `dnh`: 43_apu_misc.md R903. -/
  | dnh (dui : BitVec 5) (duis : BitVec 10)
  /-- `wait`: 43_apu_misc.md R907. -/
  | wait
  /-- `msync`: 43_apu_misc.md R905. -/
  | msync
  /-- `mbar`: 43_apu_misc.md R906. -/
  | mbar (mo : BitVec 5)
  /-- `mfdcr`: 43_apu_misc.md R912. -/
  | mfdcr (rt : Gpr) (dcrn : BitVec 10)
  /-- `mtdcr`: 43_apu_misc.md R913. -/
  | mtdcr (dcrn : BitVec 10) (rs : Gpr)
  /-- `lbarx`: 43_apu_misc.md R920. -/
  | lbarx (rt ra rb : Gpr)
  /-- `lharx`: 43_apu_misc.md R921. -/
  | lharx (rt ra rb : Gpr)
  /-- `lwarx`: 43_apu_misc.md R922. -/
  | lwarx (rt ra rb : Gpr)
  /-- `stbcx.`: 43_apu_misc.md R923. -/
  | stbcxDot (rs ra rb : Gpr)
  /-- `sthcx.`: 43_apu_misc.md R924. -/
  | sthcxDot (rs ra rb : Gpr)
  /-- `stwcx.`: 43_apu_misc.md R925. -/
  | stwcxDot (rs ra rb : Gpr)
  /-- `e_lmvgprw`: 43_apu_misc.md R931. -/
  | eLmvgprw (d8 : BitVec 8) (ra : Gpr)
  /-- `e_stmvgprw`: 43_apu_misc.md R932. -/
  | eStmvgprw (d8 : BitVec 8) (ra : Gpr)
  /-- `e_lmvsprw`: 43_apu_misc.md R933. -/
  | eLmvsprw (d8 : BitVec 8) (ra : Gpr)
  /-- `e_stmvsprw`: 43_apu_misc.md R934. -/
  | eStmvsprw (d8 : BitVec 8) (ra : Gpr)
  /-- `e_lmvsrrw`: 43_apu_misc.md R936. -/
  | eLmvsrrw (d8 : BitVec 8) (ra : Gpr)
  /-- `e_stmvsrrw`: 43_apu_misc.md R937. -/
  | eStmvsrrw (d8 : BitVec 8) (ra : Gpr)
  /-- `e_lmvcsrrw`: 43_apu_misc.md R938. -/
  | eLmvcsrrw (d8 : BitVec 8) (ra : Gpr)
  /-- `e_stmvcsrrw`: 43_apu_misc.md R939. -/
  | eStmvcsrrw (d8 : BitVec 8) (ra : Gpr)
  /-- `e_lmvdsrrw`: 43_apu_misc.md R940. -/
  | eLmvdsrrw (d8 : BitVec 8) (ra : Gpr)
  /-- `e_stmvdsrrw`: 43_apu_misc.md R941. -/
  | eStmvdsrrw (d8 : BitVec 8) (ra : Gpr)
  /-- `e_lmvmcsrrw`: 43_apu_misc.md R942. -/
  | eLmvmcsrrw (d8 : BitVec 8) (ra : Gpr)
  /-- `e_stmvmcsrrw`: 43_apu_misc.md R943. -/
  | eStmvmcsrrw (d8 : BitVec 8) (ra : Gpr)
  -- spec/44_vle.md
  /-- `se_illegal`: 44_vle.md R1030. -/
  | seIllegal
  /-- `se_isync`: 44_vle.md R1031. -/
  | seIsync
  /-- `se_sc`: 44_vle.md R1032. -/
  | seSc
  /-- `se_blr`: 44_vle.md R1033. -/
  | seBlr (lk : Bool)
  /-- `se_bctr`: 44_vle.md R1034. -/
  | seBctr (lk : Bool)
  /-- `se_rfi`: 44_vle.md R1035. -/
  | seRfi
  /-- `se_rfci`: 44_vle.md R1036. -/
  | seRfci
  /-- `se_rfdi`: 44_vle.md R1037. -/
  | seRfdi
  /-- `se_rfmci`: 44_vle.md R1038. -/
  | seRfmci
  /-- `se_dnh`: 44_vle.md R1039. -/
  | seDnh
  /-- `se_not`: 44_vle.md R1040. -/
  | seNot (rx : Gpr)
  /-- `se_neg`: 44_vle.md R1041. -/
  | seNeg (rx : Gpr)
  /-- `se_mflr`: 44_vle.md R1042. -/
  | seMflr (rx : Gpr)
  /-- `se_mtlr`: 44_vle.md R1043. -/
  | seMtlr (rx : Gpr)
  /-- `se_mfctr`: 44_vle.md R1044. -/
  | seMfctr (rx : Gpr)
  /-- `se_mtctr`: 44_vle.md R1045. -/
  | seMtctr (rx : Gpr)
  /-- `se_extzb`: 44_vle.md R1046. -/
  | seExtzb (rx : Gpr)
  /-- `se_extsb`: 44_vle.md R1047. -/
  | seExtsb (rx : Gpr)
  /-- `se_extzh`: 44_vle.md R1048. -/
  | seExtzh (rx : Gpr)
  /-- `se_extsh`: 44_vle.md R1049. -/
  | seExtsh (rx : Gpr)
  /-- `se_mr`: 44_vle.md R1050. -/
  | seMr (rx ry : Gpr)
  /-- `se_mtar`: 44_vle.md R1051. -/
  | seMtar (arx ry : Gpr)
  /-- `se_mfar`: 44_vle.md R1052. -/
  | seMfar (rx ary : Gpr)
  /-- `se_add`: 44_vle.md R1053. -/
  | seAdd (rx ry : Gpr)
  /-- `se_mullw`: 44_vle.md R1054. -/
  | seMullw (rx ry : Gpr)
  /-- `se_sub`: 44_vle.md R1055. -/
  | seSub (rx ry : Gpr)
  /-- `se_subf`: 44_vle.md R1056. -/
  | seSubf (rx ry : Gpr)
  /-- `se_cmp`: 44_vle.md R1057. -/
  | seCmp (rx ry : Gpr)
  /-- `se_cmpl`: 44_vle.md R1058. -/
  | seCmpl (rx ry : Gpr)
  /-- `se_cmph`: 44_vle.md R1059. -/
  | seCmph (rx ry : Gpr)
  /-- `se_cmphl`: 44_vle.md R1060. -/
  | seCmphl (rx ry : Gpr)
  /-- `se_srw`: 44_vle.md R1061. -/
  | seSrw (rx ry : Gpr)
  /-- `se_sraw`: 44_vle.md R1062. -/
  | seSraw (rx ry : Gpr)
  /-- `se_slw`: 44_vle.md R1063. -/
  | seSlw (rx ry : Gpr)
  /-- `se_or`: 44_vle.md R1064. -/
  | seOr (rx ry : Gpr)
  /-- `se_andc`: 44_vle.md R1065. -/
  | seAndc (rx ry : Gpr)
  /-- `se_and`: 44_vle.md R1066. -/
  | seAnd (rx ry : Gpr) (rc : Bool)
  /-- `se_addi`: 44_vle.md R1067. -/
  | seAddi (rx : Gpr) (oimm : BitVec 6)
  /-- `se_cmpli`: 44_vle.md R1068. -/
  | seCmpli (rx : Gpr) (oimm : BitVec 6)
  /-- `se_subi`: 44_vle.md R1069. -/
  | seSubi (rx : Gpr) (oimm : BitVec 6) (rc : Bool)
  /-- `se_cmpi`: 44_vle.md R1070. -/
  | seCmpi (rx : Gpr) (ui5 : BitVec 5)
  /-- `se_bmaski`: 44_vle.md R1071. -/
  | seBmaski (rx : Gpr) (ui5 : BitVec 5)
  /-- `se_andi`: 44_vle.md R1072. -/
  | seAndi (rx : Gpr) (ui5 : BitVec 5)
  /-- `se_bclri`: 44_vle.md R1073. -/
  | seBclri (rx : Gpr) (ui5 : BitVec 5)
  /-- `se_bgeni`: 44_vle.md R1074. -/
  | seBgeni (rx : Gpr) (ui5 : BitVec 5)
  /-- `se_bseti`: 44_vle.md R1075. -/
  | seBseti (rx : Gpr) (ui5 : BitVec 5)
  /-- `se_btsti`: 44_vle.md R1076. -/
  | seBtsti (rx : Gpr) (ui5 : BitVec 5)
  /-- `se_srwi`: 44_vle.md R1077. -/
  | seSrwi (rx : Gpr) (ui5 : BitVec 5)
  /-- `se_srawi`: 44_vle.md R1078. -/
  | seSrawi (rx : Gpr) (ui5 : BitVec 5)
  /-- `se_slwi`: 44_vle.md R1079. -/
  | seSlwi (rx : Gpr) (ui5 : BitVec 5)
  /-- `se_li`: 44_vle.md R1080. -/
  | seLi (rx : Gpr) (ui7 : BitVec 7)
  /-- `se_lbz`: 44_vle.md R1081. -/
  | seLbz (rz : Gpr) (sd4 : BitVec 4) (rx : Gpr)
  /-- `se_stb`: 44_vle.md R1082. -/
  | seStb (rz : Gpr) (sd4 : BitVec 4) (rx : Gpr)
  /-- `se_lhz`: 44_vle.md R1083. -/
  | seLhz (rz : Gpr) (sd4 : BitVec 4) (rx : Gpr)
  /-- `se_sth`: 44_vle.md R1084. -/
  | seSth (rz : Gpr) (sd4 : BitVec 4) (rx : Gpr)
  /-- `se_lwz`: 44_vle.md R1085. -/
  | seLwz (rz : Gpr) (sd4 : BitVec 4) (rx : Gpr)
  /-- `se_stw`: 44_vle.md R1086. -/
  | seStw (rz : Gpr) (sd4 : BitVec 4) (rx : Gpr)
  /-- `se_b`: 44_vle.md R1087. -/
  | seB (bd8 : BitVec 8) (lk : Bool)
  /-- `se_bc`: 44_vle.md R1088. -/
  | seBc (bo16 : Bool) (bi16 : BitVec 2) (bd8 : BitVec 8)
  /-- `e_lbz`: 44_vle.md R2700. -/
  | eLbz (rd : Gpr) (d : BitVec 16) (ra : Gpr)
  /-- `e_stb`: 44_vle.md R2701. -/
  | eStb (rs : Gpr) (d : BitVec 16) (ra : Gpr)
  /-- `e_lha`: 44_vle.md R2702. -/
  | eLha (rd : Gpr) (d : BitVec 16) (ra : Gpr)
  /-- `e_lwz`: 44_vle.md R2703. -/
  | eLwz (rd : Gpr) (d : BitVec 16) (ra : Gpr)
  /-- `e_stw`: 44_vle.md R2704. -/
  | eStw (rs : Gpr) (d : BitVec 16) (ra : Gpr)
  /-- `e_lhz`: 44_vle.md R2705. -/
  | eLhz (rd : Gpr) (d : BitVec 16) (ra : Gpr)
  /-- `e_sth`: 44_vle.md R2706. -/
  | eSth (rs : Gpr) (d : BitVec 16) (ra : Gpr)
  /-- `e_add16i`: 44_vle.md R2707. -/
  | eAdd16i (rd ra : Gpr) (si : BitVec 16)
  /-- `e_lbzu`: 44_vle.md R2708. -/
  | eLbzu (rd : Gpr) (d8 : BitVec 8) (ra : Gpr)
  /-- `e_lhzu`: 44_vle.md R2709. -/
  | eLhzu (rd : Gpr) (d8 : BitVec 8) (ra : Gpr)
  /-- `e_lwzu`: 44_vle.md R2710. -/
  | eLwzu (rd : Gpr) (d8 : BitVec 8) (ra : Gpr)
  /-- `e_lhau`: 44_vle.md R2711. -/
  | eLhau (rd : Gpr) (d8 : BitVec 8) (ra : Gpr)
  /-- `e_stbu`: 44_vle.md R2712. -/
  | eStbu (rs : Gpr) (d8 : BitVec 8) (ra : Gpr)
  /-- `e_sthu`: 44_vle.md R2713. -/
  | eSthu (rs : Gpr) (d8 : BitVec 8) (ra : Gpr)
  /-- `e_stwu`: 44_vle.md R2714. -/
  | eStwu (rs : Gpr) (d8 : BitVec 8) (ra : Gpr)
  /-- `e_lmw`: 44_vle.md R2715. -/
  | eLmw (rd : Gpr) (d8 : BitVec 8) (ra : Gpr)
  /-- `e_stmw`: 44_vle.md R2716. -/
  | eStmw (rs : Gpr) (d8 : BitVec 8) (ra : Gpr)
  /-- `e_addi`: 44_vle.md R2717. -/
  | eAddi (rd ra : Gpr) (f : Bool) (scl : BitVec 2) (ui8 : BitVec 8) (rc : Bool)
  /-- `e_addic`: 44_vle.md R2718. -/
  | eAddic (rd ra : Gpr) (f : Bool) (scl : BitVec 2) (ui8 : BitVec 8) (rc : Bool)
  /-- `e_mulli`: 44_vle.md R2719. -/
  | eMulli (rd ra : Gpr) (f : Bool) (scl : BitVec 2) (ui8 : BitVec 8)
  /-- `e_cmpi`: 44_vle.md R2720. -/
  | eCmpi (crf : BitVec 2) (ra : Gpr) (f : Bool) (scl : BitVec 2) (ui8 : BitVec 8)
  /-- `e_cmpli`: 44_vle.md R2721. -/
  | eCmpli (crf : BitVec 2) (ra : Gpr) (f : Bool) (scl : BitVec 2) (ui8 : BitVec 8)
  /-- `e_subfic`: 44_vle.md R2722. -/
  | eSubfic (rd ra : Gpr) (f : Bool) (scl : BitVec 2) (ui8 : BitVec 8) (rc : Bool)
  /-- `e_andi`: 44_vle.md R2723. -/
  | eAndi (ra rs : Gpr) (f : Bool) (scl : BitVec 2) (ui8 : BitVec 8) (rc : Bool)
  /-- `e_ori`: 44_vle.md R2724. -/
  | eOri (ra rs : Gpr) (f : Bool) (scl : BitVec 2) (ui8 : BitVec 8) (rc : Bool)
  /-- `e_xori`: 44_vle.md R2725. -/
  | eXori (ra rs : Gpr) (f : Bool) (scl : BitVec 2) (ui8 : BitVec 8) (rc : Bool)
  /-- `e_li`: 44_vle.md R2726. -/
  | eLi (rd : Gpr) (li20 : BitVec 20)
  /-- `e_add2i.`: 44_vle.md R2727. -/
  | eAdd2iDot (ra : Gpr) (si : BitVec 16)
  /-- `e_add2is`: 44_vle.md R2728. -/
  | eAdd2is (ra : Gpr) (si : BitVec 16)
  /-- `e_cmp16i`: 44_vle.md R2729. -/
  | eCmp16i (ra : Gpr) (si : BitVec 16)
  /-- `e_mull2i`: 44_vle.md R2730. -/
  | eMull2i (ra : Gpr) (si : BitVec 16)
  /-- `e_cmpl16i`: 44_vle.md R2731. -/
  | eCmpl16i (ra : Gpr) (ui : BitVec 16)
  /-- `e_cmph16i`: 44_vle.md R2732. -/
  | eCmph16i (ra : Gpr) (si : BitVec 16)
  /-- `e_cmphl16i`: 44_vle.md R2733. -/
  | eCmphl16i (ra : Gpr) (ui : BitVec 16)
  /-- `e_or2i`: 44_vle.md R2734. -/
  | eOr2i (rd : Gpr) (ui : BitVec 16)
  /-- `e_and2i.`: 44_vle.md R2735. -/
  | eAnd2iDot (rd : Gpr) (ui : BitVec 16)
  /-- `e_or2is`: 44_vle.md R2736. -/
  | eOr2is (rd : Gpr) (ui : BitVec 16)
  /-- `e_lis`: 44_vle.md R2737. -/
  | eLis (rd : Gpr) (ui : BitVec 16)
  /-- `e_and2is.`: 44_vle.md R2738. -/
  | eAnd2isDot (rd : Gpr) (ui : BitVec 16)
  /-- `e_rlwimi`: 44_vle.md R2739. -/
  | eRlwimi (ra rs : Gpr) (sh mb me : BitVec 5)
  /-- `e_rlwinm`: 44_vle.md R2740. -/
  | eRlwinm (ra rs : Gpr) (sh mb me : BitVec 5)
  /-- `e_b`: 44_vle.md R2741. -/
  | eB (bd24 : BitVec 24) (lk : Bool)
  /-- `e_bc`: 44_vle.md R2742. -/
  | eBc (bo32 : BitVec 2) (bi32 : BitVec 4) (bd15 : BitVec 15) (lk : Bool)
  /-- `e_cmph`: 44_vle.md R2743. -/
  | eCmph (crf : CrField) (ra rb : Gpr)
  /-- `e_cmphl`: 44_vle.md R2744. -/
  | eCmphl (crf : CrField) (ra rb : Gpr)
  /-- `e_mcrf`: 44_vle.md R2745. -/
  | eMcrf (crf crs : CrField)
  /-- `e_crnor`: 44_vle.md R2746. -/
  | eCrnor (bt ba bb : CrBit)
  /-- `e_crandc`: 44_vle.md R2747. -/
  | eCrandc (bt ba bb : CrBit)
  /-- `e_crxor`: 44_vle.md R2748. -/
  | eCrxor (bt ba bb : CrBit)
  /-- `e_crnand`: 44_vle.md R2749. -/
  | eCrnand (bt ba bb : CrBit)
  /-- `e_crand`: 44_vle.md R2750. -/
  | eCrand (bt ba bb : CrBit)
  /-- `e_creqv`: 44_vle.md R2751. -/
  | eCreqv (bt ba bb : CrBit)
  /-- `e_crorc`: 44_vle.md R2752. -/
  | eCrorc (bt ba bb : CrBit)
  /-- `e_cror`: 44_vle.md R2753. -/
  | eCror (bt ba bb : CrBit)
  /-- `e_slwi`: 44_vle.md R2754. -/
  | eSlwi (ra rs : Gpr) (sh : BitVec 5) (rc : Bool)
  /-- `e_rlw`: 44_vle.md R2755. -/
  | eRlw (ra rs rb : Gpr) (rc : Bool)
  /-- `e_rlwi`: 44_vle.md R2756. -/
  | eRlwi (ra rs : Gpr) (sh : BitVec 5) (rc : Bool)
  /-- `e_srwi`: 44_vle.md R2757. -/
  | eSrwi (ra rs : Gpr) (sh : BitVec 5) (rc : Bool)
  /-- `e_dnh`: 44_vle.md R2758. -/
  | eDnh (dui : BitVec 5) (duis : BitVec 10)
  -- spec/45_efpu_scalar.md
  /-- `efsabs`: 45_efpu_scalar.md R1124. -/
  | efsabs (rd ra : Gpr)
  /-- `efsnabs`: 45_efpu_scalar.md R1125. -/
  | efsnabs (rd ra : Gpr)
  /-- `efsneg`: 45_efpu_scalar.md R1126. -/
  | efsneg (rd ra : Gpr)
  /-- `efsadd`: 45_efpu_scalar.md R1127. -/
  | efsadd (rd ra rb : Gpr)
  /-- `efssub`: 45_efpu_scalar.md R1128. -/
  | efssub (rd ra rb : Gpr)
  /-- `efsmul`: 45_efpu_scalar.md R1129. -/
  | efsmul (rd ra rb : Gpr)
  /-- `efsdiv`: 45_efpu_scalar.md R1130. -/
  | efsdiv (rd ra rb : Gpr)
  /-- `efsmadd`: 45_efpu_scalar.md R1131. -/
  | efsmadd (rd ra rb : Gpr)
  /-- `efsmsub`: 45_efpu_scalar.md R1132. -/
  | efsmsub (rd ra rb : Gpr)
  /-- `efsnmadd`: 45_efpu_scalar.md R1133. -/
  | efsnmadd (rd ra rb : Gpr)
  /-- `efsnmsub`: 45_efpu_scalar.md R1134. -/
  | efsnmsub (rd ra rb : Gpr)
  /-- `efssqrt`: 45_efpu_scalar.md R1135. -/
  | efssqrt (rd ra : Gpr)
  /-- `efsmax`: 45_efpu_scalar.md R1136. -/
  | efsmax (rd ra rb : Gpr)
  /-- `efsmin`: 45_efpu_scalar.md R1137. -/
  | efsmin (rd ra rb : Gpr)
  /-- `efscmpgt`: 45_efpu_scalar.md R1138. -/
  | efscmpgt (crf : CrField) (ra rb : Gpr)
  /-- `efscmplt`: 45_efpu_scalar.md R1139. -/
  | efscmplt (crf : CrField) (ra rb : Gpr)
  /-- `efscmpeq`: 45_efpu_scalar.md R1140. -/
  | efscmpeq (crf : CrField) (ra rb : Gpr)
  /-- `efststgt`: 45_efpu_scalar.md R1141. -/
  | efststgt (crf : CrField) (ra rb : Gpr)
  /-- `efststlt`: 45_efpu_scalar.md R1142. -/
  | efststlt (crf : CrField) (ra rb : Gpr)
  /-- `efststeq`: 45_efpu_scalar.md R1143. -/
  | efststeq (crf : CrField) (ra rb : Gpr)
  /-- `efscfsi`: 45_efpu_scalar.md R1144. -/
  | efscfsi (rd rb : Gpr)
  /-- `efscfui`: 45_efpu_scalar.md R1145. -/
  | efscfui (rd rb : Gpr)
  /-- `efscfsf`: 45_efpu_scalar.md R1146. -/
  | efscfsf (rd rb : Gpr)
  /-- `efscfuf`: 45_efpu_scalar.md R1147. -/
  | efscfuf (rd rb : Gpr)
  /-- `efsctsi`: 45_efpu_scalar.md R1148. -/
  | efsctsi (rd rb : Gpr)
  /-- `efsctsiz`: 45_efpu_scalar.md R1149. -/
  | efsctsiz (rd rb : Gpr)
  /-- `efsctui`: 45_efpu_scalar.md R1150. -/
  | efsctui (rd rb : Gpr)
  /-- `efsctuiz`: 45_efpu_scalar.md R1151. -/
  | efsctuiz (rd rb : Gpr)
  /-- `efsctsf`: 45_efpu_scalar.md R1152. -/
  | efsctsf (rd rb : Gpr)
  /-- `efsctuf`: 45_efpu_scalar.md R1153. -/
  | efsctuf (rd rb : Gpr)
  /-- `efscfh`: 45_efpu_scalar.md R1154. -/
  | efscfh (rd rb : Gpr)
  /-- `efscth`: 45_efpu_scalar.md R1155. -/
  | efscth (rd rb : Gpr)
  -- spec/46_efpu_vector.md
  /-- `evfsabs`: 46_efpu_vector.md R1205. -/
  | evfsabs (rd ra : Gpr)
  /-- `evfsnabs`: 46_efpu_vector.md R1206. -/
  | evfsnabs (rd ra : Gpr)
  /-- `evfsneg`: 46_efpu_vector.md R1207. -/
  | evfsneg (rd ra : Gpr)
  /-- `evfsadd`: 46_efpu_vector.md R1208. -/
  | evfsadd (rd ra rb : Gpr)
  /-- `evfssub`: 46_efpu_vector.md R1209. -/
  | evfssub (rd ra rb : Gpr)
  /-- `evfsaddsub`: 46_efpu_vector.md R1210. -/
  | evfsaddsub (rd ra rb : Gpr)
  /-- `evfssubadd`: 46_efpu_vector.md R1211. -/
  | evfssubadd (rd ra rb : Gpr)
  /-- `evfsaddx`: 46_efpu_vector.md R1212. -/
  | evfsaddx (rd ra rb : Gpr)
  /-- `evfssubx`: 46_efpu_vector.md R1213. -/
  | evfssubx (rd ra rb : Gpr)
  /-- `evfsaddsubx`: 46_efpu_vector.md R1214. -/
  | evfsaddsubx (rd ra rb : Gpr)
  /-- `evfssubaddx`: 46_efpu_vector.md R1215. -/
  | evfssubaddx (rd ra rb : Gpr)
  /-- `evfssum`: 46_efpu_vector.md R1216. -/
  | evfssum (rd ra rb : Gpr)
  /-- `evfsdiff`: 46_efpu_vector.md R1217. -/
  | evfsdiff (rd ra rb : Gpr)
  /-- `evfssumdiff`: 46_efpu_vector.md R1218. -/
  | evfssumdiff (rd ra rb : Gpr)
  /-- `evfsdiffsum`: 46_efpu_vector.md R1219. -/
  | evfsdiffsum (rd ra rb : Gpr)
  /-- `evfsmul`: 46_efpu_vector.md R1220. -/
  | evfsmul (rd ra rb : Gpr)
  /-- `evfsmule`: 46_efpu_vector.md R1221. -/
  | evfsmule (rd ra rb : Gpr)
  /-- `evfsmulo`: 46_efpu_vector.md R1222. -/
  | evfsmulo (rd ra rb : Gpr)
  /-- `evfsmulx`: 46_efpu_vector.md R1223. -/
  | evfsmulx (rd ra rb : Gpr)
  /-- `evfsdiv`: 46_efpu_vector.md R1224. -/
  | evfsdiv (rd ra rb : Gpr)
  /-- `evfssqrt`: 46_efpu_vector.md R1225. -/
  | evfssqrt (rd ra : Gpr)
  /-- `evfsmadd`: 46_efpu_vector.md R1226. -/
  | evfsmadd (rd ra rb : Gpr)
  /-- `evfsmsub`: 46_efpu_vector.md R1227. -/
  | evfsmsub (rd ra rb : Gpr)
  /-- `evfsnmadd`: 46_efpu_vector.md R1228. -/
  | evfsnmadd (rd ra rb : Gpr)
  /-- `evfsnmsub`: 46_efpu_vector.md R1229. -/
  | evfsnmsub (rd ra rb : Gpr)
  /-- `evfsmax`: 46_efpu_vector.md R1230. -/
  | evfsmax (rd ra rb : Gpr)
  /-- `evfsmin`: 46_efpu_vector.md R1231. -/
  | evfsmin (rd ra rb : Gpr)
  /-- `evfscmpgt`: 46_efpu_vector.md R1232. -/
  | evfscmpgt (crf : CrField) (ra rb : Gpr)
  /-- `evfscmplt`: 46_efpu_vector.md R1233. -/
  | evfscmplt (crf : CrField) (ra rb : Gpr)
  /-- `evfscmpeq`: 46_efpu_vector.md R1234. -/
  | evfscmpeq (crf : CrField) (ra rb : Gpr)
  /-- `evfststgt`: 46_efpu_vector.md R1235. -/
  | evfststgt (crf : CrField) (ra rb : Gpr)
  /-- `evfststlt`: 46_efpu_vector.md R1236. -/
  | evfststlt (crf : CrField) (ra rb : Gpr)
  /-- `evfststeq`: 46_efpu_vector.md R1237. -/
  | evfststeq (crf : CrField) (ra rb : Gpr)
  /-- `evfscfsi`: 46_efpu_vector.md R1238. -/
  | evfscfsi (rd rb : Gpr)
  /-- `evfscfui`: 46_efpu_vector.md R1239. -/
  | evfscfui (rd rb : Gpr)
  /-- `evfscfsf`: 46_efpu_vector.md R1240. -/
  | evfscfsf (rd rb : Gpr)
  /-- `evfscfuf`: 46_efpu_vector.md R1241. -/
  | evfscfuf (rd rb : Gpr)
  /-- `evfsctsi`: 46_efpu_vector.md R1242. -/
  | evfsctsi (rd rb : Gpr)
  /-- `evfsctsiz`: 46_efpu_vector.md R1243. -/
  | evfsctsiz (rd rb : Gpr)
  /-- `evfsctui`: 46_efpu_vector.md R1244. -/
  | evfsctui (rd rb : Gpr)
  /-- `evfsctuiz`: 46_efpu_vector.md R1245. -/
  | evfsctuiz (rd rb : Gpr)
  /-- `evfsctsf`: 46_efpu_vector.md R1246. -/
  | evfsctsf (rd rb : Gpr)
  /-- `evfsctuf`: 46_efpu_vector.md R1247. -/
  | evfsctuf (rd rb : Gpr)
  /-- `evfscfh`: 46_efpu_vector.md R1248. -/
  | evfscfh (rd rb : Gpr)
  /-- `evfscth`: 46_efpu_vector.md R1249. -/
  | evfscth (rd rb : Gpr)
  -- spec/47_spe_state_and_simple.md
  /-- `brinc`: 47_spe_state_and_simple.md R1410. -/
  | brinc (rd ra rb : Gpr)
  /-- `evabs`: 47_spe_state_and_simple.md R1411. -/
  | evabs (rd ra : Gpr)
  /-- `evaddiw`: 47_spe_state_and_simple.md R1412. -/
  | evaddiw (rd rb : Gpr) (uimm : BitVec 5)
  /-- `evaddw`: 47_spe_state_and_simple.md R1413. -/
  | evaddw (rd ra rb : Gpr)
  /-- `evand`: 47_spe_state_and_simple.md R1414. -/
  | evand (rd ra rb : Gpr)
  /-- `evandc`: 47_spe_state_and_simple.md R1415. -/
  | evandc (rd ra rb : Gpr)
  /-- `evcmpeq`: 47_spe_state_and_simple.md R1416. -/
  | evcmpeq (crf : CrField) (ra rb : Gpr)
  /-- `evcmpgts`: 47_spe_state_and_simple.md R1417. -/
  | evcmpgts (crf : CrField) (ra rb : Gpr)
  /-- `evcmpgtu`: 47_spe_state_and_simple.md R1418. -/
  | evcmpgtu (crf : CrField) (ra rb : Gpr)
  /-- `evcmplts`: 47_spe_state_and_simple.md R1419. -/
  | evcmplts (crf : CrField) (ra rb : Gpr)
  /-- `evcmpltu`: 47_spe_state_and_simple.md R1420. -/
  | evcmpltu (crf : CrField) (ra rb : Gpr)
  /-- `evcntlsw`: 47_spe_state_and_simple.md R1421. -/
  | evcntlsw (rd ra : Gpr)
  /-- `evcntlzw`: 47_spe_state_and_simple.md R1422. -/
  | evcntlzw (rd ra : Gpr)
  /-- `evdivws`: 47_spe_state_and_simple.md R1423. -/
  | evdivws (rd ra rb : Gpr)
  /-- `evdivwu`: 47_spe_state_and_simple.md R1424. -/
  | evdivwu (rd ra rb : Gpr)
  /-- `eveqv`: 47_spe_state_and_simple.md R1425. -/
  | eveqv (rd ra rb : Gpr)
  /-- `evextsb`: 47_spe_state_and_simple.md R1426. -/
  | evextsb (rd ra : Gpr)
  /-- `evextsh`: 47_spe_state_and_simple.md R1427. -/
  | evextsh (rd ra : Gpr)
  /-- `evmergehi`: 47_spe_state_and_simple.md R1428. -/
  | evmergehi (rd ra rb : Gpr)
  /-- `evmergehilo`: 47_spe_state_and_simple.md R1429. -/
  | evmergehilo (rd ra rb : Gpr)
  /-- `evmergelo`: 47_spe_state_and_simple.md R1430. -/
  | evmergelo (rd ra rb : Gpr)
  /-- `evmergelohi`: 47_spe_state_and_simple.md R1431. -/
  | evmergelohi (rd ra rb : Gpr)
  /-- `evnand`: 47_spe_state_and_simple.md R1432. -/
  | evnand (rd ra rb : Gpr)
  /-- `evneg`: 47_spe_state_and_simple.md R1433. -/
  | evneg (rd ra : Gpr)
  /-- `evnor`: 47_spe_state_and_simple.md R1434. -/
  | evnor (rd ra rb : Gpr)
  /-- `evor`: 47_spe_state_and_simple.md R1435. -/
  | evor (rd ra rb : Gpr)
  /-- `evorc`: 47_spe_state_and_simple.md R1436. -/
  | evorc (rd ra rb : Gpr)
  /-- `evrlw`: 47_spe_state_and_simple.md R1437. -/
  | evrlw (rd ra rb : Gpr)
  /-- `evrlwi`: 47_spe_state_and_simple.md R1438. -/
  | evrlwi (rd ra : Gpr) (uimm : BitVec 5)
  /-- `evrndw`: 47_spe_state_and_simple.md R1439. -/
  | evrndw (rd ra : Gpr)
  /-- `evsel`: 47_spe_state_and_simple.md R1440. -/
  | evsel (rd ra rb : Gpr) (crs : CrField)
  /-- `evslw`: 47_spe_state_and_simple.md R1441. -/
  | evslw (rd ra rb : Gpr)
  /-- `evslwi`: 47_spe_state_and_simple.md R1442. -/
  | evslwi (rd ra : Gpr) (uimm : BitVec 5)
  /-- `evsplatfi`: 47_spe_state_and_simple.md R1443. -/
  | evsplatfi (rd : Gpr) (simm : BitVec 5)
  /-- `evsplati`: 47_spe_state_and_simple.md R1444. -/
  | evsplati (rd : Gpr) (simm : BitVec 5)
  /-- `evsrwis`: 47_spe_state_and_simple.md R1445. -/
  | evsrwis (rd ra : Gpr) (uimm : BitVec 5)
  /-- `evsrwiu`: 47_spe_state_and_simple.md R1446. -/
  | evsrwiu (rd ra : Gpr) (uimm : BitVec 5)
  /-- `evsrws`: 47_spe_state_and_simple.md R1447. -/
  | evsrws (rd ra rb : Gpr)
  /-- `evsrwu`: 47_spe_state_and_simple.md R1448. -/
  | evsrwu (rd ra rb : Gpr)
  /-- `evsubfw`: 47_spe_state_and_simple.md R1449. -/
  | evsubfw (rd ra rb : Gpr)
  /-- `evsubifw`: 47_spe_state_and_simple.md R1450. -/
  | evsubifw (rd : Gpr) (uimm : BitVec 5) (rb : Gpr)
  /-- `evxor`: 47_spe_state_and_simple.md R1451. -/
  | evxor (rd ra rb : Gpr)
  /-- `evmra`: 47_spe_state_and_simple.md R1453. -/
  | evmra (rd ra : Gpr)
  -- spec/48_spe_multiply_halfword.md
  /-- `evmhegsmfaa`: 48_spe_multiply_halfword.md R1500. -/
  | evmhegsmfaa (rd ra rb : Gpr)
  /-- `evmhegsmfan`: 48_spe_multiply_halfword.md R1501. -/
  | evmhegsmfan (rd ra rb : Gpr)
  /-- `evmhegsmiaa`: 48_spe_multiply_halfword.md R1502. -/
  | evmhegsmiaa (rd ra rb : Gpr)
  /-- `evmhegsmian`: 48_spe_multiply_halfword.md R1503. -/
  | evmhegsmian (rd ra rb : Gpr)
  /-- `evmhegumiaa`: 48_spe_multiply_halfword.md R1504. -/
  | evmhegumiaa (rd ra rb : Gpr)
  /-- `evmhegumian`: 48_spe_multiply_halfword.md R1505. -/
  | evmhegumian (rd ra rb : Gpr)
  /-- `evmhesmf`: 48_spe_multiply_halfword.md R1506. -/
  | evmhesmf (rd ra rb : Gpr)
  /-- `evmhesmfa`: 48_spe_multiply_halfword.md R1507. -/
  | evmhesmfa (rd ra rb : Gpr)
  /-- `evmhesmi`: 48_spe_multiply_halfword.md R1508. -/
  | evmhesmi (rd ra rb : Gpr)
  /-- `evmhesmia`: 48_spe_multiply_halfword.md R1509. -/
  | evmhesmia (rd ra rb : Gpr)
  /-- `evmhessf`: 48_spe_multiply_halfword.md R1510. -/
  | evmhessf (rd ra rb : Gpr)
  /-- `evmhessfa`: 48_spe_multiply_halfword.md R1511. -/
  | evmhessfa (rd ra rb : Gpr)
  /-- `evmheumi`: 48_spe_multiply_halfword.md R1512. -/
  | evmheumi (rd ra rb : Gpr)
  /-- `evmheumia`: 48_spe_multiply_halfword.md R1513. -/
  | evmheumia (rd ra rb : Gpr)
  /-- `evmhesmfaaw`: 48_spe_multiply_halfword.md R1514. -/
  | evmhesmfaaw (rd ra rb : Gpr)
  /-- `evmhesmfanw`: 48_spe_multiply_halfword.md R1515. -/
  | evmhesmfanw (rd ra rb : Gpr)
  /-- `evmhesmiaaw`: 48_spe_multiply_halfword.md R1516. -/
  | evmhesmiaaw (rd ra rb : Gpr)
  /-- `evmhesmianw`: 48_spe_multiply_halfword.md R1517. -/
  | evmhesmianw (rd ra rb : Gpr)
  /-- `evmhessfaaw`: 48_spe_multiply_halfword.md R1518. -/
  | evmhessfaaw (rd ra rb : Gpr)
  /-- `evmhessfanw`: 48_spe_multiply_halfword.md R1519. -/
  | evmhessfanw (rd ra rb : Gpr)
  /-- `evmhessiaaw`: 48_spe_multiply_halfword.md R1520. -/
  | evmhessiaaw (rd ra rb : Gpr)
  /-- `evmhessianw`: 48_spe_multiply_halfword.md R1521. -/
  | evmhessianw (rd ra rb : Gpr)
  /-- `evmheumiaaw`: 48_spe_multiply_halfword.md R1522. -/
  | evmheumiaaw (rd ra rb : Gpr)
  /-- `evmheumianw`: 48_spe_multiply_halfword.md R1523. -/
  | evmheumianw (rd ra rb : Gpr)
  /-- `evmheusiaaw`: 48_spe_multiply_halfword.md R1524. -/
  | evmheusiaaw (rd ra rb : Gpr)
  /-- `evmheusianw`: 48_spe_multiply_halfword.md R1525. -/
  | evmheusianw (rd ra rb : Gpr)
  /-- `evmhogsmfaa`: 48_spe_multiply_halfword.md R1526. -/
  | evmhogsmfaa (rd ra rb : Gpr)
  /-- `evmhogsmfan`: 48_spe_multiply_halfword.md R1527. -/
  | evmhogsmfan (rd ra rb : Gpr)
  /-- `evmhogsmiaa`: 48_spe_multiply_halfword.md R1528. -/
  | evmhogsmiaa (rd ra rb : Gpr)
  /-- `evmhogsmian`: 48_spe_multiply_halfword.md R1529. -/
  | evmhogsmian (rd ra rb : Gpr)
  /-- `evmhogumiaa`: 48_spe_multiply_halfword.md R1530. -/
  | evmhogumiaa (rd ra rb : Gpr)
  /-- `evmhogumian`: 48_spe_multiply_halfword.md R1531. -/
  | evmhogumian (rd ra rb : Gpr)
  /-- `evmhosmf`: 48_spe_multiply_halfword.md R1532. -/
  | evmhosmf (rd ra rb : Gpr)
  /-- `evmhosmfa`: 48_spe_multiply_halfword.md R1533. -/
  | evmhosmfa (rd ra rb : Gpr)
  /-- `evmhosmi`: 48_spe_multiply_halfword.md R1534. -/
  | evmhosmi (rd ra rb : Gpr)
  /-- `evmhosmia`: 48_spe_multiply_halfword.md R1535. -/
  | evmhosmia (rd ra rb : Gpr)
  /-- `evmhossf`: 48_spe_multiply_halfword.md R1536. -/
  | evmhossf (rd ra rb : Gpr)
  /-- `evmhossfa`: 48_spe_multiply_halfword.md R1537. -/
  | evmhossfa (rd ra rb : Gpr)
  /-- `evmhoumi`: 48_spe_multiply_halfword.md R1538. -/
  | evmhoumi (rd ra rb : Gpr)
  /-- `evmhoumia`: 48_spe_multiply_halfword.md R1539. -/
  | evmhoumia (rd ra rb : Gpr)
  /-- `evmhosmfaaw`: 48_spe_multiply_halfword.md R1540. -/
  | evmhosmfaaw (rd ra rb : Gpr)
  /-- `evmhosmfanw`: 48_spe_multiply_halfword.md R1541. -/
  | evmhosmfanw (rd ra rb : Gpr)
  /-- `evmhosmiaaw`: 48_spe_multiply_halfword.md R1542. -/
  | evmhosmiaaw (rd ra rb : Gpr)
  /-- `evmhosmianw`: 48_spe_multiply_halfword.md R1543. -/
  | evmhosmianw (rd ra rb : Gpr)
  /-- `evmhossfaaw`: 48_spe_multiply_halfword.md R1544. -/
  | evmhossfaaw (rd ra rb : Gpr)
  /-- `evmhossfanw`: 48_spe_multiply_halfword.md R1545. -/
  | evmhossfanw (rd ra rb : Gpr)
  /-- `evmhossiaaw`: 48_spe_multiply_halfword.md R1546. -/
  | evmhossiaaw (rd ra rb : Gpr)
  /-- `evmhossianw`: 48_spe_multiply_halfword.md R1547. -/
  | evmhossianw (rd ra rb : Gpr)
  /-- `evmhoumiaaw`: 48_spe_multiply_halfword.md R1548. -/
  | evmhoumiaaw (rd ra rb : Gpr)
  /-- `evmhoumianw`: 48_spe_multiply_halfword.md R1549. -/
  | evmhoumianw (rd ra rb : Gpr)
  /-- `evmhousiaaw`: 48_spe_multiply_halfword.md R1550. -/
  | evmhousiaaw (rd ra rb : Gpr)
  /-- `evmhousianw`: 48_spe_multiply_halfword.md R1551. -/
  | evmhousianw (rd ra rb : Gpr)
  -- spec/49_spe_multiply_word_loadstore.md
  /-- `evmwhsmf`: 49_spe_multiply_word_loadstore.md R1552. -/
  | evmwhsmf (rd ra rb : Gpr)
  /-- `evmwhsmfa`: 49_spe_multiply_word_loadstore.md R1553. -/
  | evmwhsmfa (rd ra rb : Gpr)
  /-- `evmwhsmi`: 49_spe_multiply_word_loadstore.md R1554. -/
  | evmwhsmi (rd ra rb : Gpr)
  /-- `evmwhsmia`: 49_spe_multiply_word_loadstore.md R1555. -/
  | evmwhsmia (rd ra rb : Gpr)
  /-- `evmwhssf`: 49_spe_multiply_word_loadstore.md R1556. -/
  | evmwhssf (rd ra rb : Gpr)
  /-- `evmwhssfa`: 49_spe_multiply_word_loadstore.md R1557. -/
  | evmwhssfa (rd ra rb : Gpr)
  /-- `evmwhumi`: 49_spe_multiply_word_loadstore.md R1558. -/
  | evmwhumi (rd ra rb : Gpr)
  /-- `evmwhumia`: 49_spe_multiply_word_loadstore.md R1559. -/
  | evmwhumia (rd ra rb : Gpr)
  /-- `evmwlumi`: 49_spe_multiply_word_loadstore.md R1560. -/
  | evmwlumi (rd ra rb : Gpr)
  /-- `evmwlumia`: 49_spe_multiply_word_loadstore.md R1561. -/
  | evmwlumia (rd ra rb : Gpr)
  /-- `evmwlsmiaaw`: 49_spe_multiply_word_loadstore.md R1562. -/
  | evmwlsmiaaw (rd ra rb : Gpr)
  /-- `evmwlsmianw`: 49_spe_multiply_word_loadstore.md R1563. -/
  | evmwlsmianw (rd ra rb : Gpr)
  /-- `evmwlssiaaw`: 49_spe_multiply_word_loadstore.md R1564. -/
  | evmwlssiaaw (rd ra rb : Gpr)
  /-- `evmwlssianw`: 49_spe_multiply_word_loadstore.md R1565. -/
  | evmwlssianw (rd ra rb : Gpr)
  /-- `evmwlumiaaw`: 49_spe_multiply_word_loadstore.md R1566. -/
  | evmwlumiaaw (rd ra rb : Gpr)
  /-- `evmwlumianw`: 49_spe_multiply_word_loadstore.md R1567. -/
  | evmwlumianw (rd ra rb : Gpr)
  /-- `evmwlusiaaw`: 49_spe_multiply_word_loadstore.md R1568. -/
  | evmwlusiaaw (rd ra rb : Gpr)
  /-- `evmwlusianw`: 49_spe_multiply_word_loadstore.md R1569. -/
  | evmwlusianw (rd ra rb : Gpr)
  /-- `evmwsmf`: 49_spe_multiply_word_loadstore.md R1570. -/
  | evmwsmf (rd ra rb : Gpr)
  /-- `evmwsmfa`: 49_spe_multiply_word_loadstore.md R1571. -/
  | evmwsmfa (rd ra rb : Gpr)
  /-- `evmwsmfaa`: 49_spe_multiply_word_loadstore.md R1572. -/
  | evmwsmfaa (rd ra rb : Gpr)
  /-- `evmwsmfan`: 49_spe_multiply_word_loadstore.md R1573. -/
  | evmwsmfan (rd ra rb : Gpr)
  /-- `evmwsmi`: 49_spe_multiply_word_loadstore.md R1574. -/
  | evmwsmi (rd ra rb : Gpr)
  /-- `evmwsmia`: 49_spe_multiply_word_loadstore.md R1575. -/
  | evmwsmia (rd ra rb : Gpr)
  /-- `evmwsmiaa`: 49_spe_multiply_word_loadstore.md R1576. -/
  | evmwsmiaa (rd ra rb : Gpr)
  /-- `evmwsmian`: 49_spe_multiply_word_loadstore.md R1577. -/
  | evmwsmian (rd ra rb : Gpr)
  /-- `evmwssf`: 49_spe_multiply_word_loadstore.md R1578. -/
  | evmwssf (rd ra rb : Gpr)
  /-- `evmwssfa`: 49_spe_multiply_word_loadstore.md R1579. -/
  | evmwssfa (rd ra rb : Gpr)
  /-- `evmwssfaa`: 49_spe_multiply_word_loadstore.md R1580. -/
  | evmwssfaa (rd ra rb : Gpr)
  /-- `evmwssfan`: 49_spe_multiply_word_loadstore.md R1581. -/
  | evmwssfan (rd ra rb : Gpr)
  /-- `evmwumi`: 49_spe_multiply_word_loadstore.md R1582. -/
  | evmwumi (rd ra rb : Gpr)
  /-- `evmwumia`: 49_spe_multiply_word_loadstore.md R1583. -/
  | evmwumia (rd ra rb : Gpr)
  /-- `evmwumiaa`: 49_spe_multiply_word_loadstore.md R1584. -/
  | evmwumiaa (rd ra rb : Gpr)
  /-- `evmwumian`: 49_spe_multiply_word_loadstore.md R1585. -/
  | evmwumian (rd ra rb : Gpr)
  /-- `evaddsmiaaw`: 49_spe_multiply_word_loadstore.md R1586. -/
  | evaddsmiaaw (rd ra : Gpr)
  /-- `evaddssiaaw`: 49_spe_multiply_word_loadstore.md R1587. -/
  | evaddssiaaw (rd ra : Gpr)
  /-- `evaddumiaaw`: 49_spe_multiply_word_loadstore.md R1588. -/
  | evaddumiaaw (rd ra : Gpr)
  /-- `evaddusiaaw`: 49_spe_multiply_word_loadstore.md R1589. -/
  | evaddusiaaw (rd ra : Gpr)
  /-- `evsubfsmiaaw`: 49_spe_multiply_word_loadstore.md R1590. -/
  | evsubfsmiaaw (rd ra : Gpr)
  /-- `evsubfssiaaw`: 49_spe_multiply_word_loadstore.md R1591. -/
  | evsubfssiaaw (rd ra : Gpr)
  /-- `evsubfumiaaw`: 49_spe_multiply_word_loadstore.md R1592. -/
  | evsubfumiaaw (rd ra : Gpr)
  /-- `evsubfusiaaw`: 49_spe_multiply_word_loadstore.md R1593. -/
  | evsubfusiaaw (rd ra : Gpr)
  /-- `evldd`: 49_spe_multiply_word_loadstore.md R1610. -/
  | evldd (rd : Gpr) (uimm : BitVec 5) (ra : Gpr)
  /-- `evlddx`: 49_spe_multiply_word_loadstore.md R1611. -/
  | evlddx (rd ra rb : Gpr)
  /-- `evldw`: 49_spe_multiply_word_loadstore.md R1612. -/
  | evldw (rd : Gpr) (uimm : BitVec 5) (ra : Gpr)
  /-- `evldwx`: 49_spe_multiply_word_loadstore.md R1613. -/
  | evldwx (rd ra rb : Gpr)
  /-- `evldh`: 49_spe_multiply_word_loadstore.md R1614. -/
  | evldh (rd : Gpr) (uimm : BitVec 5) (ra : Gpr)
  /-- `evldhx`: 49_spe_multiply_word_loadstore.md R1615. -/
  | evldhx (rd ra rb : Gpr)
  /-- `evlhhesplat`: 49_spe_multiply_word_loadstore.md R1616. -/
  | evlhhesplat (rd : Gpr) (uimm : BitVec 5) (ra : Gpr)
  /-- `evlhhesplatx`: 49_spe_multiply_word_loadstore.md R1617. -/
  | evlhhesplatx (rd ra rb : Gpr)
  /-- `evlhhousplat`: 49_spe_multiply_word_loadstore.md R1618. -/
  | evlhhousplat (rd : Gpr) (uimm : BitVec 5) (ra : Gpr)
  /-- `evlhhousplatx`: 49_spe_multiply_word_loadstore.md R1619. -/
  | evlhhousplatx (rd ra rb : Gpr)
  /-- `evlhhossplat`: 49_spe_multiply_word_loadstore.md R1620. -/
  | evlhhossplat (rd : Gpr) (uimm : BitVec 5) (ra : Gpr)
  /-- `evlhhossplatx`: 49_spe_multiply_word_loadstore.md R1621. -/
  | evlhhossplatx (rd ra rb : Gpr)
  /-- `evlwhe`: 49_spe_multiply_word_loadstore.md R1622. -/
  | evlwhe (rd : Gpr) (uimm : BitVec 5) (ra : Gpr)
  /-- `evlwhex`: 49_spe_multiply_word_loadstore.md R1623. -/
  | evlwhex (rd ra rb : Gpr)
  /-- `evlwhou`: 49_spe_multiply_word_loadstore.md R1624. -/
  | evlwhou (rd : Gpr) (uimm : BitVec 5) (ra : Gpr)
  /-- `evlwhoux`: 49_spe_multiply_word_loadstore.md R1625. -/
  | evlwhoux (rd ra rb : Gpr)
  /-- `evlwhos`: 49_spe_multiply_word_loadstore.md R1626. -/
  | evlwhos (rd : Gpr) (uimm : BitVec 5) (ra : Gpr)
  /-- `evlwhosx`: 49_spe_multiply_word_loadstore.md R1627. -/
  | evlwhosx (rd ra rb : Gpr)
  /-- `evlwwsplat`: 49_spe_multiply_word_loadstore.md R1628. -/
  | evlwwsplat (rd : Gpr) (uimm : BitVec 5) (ra : Gpr)
  /-- `evlwwsplatx`: 49_spe_multiply_word_loadstore.md R1629. -/
  | evlwwsplatx (rd ra rb : Gpr)
  /-- `evlwhsplat`: 49_spe_multiply_word_loadstore.md R1630. -/
  | evlwhsplat (rd : Gpr) (uimm : BitVec 5) (ra : Gpr)
  /-- `evlwhsplatx`: 49_spe_multiply_word_loadstore.md R1631. -/
  | evlwhsplatx (rd ra rb : Gpr)
  /-- `evstdd`: 49_spe_multiply_word_loadstore.md R1632. -/
  | evstdd (rs : Gpr) (uimm : BitVec 5) (ra : Gpr)
  /-- `evstddx`: 49_spe_multiply_word_loadstore.md R1633. -/
  | evstddx (rs ra rb : Gpr)
  /-- `evstdw`: 49_spe_multiply_word_loadstore.md R1634. -/
  | evstdw (rs : Gpr) (uimm : BitVec 5) (ra : Gpr)
  /-- `evstdwx`: 49_spe_multiply_word_loadstore.md R1635. -/
  | evstdwx (rs ra rb : Gpr)
  /-- `evstdh`: 49_spe_multiply_word_loadstore.md R1636. -/
  | evstdh (rs : Gpr) (uimm : BitVec 5) (ra : Gpr)
  /-- `evstdhx`: 49_spe_multiply_word_loadstore.md R1637. -/
  | evstdhx (rs ra rb : Gpr)
  /-- `evstwhe`: 49_spe_multiply_word_loadstore.md R1638. -/
  | evstwhe (rs : Gpr) (uimm : BitVec 5) (ra : Gpr)
  /-- `evstwhex`: 49_spe_multiply_word_loadstore.md R1639. -/
  | evstwhex (rs ra rb : Gpr)
  /-- `evstwho`: 49_spe_multiply_word_loadstore.md R1640. -/
  | evstwho (rs : Gpr) (uimm : BitVec 5) (ra : Gpr)
  /-- `evstwhox`: 49_spe_multiply_word_loadstore.md R1641. -/
  | evstwhox (rs ra rb : Gpr)
  /-- `evstwwe`: 49_spe_multiply_word_loadstore.md R1642. -/
  | evstwwe (rs : Gpr) (uimm : BitVec 5) (ra : Gpr)
  /-- `evstwwex`: 49_spe_multiply_word_loadstore.md R1643. -/
  | evstwwex (rs ra rb : Gpr)
  /-- `evstwwo`: 49_spe_multiply_word_loadstore.md R1644. -/
  | evstwwo (rs : Gpr) (uimm : BitVec 5) (ra : Gpr)
  /-- `evstwwox`: 49_spe_multiply_word_loadstore.md R1645. -/
  | evstwwox (rs ra rb : Gpr)
  -- spec/62_perfmon_power.md
  /-- `mfpmr`: 62_perfmon_power.md R2310. -/
  | mfpmr (rd : Gpr) (pmrn : BitVec 10)
  /-- `mtpmr`: 62_perfmon_power.md R2311. -/
  | mtpmr (pmrn : BitVec 10) (rs : Gpr)
deriving DecidableEq, Repr

end Sys2Proof
end

