-- ==== Sys2Proof/Machine/Operands.lean ====
section
/-! DEFINITION. Operand forms: base registers and effective addresses (spec/20_memory.md R202; spec/30_encoding.md R512, R513;
spec/44_vle.md R1020, R1021), immediate operands of the VLE forms (spec/44_vle.md R1022), and trap conditions. -/

namespace Sys2Proof.Machine

/-- `RA|0`: the register, or zero where the field is zero (30_encoding.md R512). -/
def State.base0 (s : State) (ra : Gpr) : Word := if ra = 0#5 then 0#32 else s.gprW ra

/-- The effective address of a D-form access (41_base_loadstore.md R700). -/
def State.eaD (s : State) (ra : Gpr) (d : BitVec 16) : Word := s.base0 ra + sext16 d
/-- The effective address of an X-form access. -/
def State.eaX (s : State) (ra rb : Gpr) : Word := s.base0 ra + s.gprW rb
/-- The effective address of a D8-form access (44_vle.md R2700). -/
def State.eaD8 (s : State) (ra : Gpr) (d : BitVec 8) : Word := s.base0 ra + d.signExtend 32
/-- The effective address of an SD4-form access: the register always (44_vle.md R1080). -/
def State.eaSd4 (s : State) (rx : Gpr) (sd4 : BitVec 4) (scale : Nat) : Word :=
  s.gprW rx + (sd4.zeroExtend 32 <<< scale)
/-- The effective address of an SPE load or store with a 5-bit scaled offset (49_spe_multiply_word_loadstore.md). -/
def State.eaEv (s : State) (ra : Gpr) (ui : BitVec 5) (scale : Nat) : Word := s.base0 ra + (ui.zeroExtend 32 <<< scale)

/-- The address is a multiple of `n`, a power of two (20_memory.md R216). -/
def aligned (ea : Word) (n : Nat) : Bool := ea.toNat % n == 0

/-- The immediate of the SCI8 forms (44_vle.md R1022): UI8 at one of four places, the other bytes filled with F. -/
def sci8 (f : Bool) (scl : BitVec 2) (ui8 : BitVec 8) : Word :=
  let k := 8 * scl.toNat
  let v : Word := ui8.zeroExtend 32 <<< k
  if f then v ||| ~~~(0xFF#32 <<< k) else v

/-- A field of 16 bits as a high immediate. -/
def high16 (v : BitVec 16) : Word := v ++ 0#16

/-- The low halfword of a word, sign-extended. -/
def halfS (w : Word) : Word := sext16 (w.extractLsb' 0 16)
/-- The low halfword of a word, zero-extended. -/
def halfU (w : Word) : Word := zext16 (w.extractLsb' 0 16)
/-- The low byte of a word, sign-extended. -/
def byteS (w : Word) : Word := (w.extractLsb' 0 8).signExtend 32

/-- Bit `n` of a word alone, 0 the most significant (44_vle.md R1073). -/
def bitMask (n : BitVec 5) : Word := 0x80000000#32 >>> n.toNat

/-- The trap condition of `tw` and `twi` (42_base_branch_cr_system.md R830, R831). -/
def trapCond (tmask : BitVec 5) (a b : Word) : Bool :=
  (tmask.getLsbD 4 && a.slt b) || (tmask.getLsbD 3 && b.slt a) || (tmask.getLsbD 2 && a == b) ||
    (tmask.getLsbD 1 && a.ult b) || (tmask.getLsbD 0 && b.ult a)

/-- The trap condition of an instruction; false of those that are no trap (61_debug.md R2210). -/
def trapOf (i : Instr) (s : State) : Bool :=
  match i with
  | .tw tmask ra rb => trapCond tmask (s.gprW ra) (s.gprW rb)
  | .twi tmask ra simm => trapCond tmask (s.gprW ra) (sext16 simm)
  | _ => false

end Sys2Proof.Machine
end

