-- ==== Sys2Proof/Machine/Transfer.lean ====
section
/-! DEFINITION. The shared shapes of the load and store instructions (spec/41_base_loadstore.md R700 to R702, R752;
spec/43_apu_misc.md R919, R930). -/

namespace Sys2Proof.Machine

/-- The effective address goes to the base register of an update form, GPR0 included (41_base_loadstore.md R702). -/
def State.setBase (s : State) (upd : Option Gpr) (ea : Word) : State :=
  match upd with
  | none => s
  | some ra => s.setGprW ra ea

/-- A loaded value, zero-extended. -/
def zeroExt (b : List Byte) : Word := bytesWord b
/-- A loaded halfword, sign-extended. -/
def algebraic (b : List Byte) : Word := (BitVec.ofNat 16 (bytesNat b)).signExtend 32
/-- A loaded value with its bytes reversed, zero-extended (41_base_loadstore.md R740, R741). -/
def reversed (b : List Byte) : Word := bytesWord b.reverse

/-- The low byte of a register. -/
def State.storeByte (s : State) (r : Gpr) : List Byte := [(s.gprW r).extractLsb' 0 8]
/-- The low halfword of a register. -/
def State.storeHalf (s : State) (r : Gpr) : List Byte := halfBytes ((s.gprW r).extractLsb' 0 16)
/-- The low word of a register. -/
def State.storeWord (s : State) (r : Gpr) : List Byte := wordBytes (s.gprW r)

/-- A load of `n` bytes into the low word of a register by an instruction of `len` bytes; the destination is written last
(41_base_loadstore.md R702). -/
def State.loadTo (s : State) (len n : Nat) (rt : Gpr) (upd : Option Gpr) (f : List Byte → Word) (ea : Word) :
    Host.Outcome State Fault Refusal :=
  (s.load 0#32 ea n n).finish fun b s => ((s.setBase upd ea).setGprW rt (f b)).advance len

/-- A store of the bytes of one element by an instruction of `len` bytes. -/
def State.storeFrom (s : State) (len : Nat) (b : List Byte) (upd : Option Gpr) (ea : Word) :
    Host.Outcome State Fault Refusal :=
  (s.store 0#32 ea b.length b).finish fun _ s => (s.setBase upd ea).advance len

/-- Words loaded in ascending order, each written where it goes before the next is read (41_base_loadstore.md R752;
92_eei_decisions.md D62). Each is a beat of its own for the Parallel Signature Unit (DESIGN CHOICE, log entry 66:
64_external_debug_psu.md R2281 leaves the grouping open). -/
def State.loadWords (s : State) (ea : Word) : List (State → Word → State) → Res Unit
  | [] => .ok () s
  | put :: l => (s.load 0#32 ea 4 4).andThen fun b s => (put s (bytesWord b)).loadWords (ea + 4#32) l

/-- Words stored in ascending order (41_base_loadstore.md R752). After a bus error the store buffer goes on with its next
entry (22_cache.md R430); with the store buffer off no later word reaches the bus (65_external_signals.md R2622), and that the
instruction is complete then, with the pc past it, is the model's choice (DESIGN CHOICE, log entry 25). Each word is a beat of its
own for the Parallel Signature Unit (DESIGN CHOICE, log entry 66: 64_external_debug_psu.md R2281 leaves the grouping open). -/
def State.storeWords (s : State) (ea : Word) : List Word → Res Unit
  | [] => .ok () s
  | w :: l =>
    (s.storeDone 0#32 ea 4 (wordBytes w)).andThen fun done s =>
      if done || !s.cache.hdbcr0.getLsbD 3 then s.storeWords (ea + 4#32) l else .ok () s

/-- A load of several words: the address is a multiple of 4, checked once before everything (41_base_loadstore.md R750). -/
def State.loadMultiple (s : State) (ea : Word) (l : List (State → Word → State)) : Host.Outcome State Fault Refusal :=
  if aligned ea 4 then (s.loadWords ea l).finish fun _ s => s.advance 4 else .next (raiseAlignment ea 0#32 s)

/-- A store of several words (41_base_loadstore.md R751). -/
def State.storeMultiple (s : State) (ea : Word) (l : List Word) : Host.Outcome State Fault Refusal :=
  if aligned ea 4 then (s.storeWords ea l).finish fun _ s => s.advance 4 else .next (raiseAlignment ea esrSt s)

/-- The registers from `r` to 31. -/
def gprsFrom (r : Gpr) : List Gpr := (List.range (32 - r.toNat)).map fun k => r + BitVec.ofNat 5 k
/-- The volatile registers: r0, r3 to r12 (43_apu_misc.md R931). -/
def gprsVolatile : List Gpr := [0#5, 3#5, 4#5, 5#5, 6#5, 7#5, 8#5, 9#5, 10#5, 11#5, 12#5]

/-- Where the words of registers go. -/
def intoGprs (l : List Gpr) : List (State → Word → State) := l.map fun r s w => s.setGprW r w
/-- The words of registers. -/
def State.fromGprs (s : State) (l : List Gpr) : List Word := l.map s.gprW

/-- A load and reserve of `n` bytes (43_apu_misc.md R919 to R922; 20_memory.md R242). -/
def State.loadReserved (s : State) (n : Nat) (rt ra rb : Gpr) : Host.Outcome State Fault Refusal :=
  let ea := s.eaX ra rb
  if aligned ea n then (s.loadReserve ea n).finish fun b s => (s.setGprW rt (bytesWord b)).advance 4
  else .next (raiseAlignment ea 0#32 s)

/-- CR0 of a store conditional: whether the store was performed, and XER[SO] (43_apu_misc.md R923). -/
def State.condCr (s : State) (ok : Bool) : State := s.setCrField 0#3 (crBits false false ok s.xerSo)

/-- A store conditional (43_apu_misc.md R919, R923 to R925; 20_memory.md R242): a nop but for CR0 without a
reservation. -/
def State.storeReserved (s : State) (b : List Byte) (ra rb : Gpr) : Host.Outcome State Fault Refusal :=
  let ea := s.eaX ra rb
  if !s.resv then .next ((s.condCr false).advance 4)
  else if aligned ea b.length then (s.storeConditional ea b).finish fun ok s => (s.condCr ok).advance 4
  else .next (raiseAlignment ea esrSt s)

end Sys2Proof.Machine
end

