-- ==== Sys2Proof/Machine/Apu.lean ====
section
/-! DEFINITION. The instructions of the auxiliary units: select, returns, halt, wait, barriers, device control registers,
reservations and volatile context (spec/43_apu_misc.md R901 to R943). -/

namespace Sys2Proof.Machine

/-- Debugger notify halt (64_external_debug_psu.md R2263): illegal unless the debugger enabled it and OnCE operation is enabled; it
halts with the pc at
itself unless that is masked. The operand fields go to the debugger with the instruction. -/
def State.notifyHalt (s : State) (len : Nat) (vle : Bool) (_dui : BitVec 5) (_duis : BitVec 10) : State :=
  if s.dbg.edbcr0 &&& 0x40000000#32 = 0#32 ∨ s.pins.enOnce = false then raiseIllegal s
  else
    let bits : Word := if vle then 0x20000010#32 else 0x20000000#32
    let t := if s.dbg.edm then { s with dbg := { s.dbg with edbsr0 := s.dbg.edbsr0 ||| bits } } else s
    if s.dbg.edbsrmsk0 &&& 0x20000000#32 = 0#32 then t.enterHalt else t.advance len

/-- `isel` (43_apu_misc.md R901). -/
def execIsel (rt ra rb : Gpr) (crb : CrBit) (s : State) : Host.Outcome State Fault Refusal :=
  .next ((s.setGprW rt (if crBit s.cr crb then s.base0 ra else s.gprW rb)).advance 4)

/-- `rfdi` (43_apu_misc.md R902). -/
def execRfdi (s : State) : Host.Outcome State Fault Refusal :=
  if !s.dapuen then .next (raiseIllegal s)
  else privileged s fun s => .next (returnFrom s.ints.dsrr0 s.ints.dsrr1 s)

/-- `rfmci` (43_apu_misc.md R904). -/
def execRfmci (s : State) : Host.Outcome State Fault Refusal :=
  privileged s fun s => .next (returnFrom s.ints.mcsrr0 s.ints.mcsrr1 s)

/-- `dnh` (43_apu_misc.md R903). -/
def execDnh (dui : BitVec 5) (duis : BitVec 10) (s : State) : Host.Outcome State Fault Refusal :=
  .next (s.notifyHalt 4 false dui duis)

/-- `wait` (43_apu_misc.md R907): the store buffer is emptied before the core waits (62_perfmon_power.md R2351). -/
def execWait (s : State) : Host.Outcome State Fault Refusal :=
  let t := s.flushBuffers
  .next ({ t with pwr := { t.pwr with waiting := true } }.advance 4)

/-- `msync` (43_apu_misc.md R905): it completes when the store buffer is empty (22_cache.md R430). -/
def execMsync (s : State) : Host.Outcome State Fault Refusal := .next (s.syncBuffers.advance 4)

/-- `mbar` (43_apu_misc.md R906): it empties the store buffer as `msync` does; the sequence for modified code asks for an `msync`
(22_cache.md R434). -/
def execMbar (mo : BitVec 5) (s : State) : Host.Outcome State Fault Refusal :=
  if 2 < mo.toNat then .next (raiseIllegal s) else .next (s.flushBuffers.advance 4)

/-- `mfdcr` (43_apu_misc.md R912). -/
def execMfdcr (rt : Gpr) (dcrn : BitVec 10) (s : State) : Host.Outcome State Fault Refusal :=
  match dcrNamed s.pins dcrn with
  | none => .next (raiseIllegal s)
  | some r => privileged s fun s => .next ((s.setGprW rt (s.readDcr r)).advance 4)

/-- `mtdcr` (43_apu_misc.md R913). -/
def execMtdcr (dcrn : BitVec 10) (rs : Gpr) (s : State) : Host.Outcome State Fault Refusal :=
  match dcrNamed s.pins dcrn with
  | none => .next (raiseIllegal s)
  | some r => privileged s fun s => .next ((s.writeDcr r (s.gprW rs)).advance 4)

/-- `lbarx` (43_apu_misc.md R920). -/
def execLbarx (rt ra rb : Gpr) (s : State) : Host.Outcome State Fault Refusal := s.loadReserved 1 rt ra rb

/-- `lharx` (43_apu_misc.md R921). -/
def execLharx (rt ra rb : Gpr) (s : State) : Host.Outcome State Fault Refusal := s.loadReserved 2 rt ra rb

/-- `lwarx` (43_apu_misc.md R922). -/
def execLwarx (rt ra rb : Gpr) (s : State) : Host.Outcome State Fault Refusal := s.loadReserved 4 rt ra rb

/-- `stbcx.` (43_apu_misc.md R923). -/
def execStbcxDot (rs ra rb : Gpr) (s : State) : Host.Outcome State Fault Refusal :=
  s.storeReserved (s.storeByte rs) ra rb

/-- `sthcx.` (43_apu_misc.md R924). -/
def execSthcxDot (rs ra rb : Gpr) (s : State) : Host.Outcome State Fault Refusal :=
  s.storeReserved (s.storeHalf rs) ra rb

/-- `stwcx.` (43_apu_misc.md R925). -/
def execStwcxDot (rs ra rb : Gpr) (s : State) : Host.Outcome State Fault Refusal :=
  s.storeReserved (s.storeWord rs) ra rb

/-- `e_lmvgprw` (43_apu_misc.md R931). -/
def execELmvgprw (d8 : BitVec 8) (ra : Gpr) (s : State) : Host.Outcome State Fault Refusal :=
  s.loadMultiple (s.eaD8 ra d8) (intoGprs gprsVolatile)

/-- `e_stmvgprw` (43_apu_misc.md R932). -/
def execEStmvgprw (d8 : BitVec 8) (ra : Gpr) (s : State) : Host.Outcome State Fault Refusal :=
  s.storeMultiple (s.eaD8 ra d8) (s.fromGprs gprsVolatile)

/-- `e_lmvsprw` (43_apu_misc.md R933). -/
def execELmvsprw (d8 : BitVec 8) (ra : Gpr) (s : State) : Host.Outcome State Fault Refusal :=
  s.loadMultiple (s.eaD8 ra d8) [fun s w => { s with cr := w }, fun s w => { s with lr := w },
    fun s w => { s with ctr := w }, fun s w => { s with xer := w &&& xerMask }]

/-- `e_stmvsprw` (43_apu_misc.md R934). -/
def execEStmvsprw (d8 : BitVec 8) (ra : Gpr) (s : State) : Host.Outcome State Fault Refusal :=
  s.storeMultiple (s.eaD8 ra d8) [s.cr, s.lr, s.ctr, s.xer]

/-- `e_lmvsrrw` (43_apu_misc.md R936). -/
def execELmvsrrw (d8 : BitVec 8) (ra : Gpr) (s : State) : Host.Outcome State Fault Refusal :=
  privileged s fun s =>
    s.loadMultiple (s.eaD8 ra d8)
      [fun s w => { s with ints := { s.ints with srr0 := w } },
        fun s w => { s with ints := { s.ints with srr1 := w } }]

/-- `e_stmvsrrw` (43_apu_misc.md R937). -/
def execEStmvsrrw (d8 : BitVec 8) (ra : Gpr) (s : State) : Host.Outcome State Fault Refusal :=
  privileged s fun s => s.storeMultiple (s.eaD8 ra d8) [s.ints.srr0, s.ints.srr1]

/-- `e_lmvcsrrw` (43_apu_misc.md R938). -/
def execELmvcsrrw (d8 : BitVec 8) (ra : Gpr) (s : State) : Host.Outcome State Fault Refusal :=
  privileged s fun s =>
    s.loadMultiple (s.eaD8 ra d8)
      [fun s w => { s with ints := { s.ints with csrr0 := w } },
        fun s w => { s with ints := { s.ints with csrr1 := w } }]

/-- `e_stmvcsrrw` (43_apu_misc.md R939). -/
def execEStmvcsrrw (d8 : BitVec 8) (ra : Gpr) (s : State) : Host.Outcome State Fault Refusal :=
  privileged s fun s => s.storeMultiple (s.eaD8 ra d8) [s.ints.csrr0, s.ints.csrr1]

/-- `e_lmvdsrrw` (43_apu_misc.md R940). -/
def execELmvdsrrw (d8 : BitVec 8) (ra : Gpr) (s : State) : Host.Outcome State Fault Refusal :=
  privileged s fun s =>
    s.loadMultiple (s.eaD8 ra d8)
      [fun s w => { s with ints := { s.ints with dsrr0 := w } },
        fun s w => { s with ints := { s.ints with dsrr1 := w } }]

/-- `e_stmvdsrrw` (43_apu_misc.md R941). -/
def execEStmvdsrrw (d8 : BitVec 8) (ra : Gpr) (s : State) : Host.Outcome State Fault Refusal :=
  privileged s fun s => s.storeMultiple (s.eaD8 ra d8) [s.ints.dsrr0, s.ints.dsrr1]

/-- `e_lmvmcsrrw` (43_apu_misc.md R942). -/
def execELmvmcsrrw (d8 : BitVec 8) (ra : Gpr) (s : State) : Host.Outcome State Fault Refusal :=
  privileged s fun s =>
    s.loadMultiple (s.eaD8 ra d8)
      [fun s w => { s with ints := { s.ints with mcsrr0 := w } },
        fun s w => { s with ints := { s.ints with mcsrr1 := w } }]

/-- `e_stmvmcsrrw` (43_apu_misc.md R943). -/
def execEStmvmcsrrw (d8 : BitVec 8) (ra : Gpr) (s : State) : Host.Outcome State Fault Refusal :=
  privileged s fun s => s.storeMultiple (s.eaD8 ra d8) [s.ints.mcsrr0, s.ints.mcsrr1]

end Sys2Proof.Machine
end

