-- ==== Sys2Proof/Machine/Branch.lean ====
section
/-! DEFINITION. The branch instructions of Book E and of VLE (spec/42_base_branch_cr_system.md R800 to R805; spec/44_vle.md
R1033, R1034, R1087, R1088, R2741, R2742). -/

namespace Sys2Proof.Machine

/-- What a branch decides: taken or not, its target, CTR after it, whether it is conditional. -/
structure Br where
  taken : Bool
  target : Word
  ctr : Word
  cond : Bool
deriving DecidableEq, Repr

/-- CTR after a branch with this BO (42_base_branch_cr_system.md R801). -/
def boCtr (bo : BitVec 5) (ctr : Word) : Word := if bo.getLsbD 2 then ctr else ctr - 1#32
/-- BranchCond (42_base_branch_cr_system.md R801), of CTR after the decrement. -/
def boTaken (bo : BitVec 5) (bi : CrBit) (cr ctr : Word) : Bool :=
  (bo.getLsbD 2 || Bool.xor (ctr != 0#32) (bo.getLsbD 1)) && (bo.getLsbD 4 || crBit cr bi == bo.getLsbD 3)
/-- BO says branch always. -/
def boAlways (bo : BitVec 5) : Bool := bo.getLsbD 4 && bo.getLsbD 2

/-- An unconditional branch. -/
def State.brAlways (s : State) (target : Word) : Br := ⟨true, target, s.ctr, false⟩
/-- A branch under a BO and BI field. -/
def State.brBo (s : State) (bo : BitVec 5) (bi : CrBit) (target : Word) : Br :=
  ⟨boTaken bo bi s.cr (boCtr bo s.ctr), target, boCtr bo s.ctr, !boAlways bo⟩

/-- Bits 0 to 30 of LR or CTR as a target (42_base_branch_cr_system.md R800). -/
def regTarget (r : Word) : Word := r &&& 0xFFFFFFFE#32
/-- A target relative to the branch, or absolute. -/
def State.relTarget (s : State) (aa : Bool) (d : Word) : Word := if aa then d else s.pc + d

/-- `b` (42_base_branch_cr_system.md R802). -/
def State.brB (s : State) (li : BitVec 24) (aa : Bool) : Br :=
  s.brAlways (s.relTarget aa ((li ++ 0#2).signExtend 32))
/-- `bc` (42_base_branch_cr_system.md R803). -/
def State.brBc (s : State) (bo : BitVec 5) (bi : CrBit) (bd : BitVec 14) (aa : Bool) : Br :=
  s.brBo bo bi (s.relTarget aa ((bd ++ 0#2).signExtend 32))
/-- `bclr` (42_base_branch_cr_system.md R804). -/
def State.brBclr (s : State) (bo : BitVec 5) (bi : CrBit) : Br := s.brBo bo bi (regTarget s.lr)
/-- `bcctr` (42_base_branch_cr_system.md R805): the target is CTR before the decrement. -/
def State.brBcctr (s : State) (bo : BitVec 5) (bi : CrBit) : Br := s.brBo bo bi (regTarget s.ctr)
/-- `se_b` (44_vle.md R1087). -/
def State.brSeB (s : State) (bd8 : BitVec 8) : Br := s.brAlways (s.pc + (bd8 ++ 0#1).signExtend 32)
/-- `se_bc` (44_vle.md R1088). -/
def State.brSeBc (s : State) (bo16 : Bool) (bi16 : BitVec 2) (bd8 : BitVec 8) : Br :=
  ⟨crBit s.cr (0#3 ++ bi16) == bo16, s.pc + (bd8 ++ 0#1).signExtend 32, s.ctr, true⟩
/-- `se_blr` (44_vle.md R1033). -/
def State.brSeBlr (s : State) : Br := s.brAlways (regTarget s.lr)
/-- `se_bctr` (44_vle.md R1034). -/
def State.brSeBctr (s : State) : Br := s.brAlways (regTarget s.ctr)
/-- `e_b` (44_vle.md R2741). -/
def State.brEB (s : State) (bd24 : BitVec 24) : Br := s.brAlways (s.pc + (bd24 ++ 0#1).signExtend 32)
/-- `e_bc` (44_vle.md R2742). -/
def State.brEBc (s : State) (bo32 : BitVec 2) (bi32 : BitVec 4) (bd15 : BitVec 15) : Br :=
  let ctr := if bo32.getLsbD 1 then s.ctr - 1#32 else s.ctr
  let taken :=
    if bo32.getLsbD 1 then Bool.xor (ctr != 0#32) (bo32.getLsbD 0) else crBit s.cr (0#1 ++ bi32) == bo32.getLsbD 0
  ⟨taken, s.pc + (bd15 ++ 0#1).signExtend 32, ctr, true⟩

/-- What an instruction decides as a branch, and its link bit; `none` for the others. -/
def branchOf (i : Instr) (s : State) : Option (Br × Bool) :=
  match i with
  | .b li aa lk => some (s.brB li aa, lk)
  | .bc bo bi bd aa lk => some (s.brBc bo bi bd aa, lk)
  | .bclr bo bi lk => some (s.brBclr bo bi, lk)
  | .bcctr bo bi lk => some (s.brBcctr bo bi, lk)
  | .seB bd8 lk => some (s.brSeB bd8, lk)
  | .seBc bo16 bi16 bd8 => some (s.brSeBc bo16 bi16 bd8, false)
  | .seBlr lk => some (s.brSeBlr, lk)
  | .seBctr lk => some (s.brSeBctr, lk)
  | .eB bd24 lk => some (s.brEB bd24, lk)
  | .eBc bo32 bi32 bd15 lk => some (s.brEBc bo32 bi32 bd15, lk)
  | _ => none

/-- The effect of a branch of `len` bytes (42_base_branch_cr_system.md R800): the link forms write LR taken or not. -/
def State.branch (s : State) (len : Nat) (lk : Bool) (r : Br) : State :=
  { s with
    pc := if r.taken then r.target else s.nextPc len
    lr := if lk then s.nextPc len else s.lr
    ctr := r.ctr }

/-- `b`, `bl`, `ba`, `bla` (42_base_branch_cr_system.md R802). -/
def execB (li : BitVec 24) (aa lk : Bool) (s : State) : Host.Outcome State Fault Refusal :=
  .next (s.branch 4 lk (s.brB li aa))
/-- `bc` and its forms (42_base_branch_cr_system.md R803). -/
def execBc (bo : BitVec 5) (bi : CrBit) (bd : BitVec 14) (aa lk : Bool) (s : State) : Host.Outcome State Fault Refusal :=
  .next (s.branch 4 lk (s.brBc bo bi bd aa))
/-- `bclr`, `bclrl` (42_base_branch_cr_system.md R804). -/
def execBclr (bo : BitVec 5) (bi : CrBit) (lk : Bool) (s : State) : Host.Outcome State Fault Refusal :=
  .next (s.branch 4 lk (s.brBclr bo bi))
/-- `bcctr`, `bcctrl` (42_base_branch_cr_system.md R805). -/
def execBcctr (bo : BitVec 5) (bi : CrBit) (lk : Bool) (s : State) : Host.Outcome State Fault Refusal :=
  .next (s.branch 4 lk (s.brBcctr bo bi))
/-- `se_b`, `se_bl` (44_vle.md R1087). -/
def execSeB (bd8 : BitVec 8) (lk : Bool) (s : State) : Host.Outcome State Fault Refusal :=
  .next (s.branch 2 lk (s.brSeB bd8))
/-- `se_bc` (44_vle.md R1088). -/
def execSeBc (bo16 : Bool) (bi16 : BitVec 2) (bd8 : BitVec 8) (s : State) : Host.Outcome State Fault Refusal :=
  .next (s.branch 2 false (s.brSeBc bo16 bi16 bd8))
/-- `se_blr`, `se_blrl` (44_vle.md R1033). -/
def execSeBlr (lk : Bool) (s : State) : Host.Outcome State Fault Refusal := .next (s.branch 2 lk s.brSeBlr)
/-- `se_bctr`, `se_bctrl` (44_vle.md R1034). -/
def execSeBctr (lk : Bool) (s : State) : Host.Outcome State Fault Refusal := .next (s.branch 2 lk s.brSeBctr)
/-- `e_b`, `e_bl` (44_vle.md R2741). -/
def execEB (bd24 : BitVec 24) (lk : Bool) (s : State) : Host.Outcome State Fault Refusal :=
  .next (s.branch 4 lk (s.brEB bd24))
/-- `e_bc`, `e_bcl` (44_vle.md R2742). -/
def execEBc (bo32 : BitVec 2) (bi32 : BitVec 4) (bd15 : BitVec 15) (lk : Bool) (s : State) :
    Host.Outcome State Fault Refusal :=
  .next (s.branch 4 lk (s.brEBc bo32 bi32 bd15))

end Sys2Proof.Machine
end

