-- ==== Sys2Proof/Machine/CacheOps.lean ====
section
/-! DEFINITION. The TLB and cache instructions (spec/21_mmu.md R330 to R334; spec/22_cache.md R440 to R453). -/

namespace Sys2Proof.Machine

/-- `tlbre` (21_mmu.md R330). -/
def execTlbre (s : State) : Host.Outcome State Fault Refusal :=
  privileged s fun s => .next (({ s with mmu := s.mmu.readEntry }.settleMas readFields).advance 4)

/-- `tlbwe` (21_mmu.md R331). -/
def execTlbwe (s : State) : Host.Outcome State Fault Refusal :=
  privileged s fun s => .next ({ s with mmu := s.mmu.writeEntry }.advance 4)

/-- `tlbsx` (21_mmu.md R332). -/
def execTlbsx (ra rb : Gpr) (s : State) : Host.Outcome State Fault Refusal :=
  privileged s fun s => .next (((s.tlbSearch (s.eaX ra rb)).settleMas searchFields).advance 4)

/-- `tlbivax` (21_mmu.md R333). -/
def execTlbivax (ra rb : Gpr) (s : State) : Host.Outcome State Fault Refusal :=
  privileged s fun s => .next ((s.tlbInvalidate (s.eaX ra rb)).advance 4)

/-- `tlbsync` (21_mmu.md R334). -/
def execTlbsync (s : State) : Host.Outcome State Fault Refusal := privileged s fun s => .next (s.advance 4)

/-- `icbi` (22_cache.md R440). -/
def execIcbi (ra rb : Gpr) (s : State) : Host.Outcome State Fault Refusal :=
  (s.blockDiscard .instr (s.eaX ra rb)).finish fun _ s => s.advance 4

/-- `icbt` (22_cache.md R441): a hint; that it brings no line into the cache is the model's choice (DESIGN CHOICE, log entry 31). -/
def execIcbt (_ct : BitVec 4) (_ra _rb : Gpr) (s : State) : Host.Outcome State Fault Refusal := .next (s.advance 4)

/-- `dcbt` (22_cache.md R446): a hint; that it brings no line into the cache is the model's choice (DESIGN CHOICE, log entry 31). -/
def execDcbt (_ct : BitVec 4) (_ra _rb : Gpr) (s : State) : Host.Outcome State Fault Refusal := .next (s.advance 4)

/-- `dcbtst` (22_cache.md R447): a hint; that it brings no line into the cache is the model's choice (DESIGN CHOICE, log entry 31). -/
def execDcbtst (_ct : BitVec 4) (_ra _rb : Gpr) (s : State) : Host.Outcome State Fault Refusal := .next (s.advance 4)

/-- `dcba` (22_cache.md R442). -/
def execDcba (_ra _rb : Gpr) (s : State) : Host.Outcome State Fault Refusal := .next (s.advance 4)

/-- `dcbf` (22_cache.md R443). -/
def execDcbf (ra rb : Gpr) (s : State) : Host.Outcome State Fault Refusal :=
  (s.blockFlush (s.eaX ra rb) true).finish fun _ s => s.advance 4

/-- `dcbi` (22_cache.md R444). -/
def execDcbi (ra rb : Gpr) (s : State) : Host.Outcome State Fault Refusal :=
  privileged s fun s => (s.blockDiscard .data (s.eaX ra rb)).finish fun _ s => s.advance 4

/-- `dcbst` (22_cache.md R445). -/
def execDcbst (ra rb : Gpr) (s : State) : Host.Outcome State Fault Refusal :=
  (s.blockFlush (s.eaX ra rb) false).finish fun _ s => s.advance 4

/-- `dcbz` (22_cache.md R448). -/
def execDcbz (ra rb : Gpr) (s : State) : Host.Outcome State Fault Refusal :=
  (s.blockZero (s.eaX ra rb)).finish fun _ s => s.advance 4

/-- `dcbtls` (22_cache.md R449). -/
def execDcbtls (ct : BitVec 4) (ra rb : Gpr) (s : State) : Host.Outcome State Fault Refusal :=
  (s.blockLock .data ct (s.eaX ra rb)).finish fun _ s => s.advance 4

/-- `dcbtstls` (22_cache.md R450). -/
def execDcbtstls (ct : BitVec 4) (ra rb : Gpr) (s : State) : Host.Outcome State Fault Refusal :=
  (s.blockLock .data ct (s.eaX ra rb)).finish fun _ s => s.advance 4

/-- `dcblc` (22_cache.md R451). -/
def execDcblc (ct : BitVec 4) (ra rb : Gpr) (s : State) : Host.Outcome State Fault Refusal :=
  (s.blockUnlock .data ct (s.eaX ra rb)).finish fun _ s => s.advance 4

/-- `icbtls` (22_cache.md R452). -/
def execIcbtls (ct : BitVec 4) (ra rb : Gpr) (s : State) : Host.Outcome State Fault Refusal :=
  (s.blockLock .instr ct (s.eaX ra rb)).finish fun _ s => s.advance 4

/-- `icblc` (22_cache.md R453). -/
def execIcblc (ct : BitVec 4) (ra rb : Gpr) (s : State) : Host.Outcome State Fault Refusal :=
  (s.blockUnlock .instr ct (s.eaX ra rb)).finish fun _ s => s.advance 4

end Sys2Proof.Machine
end

