-- ==== Sys2Proof/Machine/Fpu.lean ====
section
/-! DEFINITION. The single-precision arithmetic of the EFPU and its status and exception procedure
(spec/45_efpu_scalar.md R1102 to R1123, R1154, R1155; spec/46_efpu_vector.md R1201, R1202). -/

namespace Sys2Proof.Machine

/-! Classes of a single-precision element (45_efpu_scalar.md R1105). -/

/-- The sign. -/
def fSign (v : Word) : Bool := v.msb
/-- The biased exponent. -/
def fExp (v : Word) : Nat := (v.extractLsb' 23 8).toNat
/-- The fraction. -/
def fFrac (v : Word) : Nat := (v.extractLsb' 0 23).toNat
def fZero (v : Word) : Bool := fExp v == 0 && fFrac v == 0
def fDenorm (v : Word) : Bool := fExp v == 0 && fFrac v != 0
def fInf (v : Word) : Bool := fExp v == 255 && fFrac v == 0
def fNan (v : Word) : Bool := fExp v == 255 && fFrac v != 0
def fSpecial (v : Word) : Bool := fInf v || fNan v || fDenorm v
/-- A zero or a denorm, which counts as one. -/
def fNull (v : Word) : Bool := fExp v == 0
/-- An infinity or a NaN. -/
def fHuge (v : Word) : Bool := fExp v == 255
/-- The significand of a normalized element, an integer: its value is this times 2 to `fPow`. -/
def fSig (v : Word) : Nat := 2 ^ 23 + fFrac v
/-- The power of two of a normalized element's significand. -/
def fPow (v : Word) : Int := (fExp v : Int) - 150

/-- A word with a sign bit. -/
def withSign (s : Bool) (w : Word) : Word := (if s then 0x80000000#32 else 0#32) ||| w
/-- `zero(s)`. -/
def fZeroOf (s : Bool) : Word := withSign s 0#32
/-- `max(s)`: the largest normalized number. -/
def fMaxOf (s : Bool) : Word := withSign s 0x7F7FFFFF#32

/-- The outcome of one element (45_efpu_scalar.md R1109). `trunc` is none where the spec does not say what the
destination holds when the Round exception is taken (93_implementation_defined.md U20); then the bits of `openBits` are free
and the others zero: a half-precision number has 16 zeros before it (45_efpu_scalar.md R1155; 46_efpu_vector.md R1249). -/
structure FpOut where
  inv : Bool
  dbz : Bool
  ovf : Bool
  unf : Bool
  g : Bool
  x : Bool
  result : Word
  trunc : Option Word
  openBits : Word
deriving DecidableEq, Repr

/-- A result with nothing to report but, maybe, an invalid operation. -/
def FpOut.plain (inv : Bool) (r : Word) : FpOut := ⟨inv, false, false, false, false, false, r, some r, 0⟩

/-- Both results of an outcome changed. -/
def FpOut.map (o : FpOut) (f : Word → Word) : FpOut := { o with result := f o.result, trunc := o.trunc.map f }

/-! Rounding (45_efpu_scalar.md R1108). The mode is SPEFSCR[FRMC]: nearest, toward zero, toward plus, toward minus. -/

/-- The rounding mode is toward minus infinity. -/
def isRM (rm : BitVec 2) : Bool := rm == 3#2

/-- The significand is incremented. -/
def roundUp (rm : BitVec 2) (s g x odd : Bool) : Bool :=
  match rm.toNat with
  | 0 => g && (x || odd)
  | 1 => false
  | 2 => (g || x) && !s
  | _ => (g || x) && s

/-- A magnitude `m` (with `st`, a little more) cut by `k` binary digits: what stays, the first digit cut, the rest. -/
def cut (m k : Nat) (st : Bool) : Nat × Bool × Bool :=
  match k with
  | 0 => (m, false, st)
  | j + 1 => (m / 2 ^ (j + 1), m.testBit j, m % 2 ^ j != 0 || st)

/-- A format: the significand's digits, the exponent range and bias, and the bits of a word that a number fills. -/
structure FpFormat where
  p : Nat
  bias : Int
  emin : Int
  emax : Int
  bits : Word

/-- Single precision. -/
def single : FpFormat := ⟨24, 127, -126, 127, 0xFFFFFFFF⟩
/-- Half precision (45_efpu_scalar.md R1106). -/
def half : FpFormat := ⟨11, 15, -14, 15, 0x0000FFFF⟩

/-- A normalized number of a format; a half-precision one stands in the low half of the word. -/
def FpFormat.pack (f : FpFormat) (s : Bool) (e : Int) (t : Nat) : Word :=
  let top := BitVec.ofNat 32 ((if s then 1 else 0) * 2 ^ (if f.p = 24 then 31 else 15))
  top ||| BitVec.ofNat 32 ((e + f.bias).toNat * 2 ^ (f.p - 1) + t % 2 ^ (f.p - 1))

/-- Rounding `m * 2^e` (with `st`, a little more; then `m` has more digits than the format): `big` and `small` are what
an overflow and an underflow deliver. -/
def roundTo (f : FpFormat) (rm : BitVec 2) (s : Bool) (m : Nat) (e : Int) (st : Bool) (big small : Word) : FpOut :=
  let l := m.log2
  let (t, g, x) := cut (m * 2 ^ (f.p - 1 - l)) (l - (f.p - 1)) st
  let e0 := e + l
  let t1 := if roundUp rm s g x (t.testBit 0) then t + 1 else t
  let (t', e') := if t1 = 2 ^ f.p then (2 ^ (f.p - 1), e0 + 1) else (t1, e0)
  if f.emax < e' then ⟨false, false, true, false, false, false, big, some big, 0⟩
  else if e' < f.emin then ⟨false, false, false, true, false, false, small, some small, 0⟩
  else
    ⟨false, false, false, false, g, x, f.pack s e' t', if e0 < f.emin then none else some (f.pack s e0 t), f.bits⟩

/-- `Calc` (45_efpu_scalar.md R1114): the exact magnitude `m * 2^e` with a sign; `zs` is the sign of a zero result,
`us` of the zero an underflow delivers. -/
def fCalc (rm : BitVec 2) (zs us : Bool) (s : Bool) (m : Nat) (e : Int) (st : Bool) : FpOut :=
  if m = 0 then FpOut.plain false (fZeroOf zs) else roundTo single rm s m e st (fMaxOf s) (fZeroOf us)

/-! Arithmetic (45_efpu_scalar.md R1115 to R1119). -/

/-- A signed integer times a power of two, from a sign and a magnitude. -/
def signed (s : Bool) (m : Nat) : Int := if s then -(m : Int) else m

/-- The exact sum of `a * 2^ea` and `b * 2^eb`, as an integer and a power. -/
def exactSum (a : Int) (ea : Int) (b : Int) (eb : Int) : Int × Int :=
  let e := min ea eb
  (a * 2 ^ (ea - e).toNat + b * 2 ^ (eb - e).toNat, e)

/-- `Calc` of an exact sum, zero and underflow as the add group has them. -/
def calcSum (rm : BitVec 2) (r : Int × Int) : FpOut :=
  fCalc rm (isRM rm) (isRM rm) (decide (r.1 < 0)) r.1.natAbs r.2 false

/-- `FAdd` (45_efpu_scalar.md R1115). -/
def fAdd (rm : BitVec 2) (a b : Word) : FpOut :=
  let inv := fSpecial a || fSpecial b
  let sa := fSign a
  let sb := fSign b
  let pick (r : Word) : FpOut := FpOut.plain inv r
  if fHuge a then pick (fMaxOf sa)
  else if fHuge b then pick (fMaxOf sb)
  else if fNull a && fNull b then pick (if sa == sb then fZeroOf sa else fZeroOf (isRM rm))
  else if fNull b then pick a
  else if fNull a then pick b
  else calcSum rm (exactSum (signed sa (fSig a)) (fPow a) (signed sb (fSig b)) (fPow b))

/-- `FSub` (45_efpu_scalar.md R1115). -/
def fSub (rm : BitVec 2) (a b : Word) : FpOut := fAdd rm a (b ^^^ 0x80000000#32)

/-- `FMul` (45_efpu_scalar.md R1116). -/
def fMul (rm : BitVec 2) (a b : Word) : FpOut :=
  let inv := fSpecial a || fSpecial b
  let s := fSign a != fSign b
  if fNull a || fNull b then FpOut.plain inv (fZeroOf s)
  else if fHuge a || fHuge b then FpOut.plain inv (fMaxOf s)
  else fCalc rm s s s (fSig a * fSig b) (fPow a + fPow b) false

/-- `FDiv` (45_efpu_scalar.md R1117): 32 more digits of the dividend give a quotient of more than 24 digits. -/
def fDiv (rm : BitVec 2) (a b : Word) : FpOut :=
  let inv := fSpecial a || fSpecial b || (fZero a && fZero b)
  let s := fSign a != fSign b
  if fHuge b then FpOut.plain inv (fZeroOf s)
  else if fNull b || fHuge a then { FpOut.plain inv (fMaxOf s) with dbz := !inv && fZero b }
  else if fNull a then FpOut.plain inv (fZeroOf s)
  else
    let n := fSig a * 2 ^ 32
    fCalc rm s s s (n / fSig b) (fPow a - fPow b - 32) (n % fSig b != 0)

/-- The digits of an integer square root from digit `k - 1` down, above what is found already. -/
def rootFrom (n : Nat) : Nat → Nat → Nat
  | 0, r => r
  | k + 1, r => rootFrom n k (if (r + 2 ^ k) * (r + 2 ^ k) ≤ n then r + 2 ^ k else r)

/-- `FSqrt` (45_efpu_scalar.md R1118): the root of a significand with an even power and at least 30 more digits. -/
def fSqrt (rm : BitVec 2) (a : Word) : FpOut :=
  let sa := fSign a
  let inv := fSpecial a || (sa && !fZero a)
  if fNull a then FpOut.plain inv (fZeroOf sa)
  else if !sa && fHuge a then FpOut.plain inv (fMaxOf false)
  else if sa then FpOut.plain inv (fZeroOf true)
  else
    let k : Nat := if fPow a % 2 = 0 then 30 else 31
    let n := fSig a * 2 ^ k
    let r := rootFrom n 28 0
    fCalc rm (isRM rm) (isRM rm) false r ((fPow a - k) / 2) (r * r != n)

/-- The four multiply-add operations: whether the sum is negated, whether `d` is subtracted. -/
inductive MaddKind where
  | madd
  | msub
  | nmadd
  | nmsub
deriving DecidableEq, Repr

/-- `d` is subtracted. -/
def MaddKind.sub (k : MaddKind) : Bool := k == .msub || k == .nmsub
/-- The result is negated. -/
def MaddKind.neg (k : MaddKind) : Bool := k == .nmadd || k == .nmsub

/-- `FMAdd` before the negation, `sd` the sign with which `d` goes into the sum (45_efpu_scalar.md R1119). -/
def fMAddSum (rm : BitVec 2) (inv sd : Bool) (a b d : Word) : FpOut :=
  let sp := fSign a != fSign b
  let pz := fNull a || fNull b
  if !pz && (fHuge a || fHuge b) then FpOut.plain inv (fMaxOf sp)
  else if fHuge d then FpOut.plain inv (fMaxOf sd)
  else if pz && fNull d then FpOut.plain inv (if sp == sd then fZeroOf sp else fZeroOf (isRM rm))
  else if pz then FpOut.plain inv (withSign sd (d &&& 0x7FFFFFFF#32))
  else
    let p := signed sp (fSig a * fSig b)
    let q := if fNull d then 0 else signed sd (fSig d)
    { calcSum rm (exactSum p (fPow a + fPow b) q (if fNull d then fPow a + fPow b else fPow d)) with inv := inv }

/-- An element with an invalid operation reports nothing else (45_efpu_scalar.md R1109). -/
def FpOut.quietInv (o : FpOut) : FpOut :=
  if o.inv then FpOut.plain true o.result else o

/-- `FMAdd` (45_efpu_scalar.md R1119). -/
def fMAdd (rm : BitVec 2) (k : MaddKind) (a b d : Word) : FpOut :=
  let inv := fSpecial a || fSpecial b || fSpecial d
  let o := (fMAddSum rm inv (fSign d != k.sub) a b d).quietInv
  if k.neg then o.map (· ^^^ 0x80000000#32) else o

/-! Comparison (45_efpu_scalar.md R1120, R1121). -/

/-- The number whose order is that of the elements. -/
def fKey (v : Word) : Int := signed (fSign v) (v &&& 0x7FFFFFFF#32).toNat
def fLt (a b : Word) : Bool := decide (fKey a < fKey b)
def fGt (a b : Word) : Bool := decide (fKey b < fKey a)
def fEq (a b : Word) : Bool := decide (fKey a = fKey b)
/-- The order of minimum and maximum: -0 is below +0. -/
def fLtTotal (a b : Word) : Bool := fLt a b || (a == 0x80000000#32 && b == 0#32)

/-- `FMinMax` (45_efpu_scalar.md R1121). -/
def fMinMax (wantMax : Bool) (a b : Word) : FpOut :=
  let inv := fSpecial a || fSpecial b
  let t := if fLtTotal a b == wantMax then b else a
  let t := if fNan a && !fNan b then b else if fNan b && !fNan a then a else t
  FpOut.plain inv (if fDenorm t then fZeroOf (fSign t) else if fHuge t then fMaxOf (fSign t) else t)

/-! Sign operations (45_efpu_scalar.md R1124 to R1126): the bits are copied. -/

def fAbs (a : Word) : FpOut := FpOut.plain (fSpecial a) (a &&& 0x7FFFFFFF#32)
def fNabs (a : Word) : FpOut := FpOut.plain (fSpecial a) (a ||| 0x80000000#32)
def fNeg (a : Word) : FpOut := FpOut.plain (fSpecial a) (a ^^^ 0x80000000#32)

/-! Conversions (45_efpu_scalar.md R1122, R1123, R1154, R1155). -/

/-- Signed or unsigned, integer or fraction. -/
inductive CvtKind where
  | si
  | ui
  | sf
  | uf
deriving DecidableEq, Repr

/-- `FCvtFrom` (45_efpu_scalar.md R1122). -/
def fCvtFrom (rm : BitVec 2) (k : CvtKind) (w : Word) : FpOut :=
  let z (s : Bool) (m : Nat) (e : Int) : FpOut := fCalc rm false false s m e false
  match k with
  | .si => z w.msb w.toInt.natAbs 0
  | .ui => z false w.toNat 0
  | .sf => z w.msb w.toInt.natAbs (-31)
  | .uf => z false w.toNat (-32)

/-- `RoundToInt` of `fSig b * 2^e` (45_efpu_scalar.md R1123). -/
def toInteger (rm : BitVec 2) (b : Word) (e : Int) : FpOut :=
  let s := fSign b
  let (t, g, x) := cut (fSig b * 2 ^ e.toNat) (-e).toNat false
  let t' := if roundUp rm s g x (t.testBit 0) then t + 1 else t
  ⟨false, false, false, false, g, x, BitVec.ofInt 32 (signed s t'), some (BitVec.ofInt 32 (signed s t)), 0⟩

/-- `FCvtTo` a signed kind: `lim` and the power of the scale. -/
def fToSigned (rm : BitVec 2) (lim : Nat) (sc : Int) (b : Word) : FpOut :=
  if fNull b then FpOut.plain (fDenorm b) 0#32
  else if fExp b < lim then toInteger rm b (fPow b + sc)
  else if fExp b == lim && fSign b && fFrac b == 0 then FpOut.plain false 0x80000000#32
  else if fNan b then FpOut.plain true 0#32
  else FpOut.plain true (if fSign b then 0x80000000#32 else 0x7FFFFFFF#32)

/-- `FCvtTo` an unsigned kind: exponents below `lim` are in range. -/
def fToUnsigned (rm : BitVec 2) (lim : Nat) (sc : Int) (b : Word) : FpOut :=
  if fNull b then FpOut.plain (fDenorm b) 0#32
  else if fSign b then FpOut.plain (fHuge b) 0#32
  else if fExp b < lim then toInteger rm b (fPow b + sc)
  else if fNan b then FpOut.plain true 0#32
  else FpOut.plain true 0xFFFFFFFF#32

/-- `FCvtTo` (45_efpu_scalar.md R1123). -/
def fCvtTo (rm : BitVec 2) (k : CvtKind) (b : Word) : FpOut :=
  match k with
  | .si => fToSigned rm 158 0 b
  | .sf => fToSigned rm 127 31 b
  | .ui => fToUnsigned rm 159 0 b
  | .uf => fToUnsigned rm 127 32 b

/-- `FCvtFromHalf` (45_efpu_scalar.md R1154). -/
def fFromHalf (h : Half) : FpOut :=
  let s := h.msb
  let e := (h.extractLsb' 10 5).toNat
  let f : Word := (h.extractLsb' 0 10).zeroExtend 32
  if e = 0 then FpOut.plain (f != 0#32) (fZeroOf s)
  else if e = 31 then FpOut.plain true (fMaxOf s)
  else FpOut.plain false (withSign s (BitVec.ofNat 32 ((e + 112) * 2 ^ 23) ||| (f <<< 13)))

/-- `FCvtToHalf` (45_efpu_scalar.md R1155). -/
def fToHalf (rm : BitVec 2) (v : Word) : FpOut :=
  let s : Word := if fSign v then 0x8000#32 else 0#32
  if fNull v then FpOut.plain (fDenorm v) s
  else if fHuge v then FpOut.plain true (s ||| 0x7BFF#32)
  else roundTo half rm (fSign v) (fSig v) (fPow v) false (s ||| 0x7BFF#32) s

/-! Completion (45_efpu_scalar.md R1110; 46_efpu_vector.md R1201). -/

/-- The status bits of the low element's outcome. -/
def FpOut.status (o : FpOut) : Word :=
  (if o.g then 0x2000#32 else 0#32) ||| (if o.x then 0x1000#32 else 0#32) ||| (if o.inv then 0x800#32 else 0#32) |||
    (if o.dbz then 0x400#32 else 0#32) ||| (if o.unf then 0x200#32 else 0#32) ||| (if o.ovf then 0x100#32 else 0#32)

/-- The sticky bits of an outcome, but for the inexact one. -/
def FpOut.sticky (o : FpOut) : Word :=
  (if o.inv then 0x00100000#32 else 0#32) ||| (if o.dbz then 0x00080000#32 else 0#32) |||
    (if o.unf then 0x00040000#32 else 0#32) ||| (if o.ovf then 0x00020000#32 else 0#32)

/-- The enable bits of SPEFSCR that make an outcome a data exception. -/
def FpOut.enables (o : FpOut) : Word :=
  (if o.inv then 0x20#32 else 0#32) ||| (if o.dbz then 0x10#32 else 0#32) ||| (if o.unf then 0x8#32 else 0#32) |||
    (if o.ovf then 0x4#32 else 0#32)

/-- The outcome is not exact. -/
def FpOut.inexact (o : FpOut) : Bool := o.g || o.x || o.ovf || o.unf

/-- SPEFSCR with the status bits of both elements replaced and their sticky bits added. -/
def withStatus (fscr : Word) (oh ol : FpOut) : Word :=
  (fscr &&& ~~~0x3F003F00#32) ||| (oh.status <<< 16) ||| ol.status ||| oh.sticky ||| ol.sticky

/-- What the destination element holds when the Round exception is taken; `k` numbers the free word of an open case. -/
def FpOut.delivered (o : FpOut) (k : Nat) : Word :=
  if o.inexact then (match o.trunc with | some t => t | none => Config.freeWord k &&& o.openBits) else o.result

/-- Embedded Floating-point Data interrupt (60_exceptions.md R2065). -/
def raiseFpData (s : State) : State := raiseSync .fpData 0x80#32 s
/-- Embedded Floating-point Round interrupt (60_exceptions.md R2066): the instruction is complete. -/
def raiseFpRound (s : State) : State := takeInterrupt .fpRound (s.nextPc 4) (s.setEsr (0x80#32 ||| s.vlemi))

/-- `VectorFinish`, and `ScalarFinish` with a high outcome that reports nothing. -/
def State.fpFinish (s : State) (oh ol : FpOut) (write : Word → Word → State → State) :
    Host.Outcome State Fault Refusal :=
  let f := withStatus s.spefscr oh ol
  if f &&& (oh.enables ||| ol.enables) != 0#32 then
    .next (raiseFpData { s with spefscr := f &&& ~~~0x30003000#32 })
  else if oh.inexact || ol.inexact then
    let t := { s with spefscr := f ||| 0x00200000#32 }
    if f.getLsbD 6 then
      .next (raiseFpRound (write (oh.delivered s.free) (ol.delivered (s.free + 1)) { t with free := s.free + 2 }))
    else .next ((write oh.result ol.result t).advance 4)
  else .next ((write oh.result ol.result { s with spefscr := f }).advance 4)

/-- SPEFSCR[FRMC]. -/
def State.frmc (s : State) : BitVec 2 := s.spefscr.extractLsb' 0 2

/-- The high outcome of a scalar instruction. -/
def FpOut.none : FpOut := FpOut.plain false 0#32

/-- A scalar instruction into the low word of a register. -/
def State.fpScalar (s : State) (rd : Gpr) (o : FpOut) : Host.Outcome State Fault Refusal :=
  s.fpFinish FpOut.none o fun _ v t => t.setGprW rd v

/-- A vector instruction into both words of a register; it needs MSR[SPE]. -/
def State.fpVector (s : State) (rd : Gpr) (oh ol : FpOut) : Host.Outcome State Fault Refusal :=
  speAvail s fun s => s.fpFinish oh ol fun h l t => t.setGprD rd (h ++ l)

/-- The CR field of a scalar compare or test: three of its bits are free (93_implementation_defined.md U21). -/
def State.fpCr (s : State) (crf : CrField) (c : Bool) : State :=
  let f := Config.freeWord s.free
  { s with free := s.free + 1 }.setCrField crf ((f.extractLsb' 2 1) ++ (if c then 1#1 else 0#1) ++ (f.extractLsb' 0 2))

/-- A scalar compare (45_efpu_scalar.md R1138). -/
def State.fpCompare (s : State) (crf : CrField) (f : Word → Word → Bool) (a b : Word) :
    Host.Outcome State Fault Refusal :=
  s.fpFinish FpOut.none (FpOut.plain (fSpecial a || fSpecial b) 0#32) fun _ _ t => t.fpCr crf (f a b)

/-- The CR field of a vector compare or test: high, low, either, both (46_efpu_vector.md R1232). -/
def crPair (h l : Bool) : BitVec 4 := crBits h l (h || l) (h && l)

/-- A vector compare (46_efpu_vector.md R1232). -/
def State.fpCompareV (s : State) (crf : CrField) (f : Word → Word → Bool) (a b : DWord) :
    Host.Outcome State Fault Refusal :=
  speAvail s fun s =>
    s.fpFinish (FpOut.plain (fSpecial (hiW a) || fSpecial (hiW b)) 0#32)
      (FpOut.plain (fSpecial (loW a) || fSpecial (loW b)) 0#32)
      fun _ _ t => t.setCrField crf (crPair (f (hiW a) (hiW b)) (f (loW a) (loW b)))

end Sys2Proof.Machine
end

