-- ==== Sys2Proof/Machine/EfpuScalar.lean ====
section
/-! DEFINITION. The scalar single-precision instructions (spec/45_efpu_scalar.md R1124 to R1155). -/

namespace Sys2Proof.Machine

/-- `efsabs` (45_efpu_scalar.md R1124). -/
def execEfsabs (rd ra : Gpr) (s : State) : Host.Outcome State Fault Refusal := s.fpScalar rd (fAbs (s.gprW ra))

/-- `efsnabs` (45_efpu_scalar.md R1125). -/
def execEfsnabs (rd ra : Gpr) (s : State) : Host.Outcome State Fault Refusal := s.fpScalar rd (fNabs (s.gprW ra))

/-- `efsneg` (45_efpu_scalar.md R1126). -/
def execEfsneg (rd ra : Gpr) (s : State) : Host.Outcome State Fault Refusal := s.fpScalar rd (fNeg (s.gprW ra))

/-- `efsadd` (45_efpu_scalar.md R1127). -/
def execEfsadd (rd ra rb : Gpr) (s : State) : Host.Outcome State Fault Refusal :=
  s.fpScalar rd (fAdd s.frmc (s.gprW ra) (s.gprW rb))

/-- `efssub` (45_efpu_scalar.md R1128). -/
def execEfssub (rd ra rb : Gpr) (s : State) : Host.Outcome State Fault Refusal :=
  s.fpScalar rd (fSub s.frmc (s.gprW ra) (s.gprW rb))

/-- `efsmul` (45_efpu_scalar.md R1129). -/
def execEfsmul (rd ra rb : Gpr) (s : State) : Host.Outcome State Fault Refusal :=
  s.fpScalar rd (fMul s.frmc (s.gprW ra) (s.gprW rb))

/-- `efsdiv` (45_efpu_scalar.md R1130). -/
def execEfsdiv (rd ra rb : Gpr) (s : State) : Host.Outcome State Fault Refusal :=
  s.fpScalar rd (fDiv s.frmc (s.gprW ra) (s.gprW rb))

/-- `efsmadd` (45_efpu_scalar.md R1131). -/
def execEfsmadd (rd ra rb : Gpr) (s : State) : Host.Outcome State Fault Refusal :=
  s.fpScalar rd (fMAdd s.frmc .madd (s.gprW ra) (s.gprW rb) (s.gprW rd))

/-- `efsmsub` (45_efpu_scalar.md R1132). -/
def execEfsmsub (rd ra rb : Gpr) (s : State) : Host.Outcome State Fault Refusal :=
  s.fpScalar rd (fMAdd s.frmc .msub (s.gprW ra) (s.gprW rb) (s.gprW rd))

/-- `efsnmadd` (45_efpu_scalar.md R1133). -/
def execEfsnmadd (rd ra rb : Gpr) (s : State) : Host.Outcome State Fault Refusal :=
  s.fpScalar rd (fMAdd s.frmc .nmadd (s.gprW ra) (s.gprW rb) (s.gprW rd))

/-- `efsnmsub` (45_efpu_scalar.md R1134). -/
def execEfsnmsub (rd ra rb : Gpr) (s : State) : Host.Outcome State Fault Refusal :=
  s.fpScalar rd (fMAdd s.frmc .nmsub (s.gprW ra) (s.gprW rb) (s.gprW rd))

/-- `efssqrt` (45_efpu_scalar.md R1135). -/
def execEfssqrt (rd ra : Gpr) (s : State) : Host.Outcome State Fault Refusal :=
  s.fpScalar rd (fSqrt s.frmc (s.gprW ra))

/-- `efsmax` (45_efpu_scalar.md R1136). -/
def execEfsmax (rd ra rb : Gpr) (s : State) : Host.Outcome State Fault Refusal :=
  s.fpScalar rd (fMinMax true (s.gprW ra) (s.gprW rb))

/-- `efsmin` (45_efpu_scalar.md R1137). -/
def execEfsmin (rd ra rb : Gpr) (s : State) : Host.Outcome State Fault Refusal :=
  s.fpScalar rd (fMinMax false (s.gprW ra) (s.gprW rb))

/-- `efscmpgt` (45_efpu_scalar.md R1138). -/
def execEfscmpgt (crf : CrField) (ra rb : Gpr) (s : State) : Host.Outcome State Fault Refusal :=
  s.fpCompare crf fGt (s.gprW ra) (s.gprW rb)

/-- `efststgt` (45_efpu_scalar.md R1141). -/
def execEfststgt (crf : CrField) (ra rb : Gpr) (s : State) : Host.Outcome State Fault Refusal :=
  .next ((s.fpCr crf (fGt (s.gprW ra) (s.gprW rb))).advance 4)

/-- `efscmplt` (45_efpu_scalar.md R1139). -/
def execEfscmplt (crf : CrField) (ra rb : Gpr) (s : State) : Host.Outcome State Fault Refusal :=
  s.fpCompare crf fLt (s.gprW ra) (s.gprW rb)

/-- `efststlt` (45_efpu_scalar.md R1142). -/
def execEfststlt (crf : CrField) (ra rb : Gpr) (s : State) : Host.Outcome State Fault Refusal :=
  .next ((s.fpCr crf (fLt (s.gprW ra) (s.gprW rb))).advance 4)

/-- `efscmpeq` (45_efpu_scalar.md R1140). -/
def execEfscmpeq (crf : CrField) (ra rb : Gpr) (s : State) : Host.Outcome State Fault Refusal :=
  s.fpCompare crf fEq (s.gprW ra) (s.gprW rb)

/-- `efststeq` (45_efpu_scalar.md R1143). -/
def execEfststeq (crf : CrField) (ra rb : Gpr) (s : State) : Host.Outcome State Fault Refusal :=
  .next ((s.fpCr crf (fEq (s.gprW ra) (s.gprW rb))).advance 4)

/-- `efscfsi` (45_efpu_scalar.md R1144). -/
def execEfscfsi (rd rb : Gpr) (s : State) : Host.Outcome State Fault Refusal :=
  s.fpScalar rd (fCvtFrom s.frmc .si (s.gprW rb))

/-- `efsctsi` (45_efpu_scalar.md R1148). -/
def execEfsctsi (rd rb : Gpr) (s : State) : Host.Outcome State Fault Refusal :=
  s.fpScalar rd (fCvtTo s.frmc .si (s.gprW rb))

/-- `efscfui` (45_efpu_scalar.md R1145). -/
def execEfscfui (rd rb : Gpr) (s : State) : Host.Outcome State Fault Refusal :=
  s.fpScalar rd (fCvtFrom s.frmc .ui (s.gprW rb))

/-- `efsctui` (45_efpu_scalar.md R1150). -/
def execEfsctui (rd rb : Gpr) (s : State) : Host.Outcome State Fault Refusal :=
  s.fpScalar rd (fCvtTo s.frmc .ui (s.gprW rb))

/-- `efscfsf` (45_efpu_scalar.md R1146). -/
def execEfscfsf (rd rb : Gpr) (s : State) : Host.Outcome State Fault Refusal :=
  s.fpScalar rd (fCvtFrom s.frmc .sf (s.gprW rb))

/-- `efsctsf` (45_efpu_scalar.md R1152). -/
def execEfsctsf (rd rb : Gpr) (s : State) : Host.Outcome State Fault Refusal :=
  s.fpScalar rd (fCvtTo s.frmc .sf (s.gprW rb))

/-- `efscfuf` (45_efpu_scalar.md R1147). -/
def execEfscfuf (rd rb : Gpr) (s : State) : Host.Outcome State Fault Refusal :=
  s.fpScalar rd (fCvtFrom s.frmc .uf (s.gprW rb))

/-- `efsctuf` (45_efpu_scalar.md R1153). -/
def execEfsctuf (rd rb : Gpr) (s : State) : Host.Outcome State Fault Refusal :=
  s.fpScalar rd (fCvtTo s.frmc .uf (s.gprW rb))

/-- `efsctsiz` (45_efpu_scalar.md R1149). -/
def execEfsctsiz (rd rb : Gpr) (s : State) : Host.Outcome State Fault Refusal :=
  s.fpScalar rd (fCvtTo 1#2 .si (s.gprW rb))

/-- `efsctuiz` (45_efpu_scalar.md R1151). -/
def execEfsctuiz (rd rb : Gpr) (s : State) : Host.Outcome State Fault Refusal :=
  s.fpScalar rd (fCvtTo 1#2 .ui (s.gprW rb))

/-- `efscfh` (45_efpu_scalar.md R1154). -/
def execEfscfh (rd rb : Gpr) (s : State) : Host.Outcome State Fault Refusal :=
  s.fpScalar rd (fFromHalf ((s.gprW rb).extractLsb' 0 16))

/-- `efscth` (45_efpu_scalar.md R1155). -/
def execEfscth (rd rb : Gpr) (s : State) : Host.Outcome State Fault Refusal :=
  s.fpScalar rd (fToHalf s.frmc (s.gprW rb))

end Sys2Proof.Machine
end

