-- ==== Sys2Proof/Machine/EfpuVector.lean ====
section
/-! DEFINITION. The vector single-precision instructions (spec/46_efpu_vector.md R1205 to R1249). -/

namespace Sys2Proof.Machine

/-- `evfsabs` (46_efpu_vector.md R1205). -/
def execEvfsabs (rd ra : Gpr) (s : State) : Host.Outcome State Fault Refusal :=
  s.fpVector rd (fAbs (s.gprH ra)) (fAbs (s.gprW ra))

/-- `evfsnabs` (46_efpu_vector.md R1206). -/
def execEvfsnabs (rd ra : Gpr) (s : State) : Host.Outcome State Fault Refusal :=
  s.fpVector rd (fNabs (s.gprH ra)) (fNabs (s.gprW ra))

/-- `evfsneg` (46_efpu_vector.md R1207). -/
def execEvfsneg (rd ra : Gpr) (s : State) : Host.Outcome State Fault Refusal :=
  s.fpVector rd (fNeg (s.gprH ra)) (fNeg (s.gprW ra))

/-- `evfsadd` (46_efpu_vector.md R1208). -/
def execEvfsadd (rd ra rb : Gpr) (s : State) : Host.Outcome State Fault Refusal :=
  s.fpVector rd (fAdd s.frmc (s.gprH ra) (s.gprH rb)) (fAdd s.frmc (s.gprW ra) (s.gprW rb))

/-- `evfssub` (46_efpu_vector.md R1209). -/
def execEvfssub (rd ra rb : Gpr) (s : State) : Host.Outcome State Fault Refusal :=
  s.fpVector rd (fSub s.frmc (s.gprH ra) (s.gprH rb)) (fSub s.frmc (s.gprW ra) (s.gprW rb))

/-- `evfsaddsub` (46_efpu_vector.md R1210). -/
def execEvfsaddsub (rd ra rb : Gpr) (s : State) : Host.Outcome State Fault Refusal :=
  s.fpVector rd (fAdd s.frmc (s.gprH ra) (s.gprH rb)) (fSub s.frmc (s.gprW ra) (s.gprW rb))

/-- `evfssubadd` (46_efpu_vector.md R1211). -/
def execEvfssubadd (rd ra rb : Gpr) (s : State) : Host.Outcome State Fault Refusal :=
  s.fpVector rd (fSub s.frmc (s.gprH ra) (s.gprH rb)) (fAdd s.frmc (s.gprW ra) (s.gprW rb))

/-- `evfsmul` (46_efpu_vector.md R1220). -/
def execEvfsmul (rd ra rb : Gpr) (s : State) : Host.Outcome State Fault Refusal :=
  s.fpVector rd (fMul s.frmc (s.gprH ra) (s.gprH rb)) (fMul s.frmc (s.gprW ra) (s.gprW rb))

/-- `evfsdiv` (46_efpu_vector.md R1224). -/
def execEvfsdiv (rd ra rb : Gpr) (s : State) : Host.Outcome State Fault Refusal :=
  s.fpVector rd (fDiv s.frmc (s.gprH ra) (s.gprH rb)) (fDiv s.frmc (s.gprW ra) (s.gprW rb))

/-- `evfsaddx` (46_efpu_vector.md R1212). -/
def execEvfsaddx (rd ra rb : Gpr) (s : State) : Host.Outcome State Fault Refusal :=
  s.fpVector rd (fAdd s.frmc (s.gprW ra) (s.gprH rb)) (fAdd s.frmc (s.gprH ra) (s.gprW rb))

/-- `evfssubx` (46_efpu_vector.md R1213). -/
def execEvfssubx (rd ra rb : Gpr) (s : State) : Host.Outcome State Fault Refusal :=
  s.fpVector rd (fSub s.frmc (s.gprW ra) (s.gprH rb)) (fSub s.frmc (s.gprH ra) (s.gprW rb))

/-- `evfsaddsubx` (46_efpu_vector.md R1214). -/
def execEvfsaddsubx (rd ra rb : Gpr) (s : State) : Host.Outcome State Fault Refusal :=
  s.fpVector rd (fAdd s.frmc (s.gprW ra) (s.gprH rb)) (fSub s.frmc (s.gprH ra) (s.gprW rb))

/-- `evfssubaddx` (46_efpu_vector.md R1215). -/
def execEvfssubaddx (rd ra rb : Gpr) (s : State) : Host.Outcome State Fault Refusal :=
  s.fpVector rd (fSub s.frmc (s.gprW ra) (s.gprH rb)) (fAdd s.frmc (s.gprH ra) (s.gprW rb))

/-- `evfsmulx` (46_efpu_vector.md R1223). -/
def execEvfsmulx (rd ra rb : Gpr) (s : State) : Host.Outcome State Fault Refusal :=
  s.fpVector rd (fMul s.frmc (s.gprW ra) (s.gprH rb)) (fMul s.frmc (s.gprH ra) (s.gprW rb))

/-- `evfssum` (46_efpu_vector.md R1216). -/
def execEvfssum (rd ra rb : Gpr) (s : State) : Host.Outcome State Fault Refusal :=
  s.fpVector rd (fAdd s.frmc (s.gprH ra) (s.gprW ra)) (fAdd s.frmc (s.gprH rb) (s.gprW rb))

/-- `evfsdiff` (46_efpu_vector.md R1217). -/
def execEvfsdiff (rd ra rb : Gpr) (s : State) : Host.Outcome State Fault Refusal :=
  s.fpVector rd (fSub s.frmc (s.gprH ra) (s.gprW ra)) (fSub s.frmc (s.gprH rb) (s.gprW rb))

/-- `evfssumdiff` (46_efpu_vector.md R1218). -/
def execEvfssumdiff (rd ra rb : Gpr) (s : State) : Host.Outcome State Fault Refusal :=
  s.fpVector rd (fAdd s.frmc (s.gprH ra) (s.gprW ra)) (fSub s.frmc (s.gprH rb) (s.gprW rb))

/-- `evfsdiffsum` (46_efpu_vector.md R1219). -/
def execEvfsdiffsum (rd ra rb : Gpr) (s : State) : Host.Outcome State Fault Refusal :=
  s.fpVector rd (fSub s.frmc (s.gprH ra) (s.gprW ra)) (fAdd s.frmc (s.gprH rb) (s.gprW rb))

/-- `evfsmule` (46_efpu_vector.md R1221). -/
def execEvfsmule (rd ra rb : Gpr) (s : State) : Host.Outcome State Fault Refusal :=
  s.fpVector rd (fMul s.frmc (s.gprH ra) (s.gprH rb)) (fMul s.frmc (s.gprH ra) (s.gprW rb))

/-- `evfsmulo` (46_efpu_vector.md R1222). -/
def execEvfsmulo (rd ra rb : Gpr) (s : State) : Host.Outcome State Fault Refusal :=
  s.fpVector rd (fMul s.frmc (s.gprW ra) (s.gprH rb)) (fMul s.frmc (s.gprW ra) (s.gprW rb))

/-- `evfssqrt` (46_efpu_vector.md R1225). -/
def execEvfssqrt (rd ra : Gpr) (s : State) : Host.Outcome State Fault Refusal :=
  s.fpVector rd (fSqrt s.frmc (s.gprH ra)) (fSqrt s.frmc (s.gprW ra))

/-- `evfsmadd` (46_efpu_vector.md R1226). -/
def execEvfsmadd (rd ra rb : Gpr) (s : State) : Host.Outcome State Fault Refusal :=
  s.fpVector rd (fMAdd s.frmc .madd (s.gprH ra) (s.gprH rb) (s.gprH rd))
    (fMAdd s.frmc .madd (s.gprW ra) (s.gprW rb) (s.gprW rd))

/-- `evfsmsub` (46_efpu_vector.md R1227). -/
def execEvfsmsub (rd ra rb : Gpr) (s : State) : Host.Outcome State Fault Refusal :=
  s.fpVector rd (fMAdd s.frmc .msub (s.gprH ra) (s.gprH rb) (s.gprH rd))
    (fMAdd s.frmc .msub (s.gprW ra) (s.gprW rb) (s.gprW rd))

/-- `evfsnmadd` (46_efpu_vector.md R1228). -/
def execEvfsnmadd (rd ra rb : Gpr) (s : State) : Host.Outcome State Fault Refusal :=
  s.fpVector rd (fMAdd s.frmc .nmadd (s.gprH ra) (s.gprH rb) (s.gprH rd))
    (fMAdd s.frmc .nmadd (s.gprW ra) (s.gprW rb) (s.gprW rd))

/-- `evfsnmsub` (46_efpu_vector.md R1229). -/
def execEvfsnmsub (rd ra rb : Gpr) (s : State) : Host.Outcome State Fault Refusal :=
  s.fpVector rd (fMAdd s.frmc .nmsub (s.gprH ra) (s.gprH rb) (s.gprH rd))
    (fMAdd s.frmc .nmsub (s.gprW ra) (s.gprW rb) (s.gprW rd))

/-- `evfsmax` (46_efpu_vector.md R1230). -/
def execEvfsmax (rd ra rb : Gpr) (s : State) : Host.Outcome State Fault Refusal :=
  s.fpVector rd (fMinMax true (s.gprH ra) (s.gprH rb)) (fMinMax true (s.gprW ra) (s.gprW rb))

/-- `evfsmin` (46_efpu_vector.md R1231). -/
def execEvfsmin (rd ra rb : Gpr) (s : State) : Host.Outcome State Fault Refusal :=
  s.fpVector rd (fMinMax false (s.gprH ra) (s.gprH rb)) (fMinMax false (s.gprW ra) (s.gprW rb))

/-- `evfscmpgt` (46_efpu_vector.md R1232). -/
def execEvfscmpgt (crf : CrField) (ra rb : Gpr) (s : State) : Host.Outcome State Fault Refusal :=
  s.fpCompareV crf fGt (s.gprD ra) (s.gprD rb)

/-- `evfststgt` (46_efpu_vector.md R1235). -/
def execEvfststgt (crf : CrField) (ra rb : Gpr) (s : State) : Host.Outcome State Fault Refusal :=
  speAvail s fun s => .next (s.resultCr 4 crf (crPair (fGt (s.gprH ra) (s.gprH rb)) (fGt (s.gprW ra) (s.gprW rb))))

/-- `evfscmplt` (46_efpu_vector.md R1233). -/
def execEvfscmplt (crf : CrField) (ra rb : Gpr) (s : State) : Host.Outcome State Fault Refusal :=
  s.fpCompareV crf fLt (s.gprD ra) (s.gprD rb)

/-- `evfststlt` (46_efpu_vector.md R1236). -/
def execEvfststlt (crf : CrField) (ra rb : Gpr) (s : State) : Host.Outcome State Fault Refusal :=
  speAvail s fun s => .next (s.resultCr 4 crf (crPair (fLt (s.gprH ra) (s.gprH rb)) (fLt (s.gprW ra) (s.gprW rb))))

/-- `evfscmpeq` (46_efpu_vector.md R1234). -/
def execEvfscmpeq (crf : CrField) (ra rb : Gpr) (s : State) : Host.Outcome State Fault Refusal :=
  s.fpCompareV crf fEq (s.gprD ra) (s.gprD rb)

/-- `evfststeq` (46_efpu_vector.md R1237). -/
def execEvfststeq (crf : CrField) (ra rb : Gpr) (s : State) : Host.Outcome State Fault Refusal :=
  speAvail s fun s => .next (s.resultCr 4 crf (crPair (fEq (s.gprH ra) (s.gprH rb)) (fEq (s.gprW ra) (s.gprW rb))))

/-- `evfscfsi` (46_efpu_vector.md R1238). -/
def execEvfscfsi (rd rb : Gpr) (s : State) : Host.Outcome State Fault Refusal :=
  s.fpVector rd (fCvtFrom s.frmc .si (s.gprH rb)) (fCvtFrom s.frmc .si (s.gprW rb))

/-- `evfsctsi` (46_efpu_vector.md R1242). -/
def execEvfsctsi (rd rb : Gpr) (s : State) : Host.Outcome State Fault Refusal :=
  s.fpVector rd (fCvtTo s.frmc .si (s.gprH rb)) (fCvtTo s.frmc .si (s.gprW rb))

/-- `evfscfui` (46_efpu_vector.md R1239). -/
def execEvfscfui (rd rb : Gpr) (s : State) : Host.Outcome State Fault Refusal :=
  s.fpVector rd (fCvtFrom s.frmc .ui (s.gprH rb)) (fCvtFrom s.frmc .ui (s.gprW rb))

/-- `evfsctui` (46_efpu_vector.md R1244). -/
def execEvfsctui (rd rb : Gpr) (s : State) : Host.Outcome State Fault Refusal :=
  s.fpVector rd (fCvtTo s.frmc .ui (s.gprH rb)) (fCvtTo s.frmc .ui (s.gprW rb))

/-- `evfscfsf` (46_efpu_vector.md R1240). -/
def execEvfscfsf (rd rb : Gpr) (s : State) : Host.Outcome State Fault Refusal :=
  s.fpVector rd (fCvtFrom s.frmc .sf (s.gprH rb)) (fCvtFrom s.frmc .sf (s.gprW rb))

/-- `evfsctsf` (46_efpu_vector.md R1246). -/
def execEvfsctsf (rd rb : Gpr) (s : State) : Host.Outcome State Fault Refusal :=
  s.fpVector rd (fCvtTo s.frmc .sf (s.gprH rb)) (fCvtTo s.frmc .sf (s.gprW rb))

/-- `evfscfuf` (46_efpu_vector.md R1241). -/
def execEvfscfuf (rd rb : Gpr) (s : State) : Host.Outcome State Fault Refusal :=
  s.fpVector rd (fCvtFrom s.frmc .uf (s.gprH rb)) (fCvtFrom s.frmc .uf (s.gprW rb))

/-- `evfsctuf` (46_efpu_vector.md R1247). -/
def execEvfsctuf (rd rb : Gpr) (s : State) : Host.Outcome State Fault Refusal :=
  s.fpVector rd (fCvtTo s.frmc .uf (s.gprH rb)) (fCvtTo s.frmc .uf (s.gprW rb))

/-- `evfsctsiz` (46_efpu_vector.md R1243). -/
def execEvfsctsiz (rd rb : Gpr) (s : State) : Host.Outcome State Fault Refusal :=
  s.fpVector rd (fCvtTo 1#2 .si (s.gprH rb)) (fCvtTo 1#2 .si (s.gprW rb))

/-- `evfsctuiz` (46_efpu_vector.md R1245). -/
def execEvfsctuiz (rd rb : Gpr) (s : State) : Host.Outcome State Fault Refusal :=
  s.fpVector rd (fCvtTo 1#2 .ui (s.gprH rb)) (fCvtTo 1#2 .ui (s.gprW rb))

/-- `evfscfh` (46_efpu_vector.md R1248). -/
def execEvfscfh (rd rb : Gpr) (s : State) : Host.Outcome State Fault Refusal :=
  s.fpVector rd (fFromHalf ((s.gprH rb).extractLsb' 0 16)) (fFromHalf ((s.gprW rb).extractLsb' 0 16))

/-- `evfscth` (46_efpu_vector.md R1249). -/
def execEvfscth (rd rb : Gpr) (s : State) : Host.Outcome State Fault Refusal :=
  s.fpVector rd (fToHalf s.frmc (s.gprH rb)) (fToHalf s.frmc (s.gprW rb))

end Sys2Proof.Machine
end

