-- ==== Sys2Proof/Machine/Integer.lean ====
section
/-! DEFINITION. The integer instructions of Book E (spec/40_base_integer.md R600 to R676). -/

namespace Sys2Proof.Machine

/-- `addi` (40_base_integer.md R610). -/
def execAddi (rt ra : Gpr) (si : BitVec 16) (s : State) : Host.Outcome State Fault Refusal :=
  .next (s.result 4 rt (s.base0 ra + sext16 si) none none false)

/-- `addis` (40_base_integer.md R611). -/
def execAddis (rt ra : Gpr) (si : BitVec 16) (s : State) : Host.Outcome State Fault Refusal :=
  .next (s.result 4 rt (s.base0 ra + high16 si) none none false)

/-- `addic` (40_base_integer.md R612). -/
def execAddic (rt ra : Gpr) (si : BitVec 16) (s : State) : Host.Outcome State Fault Refusal :=
  .next (s.resultAdd 4 rt (add3 (s.gprW ra) (sext16 si) false) true false false)

/-- `addic.` (40_base_integer.md R613). -/
def execAddicDot (rt ra : Gpr) (si : BitVec 16) (s : State) : Host.Outcome State Fault Refusal :=
  .next (s.resultAdd 4 rt (add3 (s.gprW ra) (sext16 si) false) true false true)

/-- `subfic` (40_base_integer.md R614). -/
def execSubfic (rt ra : Gpr) (si : BitVec 16) (s : State) : Host.Outcome State Fault Refusal :=
  .next (s.resultAdd 4 rt (add3 (~~~s.gprW ra) (sext16 si) true) true false false)

/-- `mulli` (40_base_integer.md R615). -/
def execMulli (rt ra : Gpr) (si : BitVec 16) (s : State) : Host.Outcome State Fault Refusal :=
  .next (s.result 4 rt (loW (mulSigned (s.gprW ra) (sext16 si))) none none false)

/-- `add` (40_base_integer.md R616). -/
def execAdd (rt ra rb : Gpr) (oe rc : Bool) (s : State) : Host.Outcome State Fault Refusal :=
  .next (s.resultAdd 4 rt (add3 (s.gprW ra) (s.gprW rb) false) false oe rc)

/-- `addc` (40_base_integer.md R617). -/
def execAddc (rt ra rb : Gpr) (oe rc : Bool) (s : State) : Host.Outcome State Fault Refusal :=
  .next (s.resultAdd 4 rt (add3 (s.gprW ra) (s.gprW rb) false) true oe rc)

/-- `adde` (40_base_integer.md R618). -/
def execAdde (rt ra rb : Gpr) (oe rc : Bool) (s : State) : Host.Outcome State Fault Refusal :=
  .next (s.resultAdd 4 rt (add3 (s.gprW ra) (s.gprW rb) s.xerCa) true oe rc)

/-- `addme` (40_base_integer.md R619). -/
def execAddme (rt ra : Gpr) (oe rc : Bool) (s : State) : Host.Outcome State Fault Refusal :=
  .next (s.resultAdd 4 rt (add3 (s.gprW ra) 0xFFFFFFFF#32 s.xerCa) true oe rc)

/-- `addze` (40_base_integer.md R620). -/
def execAddze (rt ra : Gpr) (oe rc : Bool) (s : State) : Host.Outcome State Fault Refusal :=
  .next (s.resultAdd 4 rt (add3 (s.gprW ra) 0#32 s.xerCa) true oe rc)

/-- `subf` (40_base_integer.md R621). -/
def execSubf (rt ra rb : Gpr) (oe rc : Bool) (s : State) : Host.Outcome State Fault Refusal :=
  .next (s.resultAdd 4 rt (add3 (~~~s.gprW ra) (s.gprW rb) true) false oe rc)

/-- `subfc` (40_base_integer.md R622). -/
def execSubfc (rt ra rb : Gpr) (oe rc : Bool) (s : State) : Host.Outcome State Fault Refusal :=
  .next (s.resultAdd 4 rt (add3 (~~~s.gprW ra) (s.gprW rb) true) true oe rc)

/-- `subfe` (40_base_integer.md R623). -/
def execSubfe (rt ra rb : Gpr) (oe rc : Bool) (s : State) : Host.Outcome State Fault Refusal :=
  .next (s.resultAdd 4 rt (add3 (~~~s.gprW ra) (s.gprW rb) s.xerCa) true oe rc)

/-- `subfme` (40_base_integer.md R624). -/
def execSubfme (rt ra : Gpr) (oe rc : Bool) (s : State) : Host.Outcome State Fault Refusal :=
  .next (s.resultAdd 4 rt (add3 (~~~s.gprW ra) 0xFFFFFFFF#32 s.xerCa) true oe rc)

/-- `subfze` (40_base_integer.md R625). -/
def execSubfze (rt ra : Gpr) (oe rc : Bool) (s : State) : Host.Outcome State Fault Refusal :=
  .next (s.resultAdd 4 rt (add3 (~~~s.gprW ra) 0#32 s.xerCa) true oe rc)

/-- `neg` (40_base_integer.md R626). -/
def execNeg (rt ra : Gpr) (oe rc : Bool) (s : State) : Host.Outcome State Fault Refusal :=
  .next (s.result 4 rt (-s.gprW ra) none (if oe then some (s.gprW ra == 0x80000000#32) else none) rc)

/-- `mullw` (40_base_integer.md R627). -/
def execMullw (rt ra rb : Gpr) (oe rc : Bool) (s : State) : Host.Outcome State Fault Refusal :=
  let p := mulSigned (s.gprW ra) (s.gprW rb)
  .next (s.result 4 rt (loW p) none (if oe then some (mulOverflow p) else none) rc)

/-- `divw` (40_base_integer.md R630). -/
def execDivw (rt ra rb : Gpr) (oe rc : Bool) (s : State) : Host.Outcome State Fault Refusal :=
  if divOpen (s.gprW ra) (s.gprW rb) then .next (s.resultOpen rt oe rc)
  else .next (s.result 4 rt (quotSigned (s.gprW ra) (s.gprW rb)) none (if oe then some false else none) rc)

/-- `divwu` (40_base_integer.md R631). -/
def execDivwu (rt ra rb : Gpr) (oe rc : Bool) (s : State) : Host.Outcome State Fault Refusal :=
  if s.gprW rb = 0#32 then .next (s.resultOpen rt oe rc)
  else .next (s.result 4 rt (quotUnsigned (s.gprW ra) (s.gprW rb)) none (if oe then some false else none) rc)

/-- `mulhw` (40_base_integer.md R628). -/
def execMulhw (rt ra rb : Gpr) (rc : Bool) (s : State) : Host.Outcome State Fault Refusal :=
  .next (s.result 4 rt (hiW (mulSigned (s.gprW ra) (s.gprW rb))) none none rc)

/-- `mulhwu` (40_base_integer.md R629). -/
def execMulhwu (rt ra rb : Gpr) (rc : Bool) (s : State) : Host.Outcome State Fault Refusal :=
  .next (s.result 4 rt (hiW (mulUnsigned (s.gprW ra) (s.gprW rb))) none none rc)

/-- `cmpi` (40_base_integer.md R641). -/
def execCmpi (crf : CrField) (ra : Gpr) (si : BitVec 16) (s : State) : Host.Outcome State Fault Refusal :=
  .next (s.resultCr 4 crf (cmpSigned (s.gprW ra) (sext16 si) s.xerSo))

/-- `cmp` (40_base_integer.md R642). -/
def execCmp (crf : CrField) (ra rb : Gpr) (s : State) : Host.Outcome State Fault Refusal :=
  .next (s.resultCr 4 crf (cmpSigned (s.gprW ra) (s.gprW rb) s.xerSo))

/-- `cmpli` (40_base_integer.md R643). -/
def execCmpli (crf : CrField) (ra : Gpr) (ui : BitVec 16) (s : State) : Host.Outcome State Fault Refusal :=
  .next (s.resultCr 4 crf (cmpUnsigned (s.gprW ra) (zext16 ui) s.xerSo))

/-- `cmpl` (40_base_integer.md R644). -/
def execCmpl (crf : CrField) (ra rb : Gpr) (s : State) : Host.Outcome State Fault Refusal :=
  .next (s.resultCr 4 crf (cmpUnsigned (s.gprW ra) (s.gprW rb) s.xerSo))

/-- `andi.` (40_base_integer.md R651). -/
def execAndiDot (ra rs : Gpr) (ui : BitVec 16) (s : State) : Host.Outcome State Fault Refusal :=
  .next (s.result 4 ra (s.gprW rs &&& zext16 ui) none none true)

/-- `andis.` (40_base_integer.md R652). -/
def execAndisDot (ra rs : Gpr) (ui : BitVec 16) (s : State) : Host.Outcome State Fault Refusal :=
  .next (s.result 4 ra (s.gprW rs &&& high16 ui) none none true)

/-- `ori` (40_base_integer.md R653). -/
def execOri (ra rs : Gpr) (ui : BitVec 16) (s : State) : Host.Outcome State Fault Refusal :=
  .next (s.result 4 ra (s.gprW rs ||| zext16 ui) none none false)

/-- `oris` (40_base_integer.md R654). -/
def execOris (ra rs : Gpr) (ui : BitVec 16) (s : State) : Host.Outcome State Fault Refusal :=
  .next (s.result 4 ra (s.gprW rs ||| high16 ui) none none false)

/-- `xori` (40_base_integer.md R655). -/
def execXori (ra rs : Gpr) (ui : BitVec 16) (s : State) : Host.Outcome State Fault Refusal :=
  .next (s.result 4 ra (s.gprW rs ^^^ zext16 ui) none none false)

/-- `xoris` (40_base_integer.md R656). -/
def execXoris (ra rs : Gpr) (ui : BitVec 16) (s : State) : Host.Outcome State Fault Refusal :=
  .next (s.result 4 ra (s.gprW rs ^^^ high16 ui) none none false)

/-- `and` (40_base_integer.md R657). -/
def execAnd (ra rs rb : Gpr) (rc : Bool) (s : State) : Host.Outcome State Fault Refusal :=
  .next (s.result 4 ra (s.gprW rs &&& s.gprW rb) none none rc)

/-- `andc` (40_base_integer.md R658). -/
def execAndc (ra rs rb : Gpr) (rc : Bool) (s : State) : Host.Outcome State Fault Refusal :=
  .next (s.result 4 ra (s.gprW rs &&& ~~~s.gprW rb) none none rc)

/-- `or` (40_base_integer.md R659). -/
def execOr (ra rs rb : Gpr) (rc : Bool) (s : State) : Host.Outcome State Fault Refusal :=
  .next (s.result 4 ra (s.gprW rs ||| s.gprW rb) none none rc)

/-- `orc` (40_base_integer.md R660). -/
def execOrc (ra rs rb : Gpr) (rc : Bool) (s : State) : Host.Outcome State Fault Refusal :=
  .next (s.result 4 ra (s.gprW rs ||| ~~~s.gprW rb) none none rc)

/-- `xor` (40_base_integer.md R661). -/
def execXor (ra rs rb : Gpr) (rc : Bool) (s : State) : Host.Outcome State Fault Refusal :=
  .next (s.result 4 ra (s.gprW rs ^^^ s.gprW rb) none none rc)

/-- `nand` (40_base_integer.md R662). -/
def execNand (ra rs rb : Gpr) (rc : Bool) (s : State) : Host.Outcome State Fault Refusal :=
  .next (s.result 4 ra (~~~(s.gprW rs &&& s.gprW rb)) none none rc)

/-- `nor` (40_base_integer.md R663). -/
def execNor (ra rs rb : Gpr) (rc : Bool) (s : State) : Host.Outcome State Fault Refusal :=
  .next (s.result 4 ra (~~~(s.gprW rs ||| s.gprW rb)) none none rc)

/-- `eqv` (40_base_integer.md R664). -/
def execEqv (ra rs rb : Gpr) (rc : Bool) (s : State) : Host.Outcome State Fault Refusal :=
  .next (s.result 4 ra (~~~(s.gprW rs ^^^ s.gprW rb)) none none rc)

/-- `extsb` (40_base_integer.md R665). -/
def execExtsb (ra rs : Gpr) (rc : Bool) (s : State) : Host.Outcome State Fault Refusal :=
  .next (s.result 4 ra (((s.gprW rs).extractLsb' 0 8).signExtend 32) none none rc)

/-- `extsh` (40_base_integer.md R666). -/
def execExtsh (ra rs : Gpr) (rc : Bool) (s : State) : Host.Outcome State Fault Refusal :=
  .next (s.result 4 ra (((s.gprW rs).extractLsb' 0 16).signExtend 32) none none rc)

/-- `cntlzw` (40_base_integer.md R667). -/
def execCntlzw (ra rs : Gpr) (rc : Bool) (s : State) : Host.Outcome State Fault Refusal :=
  .next (s.result 4 ra (BitVec.ofNat 32 (clz32 (s.gprW rs))) none none rc)

/-- `rlwinm` (40_base_integer.md R670). -/
def execRlwinm (ra rs : Gpr) (sh mb me : BitVec 5) (rc : Bool) (s : State) : Host.Outcome State Fault Refusal :=
  .next (s.result 4 ra (rotl (s.gprW rs) sh.toNat &&& maskMbMe mb me) none none rc)

/-- `rlwimi` (40_base_integer.md R671). -/
def execRlwimi (ra rs : Gpr) (sh mb me : BitVec 5) (rc : Bool) (s : State) : Host.Outcome State Fault Refusal :=
  .next (s.result 4 ra (insertBits (s.gprW ra) (maskMbMe mb me) (rotl (s.gprW rs) sh.toNat)) none none rc)

/-- `rlwnm` (40_base_integer.md R672). -/
def execRlwnm (ra rs rb : Gpr) (mb me : BitVec 5) (rc : Bool) (s : State) : Host.Outcome State Fault Refusal :=
  .next (s.result 4 ra (rotl (s.gprW rs) ((s.gprW rb).extractLsb' 0 5).toNat &&& maskMbMe mb me) none none rc)

/-- `slw` (40_base_integer.md R673). -/
def execSlw (ra rs rb : Gpr) (rc : Bool) (s : State) : Host.Outcome State Fault Refusal :=
  .next (s.result 4 ra (shiftLeft (s.gprW rs) (shiftAmount (s.gprW rb))) none none rc)

/-- `srw` (40_base_integer.md R674). -/
def execSrw (ra rs rb : Gpr) (rc : Bool) (s : State) : Host.Outcome State Fault Refusal :=
  .next (s.result 4 ra (shiftRight (s.gprW rs) (shiftAmount (s.gprW rb))) none none rc)

/-- `sraw` (40_base_integer.md R675). -/
def execSraw (ra rs rb : Gpr) (rc : Bool) (s : State) : Host.Outcome State Fault Refusal :=
  let n := shiftAmount (s.gprW rb)
  .next (s.result 4 ra (shiftSigned (s.gprW rs) n) (some (shiftCarry (s.gprW rs) n)) none rc)

/-- `srawi` (40_base_integer.md R676). -/
def execSrawi (ra rs : Gpr) (sh : BitVec 5) (rc : Bool) (s : State) : Host.Outcome State Fault Refusal :=
  .next (s.result 4 ra (shiftSigned (s.gprW rs) sh.toNat) (some (shiftCarry (s.gprW rs) sh.toNat)) none rc)

end Sys2Proof.Machine
end

