-- ==== Sys2Proof/Machine/LoadStore.lean ====
section
/-! DEFINITION. The loads and stores of Book E (spec/41_base_loadstore.md R710 to R751). -/

namespace Sys2Proof.Machine

/-- `lbz` (41_base_loadstore.md R710). -/
def execLbz (rt : Gpr) (d : BitVec 16) (ra : Gpr) (s : State) : Host.Outcome State Fault Refusal :=
  s.loadTo 4 1 rt none zeroExt (s.eaD ra d)

/-- `lbzx` (41_base_loadstore.md R726). -/
def execLbzx (rt ra rb : Gpr) (s : State) : Host.Outcome State Fault Refusal :=
  s.loadTo 4 1 rt none zeroExt (s.eaX ra rb)

/-- `lbzu` (41_base_loadstore.md R711). -/
def execLbzu (rt : Gpr) (d : BitVec 16) (ra : Gpr) (s : State) : Host.Outcome State Fault Refusal :=
  s.loadTo 4 1 rt (some ra) zeroExt (s.eaD ra d)

/-- `lbzux` (41_base_loadstore.md R727). -/
def execLbzux (rt ra rb : Gpr) (s : State) : Host.Outcome State Fault Refusal :=
  s.loadTo 4 1 rt (some ra) zeroExt (s.eaX ra rb)

/-- `stb` (41_base_loadstore.md R720). -/
def execStb (rs : Gpr) (d : BitVec 16) (ra : Gpr) (s : State) : Host.Outcome State Fault Refusal :=
  s.storeFrom 4 (s.storeByte rs) none (s.eaD ra d)

/-- `stbx` (41_base_loadstore.md R734). -/
def execStbx (rs ra rb : Gpr) (s : State) : Host.Outcome State Fault Refusal :=
  s.storeFrom 4 (s.storeByte rs) none (s.eaX ra rb)

/-- `stbu` (41_base_loadstore.md R721). -/
def execStbu (rs : Gpr) (d : BitVec 16) (ra : Gpr) (s : State) : Host.Outcome State Fault Refusal :=
  s.storeFrom 4 (s.storeByte rs) (some ra) (s.eaD ra d)

/-- `stbux` (41_base_loadstore.md R735). -/
def execStbux (rs ra rb : Gpr) (s : State) : Host.Outcome State Fault Refusal :=
  s.storeFrom 4 (s.storeByte rs) (some ra) (s.eaX ra rb)

/-- `lhz` (41_base_loadstore.md R712). -/
def execLhz (rt : Gpr) (d : BitVec 16) (ra : Gpr) (s : State) : Host.Outcome State Fault Refusal :=
  s.loadTo 4 2 rt none zeroExt (s.eaD ra d)

/-- `lhzx` (41_base_loadstore.md R728). -/
def execLhzx (rt ra rb : Gpr) (s : State) : Host.Outcome State Fault Refusal :=
  s.loadTo 4 2 rt none zeroExt (s.eaX ra rb)

/-- `lhzu` (41_base_loadstore.md R713). -/
def execLhzu (rt : Gpr) (d : BitVec 16) (ra : Gpr) (s : State) : Host.Outcome State Fault Refusal :=
  s.loadTo 4 2 rt (some ra) zeroExt (s.eaD ra d)

/-- `lhzux` (41_base_loadstore.md R729). -/
def execLhzux (rt ra rb : Gpr) (s : State) : Host.Outcome State Fault Refusal :=
  s.loadTo 4 2 rt (some ra) zeroExt (s.eaX ra rb)

/-- `lha` (41_base_loadstore.md R714). -/
def execLha (rt : Gpr) (d : BitVec 16) (ra : Gpr) (s : State) : Host.Outcome State Fault Refusal :=
  s.loadTo 4 2 rt none algebraic (s.eaD ra d)

/-- `lhax` (41_base_loadstore.md R730). -/
def execLhax (rt ra rb : Gpr) (s : State) : Host.Outcome State Fault Refusal :=
  s.loadTo 4 2 rt none algebraic (s.eaX ra rb)

/-- `lhau` (41_base_loadstore.md R715). -/
def execLhau (rt : Gpr) (d : BitVec 16) (ra : Gpr) (s : State) : Host.Outcome State Fault Refusal :=
  s.loadTo 4 2 rt (some ra) algebraic (s.eaD ra d)

/-- `lhaux` (41_base_loadstore.md R731). -/
def execLhaux (rt ra rb : Gpr) (s : State) : Host.Outcome State Fault Refusal :=
  s.loadTo 4 2 rt (some ra) algebraic (s.eaX ra rb)

/-- `sth` (41_base_loadstore.md R722). -/
def execSth (rs : Gpr) (d : BitVec 16) (ra : Gpr) (s : State) : Host.Outcome State Fault Refusal :=
  s.storeFrom 4 (s.storeHalf rs) none (s.eaD ra d)

/-- `sthx` (41_base_loadstore.md R736). -/
def execSthx (rs ra rb : Gpr) (s : State) : Host.Outcome State Fault Refusal :=
  s.storeFrom 4 (s.storeHalf rs) none (s.eaX ra rb)

/-- `sthu` (41_base_loadstore.md R723). -/
def execSthu (rs : Gpr) (d : BitVec 16) (ra : Gpr) (s : State) : Host.Outcome State Fault Refusal :=
  s.storeFrom 4 (s.storeHalf rs) (some ra) (s.eaD ra d)

/-- `sthux` (41_base_loadstore.md R737). -/
def execSthux (rs ra rb : Gpr) (s : State) : Host.Outcome State Fault Refusal :=
  s.storeFrom 4 (s.storeHalf rs) (some ra) (s.eaX ra rb)

/-- `lwz` (41_base_loadstore.md R716). -/
def execLwz (rt : Gpr) (d : BitVec 16) (ra : Gpr) (s : State) : Host.Outcome State Fault Refusal :=
  s.loadTo 4 4 rt none zeroExt (s.eaD ra d)

/-- `lwzx` (41_base_loadstore.md R732). -/
def execLwzx (rt ra rb : Gpr) (s : State) : Host.Outcome State Fault Refusal :=
  s.loadTo 4 4 rt none zeroExt (s.eaX ra rb)

/-- `lwzu` (41_base_loadstore.md R717). -/
def execLwzu (rt : Gpr) (d : BitVec 16) (ra : Gpr) (s : State) : Host.Outcome State Fault Refusal :=
  s.loadTo 4 4 rt (some ra) zeroExt (s.eaD ra d)

/-- `lwzux` (41_base_loadstore.md R733). -/
def execLwzux (rt ra rb : Gpr) (s : State) : Host.Outcome State Fault Refusal :=
  s.loadTo 4 4 rt (some ra) zeroExt (s.eaX ra rb)

/-- `stw` (41_base_loadstore.md R724). -/
def execStw (rs : Gpr) (d : BitVec 16) (ra : Gpr) (s : State) : Host.Outcome State Fault Refusal :=
  s.storeFrom 4 (s.storeWord rs) none (s.eaD ra d)

/-- `stwx` (41_base_loadstore.md R738). -/
def execStwx (rs ra rb : Gpr) (s : State) : Host.Outcome State Fault Refusal :=
  s.storeFrom 4 (s.storeWord rs) none (s.eaX ra rb)

/-- `stwu` (41_base_loadstore.md R725). -/
def execStwu (rs : Gpr) (d : BitVec 16) (ra : Gpr) (s : State) : Host.Outcome State Fault Refusal :=
  s.storeFrom 4 (s.storeWord rs) (some ra) (s.eaD ra d)

/-- `stwux` (41_base_loadstore.md R739). -/
def execStwux (rs ra rb : Gpr) (s : State) : Host.Outcome State Fault Refusal :=
  s.storeFrom 4 (s.storeWord rs) (some ra) (s.eaX ra rb)

/-- `lhbrx` (41_base_loadstore.md R740). -/
def execLhbrx (rt ra rb : Gpr) (s : State) : Host.Outcome State Fault Refusal :=
  s.loadTo 4 2 rt none reversed (s.eaX ra rb)

/-- `lwbrx` (41_base_loadstore.md R741). -/
def execLwbrx (rt ra rb : Gpr) (s : State) : Host.Outcome State Fault Refusal :=
  s.loadTo 4 4 rt none reversed (s.eaX ra rb)

/-- `sthbrx` (41_base_loadstore.md R742). -/
def execSthbrx (rs ra rb : Gpr) (s : State) : Host.Outcome State Fault Refusal :=
  s.storeFrom 4 (s.storeHalf rs).reverse none (s.eaX ra rb)

/-- `stwbrx` (41_base_loadstore.md R743). -/
def execStwbrx (rs ra rb : Gpr) (s : State) : Host.Outcome State Fault Refusal :=
  s.storeFrom 4 (s.storeWord rs).reverse none (s.eaX ra rb)

/-- `lmw` (41_base_loadstore.md R750). -/
def execLmw (rt : Gpr) (d : BitVec 16) (ra : Gpr) (s : State) : Host.Outcome State Fault Refusal :=
  s.loadMultiple (s.eaD ra d) (intoGprs (gprsFrom rt))

/-- `stmw` (41_base_loadstore.md R751). -/
def execStmw (rs : Gpr) (d : BitVec 16) (ra : Gpr) (s : State) : Host.Outcome State Fault Refusal :=
  s.storeMultiple (s.eaD ra d) (s.fromGprs (gprsFrom rs))

end Sys2Proof.Machine
end

