-- ==== Sys2Proof/Machine/Classify.lean ====
section
/-! DEFINITION. The classes of instructions that the performance monitor counts (spec/62_perfmon_power.md R2340), and the
instructions with debug events of their own (spec/61_debug.md R2210, R2212). -/

namespace Sys2Proof.Machine

/-- What an instruction counts as (62_perfmon_power.md R2340, events 10 to 27). `cacheLoad` and `cacheStore` are the cache
instructions that count as load and store micro-ops; `speAcc` adds to or subtracts from the accumulator; what `speAcc` and
`other` count as is not stated (log entry 36). -/
inductive InstrKind where
  | branch
  | load
  | store
  | cacheLoad
  | cacheStore
  | integer
  | mul
  | div
  | speSimple
  | speMul
  | speDiv
  | speAcc
  | efpu
  | ret
  | other
deriving DecidableEq, Repr

/-- The class of an instruction. -/
def instrKind (i : Instr) : InstrKind :=
  match i with
  | .tlbre => .other
  | .tlbwe => .other
  | .tlbsx _ _ => .other
  | .tlbivax _ _ => .other
  | .tlbsync => .other
  | .icbi _ _ => .cacheLoad
  | .icbt _ _ _ => .cacheLoad
  | .dcba _ _ => .other
  | .dcbf _ _ => .cacheLoad
  | .dcbi _ _ => .cacheStore
  | .dcbst _ _ => .cacheLoad
  | .dcbt _ _ _ => .cacheLoad
  | .dcbtst _ _ _ => .cacheLoad
  | .dcbz _ _ => .cacheStore
  | .dcbtls _ _ _ => .cacheLoad
  | .dcbtstls _ _ _ => .cacheLoad
  | .dcblc _ _ _ => .cacheLoad
  | .icbtls _ _ _ => .cacheLoad
  | .icblc _ _ _ => .cacheLoad
  | .addi _ _ _ => .integer
  | .addis _ _ _ => .integer
  | .addic _ _ _ => .integer
  | .addicDot _ _ _ => .integer
  | .subfic _ _ _ => .integer
  | .mulli _ _ _ => .mul
  | .add _ _ _ _ _ => .integer
  | .addc _ _ _ _ _ => .integer
  | .adde _ _ _ _ _ => .integer
  | .addme _ _ _ _ => .integer
  | .addze _ _ _ _ => .integer
  | .subf _ _ _ _ _ => .integer
  | .subfc _ _ _ _ _ => .integer
  | .subfe _ _ _ _ _ => .integer
  | .subfme _ _ _ _ => .integer
  | .subfze _ _ _ _ => .integer
  | .neg _ _ _ _ => .integer
  | .mullw _ _ _ _ _ => .mul
  | .divw _ _ _ _ _ => .div
  | .divwu _ _ _ _ _ => .div
  | .mulhw _ _ _ _ => .mul
  | .mulhwu _ _ _ _ => .mul
  | .cmpi _ _ _ => .integer
  | .cmp _ _ _ => .integer
  | .cmpli _ _ _ => .integer
  | .cmpl _ _ _ => .integer
  | .andiDot _ _ _ => .integer
  | .andisDot _ _ _ => .integer
  | .ori _ _ _ => .integer
  | .oris _ _ _ => .integer
  | .xori _ _ _ => .integer
  | .xoris _ _ _ => .integer
  | .and _ _ _ _ => .integer
  | .andc _ _ _ _ => .integer
  | .or _ _ _ _ => .integer
  | .orc _ _ _ _ => .integer
  | .xor _ _ _ _ => .integer
  | .nand _ _ _ _ => .integer
  | .nor _ _ _ _ => .integer
  | .eqv _ _ _ _ => .integer
  | .extsb _ _ _ => .integer
  | .extsh _ _ _ => .integer
  | .cntlzw _ _ _ => .integer
  | .rlwinm _ _ _ _ _ _ => .integer
  | .rlwimi _ _ _ _ _ _ => .integer
  | .rlwnm _ _ _ _ _ _ => .integer
  | .slw _ _ _ _ => .integer
  | .srw _ _ _ _ => .integer
  | .sraw _ _ _ _ => .integer
  | .srawi _ _ _ _ => .integer
  | .lbz _ _ _ => .load
  | .lbzu _ _ _ => .load
  | .lhz _ _ _ => .load
  | .lhzu _ _ _ => .load
  | .lha _ _ _ => .load
  | .lhau _ _ _ => .load
  | .lwz _ _ _ => .load
  | .lwzu _ _ _ => .load
  | .stb _ _ _ => .store
  | .stbu _ _ _ => .store
  | .sth _ _ _ => .store
  | .sthu _ _ _ => .store
  | .stw _ _ _ => .store
  | .stwu _ _ _ => .store
  | .lbzx _ _ _ => .load
  | .lbzux _ _ _ => .load
  | .lhzx _ _ _ => .load
  | .lhzux _ _ _ => .load
  | .lhax _ _ _ => .load
  | .lhaux _ _ _ => .load
  | .lwzx _ _ _ => .load
  | .lwzux _ _ _ => .load
  | .stbx _ _ _ => .store
  | .stbux _ _ _ => .store
  | .sthx _ _ _ => .store
  | .sthux _ _ _ => .store
  | .stwx _ _ _ => .store
  | .stwux _ _ _ => .store
  | .lhbrx _ _ _ => .load
  | .lwbrx _ _ _ => .load
  | .sthbrx _ _ _ => .store
  | .stwbrx _ _ _ => .store
  | .lmw _ _ _ => .load
  | .stmw _ _ _ => .store
  | .b _ _ _ => .branch
  | .bc _ _ _ _ _ => .branch
  | .bclr _ _ _ => .branch
  | .bcctr _ _ _ => .branch
  | .crand _ _ _ => .other
  | .crandc _ _ _ => .other
  | .creqv _ _ _ => .other
  | .crnand _ _ _ => .other
  | .crnor _ _ _ => .other
  | .cror _ _ _ => .other
  | .crorc _ _ _ => .other
  | .crxor _ _ _ => .other
  | .mcrf _ _ => .other
  | .mcrxr _ => .other
  | .mfcr _ => .other
  | .mtcrf _ _ => .other
  | .tw _ _ _ => .other
  | .twi _ _ _ => .other
  | .sc => .other
  | .rfi => .ret
  | .rfci => .ret
  | .isync => .other
  | .mfmsr _ => .other
  | .mtmsr _ => .other
  | .wrtee _ => .other
  | .wrteei _ => .other
  | .mfspr _ _ => .other
  | .mtspr _ _ => .other
  | .isel _ _ _ _ => .integer
  | .rfdi => .ret
  | .rfmci => .ret
  | .dnh _ _ => .other
  | .wait => .other
  | .msync => .other
  | .mbar _ => .other
  | .mfdcr _ _ => .other
  | .mtdcr _ _ => .other
  | .lbarx _ _ _ => .load
  | .lharx _ _ _ => .load
  | .lwarx _ _ _ => .load
  | .stbcxDot _ _ _ => .store
  | .sthcxDot _ _ _ => .store
  | .stwcxDot _ _ _ => .store
  | .eLmvgprw _ _ => .load
  | .eStmvgprw _ _ => .store
  | .eLmvsprw _ _ => .load
  | .eStmvsprw _ _ => .store
  | .eLmvsrrw _ _ => .load
  | .eStmvsrrw _ _ => .store
  | .eLmvcsrrw _ _ => .load
  | .eStmvcsrrw _ _ => .store
  | .eLmvdsrrw _ _ => .load
  | .eStmvdsrrw _ _ => .store
  | .eLmvmcsrrw _ _ => .load
  | .eStmvmcsrrw _ _ => .store
  | .seIllegal => .other
  | .seIsync => .other
  | .seSc => .other
  | .seBlr _ => .branch
  | .seBctr _ => .branch
  | .seRfi => .ret
  | .seRfci => .ret
  | .seRfdi => .ret
  | .seRfmci => .ret
  | .seDnh => .other
  | .seNot _ => .integer
  | .seNeg _ => .integer
  | .seMflr _ => .other
  | .seMtlr _ => .other
  | .seMfctr _ => .other
  | .seMtctr _ => .other
  | .seExtzb _ => .integer
  | .seExtsb _ => .integer
  | .seExtzh _ => .integer
  | .seExtsh _ => .integer
  | .seMr _ _ => .integer
  | .seMtar _ _ => .integer
  | .seMfar _ _ => .integer
  | .seAdd _ _ => .integer
  | .seMullw _ _ => .mul
  | .seSub _ _ => .integer
  | .seSubf _ _ => .integer
  | .seCmp _ _ => .integer
  | .seCmpl _ _ => .integer
  | .seCmph _ _ => .integer
  | .seCmphl _ _ => .integer
  | .seSrw _ _ => .integer
  | .seSraw _ _ => .integer
  | .seSlw _ _ => .integer
  | .seOr _ _ => .integer
  | .seAndc _ _ => .integer
  | .seAnd _ _ _ => .integer
  | .seAddi _ _ => .integer
  | .seCmpli _ _ => .integer
  | .seSubi _ _ _ => .integer
  | .seCmpi _ _ => .integer
  | .seBmaski _ _ => .integer
  | .seAndi _ _ => .integer
  | .seBclri _ _ => .integer
  | .seBgeni _ _ => .integer
  | .seBseti _ _ => .integer
  | .seBtsti _ _ => .integer
  | .seSrwi _ _ => .integer
  | .seSrawi _ _ => .integer
  | .seSlwi _ _ => .integer
  | .seLi _ _ => .integer
  | .seLbz _ _ _ => .load
  | .seStb _ _ _ => .store
  | .seLhz _ _ _ => .load
  | .seSth _ _ _ => .store
  | .seLwz _ _ _ => .load
  | .seStw _ _ _ => .store
  | .seB _ _ => .branch
  | .seBc _ _ _ => .branch
  | .eLbz _ _ _ => .load
  | .eStb _ _ _ => .store
  | .eLha _ _ _ => .load
  | .eLwz _ _ _ => .load
  | .eStw _ _ _ => .store
  | .eLhz _ _ _ => .load
  | .eSth _ _ _ => .store
  | .eAdd16i _ _ _ => .integer
  | .eLbzu _ _ _ => .load
  | .eLhzu _ _ _ => .load
  | .eLwzu _ _ _ => .load
  | .eLhau _ _ _ => .load
  | .eStbu _ _ _ => .store
  | .eSthu _ _ _ => .store
  | .eStwu _ _ _ => .store
  | .eLmw _ _ _ => .load
  | .eStmw _ _ _ => .store
  | .eAddi _ _ _ _ _ _ => .integer
  | .eAddic _ _ _ _ _ _ => .integer
  | .eMulli _ _ _ _ _ => .mul
  | .eCmpi _ _ _ _ _ => .integer
  | .eCmpli _ _ _ _ _ => .integer
  | .eSubfic _ _ _ _ _ _ => .integer
  | .eAndi _ _ _ _ _ _ => .integer
  | .eOri _ _ _ _ _ _ => .integer
  | .eXori _ _ _ _ _ _ => .integer
  | .eLi _ _ => .integer
  | .eAdd2iDot _ _ => .integer
  | .eAdd2is _ _ => .integer
  | .eCmp16i _ _ => .integer
  | .eMull2i _ _ => .mul
  | .eCmpl16i _ _ => .integer
  | .eCmph16i _ _ => .integer
  | .eCmphl16i _ _ => .integer
  | .eOr2i _ _ => .integer
  | .eAnd2iDot _ _ => .integer
  | .eOr2is _ _ => .integer
  | .eLis _ _ => .integer
  | .eAnd2isDot _ _ => .integer
  | .eRlwimi _ _ _ _ _ => .integer
  | .eRlwinm _ _ _ _ _ => .integer
  | .eB _ _ => .branch
  | .eBc _ _ _ _ => .branch
  | .eCmph _ _ _ => .integer
  | .eCmphl _ _ _ => .integer
  | .eMcrf _ _ => .other
  | .eCrnor _ _ _ => .other
  | .eCrandc _ _ _ => .other
  | .eCrxor _ _ _ => .other
  | .eCrnand _ _ _ => .other
  | .eCrand _ _ _ => .other
  | .eCreqv _ _ _ => .other
  | .eCrorc _ _ _ => .other
  | .eCror _ _ _ => .other
  | .eSlwi _ _ _ _ => .integer
  | .eRlw _ _ _ _ => .integer
  | .eRlwi _ _ _ _ => .integer
  | .eSrwi _ _ _ _ => .integer
  | .eDnh _ _ => .other
  | .efsabs _ _ => .efpu
  | .efsnabs _ _ => .efpu
  | .efsneg _ _ => .efpu
  | .efsadd _ _ _ => .efpu
  | .efssub _ _ _ => .efpu
  | .efsmul _ _ _ => .efpu
  | .efsdiv _ _ _ => .efpu
  | .efsmadd _ _ _ => .efpu
  | .efsmsub _ _ _ => .efpu
  | .efsnmadd _ _ _ => .efpu
  | .efsnmsub _ _ _ => .efpu
  | .efssqrt _ _ => .efpu
  | .efsmax _ _ _ => .efpu
  | .efsmin _ _ _ => .efpu
  | .efscmpgt _ _ _ => .efpu
  | .efscmplt _ _ _ => .efpu
  | .efscmpeq _ _ _ => .efpu
  | .efststgt _ _ _ => .efpu
  | .efststlt _ _ _ => .efpu
  | .efststeq _ _ _ => .efpu
  | .efscfsi _ _ => .efpu
  | .efscfui _ _ => .efpu
  | .efscfsf _ _ => .efpu
  | .efscfuf _ _ => .efpu
  | .efsctsi _ _ => .efpu
  | .efsctsiz _ _ => .efpu
  | .efsctui _ _ => .efpu
  | .efsctuiz _ _ => .efpu
  | .efsctsf _ _ => .efpu
  | .efsctuf _ _ => .efpu
  | .efscfh _ _ => .efpu
  | .efscth _ _ => .efpu
  | .evfsabs _ _ => .efpu
  | .evfsnabs _ _ => .efpu
  | .evfsneg _ _ => .efpu
  | .evfsadd _ _ _ => .efpu
  | .evfssub _ _ _ => .efpu
  | .evfsaddsub _ _ _ => .efpu
  | .evfssubadd _ _ _ => .efpu
  | .evfsaddx _ _ _ => .efpu
  | .evfssubx _ _ _ => .efpu
  | .evfsaddsubx _ _ _ => .efpu
  | .evfssubaddx _ _ _ => .efpu
  | .evfssum _ _ _ => .efpu
  | .evfsdiff _ _ _ => .efpu
  | .evfssumdiff _ _ _ => .efpu
  | .evfsdiffsum _ _ _ => .efpu
  | .evfsmul _ _ _ => .efpu
  | .evfsmule _ _ _ => .efpu
  | .evfsmulo _ _ _ => .efpu
  | .evfsmulx _ _ _ => .efpu
  | .evfsdiv _ _ _ => .efpu
  | .evfssqrt _ _ => .efpu
  | .evfsmadd _ _ _ => .efpu
  | .evfsmsub _ _ _ => .efpu
  | .evfsnmadd _ _ _ => .efpu
  | .evfsnmsub _ _ _ => .efpu
  | .evfsmax _ _ _ => .efpu
  | .evfsmin _ _ _ => .efpu
  | .evfscmpgt _ _ _ => .efpu
  | .evfscmplt _ _ _ => .efpu
  | .evfscmpeq _ _ _ => .efpu
  | .evfststgt _ _ _ => .efpu
  | .evfststlt _ _ _ => .efpu
  | .evfststeq _ _ _ => .efpu
  | .evfscfsi _ _ => .efpu
  | .evfscfui _ _ => .efpu
  | .evfscfsf _ _ => .efpu
  | .evfscfuf _ _ => .efpu
  | .evfsctsi _ _ => .efpu
  | .evfsctsiz _ _ => .efpu
  | .evfsctui _ _ => .efpu
  | .evfsctuiz _ _ => .efpu
  | .evfsctsf _ _ => .efpu
  | .evfsctuf _ _ => .efpu
  | .evfscfh _ _ => .efpu
  | .evfscth _ _ => .efpu
  | .brinc _ _ _ => .speSimple
  | .evabs _ _ => .speSimple
  | .evaddiw _ _ _ => .speSimple
  | .evaddw _ _ _ => .speSimple
  | .evand _ _ _ => .speSimple
  | .evandc _ _ _ => .speSimple
  | .evcmpeq _ _ _ => .speSimple
  | .evcmpgts _ _ _ => .speSimple
  | .evcmpgtu _ _ _ => .speSimple
  | .evcmplts _ _ _ => .speSimple
  | .evcmpltu _ _ _ => .speSimple
  | .evcntlsw _ _ => .speSimple
  | .evcntlzw _ _ => .speSimple
  | .evdivws _ _ _ => .speDiv
  | .evdivwu _ _ _ => .speDiv
  | .eveqv _ _ _ => .speSimple
  | .evextsb _ _ => .speSimple
  | .evextsh _ _ => .speSimple
  | .evmergehi _ _ _ => .speSimple
  | .evmergehilo _ _ _ => .speSimple
  | .evmergelo _ _ _ => .speSimple
  | .evmergelohi _ _ _ => .speSimple
  | .evnand _ _ _ => .speSimple
  | .evneg _ _ => .speSimple
  | .evnor _ _ _ => .speSimple
  | .evor _ _ _ => .speSimple
  | .evorc _ _ _ => .speSimple
  | .evrlw _ _ _ => .speSimple
  | .evrlwi _ _ _ => .speSimple
  | .evrndw _ _ => .speSimple
  | .evsel _ _ _ _ => .speSimple
  | .evslw _ _ _ => .speSimple
  | .evslwi _ _ _ => .speSimple
  | .evsplatfi _ _ => .speSimple
  | .evsplati _ _ => .speSimple
  | .evsrwis _ _ _ => .speSimple
  | .evsrwiu _ _ _ => .speSimple
  | .evsrws _ _ _ => .speSimple
  | .evsrwu _ _ _ => .speSimple
  | .evsubfw _ _ _ => .speSimple
  | .evsubifw _ _ _ => .speSimple
  | .evxor _ _ _ => .speSimple
  | .evmra _ _ => .speSimple
  | .evmhegsmfaa _ _ _ => .speMul
  | .evmhegsmfan _ _ _ => .speMul
  | .evmhegsmiaa _ _ _ => .speMul
  | .evmhegsmian _ _ _ => .speMul
  | .evmhegumiaa _ _ _ => .speMul
  | .evmhegumian _ _ _ => .speMul
  | .evmhesmf _ _ _ => .speMul
  | .evmhesmfa _ _ _ => .speMul
  | .evmhesmi _ _ _ => .speMul
  | .evmhesmia _ _ _ => .speMul
  | .evmhessf _ _ _ => .speMul
  | .evmhessfa _ _ _ => .speMul
  | .evmheumi _ _ _ => .speMul
  | .evmheumia _ _ _ => .speMul
  | .evmhesmfaaw _ _ _ => .speMul
  | .evmhesmfanw _ _ _ => .speMul
  | .evmhesmiaaw _ _ _ => .speMul
  | .evmhesmianw _ _ _ => .speMul
  | .evmhessfaaw _ _ _ => .speMul
  | .evmhessfanw _ _ _ => .speMul
  | .evmhessiaaw _ _ _ => .speMul
  | .evmhessianw _ _ _ => .speMul
  | .evmheumiaaw _ _ _ => .speMul
  | .evmheumianw _ _ _ => .speMul
  | .evmheusiaaw _ _ _ => .speMul
  | .evmheusianw _ _ _ => .speMul
  | .evmhogsmfaa _ _ _ => .speMul
  | .evmhogsmfan _ _ _ => .speMul
  | .evmhogsmiaa _ _ _ => .speMul
  | .evmhogsmian _ _ _ => .speMul
  | .evmhogumiaa _ _ _ => .speMul
  | .evmhogumian _ _ _ => .speMul
  | .evmhosmf _ _ _ => .speMul
  | .evmhosmfa _ _ _ => .speMul
  | .evmhosmi _ _ _ => .speMul
  | .evmhosmia _ _ _ => .speMul
  | .evmhossf _ _ _ => .speMul
  | .evmhossfa _ _ _ => .speMul
  | .evmhoumi _ _ _ => .speMul
  | .evmhoumia _ _ _ => .speMul
  | .evmhosmfaaw _ _ _ => .speMul
  | .evmhosmfanw _ _ _ => .speMul
  | .evmhosmiaaw _ _ _ => .speMul
  | .evmhosmianw _ _ _ => .speMul
  | .evmhossfaaw _ _ _ => .speMul
  | .evmhossfanw _ _ _ => .speMul
  | .evmhossiaaw _ _ _ => .speMul
  | .evmhossianw _ _ _ => .speMul
  | .evmhoumiaaw _ _ _ => .speMul
  | .evmhoumianw _ _ _ => .speMul
  | .evmhousiaaw _ _ _ => .speMul
  | .evmhousianw _ _ _ => .speMul
  | .evmwhsmf _ _ _ => .speMul
  | .evmwhsmfa _ _ _ => .speMul
  | .evmwhsmi _ _ _ => .speMul
  | .evmwhsmia _ _ _ => .speMul
  | .evmwhssf _ _ _ => .speMul
  | .evmwhssfa _ _ _ => .speMul
  | .evmwhumi _ _ _ => .speMul
  | .evmwhumia _ _ _ => .speMul
  | .evmwlumi _ _ _ => .speMul
  | .evmwlumia _ _ _ => .speMul
  | .evmwlsmiaaw _ _ _ => .speMul
  | .evmwlsmianw _ _ _ => .speMul
  | .evmwlssiaaw _ _ _ => .speMul
  | .evmwlssianw _ _ _ => .speMul
  | .evmwlumiaaw _ _ _ => .speMul
  | .evmwlumianw _ _ _ => .speMul
  | .evmwlusiaaw _ _ _ => .speMul
  | .evmwlusianw _ _ _ => .speMul
  | .evmwsmf _ _ _ => .speMul
  | .evmwsmfa _ _ _ => .speMul
  | .evmwsmfaa _ _ _ => .speMul
  | .evmwsmfan _ _ _ => .speMul
  | .evmwsmi _ _ _ => .speMul
  | .evmwsmia _ _ _ => .speMul
  | .evmwsmiaa _ _ _ => .speMul
  | .evmwsmian _ _ _ => .speMul
  | .evmwssf _ _ _ => .speMul
  | .evmwssfa _ _ _ => .speMul
  | .evmwssfaa _ _ _ => .speMul
  | .evmwssfan _ _ _ => .speMul
  | .evmwumi _ _ _ => .speMul
  | .evmwumia _ _ _ => .speMul
  | .evmwumiaa _ _ _ => .speMul
  | .evmwumian _ _ _ => .speMul
  | .evaddsmiaaw _ _ => .speAcc
  | .evaddssiaaw _ _ => .speAcc
  | .evaddumiaaw _ _ => .speAcc
  | .evaddusiaaw _ _ => .speAcc
  | .evsubfsmiaaw _ _ => .speAcc
  | .evsubfssiaaw _ _ => .speAcc
  | .evsubfumiaaw _ _ => .speAcc
  | .evsubfusiaaw _ _ => .speAcc
  | .evldd _ _ _ => .load
  | .evlddx _ _ _ => .load
  | .evldw _ _ _ => .load
  | .evldwx _ _ _ => .load
  | .evldh _ _ _ => .load
  | .evldhx _ _ _ => .load
  | .evlhhesplat _ _ _ => .load
  | .evlhhesplatx _ _ _ => .load
  | .evlhhousplat _ _ _ => .load
  | .evlhhousplatx _ _ _ => .load
  | .evlhhossplat _ _ _ => .load
  | .evlhhossplatx _ _ _ => .load
  | .evlwhe _ _ _ => .load
  | .evlwhex _ _ _ => .load
  | .evlwhou _ _ _ => .load
  | .evlwhoux _ _ _ => .load
  | .evlwhos _ _ _ => .load
  | .evlwhosx _ _ _ => .load
  | .evlwwsplat _ _ _ => .load
  | .evlwwsplatx _ _ _ => .load
  | .evlwhsplat _ _ _ => .load
  | .evlwhsplatx _ _ _ => .load
  | .evstdd _ _ _ => .store
  | .evstddx _ _ _ => .store
  | .evstdw _ _ _ => .store
  | .evstdwx _ _ _ => .store
  | .evstdh _ _ _ => .store
  | .evstdhx _ _ _ => .store
  | .evstwhe _ _ _ => .store
  | .evstwhex _ _ _ => .store
  | .evstwho _ _ _ => .store
  | .evstwhox _ _ _ => .store
  | .evstwwe _ _ _ => .store
  | .evstwwex _ _ _ => .store
  | .evstwwo _ _ _ => .store
  | .evstwwox _ _ _ => .store
  | .mfpmr _ _ => .other
  | .mtpmr _ _ => .other

/-- An `rfi` (true) or an `rfci` (false): the instructions with a return event (61_debug.md R2212). -/
def returnKind (i : Instr) : Option Bool :=
  match i with
  | .rfi => some true
  | .seRfi => some true
  | .rfci => some false
  | .seRfci => some false
  | _ => none

/-- The returns, which replace the MSR (60_exceptions.md R2015). -/
def replacesMsr (i : Instr) : Bool :=
  [Instr.rfi, .rfci, .rfdi, .rfmci, .seRfi, .seRfci, .seRfdi, .seRfmci].contains i

/-- The context synchronizing instructions (70_reset_and_hazards.md R2410). -/
def contextSyncs (i : Instr) : Bool := replacesMsr i || [Instr.sc, .isync, .seSc, .seIsync].contains i

end Sys2Proof.Machine
end

