-- ==== Sys2Proof/Machine/Perf.lean ====
section
/-! DEFINITION. The performance monitor: its registers, `mfpmr` and `mtpmr`, counting, triggering and the exception
condition (spec/62_perfmon_power.md R2300 to R2340). -/

namespace Sys2Proof.Machine

/-! Registers (62_perfmon_power.md R2301, R2302, R2320 to R2323). -/

/-- A performance monitor register. -/
inductive Pmr where
  | pmc (n : Fin 4)
  | pmlca (n : Fin 4)
  | pmlcb (n : Fin 4)
  | pmgc0
deriving DecidableEq, Repr

/-- The register of a PMR number and whether the number is a read-only user alias (62_perfmon_power.md R2301). -/
def pmrNamed (n : Nat) : Option (Pmr × Bool) :=
  if h : n < 4 then some (.pmc ⟨n, h⟩, true)
  else if h : 16 ≤ n ∧ n < 20 then some (.pmc ⟨n - 16, by omega⟩, false)
  else if h : 128 ≤ n ∧ n < 132 then some (.pmlca ⟨n - 128, by omega⟩, true)
  else if h : 144 ≤ n ∧ n < 148 then some (.pmlca ⟨n - 144, by omega⟩, false)
  else if h : 256 ≤ n ∧ n < 260 then some (.pmlcb ⟨n - 256, by omega⟩, true)
  else if h : 272 ≤ n ∧ n < 276 then some (.pmlcb ⟨n - 272, by omega⟩, false)
  else if n = 384 then some (.pmgc0, true)
  else if n = 400 then some (.pmgc0, false)
  else none

/-- The value of a performance monitor register. -/
def PerfMon.read (p : PerfMon) (r : Pmr) : Word :=
  match r with
  | .pmc n => p.pmc.get n
  | .pmlca n => p.pmlca.get n
  | .pmlcb n => p.pmlcb.get n
  | .pmgc0 => p.pmgc0

/-- The implemented bits of a performance monitor register. -/
def Pmr.mask (r : Pmr) : Word :=
  match r with
  | .pmc _ => 0xFFFFFFFF#32
  | .pmlca _ => 0xFCFF7000#32
  | .pmlcb n => if n.val < 2 then 0x777BE73F#32 else 0x777BE000#32
  | .pmgc0 => 0xE0001900#32

/-- A write of a performance monitor register. -/
def PerfMon.write (p : PerfMon) (r : Pmr) (v : Word) : PerfMon :=
  match r with
  | .pmc n => { p with pmc := p.pmc.set n.val (v &&& r.mask) n.isLt }
  | .pmlca n => { p with pmlca := p.pmlca.set n.val (v &&& r.mask) n.isLt }
  | .pmlcb n => { p with pmlcb := p.pmlcb.set n.val (v &&& r.mask) n.isLt }
  | .pmgc0 => { p with pmgc0 := v &&& r.mask }

/-- `mfpmr` (62_perfmon_power.md R2310, R2302). -/
def execMfpmr (rd : Gpr) (pmrn : BitVec 10) (s : State) : Host.Outcome State Fault Refusal :=
  if pmrn.getLsbD 4 && s.user then .next (raisePrivileged s)
  else
    match pmrNamed pmrn.toNat with
    | none => .next (raiseIllegal s)
    | some (r, _) => .next ((s.setGprW rd (s.pm.read r)).advance 4)

/-- A write of a performance monitor register: a change of PMGC0[TBSEL] while TBEE is 1 may be taken for a time base event,
which a free bit decides (62_perfmon_power.md R2320, log entry 59). -/
def State.writePmr (s : State) (r : Pmr) (v : Word) : State :=
  let pm := s.pm.write r v
  if s.pm.pmgc0.getLsbD 8 && (s.pm.pmgc0 ^^^ pm.pmgc0) &&& 0x1800#32 != 0#32 then
    { s with pm := { pm with tbEvent := pm.tbEvent || Config.freeBit s.free }, free := s.free + 1 }
  else { s with pm := pm }

/-- `mtpmr` (62_perfmon_power.md R2311, R2302). -/
def execMtpmr (pmrn : BitVec 10) (rs : Gpr) (s : State) : Host.Outcome State Fault Refusal :=
  if pmrn.getLsbD 4 && s.user then .next (raisePrivileged s)
  else
    match pmrNamed pmrn.toNat with
    | some (r, false) => .next ((s.writePmr r (s.gprW rs)).advance 4)
    | some (_, true) => .next (raiseIllegal s)
    | none => .next (raiseIllegal s)

/-! Counting (62_perfmon_power.md R2330, R2332, R2340). -/

/-- What a step did that counters count. -/
structure PmStep where
  /-- The class of the instruction that completed, if one did. -/
  kind : Option InstrKind
  /-- What that instruction decided as a branch, and its link bit. -/
  br : Option (Br × Bool)
  /-- Load and store micro-ops. -/
  loads : Nat
  stores : Nat
  ints : List IntType
  /-- System calls and traps. -/
  traps : Nat
  wp : BitVec 30
  devnt : Byte
  pmEdges : Nat
  tbEdges : Nat
  /-- In a debug session; waiting, halted or stopped. -/
  session : Bool
  idle : Bool
  /-- Where the free values of the step begin. -/
  free : Nat
deriving DecidableEq, Repr

/-- One if a condition holds. -/
def oneIf (b : Bool) : Nat := if b then 1 else 0

/-- The class is one of a list. -/
def PmStep.isKind (p : PmStep) (l : List InstrKind) : Bool := match p.kind with | none => false | some k => l.contains k
/-- A property of the branch of the step. -/
def PmStep.branchIs (p : PmStep) (f : Br → Bool → Bool) : Bool :=
  p.isKind [.branch] && (match p.br with | none => false | some (r, lk) => f r lk)

/-- The events that MSR-based filtering does not affect (62_perfmon_power.md R2340, column F). -/
def unfiltered (e : Nat) : Bool :=
  decide (e = 0 ∨ e = 8 ∨ e = 9 ∨ (92 ≤ e ∧ e ≤ 100) ∨ (103 ≤ e ∧ e ≤ 106) ∨ (108 ≤ e ∧ e ≤ 110) ∨ (154 ≤ e ∧ e ≤ 158))
/-- The event numbers that select no event (92_eei_decisions.md D28). -/
def noEvent (e : Nat) : Bool :=
  [7, 33, 34, 35, 36, 42, 43, 70, 71, 83, 84, 91, 96, 101, 102, 149, 150].contains e
/-- A watchpoint under note 2: not counted while waiting, halted or stopped. -/
def quietWatch (k : Nat) : Bool := decide (k ≤ 9 ∨ (14 ≤ k ∧ k ≤ 19) ∨ 27 ≤ k)
/-- The events of note 2: not counted while waiting, halted or stopped, nor in a debug session. -/
def note2 (e : Nat) : Bool :=
  [1, 3, 4, 5, 37, 38, 39, 40, 41, 64, 77, 108, 109].contains e ||
    (decide (119 ≤ e ∧ e ≤ 148) && quietWatch (e - 119))
/-- The events without a note: a debug session does not stop them. -/
def anytime (e : Nat) : Bool :=
  [0, 8, 9, 92, 93, 95, 97, 98, 99, 100, 103, 104, 105, 106, 107, 110].contains e ||
    (decide (111 ≤ e ∧ e ≤ 148) && !note2 e)

/-- How often event `e` occurred for counter `n`. Micro-architectural events are free, and so are the numbers from 159 on, which
the table does not have (93_implementation_defined.md U80), and whether a store conditional that stores nothing is a store
micro-op; the threshold events 152 to 158 exist on the first two counters only (R2333). (DESIGN CHOICE, log entry 36.) -/
def PmStep.count (p : PmStep) (n e : Nat) : Nat :=
  let open' := Config.freeNat (p.free + 4 * n)
  let openBit := open' % 2
  if 159 ≤ e then open'
  else if (p.session && !anytime e) || (p.idle && note2 e) then 0
  else if noEvent e || e == 0 then 0
  else if 97 ≤ e ∧ e ≤ 100 then 0
  else if 111 ≤ e ∧ e ≤ 118 then oneIf (p.devnt.getLsbD (e - 111))
  else if 119 ≤ e ∧ e ≤ 148 then oneIf (p.wp.getLsbD (e - 119))
  else if 152 ≤ e ∧ 2 ≤ n then 0
  else
    match e with
    | 2 => oneIf p.kind.isSome
    | 8 => p.pmEdges
    | 10 => oneIf (p.branchIs fun _ _ => true)
    | 11 => oneIf (p.branchIs fun _ lk => lk)
    | 12 => oneIf (p.branchIs fun r _ => r.cond)
    | 13 => oneIf (p.branchIs fun r _ => r.taken)
    | 14 => oneIf (p.branchIs fun r _ => r.taken && r.cond)
    | 15 => oneIf (p.isKind [.load])
    | 16 => oneIf (p.isKind [.store])
    | 17 => if p.isKind [.cacheLoad] then 1 else if p.isKind [.load] then p.loads else 0
    | 18 => if p.isKind [.cacheStore] then 1 else if !p.isKind [.store] then 0 else if p.stores = 0 then openBit else p.stores
    | 19 => if p.isKind [.integer] then 1 else if p.isKind [.other] then openBit else 0
    | 20 => oneIf (p.isKind [.mul, .speMul])
    | 21 => oneIf (p.isKind [.div, .speDiv])
    | 22 => if p.isKind [.div, .speDiv] then open' else 0
    | 23 => oneIf (p.isKind [.speSimple, .speMul, .speDiv, .speAcc, .efpu])
    | 24 => if p.isKind [.speSimple] then 1 else if p.isKind [.speAcc] then openBit else 0
    | 25 => if p.isKind [.speMul] then 1 else if p.isKind [.speAcc] then openBit else 0
    | 26 => oneIf (p.isKind [.efpu])
    | 27 => oneIf (p.isKind [.ret])
    | 103 => p.ints.length
    | 104 => p.ints.countP (· == .externalInput)
    | 105 => p.ints.countP (· == .criticalInput)
    | 106 => p.ints.countP (· == .watchdog)
    | 107 => p.traps
    | 110 => p.tbEdges
    | _ => open'

/-- PMLCa[EVENT] of a counter. -/
def PerfMon.event (p : PerfMon) (n : Fin 4) : Nat := ((p.pmlca.get n).extractLsb' 16 8).toNat

/-- Counter `n` may count, in a state with MSR[PR] and MSR[PMM] (62_perfmon_power.md R2330). -/
def PerfMon.enabled (p : PerfMon) (pr pmm : Bool) (n : Fin 4) : Bool :=
  let a := p.pmlca.get n
  let b := p.pmlcb.get n
  let filters := (a.getLsbD 30 && !pr) || (a.getLsbD 29 && pr) || (a.getLsbD 28 && pmm) || (a.getLsbD 27 && !pmm)
  !p.pmgc0.getLsbD 31 && !a.getLsbD 31 && (unfiltered (p.event n) || !filters) &&
    (b &&& 0x77000000#32 == 0#32 || b.getLsbD 13)

/-- The counter whose rollover counter `n` counts. -/
def PerfMon.source (p : PerfMon) (n : Fin 4) : Option Nat :=
  let e := p.event n
  if 97 ≤ e ∧ e ≤ 100 then some (e - 97) else none

/-- OV goes from 1 to 0. -/
def rolled (old new : Word) : Bool := old.getLsbD 31 && !new.getLsbD 31

/-- The four numbers of the counters. -/
def counters : List (Fin 4) := [0, 1, 2, 3]

/-- One round of chaining: the counters that count the rollover of a counter of `r` count one (62_perfmon_power.md
R2332). The counters, and which rolled over in this round. -/
def PerfMon.chainRound (p : PerfMon) (pr pmm : Bool) (v : List Word) (r : List Bool) : List Word × List Bool :=
  let v' := counters.map fun n =>
    let old := v.getD n.val 0#32
    match p.source n with
    | some m => if m != n.val && r.getD m false && p.enabled pr pmm n then old + 1#32 else old
    | none => old
  (v', counters.map fun n => rolled (v.getD n.val 0#32) (v'.getD n.val 0#32))

/-- Rounds of chaining. Four are all there can be: in a ring of four counters the fourth link is an increment of the first, whose OV
is 0 already. -/
def PerfMon.chain (p : PerfMon) (pr pmm : Bool) : Nat → List Word → List Bool → List Word
  | 0, v, _ => v
  | k + 1, v, r =>
    if r.any id then
      let x := p.chainRound pr pmm v r
      p.chain pr pmm k x.1 x.2
    else v

/-- The counters after a step, from their values `v`: a counter that counts its own rollover becomes free. Whether an `mtpmr` that
clears OV is a transition that a chained counter counts is free (DESIGN CHOICE, log entry 36; 62_perfmon_power.md R2332). -/
def PerfMon.count (p : PerfMon) (pr pmm : Bool) (st : PmStep) (v : List Word) : List Word :=
  let v0 := counters.map fun n =>
    let old := v.getD n.val 0#32
    if p.enabled pr pmm n then
      if p.source n == some n.val then Config.freeWord (st.free + 4 * n.val + 1)
      else old + BitVec.ofNat 32 (st.count n.val (p.event n))
    else old
  p.chain pr pmm 4 v0 <| counters.map fun n =>
    rolled (v.getD n.val 0#32) (v0.getD n.val 0#32) ||
      (rolled (p.pmc.get n) (v.getD n.val 0#32) && Config.freeBit (st.free + 20 + n.val))

/-! Triggering (62_perfmon_power.md R2322). -/

/-- A trigger source occurs: control class, selection, counter; `edge` are the rises or falls of the qualifiers. Whether one of a
reserved class or selection occurs is free, `open'` decides (DESIGN CHOICE, log entry 36; 93_implementation_defined.md
U80). -/
def trigSource (open' : Bool) (st : PmStep) (old new : List Word) (edge : BitVec 4) (cls : BitVec 3) (sel : BitVec 4) (n : Nat) : Bool :=
  match cls.toNat with
  | 0 => sel != 0#4 && open'
  | 1 =>
    if 4 ≤ sel.toNat then open'
    else sel.toNat != n && !(old.getD sel.toNat 0#32).getLsbD 31 &&
      (new.getD sel.toNat 0#32).getLsbD 31
  | 2 => if sel == 0#4 then !st.ints.isEmpty else open'
  | 3 => if sel.toNat < 8 then st.devnt.getLsbD sel.toNat else if sel == 8#4 then edge.getLsbD n else open'
  | 4 => st.wp.getLsbD sel.toNat
  | 5 => if sel.toNat < 14 then st.wp.getLsbD (16 + sel.toNat) else open'
  | _ => open'

/-- PMLCb of a counter after the trigger events of a step, under the trigger fields `b` that the step leaves; FAC and FC are those
at its beginning. Where the trigger-on and the trigger-off source are one, TRIGGERED becomes free when it occurs. That these
fields are the new ones in the step of an `mtpmr`, and that 'TRIGONSEL = TRIGOFFSEL' means equal control classes too, is the
model's choice (DESIGN CHOICE, log entry 36; 62_perfmon_power.md R2311, R2322). -/
def PerfMon.trigger (p : PerfMon) (st : PmStep) (rise fall : BitVec 4) (old new : List Word) (n : Fin 4) (b : Word) :
    Word :=
  if p.pmgc0.getLsbD 31 || (p.pmlca.get n).getLsbD 31 then b
  else
    let onC := b.extractLsb' 28 3
    let offC := b.extractLsb' 24 3
    let onS := b.extractLsb' 19 4
    let offS := b.extractLsb' 14 4
    let isOn := trigSource (Config.freeBit (st.free + 4 * n.val + 3)) st old new rise onC onS n.val
    let isOff := trigSource (Config.freeBit (st.free + 16 + n.val)) st old new fall offC offS n.val
    if isOn && isOff && onC == offC && onS == offS then putBits b 0x2000#32 (Config.freeBit (st.free + 4 * n.val + 2))
    else if isOn && !b.getLsbD 13 then b ||| 0x2000#32
    else if isOff && b.getLsbD 13 then b &&& ~~~0x2000#32
    else b

/-! The exception condition (62_perfmon_power.md R2331). -/

/-- An enabled condition or event holds. -/
def PerfMon.condition (p : PerfMon) : Bool :=
  p.tbEvent || counters.any fun n => (p.pmlca.get n).getLsbD 26 && (p.pmc.get n).getLsbD 31
/-- The Performance Monitor exception. -/
def PerfMon.pending (p : PerfMon) : Bool := p.condition && p.pmgc0.getLsbD 30
/-- PMGC0[FCECE] freezes the counters on an enabled condition. -/
def PerfMon.freeze (p : PerfMon) : PerfMon :=
  if p.condition && p.pmgc0.getLsbD 29 then { p with pmgc0 := p.pmgc0 ||| 0x80000000#32 } else p

/-- The counter bit PMLCa[PMP] watches (62_perfmon_power.md R2321). -/
def pmpBit (a : Word) : Nat := [0, 11, 17, 23, 27, 29, 30, 31].getD (a.extractLsb' 12 3).toNat 0
/-- The counter watchpoints 23 to 26 (61_debug.md R2236), where watchpoints can occur. -/
def pmWatchpoints (active : Bool) (old new : PerfMon) : BitVec 30 :=
  if !active then 0#30
  else counters.foldl (fun w n =>
    let k := pmpBit (new.pmlca.get n)
    if (old.pmc.get n).getMsbD k != (new.pmc.get n).getMsbD k then w ||| (1#30 <<< (23 + n.val)) else w) 0#30

/-- No counter can count and no condition can arise. -/
def PerfMon.quiet (p : PerfMon) : Bool :=
  p.pmgc0 == 0#32 && !p.tbEvent && counters.all fun n => p.pmlca.get n == 0#32 && p.pmlcb.get n == 0#32

/-- The performance monitor at the end of a step that began in `old` (its controls decide what counts), in a mode with
MSR[PR] and MSR[PMM]. A trigger sees an overflow bit that the instruction itself has set (62_perfmon_power.md R2322). -/
def State.countPerf (s : State) (old : PerfMon) (pr pmm : Bool) (st : PmStep) : State :=
  if old.quiet && s.pm.quiet && old.pmc == s.pm.pmc then s
  else
    let v := s.pm.pmc.toList
    let v' := old.count pr pmm st v
    let pm :=
      { s.pm with
        pmc := vmap4 fun n => v'.getD n 0#32
        pmlcb := Vector.ofFn fun n => old.trigger st s.ev.qualRise s.ev.qualFall old.pmc.toList v' n (s.pm.pmlcb.get n) }
    { s with
      pm := pm.freeze
      ev := { s.ev with wp := (s.ev.wp &&& ~~~0x07800000#30) ||| pmWatchpoints s.debugOn old pm }
      free := st.free + 24 }
where
  /-- A vector of four. -/
  vmap4 (f : Nat → Word) : Vector Word 4 := #v[f 0, f 1, f 2, f 3]

end Sys2Proof.Machine
end

