-- ==== Sys2Proof/Machine/Spe.lean ====
section
/-! DEFINITION. The shared operations of the SPE instructions (spec/47_spe_state_and_simple.md R1401 to R1408;
spec/48_spe_multiply_halfword.md R1482 to R1486; spec/49_spe_multiply_word_loadstore.md R1601 to R1605). -/

namespace Sys2Proof.Machine

/-! Elements of a register. -/

/-- The even halfword of the high element, bits 0:15 (48_spe_multiply_halfword.md R1482). -/
def evenH (d : DWord) : Half := d.extractLsb' 48 16
/-- The odd halfword of the high element, bits 16:31. -/
def oddH (d : DWord) : Half := d.extractLsb' 32 16
/-- The even halfword of the low element, bits 32:47. -/
def evenL (d : DWord) : Half := d.extractLsb' 16 16
/-- The odd halfword of the low element, bits 48:63. -/
def oddL (d : DWord) : Half := d.extractLsb' 0 16

/-- A word operation on both elements. -/
def each (f : Word → Word) (a : DWord) : DWord := f (hiW a) ++ f (loW a)
/-- A word operation on both pairs of elements. -/
def each2 (f : Word → Word → Word) (a b : DWord) : DWord := f (hiW a) (hiW b) ++ f (loW a) (loW b)

/-! Products (48_spe_multiply_halfword.md R1483, R1485). -/

def mulSI16 (a b : Half) : Word := a.signExtend 32 * b.signExtend 32
def mulUI16 (a b : Half) : Word := a.zeroExtend 32 * b.zeroExtend 32
def mulSF16 (a b : Half) : Word := mulSI16 a b <<< 1
/-- The saturating fractional product, and whether it saturated. -/
def mulSSF16 (a b : Half) : Word × Bool :=
  if a == 0x8000#16 && b == 0x8000#16 then (0x7FFFFFFF#32, true) else (mulSF16 a b, false)
def mulSF32 (a b : Word) : DWord := mulSigned a b <<< 1
/-- The saturating fractional product of words, and whether it saturated. -/
def mulSSF32 (a b : Word) : DWord × Bool :=
  if a == 0x80000000#32 && b == 0x80000000#32 then (0x7FFFFFFFFFFFFFFF#64, true) else (mulSF32 a b, false)
/-- The high word of the saturating fractional product, and whether it saturated. -/
def mulHSSF32 (a b : Word) : Word × Bool :=
  if a == 0x80000000#32 && b == 0x80000000#32 then (0x7FFFFFFF#32, true) else (hiW (mulSF32 a b), false)
/-- The guarded fractional product: 33 bits, sign-extended (48_spe_multiply_halfword.md R1500). -/
def guardSF (a b : Half) : DWord := (mulSI16 a b).signExtend 64 <<< 1
def guardSI (a b : Half) : DWord := (mulSI16 a b).signExtend 64
def guardUI (a b : Half) : DWord := (mulUI16 a b).zeroExtend 64

/-! Saturation (48_spe_multiply_halfword.md R1484). -/

/-- An integer as a signed number of `w` bits, saturated, and whether it was. -/
def satSigned (w : Nat) (r : Int) : BitVec w × Bool :=
  if 2 ^ (w - 1) ≤ r then (BitVec.ofInt w (2 ^ (w - 1) - 1), true)
  else if r < -(2 ^ (w - 1)) then (BitVec.ofInt w (-(2 ^ (w - 1))), true)
  else (BitVec.ofInt w r, false)

def satAddS32 (a b : Word) : Word × Bool := satSigned 32 (a.toInt + b.toInt)
def satSubS32 (a b : Word) : Word × Bool := satSigned 32 (a.toInt - b.toInt)
def satAddU32 (a b : Word) : Word × Bool :=
  if 2 ^ 32 ≤ a.toNat + b.toNat then (0xFFFFFFFF#32, true) else (a + b, false)
def satSubU32 (a b : Word) : Word × Bool := if a.toNat < b.toNat then (0#32, true) else (a - b, false)
def satAddS64 (a b : DWord) : DWord × Bool := satSigned 64 (a.toInt + b.toInt)
def satSubS64 (a b : DWord) : DWord × Bool := satSigned 64 (a.toInt - b.toInt)

/-! Writing results. -/

/-- `SetOV` (47_spe_state_and_simple.md R1401). -/
def setOv (f : Word) (h l : Bool) : Word :=
  (f &&& ~~~0x40004000#32) ||| (if h then 0xC0000000#32 else 0#32) ||| (if l then 0x0000C000#32 else 0#32)

/-- The accumulator replaced, when the form does so. -/
def State.putAcc (s : State) (toAcc : Bool) (v : DWord) : State := if toAcc then { s with acc := v } else s

/-- An SPE result in a register, and in the accumulator when the form says so. -/
def State.speWrite (s : State) (rd : Gpr) (v : DWord) (toAcc : Bool) : State := ((s.putAcc toAcc v).setGprD rd v).advance 4

/-- An SPE instruction that only writes a register (47_spe_state_and_simple.md R1403, R1406). -/
def State.spe (s : State) (rd : Gpr) (v : DWord) : Host.Outcome State Fault Refusal :=
  speAvail s fun s => .next (s.speWrite rd v false)

/-- An SPE instruction that writes a register, SPEFSCR's overflow bits and maybe the accumulator. -/
def State.speOv (s : State) (rd : Gpr) (v : DWord) (h l toAcc : Bool) : Host.Outcome State Fault Refusal :=
  speAvail s fun s => .next ({ s with spefscr := setOv s.spefscr h l }.speWrite rd v toAcc)

/-- A vector compare (47_spe_state_and_simple.md R1408). -/
def State.speCompare (s : State) (crf : CrField) (h l : Bool) : Host.Outcome State Fault Refusal :=
  speAvail s fun s => .next (s.resultCr 4 crf (crBits h l (h || l) (h && l)))

/-- A modulo product in a register and maybe the accumulator (48_spe_multiply_halfword.md R1486). -/
def State.speMul (s : State) (rd : Gpr) (v : DWord) (toAcc : Bool) : Host.Outcome State Fault Refusal :=
  speAvail s fun s => .next (s.speWrite rd v toAcc)

/-- A saturating product of both elements. -/
def State.speMulSat (s : State) (rd : Gpr) (h l : Word × Bool) (toAcc : Bool) : Host.Outcome State Fault Refusal :=
  s.speOv rd (h.1 ++ l.1) h.2 l.2 toAcc

/-- Both elements combined with those of the accumulator, modulo. -/
def State.speAcc (s : State) (rd : Gpr) (f : Word → Word → Word) (h l : Word) : Host.Outcome State Fault Refusal :=
  s.speMul rd (f (hiW s.acc) h ++ f (loW s.acc) l) true

/-- Both elements combined with those of the accumulator, saturated; `mh` and `ml` say that a product saturated. -/
def State.speAccSat (s : State) (rd : Gpr) (f : Word → Word → Word × Bool) (h l : Word × Bool) :
    Host.Outcome State Fault Refusal :=
  let vh := f (hiW s.acc) h.1
  let vl := f (loW s.acc) l.1
  s.speOv rd (vh.1 ++ vl.1) (h.2 || vh.2) (l.2 || vl.2) true

/-- A saturating doubleword result: OVH is written 0 and SOVH stays (48_spe_multiply_halfword.md R1486). -/
def State.speSat64 (s : State) (rd : Gpr) (v : DWord) (ov toAcc : Bool) : Host.Outcome State Fault Refusal :=
  s.speOv rd v false ov toAcc

/-! Bit counting and division. -/

/-- The number of leading bits equal to the first (47_spe_state_and_simple.md R1421). -/
def clsWord (w : Word) : Word := BitVec.ofNat 32 (clz32 (if w.msb then ~~~w else w))
/-- The number of leading zeros (47_spe_state_and_simple.md R1422). -/
def clzWord (w : Word) : Word := BitVec.ofNat 32 (clz32 w)

/-- A signed element quotient and its overflow (47_spe_state_and_simple.md R1423). -/
def divElemS (a b : Word) : Word × Bool :=
  if b == 0#32 then (if a.msb then 0x80000000#32 else 0x7FFFFFFF#32, true)
  else if a == 0x80000000#32 && b == 0xFFFFFFFF#32 then (0x7FFFFFFF#32, true)
  else (quotSigned a b, false)
/-- An unsigned element quotient and its overflow (47_spe_state_and_simple.md R1424). -/
def divElemU (a b : Word) : Word × Bool := if b == 0#32 then (0xFFFFFFFF#32, true) else (quotUnsigned a b, false)

/-- The bits of a halfword in reverse order. -/
def reverse16 (h : Half) : Half := h.reverse

/-- The increment of `brinc` (47_spe_state_and_simple.md R1410). -/
def bitRevInc (a mask : Half) : Half := reverse16 (1#16 + reverse16 (a ||| ~~~mask)) &&& mask

/-! Loads and stores (49_spe_multiply_word_loadstore.md R1601 to R1605): `n` bytes in elements of `el`. -/

/-- The parameter SPE_ALIGN of a form with accesses of `n` bytes (92_eei_decisions.md D20). -/
def Pins.speBoundary (p : Pins) (form : SpeForm) (n : Nat) : Nat :=
  match p.speAlign.find? fun q => q.1 == form with
  | none => n
  | some (_, .two) => 2
  | some (_, .four) => 4
  | some (_, .eight) => 8

/-- An SPE load into a whole register. -/
def State.speLoad (s : State) (form : SpeForm) (n el : Nat) (rd : Gpr) (f : List Byte → DWord) (ea : Word) :
    Host.Outcome State Fault Refusal :=
  speAvail s fun s =>
    if aligned ea (s.pins.speBoundary form n) then
      (s.load esrSpe ea n el).finish fun b s => (s.setGprD rd (f b)).advance 4
    else .next (raiseAlignment ea esrSpe s)

/-- An SPE store of the bytes of its elements. -/
def State.speStore (s : State) (form : SpeForm) (el : Nat) (b : List Byte) (ea : Word) :
    Host.Outcome State Fault Refusal :=
  speAvail s fun s =>
    if aligned ea (s.pins.speBoundary form b.length) then (s.store esrSpe ea el b).finish fun _ s => s.advance 4
    else .next (raiseAlignment ea (esrSpe ||| esrSt) s)

/-- The `k`th halfword of loaded bytes. -/
def halfAt (b : List Byte) (k : Nat) : Half := BitVec.ofNat 16 (bytesNat ((b.drop (2 * k)).take 2))

/-- A halfword in the even places, zeros in the odd ones. -/
def evens (h l : Half) : DWord := h ++ 0#16 ++ l ++ 0#16
/-- A halfword in the odd places, zeros in the even ones. -/
def odds (h l : Half) : DWord := 0#16 ++ h ++ 0#16 ++ l
/-- Halfwords sign-extended to the elements. -/
def oddsSigned (h l : Half) : DWord := h.signExtend 32 ++ l.signExtend 32

end Sys2Proof.Machine
end

