-- ==== Sys2Proof/Machine/SpeHalf.lean ====
section
/-! DEFINITION. The SPE multiplies of halfwords (spec/48_spe_multiply_halfword.md R1500 to R1551). -/

namespace Sys2Proof.Machine

/-- `evmhegsmfaa` (48_spe_multiply_halfword.md R1500). -/
def execEvmhegsmfaa (rd ra rb : Gpr) (s : State) : Host.Outcome State Fault Refusal :=
  s.speMul rd (s.acc + guardSF (evenL (s.gprD ra)) (evenL (s.gprD rb))) true

/-- `evmhegsmfan` (48_spe_multiply_halfword.md R1501). -/
def execEvmhegsmfan (rd ra rb : Gpr) (s : State) : Host.Outcome State Fault Refusal :=
  s.speMul rd (s.acc - guardSF (evenL (s.gprD ra)) (evenL (s.gprD rb))) true

/-- `evmhegsmiaa` (48_spe_multiply_halfword.md R1502). -/
def execEvmhegsmiaa (rd ra rb : Gpr) (s : State) : Host.Outcome State Fault Refusal :=
  s.speMul rd (s.acc + guardSI (evenL (s.gprD ra)) (evenL (s.gprD rb))) true

/-- `evmhegsmian` (48_spe_multiply_halfword.md R1503). -/
def execEvmhegsmian (rd ra rb : Gpr) (s : State) : Host.Outcome State Fault Refusal :=
  s.speMul rd (s.acc - guardSI (evenL (s.gprD ra)) (evenL (s.gprD rb))) true

/-- `evmhegumiaa` (48_spe_multiply_halfword.md R1504). -/
def execEvmhegumiaa (rd ra rb : Gpr) (s : State) : Host.Outcome State Fault Refusal :=
  s.speMul rd (s.acc + guardUI (evenL (s.gprD ra)) (evenL (s.gprD rb))) true

/-- `evmhegumian` (48_spe_multiply_halfword.md R1505). -/
def execEvmhegumian (rd ra rb : Gpr) (s : State) : Host.Outcome State Fault Refusal :=
  s.speMul rd (s.acc - guardUI (evenL (s.gprD ra)) (evenL (s.gprD rb))) true

/-- `evmhesmf` (48_spe_multiply_halfword.md R1506). -/
def execEvmhesmf (rd ra rb : Gpr) (s : State) : Host.Outcome State Fault Refusal :=
  s.speMul rd (mulSF16 (evenH (s.gprD ra)) (evenH (s.gprD rb)) ++ mulSF16 (evenL (s.gprD ra)) (evenL (s.gprD rb)))
    false

/-- `evmhesmfa` (48_spe_multiply_halfword.md R1507). -/
def execEvmhesmfa (rd ra rb : Gpr) (s : State) : Host.Outcome State Fault Refusal :=
  s.speMul rd (mulSF16 (evenH (s.gprD ra)) (evenH (s.gprD rb)) ++ mulSF16 (evenL (s.gprD ra)) (evenL (s.gprD rb)))
    true

/-- `evmhesmfaaw` (48_spe_multiply_halfword.md R1514). -/
def execEvmhesmfaaw (rd ra rb : Gpr) (s : State) : Host.Outcome State Fault Refusal :=
  s.speAcc rd (· + ·) (mulSF16 (evenH (s.gprD ra)) (evenH (s.gprD rb)))
    (mulSF16 (evenL (s.gprD ra)) (evenL (s.gprD rb)))

/-- `evmhesmfanw` (48_spe_multiply_halfword.md R1515). -/
def execEvmhesmfanw (rd ra rb : Gpr) (s : State) : Host.Outcome State Fault Refusal :=
  s.speAcc rd (· - ·) (mulSF16 (evenH (s.gprD ra)) (evenH (s.gprD rb)))
    (mulSF16 (evenL (s.gprD ra)) (evenL (s.gprD rb)))

/-- `evmhesmi` (48_spe_multiply_halfword.md R1508). -/
def execEvmhesmi (rd ra rb : Gpr) (s : State) : Host.Outcome State Fault Refusal :=
  s.speMul rd (mulSI16 (evenH (s.gprD ra)) (evenH (s.gprD rb)) ++ mulSI16 (evenL (s.gprD ra)) (evenL (s.gprD rb)))
    false

/-- `evmhesmia` (48_spe_multiply_halfword.md R1509). -/
def execEvmhesmia (rd ra rb : Gpr) (s : State) : Host.Outcome State Fault Refusal :=
  s.speMul rd (mulSI16 (evenH (s.gprD ra)) (evenH (s.gprD rb)) ++ mulSI16 (evenL (s.gprD ra)) (evenL (s.gprD rb)))
    true

/-- `evmhesmiaaw` (48_spe_multiply_halfword.md R1516). -/
def execEvmhesmiaaw (rd ra rb : Gpr) (s : State) : Host.Outcome State Fault Refusal :=
  s.speAcc rd (· + ·) (mulSI16 (evenH (s.gprD ra)) (evenH (s.gprD rb)))
    (mulSI16 (evenL (s.gprD ra)) (evenL (s.gprD rb)))

/-- `evmhesmianw` (48_spe_multiply_halfword.md R1517). -/
def execEvmhesmianw (rd ra rb : Gpr) (s : State) : Host.Outcome State Fault Refusal :=
  s.speAcc rd (· - ·) (mulSI16 (evenH (s.gprD ra)) (evenH (s.gprD rb)))
    (mulSI16 (evenL (s.gprD ra)) (evenL (s.gprD rb)))

/-- `evmheumi` (48_spe_multiply_halfword.md R1512). -/
def execEvmheumi (rd ra rb : Gpr) (s : State) : Host.Outcome State Fault Refusal :=
  s.speMul rd (mulUI16 (evenH (s.gprD ra)) (evenH (s.gprD rb)) ++ mulUI16 (evenL (s.gprD ra)) (evenL (s.gprD rb)))
    false

/-- `evmheumia` (48_spe_multiply_halfword.md R1513). -/
def execEvmheumia (rd ra rb : Gpr) (s : State) : Host.Outcome State Fault Refusal :=
  s.speMul rd (mulUI16 (evenH (s.gprD ra)) (evenH (s.gprD rb)) ++ mulUI16 (evenL (s.gprD ra)) (evenL (s.gprD rb)))
    true

/-- `evmheumiaaw` (48_spe_multiply_halfword.md R1522). -/
def execEvmheumiaaw (rd ra rb : Gpr) (s : State) : Host.Outcome State Fault Refusal :=
  s.speAcc rd (· + ·) (mulUI16 (evenH (s.gprD ra)) (evenH (s.gprD rb)))
    (mulUI16 (evenL (s.gprD ra)) (evenL (s.gprD rb)))

/-- `evmheumianw` (48_spe_multiply_halfword.md R1523). -/
def execEvmheumianw (rd ra rb : Gpr) (s : State) : Host.Outcome State Fault Refusal :=
  s.speAcc rd (· - ·) (mulUI16 (evenH (s.gprD ra)) (evenH (s.gprD rb)))
    (mulUI16 (evenL (s.gprD ra)) (evenL (s.gprD rb)))

/-- `evmhessf` (48_spe_multiply_halfword.md R1510). -/
def execEvmhessf (rd ra rb : Gpr) (s : State) : Host.Outcome State Fault Refusal :=
  s.speMulSat rd (mulSSF16 (evenH (s.gprD ra)) (evenH (s.gprD rb))) (mulSSF16 (evenL (s.gprD ra)) (evenL (s.gprD rb)))
    false

/-- `evmhessfa` (48_spe_multiply_halfword.md R1511). -/
def execEvmhessfa (rd ra rb : Gpr) (s : State) : Host.Outcome State Fault Refusal :=
  s.speMulSat rd (mulSSF16 (evenH (s.gprD ra)) (evenH (s.gprD rb))) (mulSSF16 (evenL (s.gprD ra)) (evenL (s.gprD rb)))
    true

/-- `evmhessfaaw` (48_spe_multiply_halfword.md R1518). -/
def execEvmhessfaaw (rd ra rb : Gpr) (s : State) : Host.Outcome State Fault Refusal :=
  s.speAccSat rd satAddS32 (mulSSF16 (evenH (s.gprD ra)) (evenH (s.gprD rb)))
    (mulSSF16 (evenL (s.gprD ra)) (evenL (s.gprD rb)))

/-- `evmhessfanw` (48_spe_multiply_halfword.md R1519). -/
def execEvmhessfanw (rd ra rb : Gpr) (s : State) : Host.Outcome State Fault Refusal :=
  s.speAccSat rd satSubS32 (mulSSF16 (evenH (s.gprD ra)) (evenH (s.gprD rb)))
    (mulSSF16 (evenL (s.gprD ra)) (evenL (s.gprD rb)))

/-- `evmhessiaaw` (48_spe_multiply_halfword.md R1520). -/
def execEvmhessiaaw (rd ra rb : Gpr) (s : State) : Host.Outcome State Fault Refusal :=
  s.speAccSat rd satAddS32 (mulSI16 (evenH (s.gprD ra)) (evenH (s.gprD rb)), false)
    (mulSI16 (evenL (s.gprD ra)) (evenL (s.gprD rb)), false)

/-- `evmhessianw` (48_spe_multiply_halfword.md R1521). -/
def execEvmhessianw (rd ra rb : Gpr) (s : State) : Host.Outcome State Fault Refusal :=
  s.speAccSat rd satSubS32 (mulSI16 (evenH (s.gprD ra)) (evenH (s.gprD rb)), false)
    (mulSI16 (evenL (s.gprD ra)) (evenL (s.gprD rb)), false)

/-- `evmheusiaaw` (48_spe_multiply_halfword.md R1524). -/
def execEvmheusiaaw (rd ra rb : Gpr) (s : State) : Host.Outcome State Fault Refusal :=
  s.speAccSat rd satAddU32 (mulUI16 (evenH (s.gprD ra)) (evenH (s.gprD rb)), false)
    (mulUI16 (evenL (s.gprD ra)) (evenL (s.gprD rb)), false)

/-- `evmheusianw` (48_spe_multiply_halfword.md R1525). -/
def execEvmheusianw (rd ra rb : Gpr) (s : State) : Host.Outcome State Fault Refusal :=
  s.speAccSat rd satSubU32 (mulUI16 (evenH (s.gprD ra)) (evenH (s.gprD rb)), false)
    (mulUI16 (evenL (s.gprD ra)) (evenL (s.gprD rb)), false)

/-- `evmhogsmfaa` (48_spe_multiply_halfword.md R1526). -/
def execEvmhogsmfaa (rd ra rb : Gpr) (s : State) : Host.Outcome State Fault Refusal :=
  s.speMul rd (s.acc + guardSF (oddL (s.gprD ra)) (oddL (s.gprD rb))) true

/-- `evmhogsmfan` (48_spe_multiply_halfword.md R1527). -/
def execEvmhogsmfan (rd ra rb : Gpr) (s : State) : Host.Outcome State Fault Refusal :=
  s.speMul rd (s.acc - guardSF (oddL (s.gprD ra)) (oddL (s.gprD rb))) true

/-- `evmhogsmiaa` (48_spe_multiply_halfword.md R1528). -/
def execEvmhogsmiaa (rd ra rb : Gpr) (s : State) : Host.Outcome State Fault Refusal :=
  s.speMul rd (s.acc + guardSI (oddL (s.gprD ra)) (oddL (s.gprD rb))) true

/-- `evmhogsmian` (48_spe_multiply_halfword.md R1529). -/
def execEvmhogsmian (rd ra rb : Gpr) (s : State) : Host.Outcome State Fault Refusal :=
  s.speMul rd (s.acc - guardSI (oddL (s.gprD ra)) (oddL (s.gprD rb))) true

/-- `evmhogumiaa` (48_spe_multiply_halfword.md R1530). -/
def execEvmhogumiaa (rd ra rb : Gpr) (s : State) : Host.Outcome State Fault Refusal :=
  s.speMul rd (s.acc + guardUI (oddL (s.gprD ra)) (oddL (s.gprD rb))) true

/-- `evmhogumian` (48_spe_multiply_halfword.md R1531). -/
def execEvmhogumian (rd ra rb : Gpr) (s : State) : Host.Outcome State Fault Refusal :=
  s.speMul rd (s.acc - guardUI (oddL (s.gprD ra)) (oddL (s.gprD rb))) true

/-- `evmhosmf` (48_spe_multiply_halfword.md R1532). -/
def execEvmhosmf (rd ra rb : Gpr) (s : State) : Host.Outcome State Fault Refusal :=
  s.speMul rd (mulSF16 (oddH (s.gprD ra)) (oddH (s.gprD rb)) ++ mulSF16 (oddL (s.gprD ra)) (oddL (s.gprD rb))) false

/-- `evmhosmfa` (48_spe_multiply_halfword.md R1533). -/
def execEvmhosmfa (rd ra rb : Gpr) (s : State) : Host.Outcome State Fault Refusal :=
  s.speMul rd (mulSF16 (oddH (s.gprD ra)) (oddH (s.gprD rb)) ++ mulSF16 (oddL (s.gprD ra)) (oddL (s.gprD rb))) true

/-- `evmhosmfaaw` (48_spe_multiply_halfword.md R1540). -/
def execEvmhosmfaaw (rd ra rb : Gpr) (s : State) : Host.Outcome State Fault Refusal :=
  s.speAcc rd (· + ·) (mulSF16 (oddH (s.gprD ra)) (oddH (s.gprD rb))) (mulSF16 (oddL (s.gprD ra)) (oddL (s.gprD rb)))

/-- `evmhosmfanw` (48_spe_multiply_halfword.md R1541). -/
def execEvmhosmfanw (rd ra rb : Gpr) (s : State) : Host.Outcome State Fault Refusal :=
  s.speAcc rd (· - ·) (mulSF16 (oddH (s.gprD ra)) (oddH (s.gprD rb))) (mulSF16 (oddL (s.gprD ra)) (oddL (s.gprD rb)))

/-- `evmhosmi` (48_spe_multiply_halfword.md R1534). -/
def execEvmhosmi (rd ra rb : Gpr) (s : State) : Host.Outcome State Fault Refusal :=
  s.speMul rd (mulSI16 (oddH (s.gprD ra)) (oddH (s.gprD rb)) ++ mulSI16 (oddL (s.gprD ra)) (oddL (s.gprD rb))) false

/-- `evmhosmia` (48_spe_multiply_halfword.md R1535). -/
def execEvmhosmia (rd ra rb : Gpr) (s : State) : Host.Outcome State Fault Refusal :=
  s.speMul rd (mulSI16 (oddH (s.gprD ra)) (oddH (s.gprD rb)) ++ mulSI16 (oddL (s.gprD ra)) (oddL (s.gprD rb))) true

/-- `evmhosmiaaw` (48_spe_multiply_halfword.md R1542). -/
def execEvmhosmiaaw (rd ra rb : Gpr) (s : State) : Host.Outcome State Fault Refusal :=
  s.speAcc rd (· + ·) (mulSI16 (oddH (s.gprD ra)) (oddH (s.gprD rb))) (mulSI16 (oddL (s.gprD ra)) (oddL (s.gprD rb)))

/-- `evmhosmianw` (48_spe_multiply_halfword.md R1543). -/
def execEvmhosmianw (rd ra rb : Gpr) (s : State) : Host.Outcome State Fault Refusal :=
  s.speAcc rd (· - ·) (mulSI16 (oddH (s.gprD ra)) (oddH (s.gprD rb))) (mulSI16 (oddL (s.gprD ra)) (oddL (s.gprD rb)))

/-- `evmhoumi` (48_spe_multiply_halfword.md R1538). -/
def execEvmhoumi (rd ra rb : Gpr) (s : State) : Host.Outcome State Fault Refusal :=
  s.speMul rd (mulUI16 (oddH (s.gprD ra)) (oddH (s.gprD rb)) ++ mulUI16 (oddL (s.gprD ra)) (oddL (s.gprD rb))) false

/-- `evmhoumia` (48_spe_multiply_halfword.md R1539). -/
def execEvmhoumia (rd ra rb : Gpr) (s : State) : Host.Outcome State Fault Refusal :=
  s.speMul rd (mulUI16 (oddH (s.gprD ra)) (oddH (s.gprD rb)) ++ mulUI16 (oddL (s.gprD ra)) (oddL (s.gprD rb))) true

/-- `evmhoumiaaw` (48_spe_multiply_halfword.md R1548). -/
def execEvmhoumiaaw (rd ra rb : Gpr) (s : State) : Host.Outcome State Fault Refusal :=
  s.speAcc rd (· + ·) (mulUI16 (oddH (s.gprD ra)) (oddH (s.gprD rb))) (mulUI16 (oddL (s.gprD ra)) (oddL (s.gprD rb)))

/-- `evmhoumianw` (48_spe_multiply_halfword.md R1549). -/
def execEvmhoumianw (rd ra rb : Gpr) (s : State) : Host.Outcome State Fault Refusal :=
  s.speAcc rd (· - ·) (mulUI16 (oddH (s.gprD ra)) (oddH (s.gprD rb))) (mulUI16 (oddL (s.gprD ra)) (oddL (s.gprD rb)))

/-- `evmhossf` (48_spe_multiply_halfword.md R1536). -/
def execEvmhossf (rd ra rb : Gpr) (s : State) : Host.Outcome State Fault Refusal :=
  s.speMulSat rd (mulSSF16 (oddH (s.gprD ra)) (oddH (s.gprD rb))) (mulSSF16 (oddL (s.gprD ra)) (oddL (s.gprD rb)))
    false

/-- `evmhossfa` (48_spe_multiply_halfword.md R1537). -/
def execEvmhossfa (rd ra rb : Gpr) (s : State) : Host.Outcome State Fault Refusal :=
  s.speMulSat rd (mulSSF16 (oddH (s.gprD ra)) (oddH (s.gprD rb))) (mulSSF16 (oddL (s.gprD ra)) (oddL (s.gprD rb)))
    true

/-- `evmhossfaaw` (48_spe_multiply_halfword.md R1544). -/
def execEvmhossfaaw (rd ra rb : Gpr) (s : State) : Host.Outcome State Fault Refusal :=
  s.speAccSat rd satAddS32 (mulSSF16 (oddH (s.gprD ra)) (oddH (s.gprD rb)))
    (mulSSF16 (oddL (s.gprD ra)) (oddL (s.gprD rb)))

/-- `evmhossfanw` (48_spe_multiply_halfword.md R1545). -/
def execEvmhossfanw (rd ra rb : Gpr) (s : State) : Host.Outcome State Fault Refusal :=
  s.speAccSat rd satSubS32 (mulSSF16 (oddH (s.gprD ra)) (oddH (s.gprD rb)))
    (mulSSF16 (oddL (s.gprD ra)) (oddL (s.gprD rb)))

/-- `evmhossiaaw` (48_spe_multiply_halfword.md R1546). -/
def execEvmhossiaaw (rd ra rb : Gpr) (s : State) : Host.Outcome State Fault Refusal :=
  s.speAccSat rd satAddS32 (mulSI16 (oddH (s.gprD ra)) (oddH (s.gprD rb)), false)
    (mulSI16 (oddL (s.gprD ra)) (oddL (s.gprD rb)), false)

/-- `evmhossianw` (48_spe_multiply_halfword.md R1547). -/
def execEvmhossianw (rd ra rb : Gpr) (s : State) : Host.Outcome State Fault Refusal :=
  s.speAccSat rd satSubS32 (mulSI16 (oddH (s.gprD ra)) (oddH (s.gprD rb)), false)
    (mulSI16 (oddL (s.gprD ra)) (oddL (s.gprD rb)), false)

/-- `evmhousiaaw` (48_spe_multiply_halfword.md R1550). -/
def execEvmhousiaaw (rd ra rb : Gpr) (s : State) : Host.Outcome State Fault Refusal :=
  s.speAccSat rd satAddU32 (mulUI16 (oddH (s.gprD ra)) (oddH (s.gprD rb)), false)
    (mulUI16 (oddL (s.gprD ra)) (oddL (s.gprD rb)), false)

/-- `evmhousianw` (48_spe_multiply_halfword.md R1551). -/
def execEvmhousianw (rd ra rb : Gpr) (s : State) : Host.Outcome State Fault Refusal :=
  s.speAccSat rd satSubU32 (mulUI16 (oddH (s.gprD ra)) (oddH (s.gprD rb)), false)
    (mulUI16 (oddL (s.gprD ra)) (oddL (s.gprD rb)), false)

end Sys2Proof.Machine
end

