-- ==== Sys2Proof/Machine/SpeLoadStore.lean ====
section
/-! DEFINITION. The SPE loads and stores (spec/49_spe_multiply_word_loadstore.md R1610 to R1645). -/

namespace Sys2Proof.Machine

/-- `evldd` (49_spe_multiply_word_loadstore.md R1610). -/
def execEvldd (rd : Gpr) (uimm : BitVec 5) (ra : Gpr) (s : State) : Host.Outcome State Fault Refusal :=
  s.speLoad .evldd 8 8 rd bytesDWord (s.eaEv ra uimm 3)

/-- `evlddx` (49_spe_multiply_word_loadstore.md R1611). -/
def execEvlddx (rd ra rb : Gpr) (s : State) : Host.Outcome State Fault Refusal :=
  s.speLoad .evldd 8 8 rd bytesDWord (s.eaX ra rb)

/-- `evldw` (49_spe_multiply_word_loadstore.md R1612). -/
def execEvldw (rd : Gpr) (uimm : BitVec 5) (ra : Gpr) (s : State) : Host.Outcome State Fault Refusal :=
  s.speLoad .evldw 8 4 rd bytesDWord (s.eaEv ra uimm 3)

/-- `evldwx` (49_spe_multiply_word_loadstore.md R1613). -/
def execEvldwx (rd ra rb : Gpr) (s : State) : Host.Outcome State Fault Refusal :=
  s.speLoad .evldw 8 4 rd bytesDWord (s.eaX ra rb)

/-- `evldh` (49_spe_multiply_word_loadstore.md R1614). -/
def execEvldh (rd : Gpr) (uimm : BitVec 5) (ra : Gpr) (s : State) : Host.Outcome State Fault Refusal :=
  s.speLoad .evldh 8 2 rd bytesDWord (s.eaEv ra uimm 3)

/-- `evldhx` (49_spe_multiply_word_loadstore.md R1615). -/
def execEvldhx (rd ra rb : Gpr) (s : State) : Host.Outcome State Fault Refusal :=
  s.speLoad .evldh 8 2 rd bytesDWord (s.eaX ra rb)

/-- `evlhhesplat` (49_spe_multiply_word_loadstore.md R1616). -/
def execEvlhhesplat (rd : Gpr) (uimm : BitVec 5) (ra : Gpr) (s : State) : Host.Outcome State Fault Refusal :=
  s.speLoad .evlhhesplat 2 2 rd (fun b => evens (halfAt b 0) (halfAt b 0)) (s.eaEv ra uimm 1)

/-- `evlhhesplatx` (49_spe_multiply_word_loadstore.md R1617). -/
def execEvlhhesplatx (rd ra rb : Gpr) (s : State) : Host.Outcome State Fault Refusal :=
  s.speLoad .evlhhesplat 2 2 rd (fun b => evens (halfAt b 0) (halfAt b 0)) (s.eaX ra rb)

/-- `evlhhousplat` (49_spe_multiply_word_loadstore.md R1618). -/
def execEvlhhousplat (rd : Gpr) (uimm : BitVec 5) (ra : Gpr) (s : State) : Host.Outcome State Fault Refusal :=
  s.speLoad .evlhhousplat 2 2 rd (fun b => odds (halfAt b 0) (halfAt b 0)) (s.eaEv ra uimm 1)

/-- `evlhhousplatx` (49_spe_multiply_word_loadstore.md R1619). -/
def execEvlhhousplatx (rd ra rb : Gpr) (s : State) : Host.Outcome State Fault Refusal :=
  s.speLoad .evlhhousplat 2 2 rd (fun b => odds (halfAt b 0) (halfAt b 0)) (s.eaX ra rb)

/-- `evlhhossplat` (49_spe_multiply_word_loadstore.md R1620). -/
def execEvlhhossplat (rd : Gpr) (uimm : BitVec 5) (ra : Gpr) (s : State) : Host.Outcome State Fault Refusal :=
  s.speLoad .evlhhossplat 2 2 rd (fun b => oddsSigned (halfAt b 0) (halfAt b 0)) (s.eaEv ra uimm 1)

/-- `evlhhossplatx` (49_spe_multiply_word_loadstore.md R1621). -/
def execEvlhhossplatx (rd ra rb : Gpr) (s : State) : Host.Outcome State Fault Refusal :=
  s.speLoad .evlhhossplat 2 2 rd (fun b => oddsSigned (halfAt b 0) (halfAt b 0)) (s.eaX ra rb)

/-- `evlwhe` (49_spe_multiply_word_loadstore.md R1622). -/
def execEvlwhe (rd : Gpr) (uimm : BitVec 5) (ra : Gpr) (s : State) : Host.Outcome State Fault Refusal :=
  s.speLoad .evlwhe 4 2 rd (fun b => evens (halfAt b 0) (halfAt b 1)) (s.eaEv ra uimm 2)

/-- `evlwhex` (49_spe_multiply_word_loadstore.md R1623). -/
def execEvlwhex (rd ra rb : Gpr) (s : State) : Host.Outcome State Fault Refusal :=
  s.speLoad .evlwhe 4 2 rd (fun b => evens (halfAt b 0) (halfAt b 1)) (s.eaX ra rb)

/-- `evlwhou` (49_spe_multiply_word_loadstore.md R1624). -/
def execEvlwhou (rd : Gpr) (uimm : BitVec 5) (ra : Gpr) (s : State) : Host.Outcome State Fault Refusal :=
  s.speLoad .evlwhou 4 2 rd (fun b => odds (halfAt b 0) (halfAt b 1)) (s.eaEv ra uimm 2)

/-- `evlwhoux` (49_spe_multiply_word_loadstore.md R1625). -/
def execEvlwhoux (rd ra rb : Gpr) (s : State) : Host.Outcome State Fault Refusal :=
  s.speLoad .evlwhou 4 2 rd (fun b => odds (halfAt b 0) (halfAt b 1)) (s.eaX ra rb)

/-- `evlwhos` (49_spe_multiply_word_loadstore.md R1626). -/
def execEvlwhos (rd : Gpr) (uimm : BitVec 5) (ra : Gpr) (s : State) : Host.Outcome State Fault Refusal :=
  s.speLoad .evlwhos 4 2 rd (fun b => oddsSigned (halfAt b 0) (halfAt b 1)) (s.eaEv ra uimm 2)

/-- `evlwhosx` (49_spe_multiply_word_loadstore.md R1627). -/
def execEvlwhosx (rd ra rb : Gpr) (s : State) : Host.Outcome State Fault Refusal :=
  s.speLoad .evlwhos 4 2 rd (fun b => oddsSigned (halfAt b 0) (halfAt b 1)) (s.eaX ra rb)

/-- `evlwwsplat` (49_spe_multiply_word_loadstore.md R1628). -/
def execEvlwwsplat (rd : Gpr) (uimm : BitVec 5) (ra : Gpr) (s : State) : Host.Outcome State Fault Refusal :=
  s.speLoad .evlwwsplat 4 4 rd (fun b => bytesWord b ++ bytesWord b) (s.eaEv ra uimm 2)

/-- `evlwwsplatx` (49_spe_multiply_word_loadstore.md R1629). -/
def execEvlwwsplatx (rd ra rb : Gpr) (s : State) : Host.Outcome State Fault Refusal :=
  s.speLoad .evlwwsplat 4 4 rd (fun b => bytesWord b ++ bytesWord b) (s.eaX ra rb)

/-- `evlwhsplat` (49_spe_multiply_word_loadstore.md R1630). -/
def execEvlwhsplat (rd : Gpr) (uimm : BitVec 5) (ra : Gpr) (s : State) : Host.Outcome State Fault Refusal :=
  s.speLoad .evlwhsplat 4 2 rd (fun b => halfAt b 0 ++ halfAt b 0 ++ halfAt b 1 ++ halfAt b 1) (s.eaEv ra uimm 2)

/-- `evlwhsplatx` (49_spe_multiply_word_loadstore.md R1631). -/
def execEvlwhsplatx (rd ra rb : Gpr) (s : State) : Host.Outcome State Fault Refusal :=
  s.speLoad .evlwhsplat 4 2 rd (fun b => halfAt b 0 ++ halfAt b 0 ++ halfAt b 1 ++ halfAt b 1) (s.eaX ra rb)

/-- `evstdd` (49_spe_multiply_word_loadstore.md R1632). -/
def execEvstdd (rs : Gpr) (uimm : BitVec 5) (ra : Gpr) (s : State) : Host.Outcome State Fault Refusal :=
  s.speStore .evstdd 8 (dwordBytes (s.gprD rs)) (s.eaEv ra uimm 3)

/-- `evstddx` (49_spe_multiply_word_loadstore.md R1633). -/
def execEvstddx (rs ra rb : Gpr) (s : State) : Host.Outcome State Fault Refusal :=
  s.speStore .evstdd 8 (dwordBytes (s.gprD rs)) (s.eaX ra rb)

/-- `evstdw` (49_spe_multiply_word_loadstore.md R1634). -/
def execEvstdw (rs : Gpr) (uimm : BitVec 5) (ra : Gpr) (s : State) : Host.Outcome State Fault Refusal :=
  s.speStore .evstdw 4 (dwordBytes (s.gprD rs)) (s.eaEv ra uimm 3)

/-- `evstdwx` (49_spe_multiply_word_loadstore.md R1635). -/
def execEvstdwx (rs ra rb : Gpr) (s : State) : Host.Outcome State Fault Refusal :=
  s.speStore .evstdw 4 (dwordBytes (s.gprD rs)) (s.eaX ra rb)

/-- `evstdh` (49_spe_multiply_word_loadstore.md R1636). -/
def execEvstdh (rs : Gpr) (uimm : BitVec 5) (ra : Gpr) (s : State) : Host.Outcome State Fault Refusal :=
  s.speStore .evstdh 2 (dwordBytes (s.gprD rs)) (s.eaEv ra uimm 3)

/-- `evstdhx` (49_spe_multiply_word_loadstore.md R1637). -/
def execEvstdhx (rs ra rb : Gpr) (s : State) : Host.Outcome State Fault Refusal :=
  s.speStore .evstdh 2 (dwordBytes (s.gprD rs)) (s.eaX ra rb)

/-- `evstwhe` (49_spe_multiply_word_loadstore.md R1638). -/
def execEvstwhe (rs : Gpr) (uimm : BitVec 5) (ra : Gpr) (s : State) : Host.Outcome State Fault Refusal :=
  s.speStore .evstwhe 2 (halfBytes (evenH (s.gprD rs)) ++ halfBytes (evenL (s.gprD rs))) (s.eaEv ra uimm 2)

/-- `evstwhex` (49_spe_multiply_word_loadstore.md R1639). -/
def execEvstwhex (rs ra rb : Gpr) (s : State) : Host.Outcome State Fault Refusal :=
  s.speStore .evstwhe 2 (halfBytes (evenH (s.gprD rs)) ++ halfBytes (evenL (s.gprD rs))) (s.eaX ra rb)

/-- `evstwho` (49_spe_multiply_word_loadstore.md R1640). -/
def execEvstwho (rs : Gpr) (uimm : BitVec 5) (ra : Gpr) (s : State) : Host.Outcome State Fault Refusal :=
  s.speStore .evstwho 2 (halfBytes (oddH (s.gprD rs)) ++ halfBytes (oddL (s.gprD rs))) (s.eaEv ra uimm 2)

/-- `evstwhox` (49_spe_multiply_word_loadstore.md R1641). -/
def execEvstwhox (rs ra rb : Gpr) (s : State) : Host.Outcome State Fault Refusal :=
  s.speStore .evstwho 2 (halfBytes (oddH (s.gprD rs)) ++ halfBytes (oddL (s.gprD rs))) (s.eaX ra rb)

/-- `evstwwe` (49_spe_multiply_word_loadstore.md R1642). -/
def execEvstwwe (rs : Gpr) (uimm : BitVec 5) (ra : Gpr) (s : State) : Host.Outcome State Fault Refusal :=
  s.speStore .evstwwe 4 (wordBytes (s.gprH rs)) (s.eaEv ra uimm 2)

/-- `evstwwex` (49_spe_multiply_word_loadstore.md R1643). -/
def execEvstwwex (rs ra rb : Gpr) (s : State) : Host.Outcome State Fault Refusal :=
  s.speStore .evstwwe 4 (wordBytes (s.gprH rs)) (s.eaX ra rb)

/-- `evstwwo` (49_spe_multiply_word_loadstore.md R1644). -/
def execEvstwwo (rs : Gpr) (uimm : BitVec 5) (ra : Gpr) (s : State) : Host.Outcome State Fault Refusal :=
  s.speStore .evstwwo 4 (wordBytes (s.gprW rs)) (s.eaEv ra uimm 2)

/-- `evstwwox` (49_spe_multiply_word_loadstore.md R1645). -/
def execEvstwwox (rs ra rb : Gpr) (s : State) : Host.Outcome State Fault Refusal :=
  s.speStore .evstwwo 4 (wordBytes (s.gprW rs)) (s.eaX ra rb)

end Sys2Proof.Machine
end

