-- ==== Sys2Proof/Machine/SpeSimple.lean ====
section
/-! DEFINITION. The simple SPE instructions (spec/47_spe_state_and_simple.md R1410 to R1453). -/

namespace Sys2Proof.Machine

/-- `brinc` (47_spe_state_and_simple.md R1410): not gated by MSR[SPE]. -/
def execBrinc (rd ra rb : Gpr) (s : State) : Host.Outcome State Fault Refusal :=
  let a := s.gprW ra
  .next
    ((s.setGprW rd (a.extractLsb' 16 16 ++ bitRevInc (a.extractLsb' 0 16) ((s.gprW rb).extractLsb' 0 16))).advance 4)

/-- `evabs` (47_spe_state_and_simple.md R1411). -/
def execEvabs (rd ra : Gpr) (s : State) : Host.Outcome State Fault Refusal :=
  s.spe rd (each (fun v => if v.msb then -v else v) (s.gprD ra))

/-- `evaddiw` (47_spe_state_and_simple.md R1412). -/
def execEvaddiw (rd rb : Gpr) (uimm : BitVec 5) (s : State) : Host.Outcome State Fault Refusal :=
  s.spe rd (each (· + uimm.zeroExtend 32) (s.gprD rb))

/-- `evaddw` (47_spe_state_and_simple.md R1413). -/
def execEvaddw (rd ra rb : Gpr) (s : State) : Host.Outcome State Fault Refusal :=
  s.spe rd (each2 (· + ·) (s.gprD ra) (s.gprD rb))

/-- `evand` (47_spe_state_and_simple.md R1414). -/
def execEvand (rd ra rb : Gpr) (s : State) : Host.Outcome State Fault Refusal := s.spe rd (s.gprD ra &&& s.gprD rb)

/-- `evandc` (47_spe_state_and_simple.md R1415). -/
def execEvandc (rd ra rb : Gpr) (s : State) : Host.Outcome State Fault Refusal :=
  s.spe rd (s.gprD ra &&& ~~~s.gprD rb)

/-- `eveqv` (47_spe_state_and_simple.md R1425). -/
def execEveqv (rd ra rb : Gpr) (s : State) : Host.Outcome State Fault Refusal :=
  s.spe rd (~~~(s.gprD ra ^^^ s.gprD rb))

/-- `evnand` (47_spe_state_and_simple.md R1432). -/
def execEvnand (rd ra rb : Gpr) (s : State) : Host.Outcome State Fault Refusal :=
  s.spe rd (~~~(s.gprD ra &&& s.gprD rb))

/-- `evnor` (47_spe_state_and_simple.md R1434). -/
def execEvnor (rd ra rb : Gpr) (s : State) : Host.Outcome State Fault Refusal :=
  s.spe rd (~~~(s.gprD ra ||| s.gprD rb))

/-- `evor` (47_spe_state_and_simple.md R1435). -/
def execEvor (rd ra rb : Gpr) (s : State) : Host.Outcome State Fault Refusal := s.spe rd (s.gprD ra ||| s.gprD rb)

/-- `evorc` (47_spe_state_and_simple.md R1436). -/
def execEvorc (rd ra rb : Gpr) (s : State) : Host.Outcome State Fault Refusal := s.spe rd (s.gprD ra ||| ~~~s.gprD rb)

/-- `evxor` (47_spe_state_and_simple.md R1451). -/
def execEvxor (rd ra rb : Gpr) (s : State) : Host.Outcome State Fault Refusal := s.spe rd (s.gprD ra ^^^ s.gprD rb)

/-- `evcmpeq` (47_spe_state_and_simple.md R1416). -/
def execEvcmpeq (crf : CrField) (ra rb : Gpr) (s : State) : Host.Outcome State Fault Refusal :=
  s.speCompare crf ((s.gprH ra) == (s.gprH rb)) ((s.gprW ra) == (s.gprW rb))

/-- `evcmpgts` (47_spe_state_and_simple.md R1417). -/
def execEvcmpgts (crf : CrField) (ra rb : Gpr) (s : State) : Host.Outcome State Fault Refusal :=
  s.speCompare crf ((s.gprH rb).slt (s.gprH ra)) ((s.gprW rb).slt (s.gprW ra))

/-- `evcmpgtu` (47_spe_state_and_simple.md R1418). -/
def execEvcmpgtu (crf : CrField) (ra rb : Gpr) (s : State) : Host.Outcome State Fault Refusal :=
  s.speCompare crf ((s.gprH rb).ult (s.gprH ra)) ((s.gprW rb).ult (s.gprW ra))

/-- `evcmplts` (47_spe_state_and_simple.md R1419). -/
def execEvcmplts (crf : CrField) (ra rb : Gpr) (s : State) : Host.Outcome State Fault Refusal :=
  s.speCompare crf ((s.gprH ra).slt (s.gprH rb)) ((s.gprW ra).slt (s.gprW rb))

/-- `evcmpltu` (47_spe_state_and_simple.md R1420). -/
def execEvcmpltu (crf : CrField) (ra rb : Gpr) (s : State) : Host.Outcome State Fault Refusal :=
  s.speCompare crf ((s.gprH ra).ult (s.gprH rb)) ((s.gprW ra).ult (s.gprW rb))

/-- `evcntlsw` (47_spe_state_and_simple.md R1421). -/
def execEvcntlsw (rd ra : Gpr) (s : State) : Host.Outcome State Fault Refusal := s.spe rd (each clsWord (s.gprD ra))

/-- `evcntlzw` (47_spe_state_and_simple.md R1422). -/
def execEvcntlzw (rd ra : Gpr) (s : State) : Host.Outcome State Fault Refusal := s.spe rd (each clzWord (s.gprD ra))

/-- `evdivws` (47_spe_state_and_simple.md R1423). -/
def execEvdivws (rd ra rb : Gpr) (s : State) : Host.Outcome State Fault Refusal :=
  let h := divElemS (s.gprH ra) (s.gprH rb)
  let l := divElemS (s.gprW ra) (s.gprW rb)
  s.speOv rd (h.1 ++ l.1) h.2 l.2 false

/-- `evdivwu` (47_spe_state_and_simple.md R1424). -/
def execEvdivwu (rd ra rb : Gpr) (s : State) : Host.Outcome State Fault Refusal :=
  let h := divElemU (s.gprH ra) (s.gprH rb)
  let l := divElemU (s.gprW ra) (s.gprW rb)
  s.speOv rd (h.1 ++ l.1) h.2 l.2 false

/-- `evextsb` (47_spe_state_and_simple.md R1426). -/
def execEvextsb (rd ra : Gpr) (s : State) : Host.Outcome State Fault Refusal := s.spe rd (each byteS (s.gprD ra))

/-- `evextsh` (47_spe_state_and_simple.md R1427). -/
def execEvextsh (rd ra : Gpr) (s : State) : Host.Outcome State Fault Refusal := s.spe rd (each halfS (s.gprD ra))

/-- `evmergehi` (47_spe_state_and_simple.md R1428). -/
def execEvmergehi (rd ra rb : Gpr) (s : State) : Host.Outcome State Fault Refusal :=
  s.spe rd ((s.gprH ra) ++ (s.gprH rb))

/-- `evmergehilo` (47_spe_state_and_simple.md R1429). -/
def execEvmergehilo (rd ra rb : Gpr) (s : State) : Host.Outcome State Fault Refusal :=
  s.spe rd ((s.gprH ra) ++ (s.gprW rb))

/-- `evmergelo` (47_spe_state_and_simple.md R1430). -/
def execEvmergelo (rd ra rb : Gpr) (s : State) : Host.Outcome State Fault Refusal :=
  s.spe rd ((s.gprW ra) ++ (s.gprW rb))

/-- `evmergelohi` (47_spe_state_and_simple.md R1431). -/
def execEvmergelohi (rd ra rb : Gpr) (s : State) : Host.Outcome State Fault Refusal :=
  s.spe rd ((s.gprW ra) ++ (s.gprH rb))

/-- `evneg` (47_spe_state_and_simple.md R1433). -/
def execEvneg (rd ra : Gpr) (s : State) : Host.Outcome State Fault Refusal :=
  s.spe rd (each (fun v => -v) (s.gprD ra))

/-- `evrlw` (47_spe_state_and_simple.md R1437). -/
def execEvrlw (rd ra rb : Gpr) (s : State) : Host.Outcome State Fault Refusal :=
  s.spe rd (each2 (fun a b => rotl a (b.extractLsb' 0 5).toNat) (s.gprD ra) (s.gprD rb))

/-- `evrlwi` (47_spe_state_and_simple.md R1438). -/
def execEvrlwi (rd ra : Gpr) (uimm : BitVec 5) (s : State) : Host.Outcome State Fault Refusal :=
  s.spe rd (each (rotl · uimm.toNat) (s.gprD ra))

/-- `evrndw` (47_spe_state_and_simple.md R1439). -/
def execEvrndw (rd ra : Gpr) (s : State) : Host.Outcome State Fault Refusal :=
  s.spe rd (each (fun v => (v + 0x8000#32) &&& 0xFFFF0000#32) (s.gprD ra))

/-- `evsel` (47_spe_state_and_simple.md R1440). -/
def execEvsel (rd ra rb : Gpr) (crs : CrField) (s : State) : Host.Outcome State Fault Refusal :=
  let f := crField s.cr crs
  s.spe rd ((if f.getLsbD 3 then (s.gprH ra) else (s.gprH rb)) ++ (if f.getLsbD 2 then (s.gprW ra) else (s.gprW rb)))

/-- `evslw` (47_spe_state_and_simple.md R1441). -/
def execEvslw (rd ra rb : Gpr) (s : State) : Host.Outcome State Fault Refusal :=
  s.spe rd (each2 (fun a b => shiftLeft a (shiftAmount b)) (s.gprD ra) (s.gprD rb))

/-- `evslwi` (47_spe_state_and_simple.md R1442). -/
def execEvslwi (rd ra : Gpr) (uimm : BitVec 5) (s : State) : Host.Outcome State Fault Refusal :=
  s.spe rd (each (shiftLeft · uimm.toNat) (s.gprD ra))

/-- `evsplatfi` (47_spe_state_and_simple.md R1443). -/
def execEvsplatfi (rd : Gpr) (simm : BitVec 5) (s : State) : Host.Outcome State Fault Refusal :=
  s.spe rd (each (fun _ => simm ++ 0#27) 0#64)

/-- `evsplati` (47_spe_state_and_simple.md R1444). -/
def execEvsplati (rd : Gpr) (simm : BitVec 5) (s : State) : Host.Outcome State Fault Refusal :=
  s.spe rd (each (fun _ => simm.signExtend 32) 0#64)

/-- `evsrwis` (47_spe_state_and_simple.md R1445). -/
def execEvsrwis (rd ra : Gpr) (uimm : BitVec 5) (s : State) : Host.Outcome State Fault Refusal :=
  s.spe rd (each (shiftSigned · uimm.toNat) (s.gprD ra))

/-- `evsrwiu` (47_spe_state_and_simple.md R1446). -/
def execEvsrwiu (rd ra : Gpr) (uimm : BitVec 5) (s : State) : Host.Outcome State Fault Refusal :=
  s.spe rd (each (shiftRight · uimm.toNat) (s.gprD ra))

/-- `evsrws` (47_spe_state_and_simple.md R1447). -/
def execEvsrws (rd ra rb : Gpr) (s : State) : Host.Outcome State Fault Refusal :=
  s.spe rd (each2 (fun a b => shiftSigned a (shiftAmount b)) (s.gprD ra) (s.gprD rb))

/-- `evsrwu` (47_spe_state_and_simple.md R1448). -/
def execEvsrwu (rd ra rb : Gpr) (s : State) : Host.Outcome State Fault Refusal :=
  s.spe rd (each2 (fun a b => shiftRight a (shiftAmount b)) (s.gprD ra) (s.gprD rb))

/-- `evsubfw` (47_spe_state_and_simple.md R1449). -/
def execEvsubfw (rd ra rb : Gpr) (s : State) : Host.Outcome State Fault Refusal :=
  s.spe rd (each2 (fun a b => b - a) (s.gprD ra) (s.gprD rb))

/-- `evsubifw` (47_spe_state_and_simple.md R1450). -/
def execEvsubifw (rd : Gpr) (uimm : BitVec 5) (rb : Gpr) (s : State) : Host.Outcome State Fault Refusal :=
  s.spe rd (each (· - uimm.zeroExtend 32) (s.gprD rb))

/-- `evmra` (47_spe_state_and_simple.md R1453). -/
def execEvmra (rd ra : Gpr) (s : State) : Host.Outcome State Fault Refusal := s.speMul rd (s.gprD ra) true

end Sys2Proof.Machine
end

