-- ==== Sys2Proof/Machine/SpeWord.lean ====
section
/-! DEFINITION. The SPE multiplies of words and the accumulator additions (spec/49_spe_multiply_word_loadstore.md R1552 to
R1593). -/

namespace Sys2Proof.Machine

/-- `evmwhsmf` (49_spe_multiply_word_loadstore.md R1552). -/
def execEvmwhsmf (rd ra rb : Gpr) (s : State) : Host.Outcome State Fault Refusal :=
  s.speMul rd (hiW (mulSF32 (s.gprH ra) (s.gprH rb)) ++ hiW (mulSF32 (s.gprW ra) (s.gprW rb))) false

/-- `evmwhsmfa` (49_spe_multiply_word_loadstore.md R1553). -/
def execEvmwhsmfa (rd ra rb : Gpr) (s : State) : Host.Outcome State Fault Refusal :=
  s.speMul rd (hiW (mulSF32 (s.gprH ra) (s.gprH rb)) ++ hiW (mulSF32 (s.gprW ra) (s.gprW rb))) true

/-- `evmwhsmi` (49_spe_multiply_word_loadstore.md R1554). -/
def execEvmwhsmi (rd ra rb : Gpr) (s : State) : Host.Outcome State Fault Refusal :=
  s.speMul rd (hiW (mulSigned (s.gprH ra) (s.gprH rb)) ++ hiW (mulSigned (s.gprW ra) (s.gprW rb))) false

/-- `evmwhsmia` (49_spe_multiply_word_loadstore.md R1555). -/
def execEvmwhsmia (rd ra rb : Gpr) (s : State) : Host.Outcome State Fault Refusal :=
  s.speMul rd (hiW (mulSigned (s.gprH ra) (s.gprH rb)) ++ hiW (mulSigned (s.gprW ra) (s.gprW rb))) true

/-- `evmwhumi` (49_spe_multiply_word_loadstore.md R1558). -/
def execEvmwhumi (rd ra rb : Gpr) (s : State) : Host.Outcome State Fault Refusal :=
  s.speMul rd (hiW (mulUnsigned (s.gprH ra) (s.gprH rb)) ++ hiW (mulUnsigned (s.gprW ra) (s.gprW rb))) false

/-- `evmwhumia` (49_spe_multiply_word_loadstore.md R1559). -/
def execEvmwhumia (rd ra rb : Gpr) (s : State) : Host.Outcome State Fault Refusal :=
  s.speMul rd (hiW (mulUnsigned (s.gprH ra) (s.gprH rb)) ++ hiW (mulUnsigned (s.gprW ra) (s.gprW rb))) true

/-- `evmwlumi` (49_spe_multiply_word_loadstore.md R1560). -/
def execEvmwlumi (rd ra rb : Gpr) (s : State) : Host.Outcome State Fault Refusal :=
  s.speMul rd (loW (mulUnsigned (s.gprH ra) (s.gprH rb)) ++ loW (mulUnsigned (s.gprW ra) (s.gprW rb))) false

/-- `evmwlumia` (49_spe_multiply_word_loadstore.md R1561). -/
def execEvmwlumia (rd ra rb : Gpr) (s : State) : Host.Outcome State Fault Refusal :=
  s.speMul rd (loW (mulUnsigned (s.gprH ra) (s.gprH rb)) ++ loW (mulUnsigned (s.gprW ra) (s.gprW rb))) true

/-- `evmwhssf` (49_spe_multiply_word_loadstore.md R1556). -/
def execEvmwhssf (rd ra rb : Gpr) (s : State) : Host.Outcome State Fault Refusal :=
  s.speMulSat rd (mulHSSF32 (s.gprH ra) (s.gprH rb)) (mulHSSF32 (s.gprW ra) (s.gprW rb)) false

/-- `evmwhssfa` (49_spe_multiply_word_loadstore.md R1557). -/
def execEvmwhssfa (rd ra rb : Gpr) (s : State) : Host.Outcome State Fault Refusal :=
  s.speMulSat rd (mulHSSF32 (s.gprH ra) (s.gprH rb)) (mulHSSF32 (s.gprW ra) (s.gprW rb)) true

/-- `evmwlsmiaaw` (49_spe_multiply_word_loadstore.md R1562). -/
def execEvmwlsmiaaw (rd ra rb : Gpr) (s : State) : Host.Outcome State Fault Refusal :=
  s.speAcc rd (· + ·) (loW (mulUnsigned (s.gprH ra) (s.gprH rb))) (loW (mulUnsigned (s.gprW ra) (s.gprW rb)))

/-- `evmwlsmianw` (49_spe_multiply_word_loadstore.md R1563). -/
def execEvmwlsmianw (rd ra rb : Gpr) (s : State) : Host.Outcome State Fault Refusal :=
  s.speAcc rd (· - ·) (loW (mulUnsigned (s.gprH ra) (s.gprH rb))) (loW (mulUnsigned (s.gprW ra) (s.gprW rb)))

/-- `evmwlumiaaw` (49_spe_multiply_word_loadstore.md R1566). -/
def execEvmwlumiaaw (rd ra rb : Gpr) (s : State) : Host.Outcome State Fault Refusal :=
  s.speAcc rd (· + ·) (loW (mulUnsigned (s.gprH ra) (s.gprH rb))) (loW (mulUnsigned (s.gprW ra) (s.gprW rb)))

/-- `evmwlumianw` (49_spe_multiply_word_loadstore.md R1567). -/
def execEvmwlumianw (rd ra rb : Gpr) (s : State) : Host.Outcome State Fault Refusal :=
  s.speAcc rd (· - ·) (loW (mulUnsigned (s.gprH ra) (s.gprH rb))) (loW (mulUnsigned (s.gprW ra) (s.gprW rb)))

/-- `evmwlssiaaw` (49_spe_multiply_word_loadstore.md R1564). -/
def execEvmwlssiaaw (rd ra rb : Gpr) (s : State) : Host.Outcome State Fault Refusal :=
  s.speAccSat rd satAddS32 (loW (mulUnsigned (s.gprH ra) (s.gprH rb)), false)
    (loW (mulUnsigned (s.gprW ra) (s.gprW rb)), false)

/-- `evmwlssianw` (49_spe_multiply_word_loadstore.md R1565). -/
def execEvmwlssianw (rd ra rb : Gpr) (s : State) : Host.Outcome State Fault Refusal :=
  s.speAccSat rd satSubS32 (loW (mulUnsigned (s.gprH ra) (s.gprH rb)), false)
    (loW (mulUnsigned (s.gprW ra) (s.gprW rb)), false)

/-- `evmwlusiaaw` (49_spe_multiply_word_loadstore.md R1568). -/
def execEvmwlusiaaw (rd ra rb : Gpr) (s : State) : Host.Outcome State Fault Refusal :=
  s.speAccSat rd satAddU32 (loW (mulUnsigned (s.gprH ra) (s.gprH rb)), false)
    (loW (mulUnsigned (s.gprW ra) (s.gprW rb)), false)

/-- `evmwlusianw` (49_spe_multiply_word_loadstore.md R1569). -/
def execEvmwlusianw (rd ra rb : Gpr) (s : State) : Host.Outcome State Fault Refusal :=
  s.speAccSat rd satSubU32 (loW (mulUnsigned (s.gprH ra) (s.gprH rb)), false)
    (loW (mulUnsigned (s.gprW ra) (s.gprW rb)), false)

/-- `evmwsmf` (49_spe_multiply_word_loadstore.md R1570). -/
def execEvmwsmf (rd ra rb : Gpr) (s : State) : Host.Outcome State Fault Refusal :=
  s.speMul rd (mulSF32 (s.gprW ra) (s.gprW rb)) false

/-- `evmwsmfa` (49_spe_multiply_word_loadstore.md R1571). -/
def execEvmwsmfa (rd ra rb : Gpr) (s : State) : Host.Outcome State Fault Refusal :=
  s.speMul rd (mulSF32 (s.gprW ra) (s.gprW rb)) true

/-- `evmwsmfaa` (49_spe_multiply_word_loadstore.md R1572). -/
def execEvmwsmfaa (rd ra rb : Gpr) (s : State) : Host.Outcome State Fault Refusal :=
  s.speMul rd (s.acc + mulSF32 (s.gprW ra) (s.gprW rb)) true

/-- `evmwsmfan` (49_spe_multiply_word_loadstore.md R1573). -/
def execEvmwsmfan (rd ra rb : Gpr) (s : State) : Host.Outcome State Fault Refusal :=
  s.speMul rd (s.acc - mulSF32 (s.gprW ra) (s.gprW rb)) true

/-- `evmwsmi` (49_spe_multiply_word_loadstore.md R1574). -/
def execEvmwsmi (rd ra rb : Gpr) (s : State) : Host.Outcome State Fault Refusal :=
  s.speMul rd (mulSigned (s.gprW ra) (s.gprW rb)) false

/-- `evmwsmia` (49_spe_multiply_word_loadstore.md R1575). -/
def execEvmwsmia (rd ra rb : Gpr) (s : State) : Host.Outcome State Fault Refusal :=
  s.speMul rd (mulSigned (s.gprW ra) (s.gprW rb)) true

/-- `evmwsmiaa` (49_spe_multiply_word_loadstore.md R1576). -/
def execEvmwsmiaa (rd ra rb : Gpr) (s : State) : Host.Outcome State Fault Refusal :=
  s.speMul rd (s.acc + mulSigned (s.gprW ra) (s.gprW rb)) true

/-- `evmwsmian` (49_spe_multiply_word_loadstore.md R1577). -/
def execEvmwsmian (rd ra rb : Gpr) (s : State) : Host.Outcome State Fault Refusal :=
  s.speMul rd (s.acc - mulSigned (s.gprW ra) (s.gprW rb)) true

/-- `evmwumi` (49_spe_multiply_word_loadstore.md R1582). -/
def execEvmwumi (rd ra rb : Gpr) (s : State) : Host.Outcome State Fault Refusal :=
  s.speMul rd (mulUnsigned (s.gprW ra) (s.gprW rb)) false

/-- `evmwumia` (49_spe_multiply_word_loadstore.md R1583). -/
def execEvmwumia (rd ra rb : Gpr) (s : State) : Host.Outcome State Fault Refusal :=
  s.speMul rd (mulUnsigned (s.gprW ra) (s.gprW rb)) true

/-- `evmwumiaa` (49_spe_multiply_word_loadstore.md R1584). -/
def execEvmwumiaa (rd ra rb : Gpr) (s : State) : Host.Outcome State Fault Refusal :=
  s.speMul rd (s.acc + mulUnsigned (s.gprW ra) (s.gprW rb)) true

/-- `evmwumian` (49_spe_multiply_word_loadstore.md R1585). -/
def execEvmwumian (rd ra rb : Gpr) (s : State) : Host.Outcome State Fault Refusal :=
  s.speMul rd (s.acc - mulUnsigned (s.gprW ra) (s.gprW rb)) true

/-- `evmwssf` (49_spe_multiply_word_loadstore.md R1578). -/
def execEvmwssf (rd ra rb : Gpr) (s : State) : Host.Outcome State Fault Refusal :=
  let t := mulSSF32 (s.gprW ra) (s.gprW rb)
  s.speSat64 rd t.1 t.2 false

/-- `evmwssfa` (49_spe_multiply_word_loadstore.md R1579). -/
def execEvmwssfa (rd ra rb : Gpr) (s : State) : Host.Outcome State Fault Refusal :=
  let t := mulSSF32 (s.gprW ra) (s.gprW rb)
  s.speSat64 rd t.1 t.2 true

/-- `evmwssfaa` (49_spe_multiply_word_loadstore.md R1580). -/
def execEvmwssfaa (rd ra rb : Gpr) (s : State) : Host.Outcome State Fault Refusal :=
  let t := mulSSF32 (s.gprW ra) (s.gprW rb)
  let v := satAddS64 s.acc t.1
  s.speSat64 rd v.1 (t.2 || v.2) true

/-- `evmwssfan` (49_spe_multiply_word_loadstore.md R1581). -/
def execEvmwssfan (rd ra rb : Gpr) (s : State) : Host.Outcome State Fault Refusal :=
  let t := mulSSF32 (s.gprW ra) (s.gprW rb)
  let v := satSubS64 s.acc t.1
  s.speSat64 rd v.1 (t.2 || v.2) true

/-- `evaddsmiaaw` (49_spe_multiply_word_loadstore.md R1586). -/
def execEvaddsmiaaw (rd ra : Gpr) (s : State) : Host.Outcome State Fault Refusal :=
  s.speAcc rd (· + ·) (s.gprH ra) (s.gprW ra)

/-- `evaddssiaaw` (49_spe_multiply_word_loadstore.md R1587). -/
def execEvaddssiaaw (rd ra : Gpr) (s : State) : Host.Outcome State Fault Refusal :=
  s.speAccSat rd satAddS32 (s.gprH ra, false) (s.gprW ra, false)

/-- `evaddumiaaw` (49_spe_multiply_word_loadstore.md R1588). -/
def execEvaddumiaaw (rd ra : Gpr) (s : State) : Host.Outcome State Fault Refusal :=
  s.speAcc rd (· + ·) (s.gprH ra) (s.gprW ra)

/-- `evaddusiaaw` (49_spe_multiply_word_loadstore.md R1589). -/
def execEvaddusiaaw (rd ra : Gpr) (s : State) : Host.Outcome State Fault Refusal :=
  s.speAccSat rd satAddU32 (s.gprH ra, false) (s.gprW ra, false)

/-- `evsubfsmiaaw` (49_spe_multiply_word_loadstore.md R1590). -/
def execEvsubfsmiaaw (rd ra : Gpr) (s : State) : Host.Outcome State Fault Refusal :=
  s.speAcc rd (· - ·) (s.gprH ra) (s.gprW ra)

/-- `evsubfssiaaw` (49_spe_multiply_word_loadstore.md R1591). -/
def execEvsubfssiaaw (rd ra : Gpr) (s : State) : Host.Outcome State Fault Refusal :=
  s.speAccSat rd satSubS32 (s.gprH ra, false) (s.gprW ra, false)

/-- `evsubfumiaaw` (49_spe_multiply_word_loadstore.md R1592). -/
def execEvsubfumiaaw (rd ra : Gpr) (s : State) : Host.Outcome State Fault Refusal :=
  s.speAcc rd (· - ·) (s.gprH ra) (s.gprW ra)

/-- `evsubfusiaaw` (49_spe_multiply_word_loadstore.md R1593). -/
def execEvsubfusiaaw (rd ra : Gpr) (s : State) : Host.Outcome State Fault Refusal :=
  s.speAccSat rd satSubU32 (s.gprH ra, false) (s.gprW ra, false)

end Sys2Proof.Machine
end

