-- ==== Sys2Proof/Machine/System.lean ====
section
/-! DEFINITION. Condition register, trap, system call and special register instructions
(spec/42_base_branch_cr_system.md R810 to R852). -/

namespace Sys2Proof.Machine

/-- A logical operation on two CR bits into a third (42_base_branch_cr_system.md R810). -/
def State.crLogic (s : State) (bt ba bb : CrBit) (f : Bool → Bool → Bool) : State :=
  { s with cr := withCrBit s.cr bt (f (crBit s.cr ba) (crBit s.cr bb)) }.advance 4

/-- The mask of `mtcrf`: bit 0 of the field selects CR0 (42_base_branch_cr_system.md R822). -/
def fxmMask (fxm : BitVec 8) : Word :=
  (List.range 8).foldl (fun m i => if fxm.getMsbD i then m ||| (0xF0000000#32 >>> (4 * i)) else m) 0#32

/-- MSR[EE] replaced. -/
def State.setEe (s : State) (b : Bool) : State := { s with msr := putBits s.msr 0x8000#32 b }

/-- `crand` (42_base_branch_cr_system.md R811). -/
def execCrand (bt ba bb : CrBit) (s : State) : Host.Outcome State Fault Refusal :=
  .next (s.crLogic bt ba bb fun x y => x && y)

/-- `crandc` (42_base_branch_cr_system.md R812). -/
def execCrandc (bt ba bb : CrBit) (s : State) : Host.Outcome State Fault Refusal :=
  .next (s.crLogic bt ba bb fun x y => x && !y)

/-- `creqv` (42_base_branch_cr_system.md R813). -/
def execCreqv (bt ba bb : CrBit) (s : State) : Host.Outcome State Fault Refusal :=
  .next (s.crLogic bt ba bb fun x y => x == y)

/-- `crnand` (42_base_branch_cr_system.md R814). -/
def execCrnand (bt ba bb : CrBit) (s : State) : Host.Outcome State Fault Refusal :=
  .next (s.crLogic bt ba bb fun x y => !(x && y))

/-- `crnor` (42_base_branch_cr_system.md R815). -/
def execCrnor (bt ba bb : CrBit) (s : State) : Host.Outcome State Fault Refusal :=
  .next (s.crLogic bt ba bb fun x y => !(x || y))

/-- `cror` (42_base_branch_cr_system.md R816). -/
def execCror (bt ba bb : CrBit) (s : State) : Host.Outcome State Fault Refusal :=
  .next (s.crLogic bt ba bb fun x y => x || y)

/-- `crorc` (42_base_branch_cr_system.md R817). -/
def execCrorc (bt ba bb : CrBit) (s : State) : Host.Outcome State Fault Refusal :=
  .next (s.crLogic bt ba bb fun x y => x || !y)

/-- `crxor` (42_base_branch_cr_system.md R818). -/
def execCrxor (bt ba bb : CrBit) (s : State) : Host.Outcome State Fault Refusal :=
  .next (s.crLogic bt ba bb fun x y => x != y)

/-- `mcrf` (42_base_branch_cr_system.md R819). -/
def execMcrf (crf crs : CrField) (s : State) : Host.Outcome State Fault Refusal :=
  .next (s.resultCr 4 crf (crField s.cr crs))

/-- `mcrxr` (42_base_branch_cr_system.md R820). -/
def execMcrxr (crf : CrField) (s : State) : Host.Outcome State Fault Refusal :=
  .next ({ s with xer := s.xer &&& ~~~0xF0000000#32 }.resultCr 4 crf (crField s.xer 0#3))

/-- `mfcr` (42_base_branch_cr_system.md R821). -/
def execMfcr (rt : Gpr) (s : State) : Host.Outcome State Fault Refusal := .next ((s.setGprW rt s.cr).advance 4)

/-- `mtcrf` (42_base_branch_cr_system.md R822). -/
def execMtcrf (fxm : BitVec 8) (rs : Gpr) (s : State) : Host.Outcome State Fault Refusal :=
  .next ({ s with cr := insertBits s.cr (fxmMask fxm) (s.gprW rs) }.advance 4)

/-- `tw` (42_base_branch_cr_system.md R831). -/
def execTw (tmask : BitVec 5) (ra rb : Gpr) (s : State) : Host.Outcome State Fault Refusal :=
  if trapCond tmask (s.gprW ra) (s.gprW rb) then .next (raiseTrap s) else .next (s.advance 4)

/-- `twi` (42_base_branch_cr_system.md R832). -/
def execTwi (tmask : BitVec 5) (ra : Gpr) (simm : BitVec 16) (s : State) : Host.Outcome State Fault Refusal :=
  if trapCond tmask (s.gprW ra) (sext16 simm) then .next (raiseTrap s) else .next (s.advance 4)

/-- `sc` (42_base_branch_cr_system.md R840). -/
def execSc (s : State) : Host.Outcome State Fault Refusal := .next (raiseSystemCall 4 s)

/-- `rfi` (42_base_branch_cr_system.md R841). -/
def execRfi (s : State) : Host.Outcome State Fault Refusal :=
  privileged s fun s => .next (returnFrom s.ints.srr0 s.ints.srr1 s)

/-- `rfci` (42_base_branch_cr_system.md R842). -/
def execRfci (s : State) : Host.Outcome State Fault Refusal :=
  privileged s fun s => .next (returnFrom s.ints.csrr0 s.ints.csrr1 s)

/-- `isync` (42_base_branch_cr_system.md R845). -/
def execIsync (s : State) : Host.Outcome State Fault Refusal := .next (s.advance 4)

/-- `mfmsr` (42_base_branch_cr_system.md R847). -/
def execMfmsr (rt : Gpr) (s : State) : Host.Outcome State Fault Refusal :=
  privileged s fun s => .next ((s.setGprW rt s.msr).advance 4)

/-- `mtmsr` (42_base_branch_cr_system.md R848). -/
def execMtmsr (rs : Gpr) (s : State) : Host.Outcome State Fault Refusal :=
  privileged s fun s => .next ({ s.owe .msr with msr := s.gprW rs &&& msrMask }.advance 4)

/-- `wrtee` (42_base_branch_cr_system.md R849). -/
def execWrtee (rs : Gpr) (s : State) : Host.Outcome State Fault Refusal :=
  privileged s fun s => .next ((s.setEe ((s.gprW rs).getLsbD 15)).advance 4)

/-- `wrteei` (42_base_branch_cr_system.md R852). -/
def execWrteei (e : Bool) (s : State) : Host.Outcome State Fault Refusal :=
  privileged s fun s => .next ((s.setEe e).advance 4)

/-- `mfspr` (42_base_branch_cr_system.md R850). -/
def execMfspr (rt : Gpr) (sprn : BitVec 10) (s : State) : Host.Outcome State Fault Refusal :=
  match sprNamed sprn.toNat with
  | none => .next (badSpr sprn s)
  | some r =>
    if !r.readable then .next (badSpr sprn s)
    else if sprPrivileged sprn && s.user then .next (raisePrivileged s)
    else .next ((s.mfspr r.reg rt).advance 4)

/-- `mtspr` (42_base_branch_cr_system.md R851). -/
def execMtspr (sprn : BitVec 10) (rs : Gpr) (s : State) : Host.Outcome State Fault Refusal :=
  match sprNamed sprn.toNat with
  | none => .next (badSpr sprn s)
  | some r =>
    if !r.writable then .next (badSpr sprn s)
    else if sprPrivileged sprn && s.user then .next (raisePrivileged s)
    else (s.mtspr r.reg rs).finish fun _ s => s.advance 4

end Sys2Proof.Machine
end

