-- ==== Sys2Proof/Machine/Vle.lean ====
section
/-! DEFINITION. The VLE instructions that are no branches (spec/44_vle.md R1030 to R1086, R2700 to R2758). -/

namespace Sys2Proof.Machine

/-- `se_illegal` (44_vle.md R1030). -/
def execSeIllegal (s : State) : Host.Outcome State Fault Refusal := .next (raiseIllegal s)

/-- `se_isync` (44_vle.md R1031). -/
def execSeIsync (s : State) : Host.Outcome State Fault Refusal := .next (s.advance 2)

/-- `se_sc` (44_vle.md R1032). -/
def execSeSc (s : State) : Host.Outcome State Fault Refusal := .next (raiseSystemCall 2 s)

/-- `se_rfi` (44_vle.md R1035). -/
def execSeRfi (s : State) : Host.Outcome State Fault Refusal :=
  privileged s fun s => .next (returnFrom s.ints.srr0 s.ints.srr1 s)

/-- `se_rfci` (44_vle.md R1036). -/
def execSeRfci (s : State) : Host.Outcome State Fault Refusal :=
  privileged s fun s => .next (returnFrom s.ints.csrr0 s.ints.csrr1 s)

/-- `se_rfmci` (44_vle.md R1038). -/
def execSeRfmci (s : State) : Host.Outcome State Fault Refusal :=
  privileged s fun s => .next (returnFrom s.ints.mcsrr0 s.ints.mcsrr1 s)

/-- `se_rfdi` (44_vle.md R1037). -/
def execSeRfdi (s : State) : Host.Outcome State Fault Refusal :=
  if !s.dapuen then .next (raiseIllegal s)
  else privileged s fun s => .next (returnFrom s.ints.dsrr0 s.ints.dsrr1 s)

/-- `se_dnh` (44_vle.md R1039). -/
def execSeDnh (s : State) : Host.Outcome State Fault Refusal := .next (s.notifyHalt 2 true 0#5 0#10)

/-- `e_dnh` (44_vle.md R2758). -/
def execEDnh (dui : BitVec 5) (duis : BitVec 10) (s : State) : Host.Outcome State Fault Refusal :=
  .next (s.notifyHalt 4 true dui duis)

/-- `se_not` (44_vle.md R1040). -/
def execSeNot (rx : Gpr) (s : State) : Host.Outcome State Fault Refusal :=
  .next (s.result 2 rx (~~~s.gprW rx) none none false)

/-- `se_neg` (44_vle.md R1041). -/
def execSeNeg (rx : Gpr) (s : State) : Host.Outcome State Fault Refusal :=
  .next (s.result 2 rx (-s.gprW rx) none none false)

/-- `se_mflr` (44_vle.md R1042). -/
def execSeMflr (rx : Gpr) (s : State) : Host.Outcome State Fault Refusal :=
  .next (s.result 2 rx (s.lr) none none false)

/-- `se_mfctr` (44_vle.md R1044). -/
def execSeMfctr (rx : Gpr) (s : State) : Host.Outcome State Fault Refusal :=
  .next (s.result 2 rx (s.ctr) none none false)

/-- `se_mtlr` (44_vle.md R1043). -/
def execSeMtlr (rx : Gpr) (s : State) : Host.Outcome State Fault Refusal :=
  .next ({ s with lr := s.gprW rx }.advance 2)

/-- `se_mtctr` (44_vle.md R1045). -/
def execSeMtctr (rx : Gpr) (s : State) : Host.Outcome State Fault Refusal :=
  .next ({ s with ctr := s.gprW rx }.advance 2)

/-- `se_extzb` (44_vle.md R1046). -/
def execSeExtzb (rx : Gpr) (s : State) : Host.Outcome State Fault Refusal :=
  .next (s.result 2 rx (s.gprW rx &&& 0xFF#32) none none false)

/-- `se_extsb` (44_vle.md R1047). -/
def execSeExtsb (rx : Gpr) (s : State) : Host.Outcome State Fault Refusal :=
  .next (s.result 2 rx (byteS (s.gprW rx)) none none false)

/-- `se_extzh` (44_vle.md R1048). -/
def execSeExtzh (rx : Gpr) (s : State) : Host.Outcome State Fault Refusal :=
  .next (s.result 2 rx (s.gprW rx &&& 0xFFFF#32) none none false)

/-- `se_extsh` (44_vle.md R1049). -/
def execSeExtsh (rx : Gpr) (s : State) : Host.Outcome State Fault Refusal :=
  .next (s.result 2 rx (halfS (s.gprW rx)) none none false)

/-- `se_mr` (44_vle.md R1050). -/
def execSeMr (rx ry : Gpr) (s : State) : Host.Outcome State Fault Refusal :=
  .next (s.result 2 rx (s.gprW ry) none none false)

/-- `se_mtar` (44_vle.md R1051). -/
def execSeMtar (arx ry : Gpr) (s : State) : Host.Outcome State Fault Refusal :=
  .next (s.result 2 arx (s.gprW ry) none none false)

/-- `se_mfar` (44_vle.md R1052). -/
def execSeMfar (rx ary : Gpr) (s : State) : Host.Outcome State Fault Refusal :=
  .next (s.result 2 rx (s.gprW ary) none none false)

/-- `se_add` (44_vle.md R1053). -/
def execSeAdd (rx ry : Gpr) (s : State) : Host.Outcome State Fault Refusal :=
  .next (s.result 2 rx (s.gprW rx + s.gprW ry) none none false)

/-- `se_mullw` (44_vle.md R1054). -/
def execSeMullw (rx ry : Gpr) (s : State) : Host.Outcome State Fault Refusal :=
  .next (s.result 2 rx (loW (mulSigned (s.gprW rx) (s.gprW ry))) none none false)

/-- `se_sub` (44_vle.md R1055). -/
def execSeSub (rx ry : Gpr) (s : State) : Host.Outcome State Fault Refusal :=
  .next (s.result 2 rx (s.gprW rx - s.gprW ry) none none false)

/-- `se_subf` (44_vle.md R1056). -/
def execSeSubf (rx ry : Gpr) (s : State) : Host.Outcome State Fault Refusal :=
  .next (s.result 2 rx (s.gprW ry - s.gprW rx) none none false)

/-- `se_cmp` (44_vle.md R1057). -/
def execSeCmp (rx ry : Gpr) (s : State) : Host.Outcome State Fault Refusal :=
  .next (s.resultCr 2 0#3 (cmpSigned (s.gprW rx) (s.gprW ry) s.xerSo))

/-- `se_cmpl` (44_vle.md R1058). -/
def execSeCmpl (rx ry : Gpr) (s : State) : Host.Outcome State Fault Refusal :=
  .next (s.resultCr 2 0#3 (cmpUnsigned (s.gprW rx) (s.gprW ry) s.xerSo))

/-- `se_cmph` (44_vle.md R1059). -/
def execSeCmph (rx ry : Gpr) (s : State) : Host.Outcome State Fault Refusal :=
  .next (s.resultCr 2 0#3 (cmpSigned (halfS (s.gprW rx)) (halfS (s.gprW ry)) s.xerSo))

/-- `se_cmphl` (44_vle.md R1060). -/
def execSeCmphl (rx ry : Gpr) (s : State) : Host.Outcome State Fault Refusal :=
  .next (s.resultCr 2 0#3 (cmpUnsigned (halfU (s.gprW rx)) (halfU (s.gprW ry)) s.xerSo))

/-- `se_srw` (44_vle.md R1061). -/
def execSeSrw (rx ry : Gpr) (s : State) : Host.Outcome State Fault Refusal :=
  .next (s.result 2 rx (shiftRight (s.gprW rx) (shiftAmount (s.gprW ry))) none none false)

/-- `se_slw` (44_vle.md R1063). -/
def execSeSlw (rx ry : Gpr) (s : State) : Host.Outcome State Fault Refusal :=
  .next (s.result 2 rx (shiftLeft (s.gprW rx) (shiftAmount (s.gprW ry))) none none false)

/-- `se_sraw` (44_vle.md R1062). -/
def execSeSraw (rx ry : Gpr) (s : State) : Host.Outcome State Fault Refusal :=
  let n := shiftAmount (s.gprW ry)
  .next (s.result 2 rx (shiftSigned (s.gprW rx) n) (some (shiftCarry (s.gprW rx) n)) none false)

/-- `se_or` (44_vle.md R1064). -/
def execSeOr (rx ry : Gpr) (s : State) : Host.Outcome State Fault Refusal :=
  .next (s.result 2 rx (s.gprW rx ||| s.gprW ry) none none false)

/-- `se_andc` (44_vle.md R1065). -/
def execSeAndc (rx ry : Gpr) (s : State) : Host.Outcome State Fault Refusal :=
  .next (s.result 2 rx (s.gprW rx &&& ~~~s.gprW ry) none none false)

/-- `se_and` (44_vle.md R1066). -/
def execSeAnd (rx ry : Gpr) (rc : Bool) (s : State) : Host.Outcome State Fault Refusal :=
  .next (s.result 2 rx (s.gprW rx &&& s.gprW ry) none none rc)

/-- `se_addi` (44_vle.md R1067). -/
def execSeAddi (rx : Gpr) (oimm : BitVec 6) (s : State) : Host.Outcome State Fault Refusal :=
  .next (s.result 2 rx (s.gprW rx + oimm.zeroExtend 32) none none false)

/-- `se_subi` (44_vle.md R1069). -/
def execSeSubi (rx : Gpr) (oimm : BitVec 6) (rc : Bool) (s : State) : Host.Outcome State Fault Refusal :=
  .next (s.result 2 rx (s.gprW rx - oimm.zeroExtend 32) none none rc)

/-- `se_cmpli` (44_vle.md R1068). -/
def execSeCmpli (rx : Gpr) (oimm : BitVec 6) (s : State) : Host.Outcome State Fault Refusal :=
  .next (s.resultCr 2 0#3 (cmpUnsigned (s.gprW rx) (oimm.zeroExtend 32) s.xerSo))

/-- `se_cmpi` (44_vle.md R1070). -/
def execSeCmpi (rx : Gpr) (ui5 : BitVec 5) (s : State) : Host.Outcome State Fault Refusal :=
  .next (s.resultCr 2 0#3 (cmpSigned (s.gprW rx) (ui5.zeroExtend 32) s.xerSo))

/-- `se_bmaski` (44_vle.md R1071). -/
def execSeBmaski (rx : Gpr) (ui5 : BitVec 5) (s : State) : Host.Outcome State Fault Refusal :=
  .next (s.result 2 rx (if ui5 = 0#5 then 0xFFFFFFFF#32 else (1#32 <<< ui5.toNat) - 1#32) none none false)

/-- `se_andi` (44_vle.md R1072). -/
def execSeAndi (rx : Gpr) (ui5 : BitVec 5) (s : State) : Host.Outcome State Fault Refusal :=
  .next (s.result 2 rx (s.gprW rx &&& ui5.zeroExtend 32) none none false)

/-- `se_bclri` (44_vle.md R1073). -/
def execSeBclri (rx : Gpr) (ui5 : BitVec 5) (s : State) : Host.Outcome State Fault Refusal :=
  .next (s.result 2 rx (s.gprW rx &&& ~~~bitMask ui5) none none false)

/-- `se_bgeni` (44_vle.md R1074). -/
def execSeBgeni (rx : Gpr) (ui5 : BitVec 5) (s : State) : Host.Outcome State Fault Refusal :=
  .next (s.result 2 rx (bitMask ui5) none none false)

/-- `se_bseti` (44_vle.md R1075). -/
def execSeBseti (rx : Gpr) (ui5 : BitVec 5) (s : State) : Host.Outcome State Fault Refusal :=
  .next (s.result 2 rx (s.gprW rx ||| bitMask ui5) none none false)

/-- `se_btsti` (44_vle.md R1076). -/
def execSeBtsti (rx : Gpr) (ui5 : BitVec 5) (s : State) : Host.Outcome State Fault Refusal :=
  let z := s.gprW rx &&& bitMask ui5 == 0#32
  .next (s.resultCr 2 0#3 (crBits false (!z) z s.xerSo))

/-- `se_srwi` (44_vle.md R1077). -/
def execSeSrwi (rx : Gpr) (ui5 : BitVec 5) (s : State) : Host.Outcome State Fault Refusal :=
  .next (s.result 2 rx (shiftRight (s.gprW rx) ui5.toNat) none none false)

/-- `se_slwi` (44_vle.md R1079). -/
def execSeSlwi (rx : Gpr) (ui5 : BitVec 5) (s : State) : Host.Outcome State Fault Refusal :=
  .next (s.result 2 rx (shiftLeft (s.gprW rx) ui5.toNat) none none false)

/-- `se_srawi` (44_vle.md R1078). -/
def execSeSrawi (rx : Gpr) (ui5 : BitVec 5) (s : State) : Host.Outcome State Fault Refusal :=
  .next (s.result 2 rx (shiftSigned (s.gprW rx) ui5.toNat) (some (shiftCarry (s.gprW rx) ui5.toNat)) none false)

/-- `se_li` (44_vle.md R1080). -/
def execSeLi (rx : Gpr) (ui7 : BitVec 7) (s : State) : Host.Outcome State Fault Refusal :=
  .next (s.result 2 rx (ui7.zeroExtend 32) none none false)

/-- `se_lbz` (44_vle.md R1081). -/
def execSeLbz (rz : Gpr) (sd4 : BitVec 4) (rx : Gpr) (s : State) : Host.Outcome State Fault Refusal :=
  s.loadTo 2 1 rz none zeroExt (s.eaSd4 rx sd4 0)

/-- `se_stb` (44_vle.md R1082). -/
def execSeStb (rz : Gpr) (sd4 : BitVec 4) (rx : Gpr) (s : State) : Host.Outcome State Fault Refusal :=
  s.storeFrom 2 (s.storeByte rz) none (s.eaSd4 rx sd4 0)

/-- `e_lbz` (44_vle.md R2700). -/
def execELbz (rd : Gpr) (d : BitVec 16) (ra : Gpr) (s : State) : Host.Outcome State Fault Refusal :=
  s.loadTo 4 1 rd none zeroExt (s.eaD ra d)

/-- `e_stb` (44_vle.md R2701). -/
def execEStb (rs : Gpr) (d : BitVec 16) (ra : Gpr) (s : State) : Host.Outcome State Fault Refusal :=
  s.storeFrom 4 (s.storeByte rs) none (s.eaD ra d)

/-- `e_lbzu` (44_vle.md R2708). -/
def execELbzu (rd : Gpr) (d8 : BitVec 8) (ra : Gpr) (s : State) : Host.Outcome State Fault Refusal :=
  s.loadTo 4 1 rd (some ra) zeroExt (s.eaD8 ra d8)

/-- `e_stbu` (44_vle.md R2712). -/
def execEStbu (rs : Gpr) (d8 : BitVec 8) (ra : Gpr) (s : State) : Host.Outcome State Fault Refusal :=
  s.storeFrom 4 (s.storeByte rs) (some ra) (s.eaD8 ra d8)

/-- `se_lhz` (44_vle.md R1083). -/
def execSeLhz (rz : Gpr) (sd4 : BitVec 4) (rx : Gpr) (s : State) : Host.Outcome State Fault Refusal :=
  s.loadTo 2 2 rz none zeroExt (s.eaSd4 rx sd4 1)

/-- `se_sth` (44_vle.md R1084). -/
def execSeSth (rz : Gpr) (sd4 : BitVec 4) (rx : Gpr) (s : State) : Host.Outcome State Fault Refusal :=
  s.storeFrom 2 (s.storeHalf rz) none (s.eaSd4 rx sd4 1)

/-- `e_lhz` (44_vle.md R2705). -/
def execELhz (rd : Gpr) (d : BitVec 16) (ra : Gpr) (s : State) : Host.Outcome State Fault Refusal :=
  s.loadTo 4 2 rd none zeroExt (s.eaD ra d)

/-- `e_sth` (44_vle.md R2706). -/
def execESth (rs : Gpr) (d : BitVec 16) (ra : Gpr) (s : State) : Host.Outcome State Fault Refusal :=
  s.storeFrom 4 (s.storeHalf rs) none (s.eaD ra d)

/-- `e_lhzu` (44_vle.md R2709). -/
def execELhzu (rd : Gpr) (d8 : BitVec 8) (ra : Gpr) (s : State) : Host.Outcome State Fault Refusal :=
  s.loadTo 4 2 rd (some ra) zeroExt (s.eaD8 ra d8)

/-- `e_sthu` (44_vle.md R2713). -/
def execESthu (rs : Gpr) (d8 : BitVec 8) (ra : Gpr) (s : State) : Host.Outcome State Fault Refusal :=
  s.storeFrom 4 (s.storeHalf rs) (some ra) (s.eaD8 ra d8)

/-- `se_lwz` (44_vle.md R1085). -/
def execSeLwz (rz : Gpr) (sd4 : BitVec 4) (rx : Gpr) (s : State) : Host.Outcome State Fault Refusal :=
  s.loadTo 2 4 rz none zeroExt (s.eaSd4 rx sd4 2)

/-- `se_stw` (44_vle.md R1086). -/
def execSeStw (rz : Gpr) (sd4 : BitVec 4) (rx : Gpr) (s : State) : Host.Outcome State Fault Refusal :=
  s.storeFrom 2 (s.storeWord rz) none (s.eaSd4 rx sd4 2)

/-- `e_lwz` (44_vle.md R2703). -/
def execELwz (rd : Gpr) (d : BitVec 16) (ra : Gpr) (s : State) : Host.Outcome State Fault Refusal :=
  s.loadTo 4 4 rd none zeroExt (s.eaD ra d)

/-- `e_stw` (44_vle.md R2704). -/
def execEStw (rs : Gpr) (d : BitVec 16) (ra : Gpr) (s : State) : Host.Outcome State Fault Refusal :=
  s.storeFrom 4 (s.storeWord rs) none (s.eaD ra d)

/-- `e_lwzu` (44_vle.md R2710). -/
def execELwzu (rd : Gpr) (d8 : BitVec 8) (ra : Gpr) (s : State) : Host.Outcome State Fault Refusal :=
  s.loadTo 4 4 rd (some ra) zeroExt (s.eaD8 ra d8)

/-- `e_stwu` (44_vle.md R2714). -/
def execEStwu (rs : Gpr) (d8 : BitVec 8) (ra : Gpr) (s : State) : Host.Outcome State Fault Refusal :=
  s.storeFrom 4 (s.storeWord rs) (some ra) (s.eaD8 ra d8)

/-- `e_lha` (44_vle.md R2702). -/
def execELha (rd : Gpr) (d : BitVec 16) (ra : Gpr) (s : State) : Host.Outcome State Fault Refusal :=
  s.loadTo 4 2 rd none algebraic (s.eaD ra d)

/-- `e_lhau` (44_vle.md R2711). -/
def execELhau (rd : Gpr) (d8 : BitVec 8) (ra : Gpr) (s : State) : Host.Outcome State Fault Refusal :=
  s.loadTo 4 2 rd (some ra) algebraic (s.eaD8 ra d8)

/-- `e_lmw` (44_vle.md R2715). -/
def execELmw (rd : Gpr) (d8 : BitVec 8) (ra : Gpr) (s : State) : Host.Outcome State Fault Refusal :=
  s.loadMultiple (s.eaD8 ra d8) (intoGprs (gprsFrom rd))

/-- `e_stmw` (44_vle.md R2716). -/
def execEStmw (rs : Gpr) (d8 : BitVec 8) (ra : Gpr) (s : State) : Host.Outcome State Fault Refusal :=
  s.storeMultiple (s.eaD8 ra d8) (s.fromGprs (gprsFrom rs))

/-- `e_add16i` (44_vle.md R2707). -/
def execEAdd16i (rd ra : Gpr) (si : BitVec 16) (s : State) : Host.Outcome State Fault Refusal :=
  .next (s.result 4 rd (s.gprW ra + sext16 si) none none false)

/-- `e_addi` (44_vle.md R2717). -/
def execEAddi (rd ra : Gpr) (f : Bool) (scl : BitVec 2) (ui8 : BitVec 8) (rc : Bool) (s : State) :
    Host.Outcome State Fault Refusal :=
  .next (s.result 4 rd (s.gprW ra + sci8 f scl ui8) none none rc)

/-- `e_addic` (44_vle.md R2718). -/
def execEAddic (rd ra : Gpr) (f : Bool) (scl : BitVec 2) (ui8 : BitVec 8) (rc : Bool) (s : State) :
    Host.Outcome State Fault Refusal :=
  .next (s.resultAdd 4 rd (add3 (s.gprW ra) (sci8 f scl ui8) false) true false rc)

/-- `e_subfic` (44_vle.md R2722). -/
def execESubfic (rd ra : Gpr) (f : Bool) (scl : BitVec 2) (ui8 : BitVec 8) (rc : Bool) (s : State) :
    Host.Outcome State Fault Refusal :=
  .next (s.resultAdd 4 rd (add3 (~~~s.gprW ra) (sci8 f scl ui8) true) true false rc)

/-- `e_mulli` (44_vle.md R2719). -/
def execEMulli (rd ra : Gpr) (f : Bool) (scl : BitVec 2) (ui8 : BitVec 8) (s : State) :
    Host.Outcome State Fault Refusal :=
  .next (s.result 4 rd (loW (mulSigned (s.gprW ra) (sci8 f scl ui8))) none none false)

/-- `e_cmpi` (44_vle.md R2720). -/
def execECmpi (crf : BitVec 2) (ra : Gpr) (f : Bool) (scl : BitVec 2) (ui8 : BitVec 8) (s : State) :
    Host.Outcome State Fault Refusal :=
  .next (s.resultCr 4 (0#1 ++ crf) (cmpSigned (s.gprW ra) (sci8 f scl ui8) s.xerSo))

/-- `e_cmpli` (44_vle.md R2721). -/
def execECmpli (crf : BitVec 2) (ra : Gpr) (f : Bool) (scl : BitVec 2) (ui8 : BitVec 8) (s : State) :
    Host.Outcome State Fault Refusal :=
  .next (s.resultCr 4 (0#1 ++ crf) (cmpUnsigned (s.gprW ra) (sci8 f scl ui8) s.xerSo))

/-- `e_andi` (44_vle.md R2723). -/
def execEAndi (ra rs : Gpr) (f : Bool) (scl : BitVec 2) (ui8 : BitVec 8) (rc : Bool) (s : State) :
    Host.Outcome State Fault Refusal :=
  .next (s.result 4 ra (s.gprW rs &&& sci8 f scl ui8) none none rc)

/-- `e_ori` (44_vle.md R2724). -/
def execEOri (ra rs : Gpr) (f : Bool) (scl : BitVec 2) (ui8 : BitVec 8) (rc : Bool) (s : State) :
    Host.Outcome State Fault Refusal :=
  .next (s.result 4 ra (s.gprW rs ||| sci8 f scl ui8) none none rc)

/-- `e_xori` (44_vle.md R2725). -/
def execEXori (ra rs : Gpr) (f : Bool) (scl : BitVec 2) (ui8 : BitVec 8) (rc : Bool) (s : State) :
    Host.Outcome State Fault Refusal :=
  .next (s.result 4 ra (s.gprW rs ^^^ sci8 f scl ui8) none none rc)

/-- `e_li` (44_vle.md R2726). -/
def execELi (rd : Gpr) (li20 : BitVec 20) (s : State) : Host.Outcome State Fault Refusal :=
  .next (s.result 4 rd (li20.signExtend 32) none none false)

/-- `e_add2i.` (44_vle.md R2727). -/
def execEAdd2iDot (ra : Gpr) (si : BitVec 16) (s : State) : Host.Outcome State Fault Refusal :=
  .next (s.result 4 ra (s.gprW ra + sext16 si) none none true)

/-- `e_add2is` (44_vle.md R2728). -/
def execEAdd2is (ra : Gpr) (si : BitVec 16) (s : State) : Host.Outcome State Fault Refusal :=
  .next (s.result 4 ra (s.gprW ra + high16 si) none none false)

/-- `e_cmp16i` (44_vle.md R2729). -/
def execECmp16i (ra : Gpr) (si : BitVec 16) (s : State) : Host.Outcome State Fault Refusal :=
  .next (s.resultCr 4 0#3 (cmpSigned (s.gprW ra) (sext16 si) s.xerSo))

/-- `e_mull2i` (44_vle.md R2730). -/
def execEMull2i (ra : Gpr) (si : BitVec 16) (s : State) : Host.Outcome State Fault Refusal :=
  .next (s.result 4 ra (loW (mulSigned (s.gprW ra) (sext16 si))) none none false)

/-- `e_cmpl16i` (44_vle.md R2731). -/
def execECmpl16i (ra : Gpr) (ui : BitVec 16) (s : State) : Host.Outcome State Fault Refusal :=
  .next (s.resultCr 4 0#3 (cmpUnsigned (s.gprW ra) (zext16 ui) s.xerSo))

/-- `e_cmph16i` (44_vle.md R2732). -/
def execECmph16i (ra : Gpr) (si : BitVec 16) (s : State) : Host.Outcome State Fault Refusal :=
  .next (s.resultCr 4 0#3 (cmpSigned (halfS (s.gprW ra)) (sext16 si) s.xerSo))

/-- `e_cmphl16i` (44_vle.md R2733). -/
def execECmphl16i (ra : Gpr) (ui : BitVec 16) (s : State) : Host.Outcome State Fault Refusal :=
  .next (s.resultCr 4 0#3 (cmpUnsigned (halfU (s.gprW ra)) (zext16 ui) s.xerSo))

/-- `e_or2i` (44_vle.md R2734). -/
def execEOr2i (rd : Gpr) (ui : BitVec 16) (s : State) : Host.Outcome State Fault Refusal :=
  .next (s.result 4 rd (s.gprW rd ||| zext16 ui) none none false)

/-- `e_and2i.` (44_vle.md R2735). -/
def execEAnd2iDot (rd : Gpr) (ui : BitVec 16) (s : State) : Host.Outcome State Fault Refusal :=
  .next (s.result 4 rd (s.gprW rd &&& zext16 ui) none none true)

/-- `e_or2is` (44_vle.md R2736). -/
def execEOr2is (rd : Gpr) (ui : BitVec 16) (s : State) : Host.Outcome State Fault Refusal :=
  .next (s.result 4 rd (s.gprW rd ||| high16 ui) none none false)

/-- `e_lis` (44_vle.md R2737). -/
def execELis (rd : Gpr) (ui : BitVec 16) (s : State) : Host.Outcome State Fault Refusal :=
  .next (s.result 4 rd (high16 ui) none none false)

/-- `e_and2is.` (44_vle.md R2738). -/
def execEAnd2isDot (rd : Gpr) (ui : BitVec 16) (s : State) : Host.Outcome State Fault Refusal :=
  .next (s.result 4 rd (s.gprW rd &&& high16 ui) none none true)

/-- `e_rlwimi` (44_vle.md R2739). -/
def execERlwimi (ra rs : Gpr) (sh mb me : BitVec 5) (s : State) : Host.Outcome State Fault Refusal :=
  .next (s.result 4 ra (insertBits (s.gprW ra) (maskMbMe mb me) (rotl (s.gprW rs) sh.toNat)) none none false)

/-- `e_rlwinm` (44_vle.md R2740). -/
def execERlwinm (ra rs : Gpr) (sh mb me : BitVec 5) (s : State) : Host.Outcome State Fault Refusal :=
  .next (s.result 4 ra (rotl (s.gprW rs) sh.toNat &&& maskMbMe mb me) none none false)

/-- `e_cmph` (44_vle.md R2743). -/
def execECmph (crf : CrField) (ra rb : Gpr) (s : State) : Host.Outcome State Fault Refusal :=
  .next (s.resultCr 4 crf (cmpSigned (halfS (s.gprW ra)) (halfS (s.gprW rb)) s.xerSo))

/-- `e_cmphl` (44_vle.md R2744). -/
def execECmphl (crf : CrField) (ra rb : Gpr) (s : State) : Host.Outcome State Fault Refusal :=
  .next (s.resultCr 4 crf (cmpUnsigned (halfU (s.gprW ra)) (halfU (s.gprW rb)) s.xerSo))

/-- `e_mcrf` (44_vle.md R2745). -/
def execEMcrf (crf crs : CrField) (s : State) : Host.Outcome State Fault Refusal :=
  .next (s.resultCr 4 crf (crField s.cr crs))

/-- `e_crand` (44_vle.md R2750). -/
def execECrand (bt ba bb : CrBit) (s : State) : Host.Outcome State Fault Refusal :=
  .next (s.crLogic bt ba bb fun x y => x && y)

/-- `e_crandc` (44_vle.md R2747). -/
def execECrandc (bt ba bb : CrBit) (s : State) : Host.Outcome State Fault Refusal :=
  .next (s.crLogic bt ba bb fun x y => x && !y)

/-- `e_creqv` (44_vle.md R2751). -/
def execECreqv (bt ba bb : CrBit) (s : State) : Host.Outcome State Fault Refusal :=
  .next (s.crLogic bt ba bb fun x y => x == y)

/-- `e_crnand` (44_vle.md R2749). -/
def execECrnand (bt ba bb : CrBit) (s : State) : Host.Outcome State Fault Refusal :=
  .next (s.crLogic bt ba bb fun x y => !(x && y))

/-- `e_crnor` (44_vle.md R2746). -/
def execECrnor (bt ba bb : CrBit) (s : State) : Host.Outcome State Fault Refusal :=
  .next (s.crLogic bt ba bb fun x y => !(x || y))

/-- `e_cror` (44_vle.md R2753). -/
def execECror (bt ba bb : CrBit) (s : State) : Host.Outcome State Fault Refusal :=
  .next (s.crLogic bt ba bb fun x y => x || y)

/-- `e_crorc` (44_vle.md R2752). -/
def execECrorc (bt ba bb : CrBit) (s : State) : Host.Outcome State Fault Refusal :=
  .next (s.crLogic bt ba bb fun x y => x || !y)

/-- `e_crxor` (44_vle.md R2748). -/
def execECrxor (bt ba bb : CrBit) (s : State) : Host.Outcome State Fault Refusal :=
  .next (s.crLogic bt ba bb fun x y => x != y)

/-- `e_slwi` (44_vle.md R2754). -/
def execESlwi (ra rs : Gpr) (sh : BitVec 5) (rc : Bool) (s : State) : Host.Outcome State Fault Refusal :=
  .next (s.result 4 ra (shiftLeft (s.gprW rs) sh.toNat) none none rc)

/-- `e_srwi` (44_vle.md R2757). -/
def execESrwi (ra rs : Gpr) (sh : BitVec 5) (rc : Bool) (s : State) : Host.Outcome State Fault Refusal :=
  .next (s.result 4 ra (shiftRight (s.gprW rs) sh.toNat) none none rc)

/-- `e_rlw` (44_vle.md R2755). -/
def execERlw (ra rs rb : Gpr) (rc : Bool) (s : State) : Host.Outcome State Fault Refusal :=
  .next (s.result 4 ra (rotl (s.gprW rs) ((s.gprW rb).extractLsb' 0 5).toNat) none none rc)

/-- `e_rlwi` (44_vle.md R2756). -/
def execERlwi (ra rs : Gpr) (sh : BitVec 5) (rc : Bool) (s : State) : Host.Outcome State Fault Refusal :=
  .next (s.result 4 ra (rotl (s.gprW rs) sh.toNat) none none rc)

end Sys2Proof.Machine
end

