-- ==== Sys2Proof/Machine/Dispatch.lean ====
section
/-! DEFINITION. The meaning of every instruction: one arm per constructor of `Instr`, one direct call each. -/

namespace Sys2Proof.Machine

def exec (i : Instr) (s : State) : Host.Outcome State Fault Refusal :=
  match i with
  | .tlbre => Sys2Proof.Machine.execTlbre s
  | .tlbwe => Sys2Proof.Machine.execTlbwe s
  | .tlbsx ra rb => Sys2Proof.Machine.execTlbsx ra rb s
  | .tlbivax ra rb => Sys2Proof.Machine.execTlbivax ra rb s
  | .tlbsync => Sys2Proof.Machine.execTlbsync s
  | .icbi ra rb => Sys2Proof.Machine.execIcbi ra rb s
  | .icbt ct ra rb => Sys2Proof.Machine.execIcbt ct ra rb s
  | .dcba ra rb => Sys2Proof.Machine.execDcba ra rb s
  | .dcbf ra rb => Sys2Proof.Machine.execDcbf ra rb s
  | .dcbi ra rb => Sys2Proof.Machine.execDcbi ra rb s
  | .dcbst ra rb => Sys2Proof.Machine.execDcbst ra rb s
  | .dcbt ct ra rb => Sys2Proof.Machine.execDcbt ct ra rb s
  | .dcbtst ct ra rb => Sys2Proof.Machine.execDcbtst ct ra rb s
  | .dcbz ra rb => Sys2Proof.Machine.execDcbz ra rb s
  | .dcbtls ct ra rb => Sys2Proof.Machine.execDcbtls ct ra rb s
  | .dcbtstls ct ra rb => Sys2Proof.Machine.execDcbtstls ct ra rb s
  | .dcblc ct ra rb => Sys2Proof.Machine.execDcblc ct ra rb s
  | .icbtls ct ra rb => Sys2Proof.Machine.execIcbtls ct ra rb s
  | .icblc ct ra rb => Sys2Proof.Machine.execIcblc ct ra rb s
  | .addi rt ra si => Sys2Proof.Machine.execAddi rt ra si s
  | .addis rt ra si => Sys2Proof.Machine.execAddis rt ra si s
  | .addic rt ra si => Sys2Proof.Machine.execAddic rt ra si s
  | .addicDot rt ra si => Sys2Proof.Machine.execAddicDot rt ra si s
  | .subfic rt ra si => Sys2Proof.Machine.execSubfic rt ra si s
  | .mulli rt ra si => Sys2Proof.Machine.execMulli rt ra si s
  | .add rt ra rb oe rc => Sys2Proof.Machine.execAdd rt ra rb oe rc s
  | .addc rt ra rb oe rc => Sys2Proof.Machine.execAddc rt ra rb oe rc s
  | .adde rt ra rb oe rc => Sys2Proof.Machine.execAdde rt ra rb oe rc s
  | .addme rt ra oe rc => Sys2Proof.Machine.execAddme rt ra oe rc s
  | .addze rt ra oe rc => Sys2Proof.Machine.execAddze rt ra oe rc s
  | .subf rt ra rb oe rc => Sys2Proof.Machine.execSubf rt ra rb oe rc s
  | .subfc rt ra rb oe rc => Sys2Proof.Machine.execSubfc rt ra rb oe rc s
  | .subfe rt ra rb oe rc => Sys2Proof.Machine.execSubfe rt ra rb oe rc s
  | .subfme rt ra oe rc => Sys2Proof.Machine.execSubfme rt ra oe rc s
  | .subfze rt ra oe rc => Sys2Proof.Machine.execSubfze rt ra oe rc s
  | .neg rt ra oe rc => Sys2Proof.Machine.execNeg rt ra oe rc s
  | .mullw rt ra rb oe rc => Sys2Proof.Machine.execMullw rt ra rb oe rc s
  | .divw rt ra rb oe rc => Sys2Proof.Machine.execDivw rt ra rb oe rc s
  | .divwu rt ra rb oe rc => Sys2Proof.Machine.execDivwu rt ra rb oe rc s
  | .mulhw rt ra rb rc => Sys2Proof.Machine.execMulhw rt ra rb rc s
  | .mulhwu rt ra rb rc => Sys2Proof.Machine.execMulhwu rt ra rb rc s
  | .cmpi crf ra si => Sys2Proof.Machine.execCmpi crf ra si s
  | .cmp crf ra rb => Sys2Proof.Machine.execCmp crf ra rb s
  | .cmpli crf ra ui => Sys2Proof.Machine.execCmpli crf ra ui s
  | .cmpl crf ra rb => Sys2Proof.Machine.execCmpl crf ra rb s
  | .andiDot ra rs ui => Sys2Proof.Machine.execAndiDot ra rs ui s
  | .andisDot ra rs ui => Sys2Proof.Machine.execAndisDot ra rs ui s
  | .ori ra rs ui => Sys2Proof.Machine.execOri ra rs ui s
  | .oris ra rs ui => Sys2Proof.Machine.execOris ra rs ui s
  | .xori ra rs ui => Sys2Proof.Machine.execXori ra rs ui s
  | .xoris ra rs ui => Sys2Proof.Machine.execXoris ra rs ui s
  | .and ra rs rb rc => Sys2Proof.Machine.execAnd ra rs rb rc s
  | .andc ra rs rb rc => Sys2Proof.Machine.execAndc ra rs rb rc s
  | .or ra rs rb rc => Sys2Proof.Machine.execOr ra rs rb rc s
  | .orc ra rs rb rc => Sys2Proof.Machine.execOrc ra rs rb rc s
  | .xor ra rs rb rc => Sys2Proof.Machine.execXor ra rs rb rc s
  | .nand ra rs rb rc => Sys2Proof.Machine.execNand ra rs rb rc s
  | .nor ra rs rb rc => Sys2Proof.Machine.execNor ra rs rb rc s
  | .eqv ra rs rb rc => Sys2Proof.Machine.execEqv ra rs rb rc s
  | .extsb ra rs rc => Sys2Proof.Machine.execExtsb ra rs rc s
  | .extsh ra rs rc => Sys2Proof.Machine.execExtsh ra rs rc s
  | .cntlzw ra rs rc => Sys2Proof.Machine.execCntlzw ra rs rc s
  | .rlwinm ra rs sh mb me rc => Sys2Proof.Machine.execRlwinm ra rs sh mb me rc s
  | .rlwimi ra rs sh mb me rc => Sys2Proof.Machine.execRlwimi ra rs sh mb me rc s
  | .rlwnm ra rs rb mb me rc => Sys2Proof.Machine.execRlwnm ra rs rb mb me rc s
  | .slw ra rs rb rc => Sys2Proof.Machine.execSlw ra rs rb rc s
  | .srw ra rs rb rc => Sys2Proof.Machine.execSrw ra rs rb rc s
  | .sraw ra rs rb rc => Sys2Proof.Machine.execSraw ra rs rb rc s
  | .srawi ra rs sh rc => Sys2Proof.Machine.execSrawi ra rs sh rc s
  | .lbz rt d ra => Sys2Proof.Machine.execLbz rt d ra s
  | .lbzu rt d ra => Sys2Proof.Machine.execLbzu rt d ra s
  | .lhz rt d ra => Sys2Proof.Machine.execLhz rt d ra s
  | .lhzu rt d ra => Sys2Proof.Machine.execLhzu rt d ra s
  | .lha rt d ra => Sys2Proof.Machine.execLha rt d ra s
  | .lhau rt d ra => Sys2Proof.Machine.execLhau rt d ra s
  | .lwz rt d ra => Sys2Proof.Machine.execLwz rt d ra s
  | .lwzu rt d ra => Sys2Proof.Machine.execLwzu rt d ra s
  | .stb rs d ra => Sys2Proof.Machine.execStb rs d ra s
  | .stbu rs d ra => Sys2Proof.Machine.execStbu rs d ra s
  | .sth rs d ra => Sys2Proof.Machine.execSth rs d ra s
  | .sthu rs d ra => Sys2Proof.Machine.execSthu rs d ra s
  | .stw rs d ra => Sys2Proof.Machine.execStw rs d ra s
  | .stwu rs d ra => Sys2Proof.Machine.execStwu rs d ra s
  | .lbzx rt ra rb => Sys2Proof.Machine.execLbzx rt ra rb s
  | .lbzux rt ra rb => Sys2Proof.Machine.execLbzux rt ra rb s
  | .lhzx rt ra rb => Sys2Proof.Machine.execLhzx rt ra rb s
  | .lhzux rt ra rb => Sys2Proof.Machine.execLhzux rt ra rb s
  | .lhax rt ra rb => Sys2Proof.Machine.execLhax rt ra rb s
  | .lhaux rt ra rb => Sys2Proof.Machine.execLhaux rt ra rb s
  | .lwzx rt ra rb => Sys2Proof.Machine.execLwzx rt ra rb s
  | .lwzux rt ra rb => Sys2Proof.Machine.execLwzux rt ra rb s
  | .stbx rs ra rb => Sys2Proof.Machine.execStbx rs ra rb s
  | .stbux rs ra rb => Sys2Proof.Machine.execStbux rs ra rb s
  | .sthx rs ra rb => Sys2Proof.Machine.execSthx rs ra rb s
  | .sthux rs ra rb => Sys2Proof.Machine.execSthux rs ra rb s
  | .stwx rs ra rb => Sys2Proof.Machine.execStwx rs ra rb s
  | .stwux rs ra rb => Sys2Proof.Machine.execStwux rs ra rb s
  | .lhbrx rt ra rb => Sys2Proof.Machine.execLhbrx rt ra rb s
  | .lwbrx rt ra rb => Sys2Proof.Machine.execLwbrx rt ra rb s
  | .sthbrx rs ra rb => Sys2Proof.Machine.execSthbrx rs ra rb s
  | .stwbrx rs ra rb => Sys2Proof.Machine.execStwbrx rs ra rb s
  | .lmw rt d ra => Sys2Proof.Machine.execLmw rt d ra s
  | .stmw rs d ra => Sys2Proof.Machine.execStmw rs d ra s
  | .b li aa lk => Sys2Proof.Machine.execB li aa lk s
  | .bc bo bi bd aa lk => Sys2Proof.Machine.execBc bo bi bd aa lk s
  | .bclr bo bi lk => Sys2Proof.Machine.execBclr bo bi lk s
  | .bcctr bo bi lk => Sys2Proof.Machine.execBcctr bo bi lk s
  | .crand bt ba bb => Sys2Proof.Machine.execCrand bt ba bb s
  | .crandc bt ba bb => Sys2Proof.Machine.execCrandc bt ba bb s
  | .creqv bt ba bb => Sys2Proof.Machine.execCreqv bt ba bb s
  | .crnand bt ba bb => Sys2Proof.Machine.execCrnand bt ba bb s
  | .crnor bt ba bb => Sys2Proof.Machine.execCrnor bt ba bb s
  | .cror bt ba bb => Sys2Proof.Machine.execCror bt ba bb s
  | .crorc bt ba bb => Sys2Proof.Machine.execCrorc bt ba bb s
  | .crxor bt ba bb => Sys2Proof.Machine.execCrxor bt ba bb s
  | .mcrf crf crs => Sys2Proof.Machine.execMcrf crf crs s
  | .mcrxr crf => Sys2Proof.Machine.execMcrxr crf s
  | .mfcr rt => Sys2Proof.Machine.execMfcr rt s
  | .mtcrf fxm rs => Sys2Proof.Machine.execMtcrf fxm rs s
  | .tw tmask ra rb => Sys2Proof.Machine.execTw tmask ra rb s
  | .twi tmask ra simm => Sys2Proof.Machine.execTwi tmask ra simm s
  | .sc => Sys2Proof.Machine.execSc s
  | .rfi => Sys2Proof.Machine.execRfi s
  | .rfci => Sys2Proof.Machine.execRfci s
  | .isync => Sys2Proof.Machine.execIsync s
  | .mfmsr rt => Sys2Proof.Machine.execMfmsr rt s
  | .mtmsr rs => Sys2Proof.Machine.execMtmsr rs s
  | .wrtee rs => Sys2Proof.Machine.execWrtee rs s
  | .wrteei e => Sys2Proof.Machine.execWrteei e s
  | .mfspr rt sprn => Sys2Proof.Machine.execMfspr rt sprn s
  | .mtspr sprn rs => Sys2Proof.Machine.execMtspr sprn rs s
  | .isel rt ra rb crb => Sys2Proof.Machine.execIsel rt ra rb crb s
  | .rfdi => Sys2Proof.Machine.execRfdi s
  | .rfmci => Sys2Proof.Machine.execRfmci s
  | .dnh dui duis => Sys2Proof.Machine.execDnh dui duis s
  | .wait => Sys2Proof.Machine.execWait s
  | .msync => Sys2Proof.Machine.execMsync s
  | .mbar mo => Sys2Proof.Machine.execMbar mo s
  | .mfdcr rt dcrn => Sys2Proof.Machine.execMfdcr rt dcrn s
  | .mtdcr dcrn rs => Sys2Proof.Machine.execMtdcr dcrn rs s
  | .lbarx rt ra rb => Sys2Proof.Machine.execLbarx rt ra rb s
  | .lharx rt ra rb => Sys2Proof.Machine.execLharx rt ra rb s
  | .lwarx rt ra rb => Sys2Proof.Machine.execLwarx rt ra rb s
  | .stbcxDot rs ra rb => Sys2Proof.Machine.execStbcxDot rs ra rb s
  | .sthcxDot rs ra rb => Sys2Proof.Machine.execSthcxDot rs ra rb s
  | .stwcxDot rs ra rb => Sys2Proof.Machine.execStwcxDot rs ra rb s
  | .eLmvgprw d8 ra => Sys2Proof.Machine.execELmvgprw d8 ra s
  | .eStmvgprw d8 ra => Sys2Proof.Machine.execEStmvgprw d8 ra s
  | .eLmvsprw d8 ra => Sys2Proof.Machine.execELmvsprw d8 ra s
  | .eStmvsprw d8 ra => Sys2Proof.Machine.execEStmvsprw d8 ra s
  | .eLmvsrrw d8 ra => Sys2Proof.Machine.execELmvsrrw d8 ra s
  | .eStmvsrrw d8 ra => Sys2Proof.Machine.execEStmvsrrw d8 ra s
  | .eLmvcsrrw d8 ra => Sys2Proof.Machine.execELmvcsrrw d8 ra s
  | .eStmvcsrrw d8 ra => Sys2Proof.Machine.execEStmvcsrrw d8 ra s
  | .eLmvdsrrw d8 ra => Sys2Proof.Machine.execELmvdsrrw d8 ra s
  | .eStmvdsrrw d8 ra => Sys2Proof.Machine.execEStmvdsrrw d8 ra s
  | .eLmvmcsrrw d8 ra => Sys2Proof.Machine.execELmvmcsrrw d8 ra s
  | .eStmvmcsrrw d8 ra => Sys2Proof.Machine.execEStmvmcsrrw d8 ra s
  | .seIllegal => Sys2Proof.Machine.execSeIllegal s
  | .seIsync => Sys2Proof.Machine.execSeIsync s
  | .seSc => Sys2Proof.Machine.execSeSc s
  | .seBlr lk => Sys2Proof.Machine.execSeBlr lk s
  | .seBctr lk => Sys2Proof.Machine.execSeBctr lk s
  | .seRfi => Sys2Proof.Machine.execSeRfi s
  | .seRfci => Sys2Proof.Machine.execSeRfci s
  | .seRfdi => Sys2Proof.Machine.execSeRfdi s
  | .seRfmci => Sys2Proof.Machine.execSeRfmci s
  | .seDnh => Sys2Proof.Machine.execSeDnh s
  | .seNot rx => Sys2Proof.Machine.execSeNot rx s
  | .seNeg rx => Sys2Proof.Machine.execSeNeg rx s
  | .seMflr rx => Sys2Proof.Machine.execSeMflr rx s
  | .seMtlr rx => Sys2Proof.Machine.execSeMtlr rx s
  | .seMfctr rx => Sys2Proof.Machine.execSeMfctr rx s
  | .seMtctr rx => Sys2Proof.Machine.execSeMtctr rx s
  | .seExtzb rx => Sys2Proof.Machine.execSeExtzb rx s
  | .seExtsb rx => Sys2Proof.Machine.execSeExtsb rx s
  | .seExtzh rx => Sys2Proof.Machine.execSeExtzh rx s
  | .seExtsh rx => Sys2Proof.Machine.execSeExtsh rx s
  | .seMr rx ry => Sys2Proof.Machine.execSeMr rx ry s
  | .seMtar arx ry => Sys2Proof.Machine.execSeMtar arx ry s
  | .seMfar rx ary => Sys2Proof.Machine.execSeMfar rx ary s
  | .seAdd rx ry => Sys2Proof.Machine.execSeAdd rx ry s
  | .seMullw rx ry => Sys2Proof.Machine.execSeMullw rx ry s
  | .seSub rx ry => Sys2Proof.Machine.execSeSub rx ry s
  | .seSubf rx ry => Sys2Proof.Machine.execSeSubf rx ry s
  | .seCmp rx ry => Sys2Proof.Machine.execSeCmp rx ry s
  | .seCmpl rx ry => Sys2Proof.Machine.execSeCmpl rx ry s
  | .seCmph rx ry => Sys2Proof.Machine.execSeCmph rx ry s
  | .seCmphl rx ry => Sys2Proof.Machine.execSeCmphl rx ry s
  | .seSrw rx ry => Sys2Proof.Machine.execSeSrw rx ry s
  | .seSraw rx ry => Sys2Proof.Machine.execSeSraw rx ry s
  | .seSlw rx ry => Sys2Proof.Machine.execSeSlw rx ry s
  | .seOr rx ry => Sys2Proof.Machine.execSeOr rx ry s
  | .seAndc rx ry => Sys2Proof.Machine.execSeAndc rx ry s
  | .seAnd rx ry rc => Sys2Proof.Machine.execSeAnd rx ry rc s
  | .seAddi rx oimm => Sys2Proof.Machine.execSeAddi rx oimm s
  | .seCmpli rx oimm => Sys2Proof.Machine.execSeCmpli rx oimm s
  | .seSubi rx oimm rc => Sys2Proof.Machine.execSeSubi rx oimm rc s
  | .seCmpi rx ui5 => Sys2Proof.Machine.execSeCmpi rx ui5 s
  | .seBmaski rx ui5 => Sys2Proof.Machine.execSeBmaski rx ui5 s
  | .seAndi rx ui5 => Sys2Proof.Machine.execSeAndi rx ui5 s
  | .seBclri rx ui5 => Sys2Proof.Machine.execSeBclri rx ui5 s
  | .seBgeni rx ui5 => Sys2Proof.Machine.execSeBgeni rx ui5 s
  | .seBseti rx ui5 => Sys2Proof.Machine.execSeBseti rx ui5 s
  | .seBtsti rx ui5 => Sys2Proof.Machine.execSeBtsti rx ui5 s
  | .seSrwi rx ui5 => Sys2Proof.Machine.execSeSrwi rx ui5 s
  | .seSrawi rx ui5 => Sys2Proof.Machine.execSeSrawi rx ui5 s
  | .seSlwi rx ui5 => Sys2Proof.Machine.execSeSlwi rx ui5 s
  | .seLi rx ui7 => Sys2Proof.Machine.execSeLi rx ui7 s
  | .seLbz rz sd4 rx => Sys2Proof.Machine.execSeLbz rz sd4 rx s
  | .seStb rz sd4 rx => Sys2Proof.Machine.execSeStb rz sd4 rx s
  | .seLhz rz sd4 rx => Sys2Proof.Machine.execSeLhz rz sd4 rx s
  | .seSth rz sd4 rx => Sys2Proof.Machine.execSeSth rz sd4 rx s
  | .seLwz rz sd4 rx => Sys2Proof.Machine.execSeLwz rz sd4 rx s
  | .seStw rz sd4 rx => Sys2Proof.Machine.execSeStw rz sd4 rx s
  | .seB bd8 lk => Sys2Proof.Machine.execSeB bd8 lk s
  | .seBc bo16 bi16 bd8 => Sys2Proof.Machine.execSeBc bo16 bi16 bd8 s
  | .eLbz rd d ra => Sys2Proof.Machine.execELbz rd d ra s
  | .eStb rs d ra => Sys2Proof.Machine.execEStb rs d ra s
  | .eLha rd d ra => Sys2Proof.Machine.execELha rd d ra s
  | .eLwz rd d ra => Sys2Proof.Machine.execELwz rd d ra s
  | .eStw rs d ra => Sys2Proof.Machine.execEStw rs d ra s
  | .eLhz rd d ra => Sys2Proof.Machine.execELhz rd d ra s
  | .eSth rs d ra => Sys2Proof.Machine.execESth rs d ra s
  | .eAdd16i rd ra si => Sys2Proof.Machine.execEAdd16i rd ra si s
  | .eLbzu rd d8 ra => Sys2Proof.Machine.execELbzu rd d8 ra s
  | .eLhzu rd d8 ra => Sys2Proof.Machine.execELhzu rd d8 ra s
  | .eLwzu rd d8 ra => Sys2Proof.Machine.execELwzu rd d8 ra s
  | .eLhau rd d8 ra => Sys2Proof.Machine.execELhau rd d8 ra s
  | .eStbu rs d8 ra => Sys2Proof.Machine.execEStbu rs d8 ra s
  | .eSthu rs d8 ra => Sys2Proof.Machine.execESthu rs d8 ra s
  | .eStwu rs d8 ra => Sys2Proof.Machine.execEStwu rs d8 ra s
  | .eLmw rd d8 ra => Sys2Proof.Machine.execELmw rd d8 ra s
  | .eStmw rs d8 ra => Sys2Proof.Machine.execEStmw rs d8 ra s
  | .eAddi rd ra f scl ui8 rc => Sys2Proof.Machine.execEAddi rd ra f scl ui8 rc s
  | .eAddic rd ra f scl ui8 rc => Sys2Proof.Machine.execEAddic rd ra f scl ui8 rc s
  | .eMulli rd ra f scl ui8 => Sys2Proof.Machine.execEMulli rd ra f scl ui8 s
  | .eCmpi crf ra f scl ui8 => Sys2Proof.Machine.execECmpi crf ra f scl ui8 s
  | .eCmpli crf ra f scl ui8 => Sys2Proof.Machine.execECmpli crf ra f scl ui8 s
  | .eSubfic rd ra f scl ui8 rc => Sys2Proof.Machine.execESubfic rd ra f scl ui8 rc s
  | .eAndi ra rs f scl ui8 rc => Sys2Proof.Machine.execEAndi ra rs f scl ui8 rc s
  | .eOri ra rs f scl ui8 rc => Sys2Proof.Machine.execEOri ra rs f scl ui8 rc s
  | .eXori ra rs f scl ui8 rc => Sys2Proof.Machine.execEXori ra rs f scl ui8 rc s
  | .eLi rd li20 => Sys2Proof.Machine.execELi rd li20 s
  | .eAdd2iDot ra si => Sys2Proof.Machine.execEAdd2iDot ra si s
  | .eAdd2is ra si => Sys2Proof.Machine.execEAdd2is ra si s
  | .eCmp16i ra si => Sys2Proof.Machine.execECmp16i ra si s
  | .eMull2i ra si => Sys2Proof.Machine.execEMull2i ra si s
  | .eCmpl16i ra ui => Sys2Proof.Machine.execECmpl16i ra ui s
  | .eCmph16i ra si => Sys2Proof.Machine.execECmph16i ra si s
  | .eCmphl16i ra ui => Sys2Proof.Machine.execECmphl16i ra ui s
  | .eOr2i rd ui => Sys2Proof.Machine.execEOr2i rd ui s
  | .eAnd2iDot rd ui => Sys2Proof.Machine.execEAnd2iDot rd ui s
  | .eOr2is rd ui => Sys2Proof.Machine.execEOr2is rd ui s
  | .eLis rd ui => Sys2Proof.Machine.execELis rd ui s
  | .eAnd2isDot rd ui => Sys2Proof.Machine.execEAnd2isDot rd ui s
  | .eRlwimi ra rs sh mb me => Sys2Proof.Machine.execERlwimi ra rs sh mb me s
  | .eRlwinm ra rs sh mb me => Sys2Proof.Machine.execERlwinm ra rs sh mb me s
  | .eB bd24 lk => Sys2Proof.Machine.execEB bd24 lk s
  | .eBc bo32 bi32 bd15 lk => Sys2Proof.Machine.execEBc bo32 bi32 bd15 lk s
  | .eCmph crf ra rb => Sys2Proof.Machine.execECmph crf ra rb s
  | .eCmphl crf ra rb => Sys2Proof.Machine.execECmphl crf ra rb s
  | .eMcrf crf crs => Sys2Proof.Machine.execEMcrf crf crs s
  | .eCrnor bt ba bb => Sys2Proof.Machine.execECrnor bt ba bb s
  | .eCrandc bt ba bb => Sys2Proof.Machine.execECrandc bt ba bb s
  | .eCrxor bt ba bb => Sys2Proof.Machine.execECrxor bt ba bb s
  | .eCrnand bt ba bb => Sys2Proof.Machine.execECrnand bt ba bb s
  | .eCrand bt ba bb => Sys2Proof.Machine.execECrand bt ba bb s
  | .eCreqv bt ba bb => Sys2Proof.Machine.execECreqv bt ba bb s
  | .eCrorc bt ba bb => Sys2Proof.Machine.execECrorc bt ba bb s
  | .eCror bt ba bb => Sys2Proof.Machine.execECror bt ba bb s
  | .eSlwi ra rs sh rc => Sys2Proof.Machine.execESlwi ra rs sh rc s
  | .eRlw ra rs rb rc => Sys2Proof.Machine.execERlw ra rs rb rc s
  | .eRlwi ra rs sh rc => Sys2Proof.Machine.execERlwi ra rs sh rc s
  | .eSrwi ra rs sh rc => Sys2Proof.Machine.execESrwi ra rs sh rc s
  | .eDnh dui duis => Sys2Proof.Machine.execEDnh dui duis s
  | .efsabs rd ra => Sys2Proof.Machine.execEfsabs rd ra s
  | .efsnabs rd ra => Sys2Proof.Machine.execEfsnabs rd ra s
  | .efsneg rd ra => Sys2Proof.Machine.execEfsneg rd ra s
  | .efsadd rd ra rb => Sys2Proof.Machine.execEfsadd rd ra rb s
  | .efssub rd ra rb => Sys2Proof.Machine.execEfssub rd ra rb s
  | .efsmul rd ra rb => Sys2Proof.Machine.execEfsmul rd ra rb s
  | .efsdiv rd ra rb => Sys2Proof.Machine.execEfsdiv rd ra rb s
  | .efsmadd rd ra rb => Sys2Proof.Machine.execEfsmadd rd ra rb s
  | .efsmsub rd ra rb => Sys2Proof.Machine.execEfsmsub rd ra rb s
  | .efsnmadd rd ra rb => Sys2Proof.Machine.execEfsnmadd rd ra rb s
  | .efsnmsub rd ra rb => Sys2Proof.Machine.execEfsnmsub rd ra rb s
  | .efssqrt rd ra => Sys2Proof.Machine.execEfssqrt rd ra s
  | .efsmax rd ra rb => Sys2Proof.Machine.execEfsmax rd ra rb s
  | .efsmin rd ra rb => Sys2Proof.Machine.execEfsmin rd ra rb s
  | .efscmpgt crf ra rb => Sys2Proof.Machine.execEfscmpgt crf ra rb s
  | .efscmplt crf ra rb => Sys2Proof.Machine.execEfscmplt crf ra rb s
  | .efscmpeq crf ra rb => Sys2Proof.Machine.execEfscmpeq crf ra rb s
  | .efststgt crf ra rb => Sys2Proof.Machine.execEfststgt crf ra rb s
  | .efststlt crf ra rb => Sys2Proof.Machine.execEfststlt crf ra rb s
  | .efststeq crf ra rb => Sys2Proof.Machine.execEfststeq crf ra rb s
  | .efscfsi rd rb => Sys2Proof.Machine.execEfscfsi rd rb s
  | .efscfui rd rb => Sys2Proof.Machine.execEfscfui rd rb s
  | .efscfsf rd rb => Sys2Proof.Machine.execEfscfsf rd rb s
  | .efscfuf rd rb => Sys2Proof.Machine.execEfscfuf rd rb s
  | .efsctsi rd rb => Sys2Proof.Machine.execEfsctsi rd rb s
  | .efsctsiz rd rb => Sys2Proof.Machine.execEfsctsiz rd rb s
  | .efsctui rd rb => Sys2Proof.Machine.execEfsctui rd rb s
  | .efsctuiz rd rb => Sys2Proof.Machine.execEfsctuiz rd rb s
  | .efsctsf rd rb => Sys2Proof.Machine.execEfsctsf rd rb s
  | .efsctuf rd rb => Sys2Proof.Machine.execEfsctuf rd rb s
  | .efscfh rd rb => Sys2Proof.Machine.execEfscfh rd rb s
  | .efscth rd rb => Sys2Proof.Machine.execEfscth rd rb s
  | .evfsabs rd ra => Sys2Proof.Machine.execEvfsabs rd ra s
  | .evfsnabs rd ra => Sys2Proof.Machine.execEvfsnabs rd ra s
  | .evfsneg rd ra => Sys2Proof.Machine.execEvfsneg rd ra s
  | .evfsadd rd ra rb => Sys2Proof.Machine.execEvfsadd rd ra rb s
  | .evfssub rd ra rb => Sys2Proof.Machine.execEvfssub rd ra rb s
  | .evfsaddsub rd ra rb => Sys2Proof.Machine.execEvfsaddsub rd ra rb s
  | .evfssubadd rd ra rb => Sys2Proof.Machine.execEvfssubadd rd ra rb s
  | .evfsaddx rd ra rb => Sys2Proof.Machine.execEvfsaddx rd ra rb s
  | .evfssubx rd ra rb => Sys2Proof.Machine.execEvfssubx rd ra rb s
  | .evfsaddsubx rd ra rb => Sys2Proof.Machine.execEvfsaddsubx rd ra rb s
  | .evfssubaddx rd ra rb => Sys2Proof.Machine.execEvfssubaddx rd ra rb s
  | .evfssum rd ra rb => Sys2Proof.Machine.execEvfssum rd ra rb s
  | .evfsdiff rd ra rb => Sys2Proof.Machine.execEvfsdiff rd ra rb s
  | .evfssumdiff rd ra rb => Sys2Proof.Machine.execEvfssumdiff rd ra rb s
  | .evfsdiffsum rd ra rb => Sys2Proof.Machine.execEvfsdiffsum rd ra rb s
  | .evfsmul rd ra rb => Sys2Proof.Machine.execEvfsmul rd ra rb s
  | .evfsmule rd ra rb => Sys2Proof.Machine.execEvfsmule rd ra rb s
  | .evfsmulo rd ra rb => Sys2Proof.Machine.execEvfsmulo rd ra rb s
  | .evfsmulx rd ra rb => Sys2Proof.Machine.execEvfsmulx rd ra rb s
  | .evfsdiv rd ra rb => Sys2Proof.Machine.execEvfsdiv rd ra rb s
  | .evfssqrt rd ra => Sys2Proof.Machine.execEvfssqrt rd ra s
  | .evfsmadd rd ra rb => Sys2Proof.Machine.execEvfsmadd rd ra rb s
  | .evfsmsub rd ra rb => Sys2Proof.Machine.execEvfsmsub rd ra rb s
  | .evfsnmadd rd ra rb => Sys2Proof.Machine.execEvfsnmadd rd ra rb s
  | .evfsnmsub rd ra rb => Sys2Proof.Machine.execEvfsnmsub rd ra rb s
  | .evfsmax rd ra rb => Sys2Proof.Machine.execEvfsmax rd ra rb s
  | .evfsmin rd ra rb => Sys2Proof.Machine.execEvfsmin rd ra rb s
  | .evfscmpgt crf ra rb => Sys2Proof.Machine.execEvfscmpgt crf ra rb s
  | .evfscmplt crf ra rb => Sys2Proof.Machine.execEvfscmplt crf ra rb s
  | .evfscmpeq crf ra rb => Sys2Proof.Machine.execEvfscmpeq crf ra rb s
  | .evfststgt crf ra rb => Sys2Proof.Machine.execEvfststgt crf ra rb s
  | .evfststlt crf ra rb => Sys2Proof.Machine.execEvfststlt crf ra rb s
  | .evfststeq crf ra rb => Sys2Proof.Machine.execEvfststeq crf ra rb s
  | .evfscfsi rd rb => Sys2Proof.Machine.execEvfscfsi rd rb s
  | .evfscfui rd rb => Sys2Proof.Machine.execEvfscfui rd rb s
  | .evfscfsf rd rb => Sys2Proof.Machine.execEvfscfsf rd rb s
  | .evfscfuf rd rb => Sys2Proof.Machine.execEvfscfuf rd rb s
  | .evfsctsi rd rb => Sys2Proof.Machine.execEvfsctsi rd rb s
  | .evfsctsiz rd rb => Sys2Proof.Machine.execEvfsctsiz rd rb s
  | .evfsctui rd rb => Sys2Proof.Machine.execEvfsctui rd rb s
  | .evfsctuiz rd rb => Sys2Proof.Machine.execEvfsctuiz rd rb s
  | .evfsctsf rd rb => Sys2Proof.Machine.execEvfsctsf rd rb s
  | .evfsctuf rd rb => Sys2Proof.Machine.execEvfsctuf rd rb s
  | .evfscfh rd rb => Sys2Proof.Machine.execEvfscfh rd rb s
  | .evfscth rd rb => Sys2Proof.Machine.execEvfscth rd rb s
  | .brinc rd ra rb => Sys2Proof.Machine.execBrinc rd ra rb s
  | .evabs rd ra => Sys2Proof.Machine.execEvabs rd ra s
  | .evaddiw rd rb uimm => Sys2Proof.Machine.execEvaddiw rd rb uimm s
  | .evaddw rd ra rb => Sys2Proof.Machine.execEvaddw rd ra rb s
  | .evand rd ra rb => Sys2Proof.Machine.execEvand rd ra rb s
  | .evandc rd ra rb => Sys2Proof.Machine.execEvandc rd ra rb s
  | .evcmpeq crf ra rb => Sys2Proof.Machine.execEvcmpeq crf ra rb s
  | .evcmpgts crf ra rb => Sys2Proof.Machine.execEvcmpgts crf ra rb s
  | .evcmpgtu crf ra rb => Sys2Proof.Machine.execEvcmpgtu crf ra rb s
  | .evcmplts crf ra rb => Sys2Proof.Machine.execEvcmplts crf ra rb s
  | .evcmpltu crf ra rb => Sys2Proof.Machine.execEvcmpltu crf ra rb s
  | .evcntlsw rd ra => Sys2Proof.Machine.execEvcntlsw rd ra s
  | .evcntlzw rd ra => Sys2Proof.Machine.execEvcntlzw rd ra s
  | .evdivws rd ra rb => Sys2Proof.Machine.execEvdivws rd ra rb s
  | .evdivwu rd ra rb => Sys2Proof.Machine.execEvdivwu rd ra rb s
  | .eveqv rd ra rb => Sys2Proof.Machine.execEveqv rd ra rb s
  | .evextsb rd ra => Sys2Proof.Machine.execEvextsb rd ra s
  | .evextsh rd ra => Sys2Proof.Machine.execEvextsh rd ra s
  | .evmergehi rd ra rb => Sys2Proof.Machine.execEvmergehi rd ra rb s
  | .evmergehilo rd ra rb => Sys2Proof.Machine.execEvmergehilo rd ra rb s
  | .evmergelo rd ra rb => Sys2Proof.Machine.execEvmergelo rd ra rb s
  | .evmergelohi rd ra rb => Sys2Proof.Machine.execEvmergelohi rd ra rb s
  | .evnand rd ra rb => Sys2Proof.Machine.execEvnand rd ra rb s
  | .evneg rd ra => Sys2Proof.Machine.execEvneg rd ra s
  | .evnor rd ra rb => Sys2Proof.Machine.execEvnor rd ra rb s
  | .evor rd ra rb => Sys2Proof.Machine.execEvor rd ra rb s
  | .evorc rd ra rb => Sys2Proof.Machine.execEvorc rd ra rb s
  | .evrlw rd ra rb => Sys2Proof.Machine.execEvrlw rd ra rb s
  | .evrlwi rd ra uimm => Sys2Proof.Machine.execEvrlwi rd ra uimm s
  | .evrndw rd ra => Sys2Proof.Machine.execEvrndw rd ra s
  | .evsel rd ra rb crs => Sys2Proof.Machine.execEvsel rd ra rb crs s
  | .evslw rd ra rb => Sys2Proof.Machine.execEvslw rd ra rb s
  | .evslwi rd ra uimm => Sys2Proof.Machine.execEvslwi rd ra uimm s
  | .evsplatfi rd simm => Sys2Proof.Machine.execEvsplatfi rd simm s
  | .evsplati rd simm => Sys2Proof.Machine.execEvsplati rd simm s
  | .evsrwis rd ra uimm => Sys2Proof.Machine.execEvsrwis rd ra uimm s
  | .evsrwiu rd ra uimm => Sys2Proof.Machine.execEvsrwiu rd ra uimm s
  | .evsrws rd ra rb => Sys2Proof.Machine.execEvsrws rd ra rb s
  | .evsrwu rd ra rb => Sys2Proof.Machine.execEvsrwu rd ra rb s
  | .evsubfw rd ra rb => Sys2Proof.Machine.execEvsubfw rd ra rb s
  | .evsubifw rd uimm rb => Sys2Proof.Machine.execEvsubifw rd uimm rb s
  | .evxor rd ra rb => Sys2Proof.Machine.execEvxor rd ra rb s
  | .evmra rd ra => Sys2Proof.Machine.execEvmra rd ra s
  | .evmhegsmfaa rd ra rb => Sys2Proof.Machine.execEvmhegsmfaa rd ra rb s
  | .evmhegsmfan rd ra rb => Sys2Proof.Machine.execEvmhegsmfan rd ra rb s
  | .evmhegsmiaa rd ra rb => Sys2Proof.Machine.execEvmhegsmiaa rd ra rb s
  | .evmhegsmian rd ra rb => Sys2Proof.Machine.execEvmhegsmian rd ra rb s
  | .evmhegumiaa rd ra rb => Sys2Proof.Machine.execEvmhegumiaa rd ra rb s
  | .evmhegumian rd ra rb => Sys2Proof.Machine.execEvmhegumian rd ra rb s
  | .evmhesmf rd ra rb => Sys2Proof.Machine.execEvmhesmf rd ra rb s
  | .evmhesmfa rd ra rb => Sys2Proof.Machine.execEvmhesmfa rd ra rb s
  | .evmhesmi rd ra rb => Sys2Proof.Machine.execEvmhesmi rd ra rb s
  | .evmhesmia rd ra rb => Sys2Proof.Machine.execEvmhesmia rd ra rb s
  | .evmhessf rd ra rb => Sys2Proof.Machine.execEvmhessf rd ra rb s
  | .evmhessfa rd ra rb => Sys2Proof.Machine.execEvmhessfa rd ra rb s
  | .evmheumi rd ra rb => Sys2Proof.Machine.execEvmheumi rd ra rb s
  | .evmheumia rd ra rb => Sys2Proof.Machine.execEvmheumia rd ra rb s
  | .evmhesmfaaw rd ra rb => Sys2Proof.Machine.execEvmhesmfaaw rd ra rb s
  | .evmhesmfanw rd ra rb => Sys2Proof.Machine.execEvmhesmfanw rd ra rb s
  | .evmhesmiaaw rd ra rb => Sys2Proof.Machine.execEvmhesmiaaw rd ra rb s
  | .evmhesmianw rd ra rb => Sys2Proof.Machine.execEvmhesmianw rd ra rb s
  | .evmhessfaaw rd ra rb => Sys2Proof.Machine.execEvmhessfaaw rd ra rb s
  | .evmhessfanw rd ra rb => Sys2Proof.Machine.execEvmhessfanw rd ra rb s
  | .evmhessiaaw rd ra rb => Sys2Proof.Machine.execEvmhessiaaw rd ra rb s
  | .evmhessianw rd ra rb => Sys2Proof.Machine.execEvmhessianw rd ra rb s
  | .evmheumiaaw rd ra rb => Sys2Proof.Machine.execEvmheumiaaw rd ra rb s
  | .evmheumianw rd ra rb => Sys2Proof.Machine.execEvmheumianw rd ra rb s
  | .evmheusiaaw rd ra rb => Sys2Proof.Machine.execEvmheusiaaw rd ra rb s
  | .evmheusianw rd ra rb => Sys2Proof.Machine.execEvmheusianw rd ra rb s
  | .evmhogsmfaa rd ra rb => Sys2Proof.Machine.execEvmhogsmfaa rd ra rb s
  | .evmhogsmfan rd ra rb => Sys2Proof.Machine.execEvmhogsmfan rd ra rb s
  | .evmhogsmiaa rd ra rb => Sys2Proof.Machine.execEvmhogsmiaa rd ra rb s
  | .evmhogsmian rd ra rb => Sys2Proof.Machine.execEvmhogsmian rd ra rb s
  | .evmhogumiaa rd ra rb => Sys2Proof.Machine.execEvmhogumiaa rd ra rb s
  | .evmhogumian rd ra rb => Sys2Proof.Machine.execEvmhogumian rd ra rb s
  | .evmhosmf rd ra rb => Sys2Proof.Machine.execEvmhosmf rd ra rb s
  | .evmhosmfa rd ra rb => Sys2Proof.Machine.execEvmhosmfa rd ra rb s
  | .evmhosmi rd ra rb => Sys2Proof.Machine.execEvmhosmi rd ra rb s
  | .evmhosmia rd ra rb => Sys2Proof.Machine.execEvmhosmia rd ra rb s
  | .evmhossf rd ra rb => Sys2Proof.Machine.execEvmhossf rd ra rb s
  | .evmhossfa rd ra rb => Sys2Proof.Machine.execEvmhossfa rd ra rb s
  | .evmhoumi rd ra rb => Sys2Proof.Machine.execEvmhoumi rd ra rb s
  | .evmhoumia rd ra rb => Sys2Proof.Machine.execEvmhoumia rd ra rb s
  | .evmhosmfaaw rd ra rb => Sys2Proof.Machine.execEvmhosmfaaw rd ra rb s
  | .evmhosmfanw rd ra rb => Sys2Proof.Machine.execEvmhosmfanw rd ra rb s
  | .evmhosmiaaw rd ra rb => Sys2Proof.Machine.execEvmhosmiaaw rd ra rb s
  | .evmhosmianw rd ra rb => Sys2Proof.Machine.execEvmhosmianw rd ra rb s
  | .evmhossfaaw rd ra rb => Sys2Proof.Machine.execEvmhossfaaw rd ra rb s
  | .evmhossfanw rd ra rb => Sys2Proof.Machine.execEvmhossfanw rd ra rb s
  | .evmhossiaaw rd ra rb => Sys2Proof.Machine.execEvmhossiaaw rd ra rb s
  | .evmhossianw rd ra rb => Sys2Proof.Machine.execEvmhossianw rd ra rb s
  | .evmhoumiaaw rd ra rb => Sys2Proof.Machine.execEvmhoumiaaw rd ra rb s
  | .evmhoumianw rd ra rb => Sys2Proof.Machine.execEvmhoumianw rd ra rb s
  | .evmhousiaaw rd ra rb => Sys2Proof.Machine.execEvmhousiaaw rd ra rb s
  | .evmhousianw rd ra rb => Sys2Proof.Machine.execEvmhousianw rd ra rb s
  | .evmwhsmf rd ra rb => Sys2Proof.Machine.execEvmwhsmf rd ra rb s
  | .evmwhsmfa rd ra rb => Sys2Proof.Machine.execEvmwhsmfa rd ra rb s
  | .evmwhsmi rd ra rb => Sys2Proof.Machine.execEvmwhsmi rd ra rb s
  | .evmwhsmia rd ra rb => Sys2Proof.Machine.execEvmwhsmia rd ra rb s
  | .evmwhssf rd ra rb => Sys2Proof.Machine.execEvmwhssf rd ra rb s
  | .evmwhssfa rd ra rb => Sys2Proof.Machine.execEvmwhssfa rd ra rb s
  | .evmwhumi rd ra rb => Sys2Proof.Machine.execEvmwhumi rd ra rb s
  | .evmwhumia rd ra rb => Sys2Proof.Machine.execEvmwhumia rd ra rb s
  | .evmwlumi rd ra rb => Sys2Proof.Machine.execEvmwlumi rd ra rb s
  | .evmwlumia rd ra rb => Sys2Proof.Machine.execEvmwlumia rd ra rb s
  | .evmwlsmiaaw rd ra rb => Sys2Proof.Machine.execEvmwlsmiaaw rd ra rb s
  | .evmwlsmianw rd ra rb => Sys2Proof.Machine.execEvmwlsmianw rd ra rb s
  | .evmwlssiaaw rd ra rb => Sys2Proof.Machine.execEvmwlssiaaw rd ra rb s
  | .evmwlssianw rd ra rb => Sys2Proof.Machine.execEvmwlssianw rd ra rb s
  | .evmwlumiaaw rd ra rb => Sys2Proof.Machine.execEvmwlumiaaw rd ra rb s
  | .evmwlumianw rd ra rb => Sys2Proof.Machine.execEvmwlumianw rd ra rb s
  | .evmwlusiaaw rd ra rb => Sys2Proof.Machine.execEvmwlusiaaw rd ra rb s
  | .evmwlusianw rd ra rb => Sys2Proof.Machine.execEvmwlusianw rd ra rb s
  | .evmwsmf rd ra rb => Sys2Proof.Machine.execEvmwsmf rd ra rb s
  | .evmwsmfa rd ra rb => Sys2Proof.Machine.execEvmwsmfa rd ra rb s
  | .evmwsmfaa rd ra rb => Sys2Proof.Machine.execEvmwsmfaa rd ra rb s
  | .evmwsmfan rd ra rb => Sys2Proof.Machine.execEvmwsmfan rd ra rb s
  | .evmwsmi rd ra rb => Sys2Proof.Machine.execEvmwsmi rd ra rb s
  | .evmwsmia rd ra rb => Sys2Proof.Machine.execEvmwsmia rd ra rb s
  | .evmwsmiaa rd ra rb => Sys2Proof.Machine.execEvmwsmiaa rd ra rb s
  | .evmwsmian rd ra rb => Sys2Proof.Machine.execEvmwsmian rd ra rb s
  | .evmwssf rd ra rb => Sys2Proof.Machine.execEvmwssf rd ra rb s
  | .evmwssfa rd ra rb => Sys2Proof.Machine.execEvmwssfa rd ra rb s
  | .evmwssfaa rd ra rb => Sys2Proof.Machine.execEvmwssfaa rd ra rb s
  | .evmwssfan rd ra rb => Sys2Proof.Machine.execEvmwssfan rd ra rb s
  | .evmwumi rd ra rb => Sys2Proof.Machine.execEvmwumi rd ra rb s
  | .evmwumia rd ra rb => Sys2Proof.Machine.execEvmwumia rd ra rb s
  | .evmwumiaa rd ra rb => Sys2Proof.Machine.execEvmwumiaa rd ra rb s
  | .evmwumian rd ra rb => Sys2Proof.Machine.execEvmwumian rd ra rb s
  | .evaddsmiaaw rd ra => Sys2Proof.Machine.execEvaddsmiaaw rd ra s
  | .evaddssiaaw rd ra => Sys2Proof.Machine.execEvaddssiaaw rd ra s
  | .evaddumiaaw rd ra => Sys2Proof.Machine.execEvaddumiaaw rd ra s
  | .evaddusiaaw rd ra => Sys2Proof.Machine.execEvaddusiaaw rd ra s
  | .evsubfsmiaaw rd ra => Sys2Proof.Machine.execEvsubfsmiaaw rd ra s
  | .evsubfssiaaw rd ra => Sys2Proof.Machine.execEvsubfssiaaw rd ra s
  | .evsubfumiaaw rd ra => Sys2Proof.Machine.execEvsubfumiaaw rd ra s
  | .evsubfusiaaw rd ra => Sys2Proof.Machine.execEvsubfusiaaw rd ra s
  | .evldd rd uimm ra => Sys2Proof.Machine.execEvldd rd uimm ra s
  | .evlddx rd ra rb => Sys2Proof.Machine.execEvlddx rd ra rb s
  | .evldw rd uimm ra => Sys2Proof.Machine.execEvldw rd uimm ra s
  | .evldwx rd ra rb => Sys2Proof.Machine.execEvldwx rd ra rb s
  | .evldh rd uimm ra => Sys2Proof.Machine.execEvldh rd uimm ra s
  | .evldhx rd ra rb => Sys2Proof.Machine.execEvldhx rd ra rb s
  | .evlhhesplat rd uimm ra => Sys2Proof.Machine.execEvlhhesplat rd uimm ra s
  | .evlhhesplatx rd ra rb => Sys2Proof.Machine.execEvlhhesplatx rd ra rb s
  | .evlhhousplat rd uimm ra => Sys2Proof.Machine.execEvlhhousplat rd uimm ra s
  | .evlhhousplatx rd ra rb => Sys2Proof.Machine.execEvlhhousplatx rd ra rb s
  | .evlhhossplat rd uimm ra => Sys2Proof.Machine.execEvlhhossplat rd uimm ra s
  | .evlhhossplatx rd ra rb => Sys2Proof.Machine.execEvlhhossplatx rd ra rb s
  | .evlwhe rd uimm ra => Sys2Proof.Machine.execEvlwhe rd uimm ra s
  | .evlwhex rd ra rb => Sys2Proof.Machine.execEvlwhex rd ra rb s
  | .evlwhou rd uimm ra => Sys2Proof.Machine.execEvlwhou rd uimm ra s
  | .evlwhoux rd ra rb => Sys2Proof.Machine.execEvlwhoux rd ra rb s
  | .evlwhos rd uimm ra => Sys2Proof.Machine.execEvlwhos rd uimm ra s
  | .evlwhosx rd ra rb => Sys2Proof.Machine.execEvlwhosx rd ra rb s
  | .evlwwsplat rd uimm ra => Sys2Proof.Machine.execEvlwwsplat rd uimm ra s
  | .evlwwsplatx rd ra rb => Sys2Proof.Machine.execEvlwwsplatx rd ra rb s
  | .evlwhsplat rd uimm ra => Sys2Proof.Machine.execEvlwhsplat rd uimm ra s
  | .evlwhsplatx rd ra rb => Sys2Proof.Machine.execEvlwhsplatx rd ra rb s
  | .evstdd rs uimm ra => Sys2Proof.Machine.execEvstdd rs uimm ra s
  | .evstddx rs ra rb => Sys2Proof.Machine.execEvstddx rs ra rb s
  | .evstdw rs uimm ra => Sys2Proof.Machine.execEvstdw rs uimm ra s
  | .evstdwx rs ra rb => Sys2Proof.Machine.execEvstdwx rs ra rb s
  | .evstdh rs uimm ra => Sys2Proof.Machine.execEvstdh rs uimm ra s
  | .evstdhx rs ra rb => Sys2Proof.Machine.execEvstdhx rs ra rb s
  | .evstwhe rs uimm ra => Sys2Proof.Machine.execEvstwhe rs uimm ra s
  | .evstwhex rs ra rb => Sys2Proof.Machine.execEvstwhex rs ra rb s
  | .evstwho rs uimm ra => Sys2Proof.Machine.execEvstwho rs uimm ra s
  | .evstwhox rs ra rb => Sys2Proof.Machine.execEvstwhox rs ra rb s
  | .evstwwe rs uimm ra => Sys2Proof.Machine.execEvstwwe rs uimm ra s
  | .evstwwex rs ra rb => Sys2Proof.Machine.execEvstwwex rs ra rb s
  | .evstwwo rs uimm ra => Sys2Proof.Machine.execEvstwwo rs uimm ra s
  | .evstwwox rs ra rb => Sys2Proof.Machine.execEvstwwox rs ra rb s
  | .mfpmr rd pmrn => Sys2Proof.Machine.execMfpmr rd pmrn s
  | .mtpmr pmrn rs => Sys2Proof.Machine.execMtpmr pmrn rs s

end Sys2Proof.Machine
end

