-- ==== Sys2Proof/Machine/Env.lean ====
section
/-! DEFINITION. The inputs of the core: what arriving events do, the processor reset, and the power states
(spec/92_eei_decisions.md section 6; spec/70_reset_and_hazards.md R2400 to R2403; spec/62_perfmon_power.md R2350). -/

namespace Sys2Proof.Machine

/-- A debug register after a processor reset: only what software owns is cleared (61_debug.md R2233). -/
def Debug.resetWord (d : Debug) (r : Spr) (v : Word) : Word := insertBits v (d.ownMask r) 0#32

/-- The debug registers after a processor reset (61_debug.md R2233); DBCR0[RST] is always cleared. -/
def Debug.reset (d : Debug) : Debug :=
  { d with
    dbcr0 := d.resetWord .dbcr0 d.dbcr0 &&& ~~~0x30000000#32
    dbcr1 := d.resetWord .dbcr1 d.dbcr1
    dbcr2 := d.resetWord .dbcr2 d.dbcr2
    dbcr3 := d.resetWord .dbcr3 d.dbcr3
    dbcr4 := d.resetWord .dbcr4 d.dbcr4
    dbcr5 := d.resetWord .dbcr5 d.dbcr5
    dbcr6 := d.resetWord .dbcr6 d.dbcr6
    dbsr := 0x10000000#32
    iac := vmap (fun n v => d.resetWord (.iac (Fin.ofNat 8 n)) v) d.iac
    dac1 := d.resetWord .dac1 d.dac1
    dac2 := d.resetWord .dac2 d.dac2
    devent := d.resetWord .devent d.devent
    ddam := d.resetWord .ddam d.ddam
    halted := false
    dvcPend := none
    cirptDue := false
    exiting := false }

/-- The debug registers after a debug-port reset (70_reset_and_hazards.md R2400, R2403): what belongs to the debugger. -/
def Debug.portReset (d : Debug) : Debug :=
  { d with
    edbcr0 := 0, edbsr0 := 0, edbsrmsk0 := 0, dberc0 := 0
    dbcr0 := d.dbcr0 &&& 0x7FFFFFFF#32 }

/-- The TLB after a reset (21_mmu.md R342). -/
def Mmu.reset (m : Mmu) (p : Pins) : Mmu :=
  { m with
    pid0 := 0#32
    tlb := vmap (fun i t => if i = 0 then TlbEntry.atReset p else { t with v := false }) m.tlb }

/-- The caches after a reset: disabled, not invalidated (22_cache.md R404; 70_reset_and_hazards.md R2402). DESIGN CHOICE: CDACNTL
and CDADATA keep their value across `p_reset_b`; the spec does not state it (R2403, 91_not_in_source.md N62; log entry 13). -/
def Caches.reset (c : Caches) : Caches :=
  { c with
    icache := { c.icache with rp := 0 }
    dcache := { c.dcache with rp := 0 }
    l1csr0 := 0, l1csr1 := 0, l1finv0 := 0, l1finv1 := 0, hdbcr0 := 0 }

/-- The bytes that buffered stores replaced, each back in memory or not: a reset may come before the store buffer has written
them (93_implementation_defined.md U60). -/
def State.revert (s : State) : List Host.Cell → State
  | [] => s
  | (a, b) :: l =>
    { s with mem := if Config.freeBit s.free then s.mem.put a b else s.mem, free := s.free + 1 }.revert l

/-- A processor reset, `p_reset_b` (70_reset_and_hazards.md R2401 to R2403): what no rule resets stays, CSRR0, CSRR1 and
DEAR become free (93_implementation_defined.md U71); the buffers are empty, but the instruction cache may still hold older bytes
(22_cache.md R404, R434). -/
def State.processorReset (s : State) : State :=
  let r := State.resetWith s.pins
  let s := s.revert s.buf.replaced
  { s with
    pc := r.pc, xer := 0, spefscr := 0, msr := 0, resv := false
    ints :=
      { s.ints with
        csrr0 := Config.freeWord s.free
        csrr1 := Config.freeWord (s.free + 1)
        dear := Config.freeWord (s.free + 2)
        esr := 0, mcsr := 0, nmiPend := false, handlerFetch := false }
    hid := r.hid
    tmr := { s.tmr with tcr := 0, tsr := 0 }
    mmu := s.mmu.reset s.pins
    cache := s.cache.reset
    dbg := s.dbg.reset
    pm := r.pm
    psu := { s.psu with pscr := 0 }
    pwr := r.pwr
    buf := { Buffers.none with unpurged := s.buf.unpurged }
    sync := Sync.none
    free := s.free + 3
    cur := r.cur }

/-- A power-on reset, `m_por` (70_reset_and_hazards.md R2401): everything as at the start of the model, but memory, whose
contents stay (log entry 50). -/
def State.powerOn (s : State) : State :=
  { State.resetWith s.pins with mem := (s.revert s.buf.replaced).mem, env := s.env, free := s.free + s.buf.replaced.length }

/-- A 0 to 1 transition of an event input `wp` (10 for `p_devt1`, 11 for `p_devt2`): its watchpoint, and its event if
enabled (61_debug.md R2216, R2236). -/
def State.devtEvent (s : State) (wp : Nat) (bit : Word) : State :=
  if s.debugOn then
    let s := { s with ev := { s.ev with wp := s.ev.wp ||| (1#30 <<< wp) } }
    s.postIf bit bit bit none s.msrDe
  else s

/-- A change of `p_pmc0_qual` to `p_pmc3_qual`. -/
def State.setQual (s : State) (v : BitVec 4) : State :=
  { s with
    pins := { s.pins with pmcQual := v }
    ev :=
      { s.ev with
        qualRise := s.ev.qualRise ||| (v &&& ~~~s.pins.pmcQual)
        qualFall := s.ev.qualFall ||| (s.pins.pmcQual &&& ~~~v) } }

/-- A write of EDBCR0: EDM is DBCR0's; while it is 0, EDBSR0 and EDBSRMSK0 are held reset (64_external_debug_psu.md R2250
to R2252). -/
def Debug.setEdbcr0 (d : Debug) (v : Word) : Debug :=
  let d := { d with edbcr0 := v &&& 0xF0000000#32, dbcr0 := putBits d.dbcr0 0x80000000#32 (v.getLsbD 31) }
  if v.getLsbD 31 then d else { d with edbsr0 := 0, edbsrmsk0 := 0 }

/-- What the external debugger does through the debug port, while OnCE operation is enabled (64_external_debug_psu.md R2254). -/
def State.onced (s t : State) : State := if s.pins.enOnce then t else s

/-- What an arriving input does (00_scope.md R6; 92_eei_decisions.md section 6). -/
def State.arrive (s : State) (e : EnvEvent) : State :=
  match e with
  | .tick => s.tick
  | .extint on avec voffset => { s with pins := { s.pins with extint := on, avec := avec, voffset := voffset } }
  | .critint on avec voffset => { s with pins := { s.pins with critint := on, avec := avec, voffset := voffset } }
  | .nmi on =>
    { s with
      ints := { s.ints with nmiPend := s.ints.nmiPend || (on && !s.pins.nmi) }
      pins := { s.pins with nmi := on } }
  | .mcp on =>
    let s' := { s with pins := { s.pins with mcp := on } }
    if on && !s.pins.mcp && s.hidEmcp then s'.orMcsr 0x80000000#32 else s'
  | .ude on =>
    let s' := { s with pins := { s.pins with ude := on } }
    if on && !s.pins.ude && s.debugOn then s'.postEvent 0x10000000#32 dbUde none s.msrDe else s'
  | .devt1 on =>
    let s' := { s with pins := { s.pins with devt1 := on } }
    if on && !s.pins.devt1 then s'.devtEvent 10 dbDevt1 else s'
  | .devt2 on =>
    let s' := { s with pins := { s.pins with devt2 := on } }
    if on && !s.pins.devt2 then s'.devtEvent 11 dbDevt2 else s'
  | .halt on => { s with pins := { s.pins with halt := on } }
  | .stop on => { s with pins := { s.pins with stop := on } }
  | .tbdisable on => { s with pins := { s.pins with tbdisable := on } }
  | .extpid en v => { s with pins := { s.pins with extpidEn := en, extpid := v } }
  | .pmEvent on =>
    let s' := { s with pins := { s.pins with pmEvent := on } }
    if on && !s.pins.pmEvent then
      { s' with
        ev :=
          { s'.ev with
            pmEdges := s'.ev.pmEdges + 1
            wp := if s.debugOn then s'.ev.wp ||| 0x00400000#30 else s'.ev.wp } }
    else s'
  | .pmcQual v => s.setQual v
  | .xfail on => { s with pins := { s.pins with xfail := on } }
  | .enOnce on => { s with pins := { s.pins with enOnce := on } }
  | .rsrvClr => { s with resv := false }
  | .snoopInv ra => s.queueSnoop ra
  | .snoopSync => s.syncSnoops
  | .powerOn => s.powerOn
  | .reset => (State.snoopSome s.snoopsDue s).processorReset
  | .debugReset => { s with dbg := s.dbg.portReset }
  | .debugRequest => s.onced s.enterHalt
  | .setEdbcr0 v => s.onced { s with dbg := s.dbg.setEdbcr0 v }
  | .setEdbsrmsk0 v => s.onced (if s.dbg.edm then { s with dbg := { s.dbg with edbsrmsk0 := v &&& 0x6FFF87E0#32 } } else s)
  | .setDberc0 v => s.onced { s with dbg := { s.dbg with dberc0 := v &&& 0x7FFAFFF9#32 } }
  | .clearEdbsr0 v => s.onced { s with dbg := { s.dbg with edbsr0 := s.dbg.edbsr0 &&& ~~~v } }
  | .debugExit pc =>
    s.onced <|
      if s.dbg.halted then { s with dbg := { s.dbg with halted := false, exiting := true }, pc := pc &&& 0xFFFFFFFE#32 } else s

/-- Inputs that arrive one after the other. -/
def State.arriveAll (s : State) : List EnvEvent → State
  | [] => s
  | e :: l => (s.arrive e).arriveAll l

/-- Entry to the Halted state: the store buffer is emptied first (62_perfmon_power.md R2350). -/
def State.toHalted (s : State) : State := let t := s.flushBuffers; { t with pwr := { t.pwr with halted := true } }

/-- Entry to the Stopped state: every snoop in the queue is processed first (62_perfmon_power.md R2350). -/
def State.toStopped (s : State) : State :=
  let t := State.snoopSome s.buf.snoops.length s
  { t with pwr := { t.pwr with stopped := true, halted := false } }

/-- The power state one step later (62_perfmon_power.md R2350, R2354): a debug session keeps it. That `p_halt` is followed at the
next boundary, with no further instruction, and that `p_stop` does nothing until the core is Halted, is the model's choice
(DESIGN CHOICE, log entry 67; 65_external_signals.md R2633). -/
def State.powerStep (s : State) : State :=
  if s.dbg.halted then s
  else if s.pwr.stopped then
    if s.pins.stop then s else { s with pwr := { s.pwr with stopped := false, halted := true } }
  else if s.pwr.halted then
    if s.pins.stop then s.toStopped
    else if s.pins.halt then s
    else { s with pwr := { s.pwr with halted := false } }
  else if s.pins.halt then s.toHalted
  else s

/-- The core asks for a reset that the platform wires back (70_reset_and_hazards.md R2404; 92_eei_decisions.md D65): TSR[WRS]
or DBCR0[RST]. That the reserved value 11 of DBCR0[RST] asks for one as 01 and 10 do is the model's choice (DESIGN CHOICE, log
entry 30; 61_debug.md R2220). -/
def State.resetAsked (s : State) : Bool :=
  (s.pins.resetOnWrs && s.tmr.tsr &&& 0x30000000#32 != 0#32) ||
    (s.pins.resetOnDbrstc && s.dbg.dbcr0 &&& 0x30000000#32 != 0#32)

/-- No events yet, but the counters' watchpoints of the step before, which the performance monitor sees now (61_debug.md R2236)
if any of it is in use. -/
def State.clearEvents (s : State) : State :=
  { s with ev := { Ev.none with wp := if s.pm.quiet then 0#30 else s.ev.wp &&& 0x07800000#30 } }

/-- The inputs of a step arrive, the first batch of `env`. -/
def State.takeInputs (s : State) : State :=
  match s.env with
  | [] => s
  | b :: l => { s with env := l }.arriveAll b

/-- The beginning of a step: the events of the step before are cleared, the inputs of this step arrive, the power state follows
them (which empties the store buffer on the way to Halted, before any snoop is served: 60_exceptions.md R2039), some of the work
in the buffers is finished, and a reset that the core asked for is done. -/
def State.begin (s : State) : State :=
  let s := s.clearEvents.takeInputs.powerStep.settleBuffers
  if s.resetAsked then s.processorReset else s

end Sys2Proof.Machine
end

