-- ==== Sys2Proof/WellFormed.lean ====
section
/-! DEFINITION. Which instruction terms stand for an encoding: the register operands of the 16-bit VLE forms are
registers their 4-bit fields can name (44_vle.md R1020), and OIMM is 1 to 32 (44_vle.md R1067). -/

namespace Sys2Proof

/-- r0 to r7 or r24 to r31 (44_vle.md R1020). -/
def Gpr.isShort (r : Gpr) : Bool := r.toNat < 8 || 24 ≤ r.toNat
/-- r8 to r23 (44_vle.md R1020). -/
def Gpr.isAlt (r : Gpr) : Bool := 8 ≤ r.toNat && r.toNat < 24
/-- 1 to 32 (44_vle.md R1067). -/
def oimmOk (v : BitVec 6) : Bool := 1 ≤ v.toNat && v.toNat ≤ 32

/-- The term stands for an encoding. -/
def Instr.wellFormed (i : Instr) : Bool :=
  match i with
  | .tlbre => true
  | .tlbwe => true
  | .tlbsx .. => true
  | .tlbivax .. => true
  | .tlbsync => true
  | .icbi .. => true
  | .icbt .. => true
  | .dcba .. => true
  | .dcbf .. => true
  | .dcbi .. => true
  | .dcbst .. => true
  | .dcbt .. => true
  | .dcbtst .. => true
  | .dcbz .. => true
  | .dcbtls .. => true
  | .dcbtstls .. => true
  | .dcblc .. => true
  | .icbtls .. => true
  | .icblc .. => true
  | .addi .. => true
  | .addis .. => true
  | .addic .. => true
  | .addicDot .. => true
  | .subfic .. => true
  | .mulli .. => true
  | .add .. => true
  | .addc .. => true
  | .adde .. => true
  | .addme .. => true
  | .addze .. => true
  | .subf .. => true
  | .subfc .. => true
  | .subfe .. => true
  | .subfme .. => true
  | .subfze .. => true
  | .neg .. => true
  | .mullw .. => true
  | .divw .. => true
  | .divwu .. => true
  | .mulhw .. => true
  | .mulhwu .. => true
  | .cmpi .. => true
  | .cmp .. => true
  | .cmpli .. => true
  | .cmpl .. => true
  | .andiDot .. => true
  | .andisDot .. => true
  | .ori .. => true
  | .oris .. => true
  | .xori .. => true
  | .xoris .. => true
  | .and .. => true
  | .andc .. => true
  | .or .. => true
  | .orc .. => true
  | .xor .. => true
  | .nand .. => true
  | .nor .. => true
  | .eqv .. => true
  | .extsb .. => true
  | .extsh .. => true
  | .cntlzw .. => true
  | .rlwinm .. => true
  | .rlwimi .. => true
  | .rlwnm .. => true
  | .slw .. => true
  | .srw .. => true
  | .sraw .. => true
  | .srawi .. => true
  | .lbz .. => true
  | .lbzu .. => true
  | .lhz .. => true
  | .lhzu .. => true
  | .lha .. => true
  | .lhau .. => true
  | .lwz .. => true
  | .lwzu .. => true
  | .stb .. => true
  | .stbu .. => true
  | .sth .. => true
  | .sthu .. => true
  | .stw .. => true
  | .stwu .. => true
  | .lbzx .. => true
  | .lbzux .. => true
  | .lhzx .. => true
  | .lhzux .. => true
  | .lhax .. => true
  | .lhaux .. => true
  | .lwzx .. => true
  | .lwzux .. => true
  | .stbx .. => true
  | .stbux .. => true
  | .sthx .. => true
  | .sthux .. => true
  | .stwx .. => true
  | .stwux .. => true
  | .lhbrx .. => true
  | .lwbrx .. => true
  | .sthbrx .. => true
  | .stwbrx .. => true
  | .lmw .. => true
  | .stmw .. => true
  | .b .. => true
  | .bc .. => true
  | .bclr .. => true
  | .bcctr .. => true
  | .crand .. => true
  | .crandc .. => true
  | .creqv .. => true
  | .crnand .. => true
  | .crnor .. => true
  | .cror .. => true
  | .crorc .. => true
  | .crxor .. => true
  | .mcrf .. => true
  | .mcrxr .. => true
  | .mfcr .. => true
  | .mtcrf .. => true
  | .tw .. => true
  | .twi .. => true
  | .sc => true
  | .rfi => true
  | .rfci => true
  | .isync => true
  | .mfmsr .. => true
  | .mtmsr .. => true
  | .wrtee .. => true
  | .wrteei .. => true
  | .mfspr .. => true
  | .mtspr .. => true
  | .isel .. => true
  | .rfdi => true
  | .rfmci => true
  | .dnh .. => true
  | .wait => true
  | .msync => true
  | .mbar .. => true
  | .mfdcr .. => true
  | .mtdcr .. => true
  | .lbarx .. => true
  | .lharx .. => true
  | .lwarx .. => true
  | .stbcxDot .. => true
  | .sthcxDot .. => true
  | .stwcxDot .. => true
  | .eLmvgprw .. => true
  | .eStmvgprw .. => true
  | .eLmvsprw .. => true
  | .eStmvsprw .. => true
  | .eLmvsrrw .. => true
  | .eStmvsrrw .. => true
  | .eLmvcsrrw .. => true
  | .eStmvcsrrw .. => true
  | .eLmvdsrrw .. => true
  | .eStmvdsrrw .. => true
  | .eLmvmcsrrw .. => true
  | .eStmvmcsrrw .. => true
  | .seIllegal => true
  | .seIsync => true
  | .seSc => true
  | .seBlr .. => true
  | .seBctr .. => true
  | .seRfi => true
  | .seRfci => true
  | .seRfdi => true
  | .seRfmci => true
  | .seDnh => true
  | .seNot rx => Gpr.isShort rx
  | .seNeg rx => Gpr.isShort rx
  | .seMflr rx => Gpr.isShort rx
  | .seMtlr rx => Gpr.isShort rx
  | .seMfctr rx => Gpr.isShort rx
  | .seMtctr rx => Gpr.isShort rx
  | .seExtzb rx => Gpr.isShort rx
  | .seExtsb rx => Gpr.isShort rx
  | .seExtzh rx => Gpr.isShort rx
  | .seExtsh rx => Gpr.isShort rx
  | .seMr rx ry => Gpr.isShort rx && Gpr.isShort ry
  | .seMtar arx ry => Gpr.isAlt arx && Gpr.isShort ry
  | .seMfar rx ary => Gpr.isShort rx && Gpr.isAlt ary
  | .seAdd rx ry => Gpr.isShort rx && Gpr.isShort ry
  | .seMullw rx ry => Gpr.isShort rx && Gpr.isShort ry
  | .seSub rx ry => Gpr.isShort rx && Gpr.isShort ry
  | .seSubf rx ry => Gpr.isShort rx && Gpr.isShort ry
  | .seCmp rx ry => Gpr.isShort rx && Gpr.isShort ry
  | .seCmpl rx ry => Gpr.isShort rx && Gpr.isShort ry
  | .seCmph rx ry => Gpr.isShort rx && Gpr.isShort ry
  | .seCmphl rx ry => Gpr.isShort rx && Gpr.isShort ry
  | .seSrw rx ry => Gpr.isShort rx && Gpr.isShort ry
  | .seSraw rx ry => Gpr.isShort rx && Gpr.isShort ry
  | .seSlw rx ry => Gpr.isShort rx && Gpr.isShort ry
  | .seOr rx ry => Gpr.isShort rx && Gpr.isShort ry
  | .seAndc rx ry => Gpr.isShort rx && Gpr.isShort ry
  | .seAnd rx ry _ => Gpr.isShort rx && Gpr.isShort ry
  | .seAddi rx oimm => Gpr.isShort rx && oimmOk oimm
  | .seCmpli rx oimm => Gpr.isShort rx && oimmOk oimm
  | .seSubi rx oimm _ => Gpr.isShort rx && oimmOk oimm
  | .seCmpi rx _ => Gpr.isShort rx
  | .seBmaski rx _ => Gpr.isShort rx
  | .seAndi rx _ => Gpr.isShort rx
  | .seBclri rx _ => Gpr.isShort rx
  | .seBgeni rx _ => Gpr.isShort rx
  | .seBseti rx _ => Gpr.isShort rx
  | .seBtsti rx _ => Gpr.isShort rx
  | .seSrwi rx _ => Gpr.isShort rx
  | .seSrawi rx _ => Gpr.isShort rx
  | .seSlwi rx _ => Gpr.isShort rx
  | .seLi rx _ => Gpr.isShort rx
  | .seLbz rz _ rx => Gpr.isShort rz && Gpr.isShort rx
  | .seStb rz _ rx => Gpr.isShort rz && Gpr.isShort rx
  | .seLhz rz _ rx => Gpr.isShort rz && Gpr.isShort rx
  | .seSth rz _ rx => Gpr.isShort rz && Gpr.isShort rx
  | .seLwz rz _ rx => Gpr.isShort rz && Gpr.isShort rx
  | .seStw rz _ rx => Gpr.isShort rz && Gpr.isShort rx
  | .seB .. => true
  | .seBc .. => true
  | .eLbz .. => true
  | .eStb .. => true
  | .eLha .. => true
  | .eLwz .. => true
  | .eStw .. => true
  | .eLhz .. => true
  | .eSth .. => true
  | .eAdd16i .. => true
  | .eLbzu .. => true
  | .eLhzu .. => true
  | .eLwzu .. => true
  | .eLhau .. => true
  | .eStbu .. => true
  | .eSthu .. => true
  | .eStwu .. => true
  | .eLmw .. => true
  | .eStmw .. => true
  | .eAddi .. => true
  | .eAddic .. => true
  | .eMulli .. => true
  | .eCmpi .. => true
  | .eCmpli .. => true
  | .eSubfic .. => true
  | .eAndi .. => true
  | .eOri .. => true
  | .eXori .. => true
  | .eLi .. => true
  | .eAdd2iDot .. => true
  | .eAdd2is .. => true
  | .eCmp16i .. => true
  | .eMull2i .. => true
  | .eCmpl16i .. => true
  | .eCmph16i .. => true
  | .eCmphl16i .. => true
  | .eOr2i .. => true
  | .eAnd2iDot .. => true
  | .eOr2is .. => true
  | .eLis .. => true
  | .eAnd2isDot .. => true
  | .eRlwimi .. => true
  | .eRlwinm .. => true
  | .eB .. => true
  | .eBc .. => true
  | .eCmph .. => true
  | .eCmphl .. => true
  | .eMcrf .. => true
  | .eCrnor .. => true
  | .eCrandc .. => true
  | .eCrxor .. => true
  | .eCrnand .. => true
  | .eCrand .. => true
  | .eCreqv .. => true
  | .eCrorc .. => true
  | .eCror .. => true
  | .eSlwi .. => true
  | .eRlw .. => true
  | .eRlwi .. => true
  | .eSrwi .. => true
  | .eDnh .. => true
  | .efsabs .. => true
  | .efsnabs .. => true
  | .efsneg .. => true
  | .efsadd .. => true
  | .efssub .. => true
  | .efsmul .. => true
  | .efsdiv .. => true
  | .efsmadd .. => true
  | .efsmsub .. => true
  | .efsnmadd .. => true
  | .efsnmsub .. => true
  | .efssqrt .. => true
  | .efsmax .. => true
  | .efsmin .. => true
  | .efscmpgt .. => true
  | .efscmplt .. => true
  | .efscmpeq .. => true
  | .efststgt .. => true
  | .efststlt .. => true
  | .efststeq .. => true
  | .efscfsi .. => true
  | .efscfui .. => true
  | .efscfsf .. => true
  | .efscfuf .. => true
  | .efsctsi .. => true
  | .efsctsiz .. => true
  | .efsctui .. => true
  | .efsctuiz .. => true
  | .efsctsf .. => true
  | .efsctuf .. => true
  | .efscfh .. => true
  | .efscth .. => true
  | .evfsabs .. => true
  | .evfsnabs .. => true
  | .evfsneg .. => true
  | .evfsadd .. => true
  | .evfssub .. => true
  | .evfsaddsub .. => true
  | .evfssubadd .. => true
  | .evfsaddx .. => true
  | .evfssubx .. => true
  | .evfsaddsubx .. => true
  | .evfssubaddx .. => true
  | .evfssum .. => true
  | .evfsdiff .. => true
  | .evfssumdiff .. => true
  | .evfsdiffsum .. => true
  | .evfsmul .. => true
  | .evfsmule .. => true
  | .evfsmulo .. => true
  | .evfsmulx .. => true
  | .evfsdiv .. => true
  | .evfssqrt .. => true
  | .evfsmadd .. => true
  | .evfsmsub .. => true
  | .evfsnmadd .. => true
  | .evfsnmsub .. => true
  | .evfsmax .. => true
  | .evfsmin .. => true
  | .evfscmpgt .. => true
  | .evfscmplt .. => true
  | .evfscmpeq .. => true
  | .evfststgt .. => true
  | .evfststlt .. => true
  | .evfststeq .. => true
  | .evfscfsi .. => true
  | .evfscfui .. => true
  | .evfscfsf .. => true
  | .evfscfuf .. => true
  | .evfsctsi .. => true
  | .evfsctsiz .. => true
  | .evfsctui .. => true
  | .evfsctuiz .. => true
  | .evfsctsf .. => true
  | .evfsctuf .. => true
  | .evfscfh .. => true
  | .evfscth .. => true
  | .brinc .. => true
  | .evabs .. => true
  | .evaddiw .. => true
  | .evaddw .. => true
  | .evand .. => true
  | .evandc .. => true
  | .evcmpeq .. => true
  | .evcmpgts .. => true
  | .evcmpgtu .. => true
  | .evcmplts .. => true
  | .evcmpltu .. => true
  | .evcntlsw .. => true
  | .evcntlzw .. => true
  | .evdivws .. => true
  | .evdivwu .. => true
  | .eveqv .. => true
  | .evextsb .. => true
  | .evextsh .. => true
  | .evmergehi .. => true
  | .evmergehilo .. => true
  | .evmergelo .. => true
  | .evmergelohi .. => true
  | .evnand .. => true
  | .evneg .. => true
  | .evnor .. => true
  | .evor .. => true
  | .evorc .. => true
  | .evrlw .. => true
  | .evrlwi .. => true
  | .evrndw .. => true
  | .evsel .. => true
  | .evslw .. => true
  | .evslwi .. => true
  | .evsplatfi .. => true
  | .evsplati .. => true
  | .evsrwis .. => true
  | .evsrwiu .. => true
  | .evsrws .. => true
  | .evsrwu .. => true
  | .evsubfw .. => true
  | .evsubifw .. => true
  | .evxor .. => true
  | .evmra .. => true
  | .evmhegsmfaa .. => true
  | .evmhegsmfan .. => true
  | .evmhegsmiaa .. => true
  | .evmhegsmian .. => true
  | .evmhegumiaa .. => true
  | .evmhegumian .. => true
  | .evmhesmf .. => true
  | .evmhesmfa .. => true
  | .evmhesmi .. => true
  | .evmhesmia .. => true
  | .evmhessf .. => true
  | .evmhessfa .. => true
  | .evmheumi .. => true
  | .evmheumia .. => true
  | .evmhesmfaaw .. => true
  | .evmhesmfanw .. => true
  | .evmhesmiaaw .. => true
  | .evmhesmianw .. => true
  | .evmhessfaaw .. => true
  | .evmhessfanw .. => true
  | .evmhessiaaw .. => true
  | .evmhessianw .. => true
  | .evmheumiaaw .. => true
  | .evmheumianw .. => true
  | .evmheusiaaw .. => true
  | .evmheusianw .. => true
  | .evmhogsmfaa .. => true
  | .evmhogsmfan .. => true
  | .evmhogsmiaa .. => true
  | .evmhogsmian .. => true
  | .evmhogumiaa .. => true
  | .evmhogumian .. => true
  | .evmhosmf .. => true
  | .evmhosmfa .. => true
  | .evmhosmi .. => true
  | .evmhosmia .. => true
  | .evmhossf .. => true
  | .evmhossfa .. => true
  | .evmhoumi .. => true
  | .evmhoumia .. => true
  | .evmhosmfaaw .. => true
  | .evmhosmfanw .. => true
  | .evmhosmiaaw .. => true
  | .evmhosmianw .. => true
  | .evmhossfaaw .. => true
  | .evmhossfanw .. => true
  | .evmhossiaaw .. => true
  | .evmhossianw .. => true
  | .evmhoumiaaw .. => true
  | .evmhoumianw .. => true
  | .evmhousiaaw .. => true
  | .evmhousianw .. => true
  | .evmwhsmf .. => true
  | .evmwhsmfa .. => true
  | .evmwhsmi .. => true
  | .evmwhsmia .. => true
  | .evmwhssf .. => true
  | .evmwhssfa .. => true
  | .evmwhumi .. => true
  | .evmwhumia .. => true
  | .evmwlumi .. => true
  | .evmwlumia .. => true
  | .evmwlsmiaaw .. => true
  | .evmwlsmianw .. => true
  | .evmwlssiaaw .. => true
  | .evmwlssianw .. => true
  | .evmwlumiaaw .. => true
  | .evmwlumianw .. => true
  | .evmwlusiaaw .. => true
  | .evmwlusianw .. => true
  | .evmwsmf .. => true
  | .evmwsmfa .. => true
  | .evmwsmfaa .. => true
  | .evmwsmfan .. => true
  | .evmwsmi .. => true
  | .evmwsmia .. => true
  | .evmwsmiaa .. => true
  | .evmwsmian .. => true
  | .evmwssf .. => true
  | .evmwssfa .. => true
  | .evmwssfaa .. => true
  | .evmwssfan .. => true
  | .evmwumi .. => true
  | .evmwumia .. => true
  | .evmwumiaa .. => true
  | .evmwumian .. => true
  | .evaddsmiaaw .. => true
  | .evaddssiaaw .. => true
  | .evaddumiaaw .. => true
  | .evaddusiaaw .. => true
  | .evsubfsmiaaw .. => true
  | .evsubfssiaaw .. => true
  | .evsubfumiaaw .. => true
  | .evsubfusiaaw .. => true
  | .evldd .. => true
  | .evlddx .. => true
  | .evldw .. => true
  | .evldwx .. => true
  | .evldh .. => true
  | .evldhx .. => true
  | .evlhhesplat .. => true
  | .evlhhesplatx .. => true
  | .evlhhousplat .. => true
  | .evlhhousplatx .. => true
  | .evlhhossplat .. => true
  | .evlhhossplatx .. => true
  | .evlwhe .. => true
  | .evlwhex .. => true
  | .evlwhou .. => true
  | .evlwhoux .. => true
  | .evlwhos .. => true
  | .evlwhosx .. => true
  | .evlwwsplat .. => true
  | .evlwwsplatx .. => true
  | .evlwhsplat .. => true
  | .evlwhsplatx .. => true
  | .evstdd .. => true
  | .evstddx .. => true
  | .evstdw .. => true
  | .evstdwx .. => true
  | .evstdh .. => true
  | .evstdhx .. => true
  | .evstwhe .. => true
  | .evstwhex .. => true
  | .evstwho .. => true
  | .evstwhox .. => true
  | .evstwwe .. => true
  | .evstwwex .. => true
  | .evstwwo .. => true
  | .evstwwox .. => true
  | .mfpmr .. => true
  | .mtpmr .. => true

end Sys2Proof
end

