-- ==== Sys2Proof/Decode.lean ====
section
/-! DEFINITION. The decoder of the e200z759n3 (spec/30_encoding.md section 3, spec/44_vle.md part B), total on any bytes,
and after it the encoder, written from the same encoding tables. A word that matches no row of the opcode table is
rejected by name: it is an illegal instruction (30_encoding.md R520, R521; 44_vle.md R1099, R2798). -/

namespace Sys2Proof

/-- Why some bytes are no instruction. `illegal`: the encoding is unassigned or has a reserved field that is not
zero (30_encoding.md R520, R521), safe: the machine raises the Illegal Instruction exception. `truncated`: fewer bytes
than the instruction has. -/
inductive Reject where
  | illegal
  | truncated
deriving DecidableEq, Repr

/-- An encoded instruction: one halfword or one word (30_encoding.md R502). -/
inductive Enc where
  | half (h : Half)
  | word (w : Word)
deriving DecidableEq, Repr

/-- Bits 6:10 of a word. -/
def fldD (w : Word) : BitVec 5 := w.extractLsb' 21 5
/-- Bits 11:15 of a word. -/
def fldA (w : Word) : BitVec 5 := w.extractLsb' 16 5
/-- Bits 16:20 of a word. -/
def fldB (w : Word) : BitVec 5 := w.extractLsb' 11 5
/-- Bits 21:31 of a word. -/
def fldX (w : Word) : BitVec 11 := w.extractLsb' 0 11
/-- Bits 16:31 of a word. -/
def fldI (w : Word) : BitVec 16 := w.extractLsb' 0 16

/-- The GPR a 4-bit VLE register field names (44_vle.md R1020). -/
def reg4 (f : BitVec 4) : Gpr := if f.toNat < 8 then f.zeroExtend 5 else f.zeroExtend 5 + 16#5
/-- The GPR a 4-bit alternate register field names (44_vle.md R1020). -/
def areg4 (f : BitVec 4) : Gpr := f.zeroExtend 5 + 8#5
/-- The value 1 to 32 of an OIM5 field (44_vle.md R1067). -/
def oimm (f : BitVec 5) : BitVec 6 := f.zeroExtend 6 + 1#6

/-- The instruction, when the reserved fields are as they must be. -/
def need (c : Bool) (i : Instr) : Option Instr := if c then some i else none

/-- Primary opcode 4 (30_encoding.md R543), extended opcodes 512 to 543. -/
noncomputable def decodeEvG16 (w : Word) (lo : Nat) : Option Instr :=
  match lo with
  | 0 => some (.evaddw (fldD w) (fldA w) (fldB w))
  | 2 => some (.evaddiw (fldD w) (fldB w) (fldA w))
  | 4 => some (.evsubfw (fldD w) (fldA w) (fldB w))
  | 6 => some (.evsubifw (fldD w) (fldA w) (fldB w))
  | 8 => need (decide (fldB w = 0#5)) (.evabs (fldD w) (fldA w))
  | 9 => need (decide (fldB w = 0#5)) (.evneg (fldD w) (fldA w))
  | 10 => need (decide (fldB w = 0#5)) (.evextsb (fldD w) (fldA w))
  | 11 => need (decide (fldB w = 0#5)) (.evextsh (fldD w) (fldA w))
  | 12 => need (decide (fldB w = 0#5)) (.evrndw (fldD w) (fldA w))
  | 13 => need (decide (fldB w = 0#5)) (.evcntlzw (fldD w) (fldA w))
  | 14 => need (decide (fldB w = 0#5)) (.evcntlsw (fldD w) (fldA w))
  | 15 => some (.brinc (fldD w) (fldA w) (fldB w))
  | 17 => some (.evand (fldD w) (fldA w) (fldB w))
  | 18 => some (.evandc (fldD w) (fldA w) (fldB w))
  | 22 => some (.evxor (fldD w) (fldA w) (fldB w))
  | 23 => some (.evor (fldD w) (fldA w) (fldB w))
  | 24 => some (.evnor (fldD w) (fldA w) (fldB w))
  | 25 => some (.eveqv (fldD w) (fldA w) (fldB w))
  | 27 => some (.evorc (fldD w) (fldA w) (fldB w))
  | 30 => some (.evnand (fldD w) (fldA w) (fldB w))
  | _ => none

/-- Primary opcode 4 (30_encoding.md R543), extended opcodes 544 to 575. -/
noncomputable def decodeEvG17 (w : Word) (lo : Nat) : Option Instr :=
  match lo with
  | 0 => some (.evsrwu (fldD w) (fldA w) (fldB w))
  | 1 => some (.evsrws (fldD w) (fldA w) (fldB w))
  | 2 => some (.evsrwiu (fldD w) (fldA w) (fldB w))
  | 3 => some (.evsrwis (fldD w) (fldA w) (fldB w))
  | 4 => some (.evslw (fldD w) (fldA w) (fldB w))
  | 6 => some (.evslwi (fldD w) (fldA w) (fldB w))
  | 8 => some (.evrlw (fldD w) (fldA w) (fldB w))
  | 9 => need (decide (fldB w = 0#5)) (.evsplati (fldD w) (fldA w))
  | 10 => some (.evrlwi (fldD w) (fldA w) (fldB w))
  | 11 => need (decide (fldB w = 0#5)) (.evsplatfi (fldD w) (fldA w))
  | 12 => some (.evmergehi (fldD w) (fldA w) (fldB w))
  | 13 => some (.evmergelo (fldD w) (fldA w) (fldB w))
  | 14 => some (.evmergehilo (fldD w) (fldA w) (fldB w))
  | 15 => some (.evmergelohi (fldD w) (fldA w) (fldB w))
  | 16 => need (decide ((fldD w).extractLsb' 0 2 = 0#2)) (.evcmpgtu ((fldD w).extractLsb' 2 3) (fldA w) (fldB w))
  | 17 => need (decide ((fldD w).extractLsb' 0 2 = 0#2)) (.evcmpgts ((fldD w).extractLsb' 2 3) (fldA w) (fldB w))
  | 18 => need (decide ((fldD w).extractLsb' 0 2 = 0#2)) (.evcmpltu ((fldD w).extractLsb' 2 3) (fldA w) (fldB w))
  | 19 => need (decide ((fldD w).extractLsb' 0 2 = 0#2)) (.evcmplts ((fldD w).extractLsb' 2 3) (fldA w) (fldB w))
  | 20 => need (decide ((fldD w).extractLsb' 0 2 = 0#2)) (.evcmpeq ((fldD w).extractLsb' 2 3) (fldA w) (fldB w))
  | _ => none

/-- Primary opcode 4 (30_encoding.md R543), extended opcodes 640 to 671. -/
noncomputable def decodeEvG20 (w : Word) (lo : Nat) : Option Instr :=
  match lo with
  | 0 => some (.evfsadd (fldD w) (fldA w) (fldB w))
  | 1 => some (.evfssub (fldD w) (fldA w) (fldB w))
  | 2 => some (.evfsmadd (fldD w) (fldA w) (fldB w))
  | 3 => some (.evfsmsub (fldD w) (fldA w) (fldB w))
  | 4 => need (decide (fldB w = 0#5)) (.evfsabs (fldD w) (fldA w))
  | 5 => need (decide (fldB w = 0#5)) (.evfsnabs (fldD w) (fldA w))
  | 6 => need (decide (fldB w = 0#5)) (.evfsneg (fldD w) (fldA w))
  | 7 => need (decide (fldB w = 0#5)) (.evfssqrt (fldD w) (fldA w))
  | 8 => some (.evfsmul (fldD w) (fldA w) (fldB w))
  | 9 => some (.evfsdiv (fldD w) (fldA w) (fldB w))
  | 10 => some (.evfsnmadd (fldD w) (fldA w) (fldB w))
  | 11 => some (.evfsnmsub (fldD w) (fldA w) (fldB w))
  | 12 => need (decide ((fldD w).extractLsb' 0 2 = 0#2)) (.evfscmpgt ((fldD w).extractLsb' 2 3) (fldA w) (fldB w))
  | 13 => need (decide ((fldD w).extractLsb' 0 2 = 0#2)) (.evfscmplt ((fldD w).extractLsb' 2 3) (fldA w) (fldB w))
  | 14 => need (decide ((fldD w).extractLsb' 0 2 = 0#2)) (.evfscmpeq ((fldD w).extractLsb' 2 3) (fldA w) (fldB w))
  | 16 => need (decide (fldA w = 0#5)) (.evfscfui (fldD w) (fldB w))
  | 17 => if decide (fldA w = 4#5) then some (.evfscfh (fldD w) (fldB w)) else need (decide (fldA w = 0#5)) (.evfscfsi (fldD w) (fldB w))
  | 18 => need (decide (fldA w = 0#5)) (.evfscfuf (fldD w) (fldB w))
  | 19 => need (decide (fldA w = 0#5)) (.evfscfsf (fldD w) (fldB w))
  | 20 => need (decide (fldA w = 0#5)) (.evfsctui (fldD w) (fldB w))
  | 21 => if decide (fldA w = 4#5) then some (.evfscth (fldD w) (fldB w)) else need (decide (fldA w = 0#5)) (.evfsctsi (fldD w) (fldB w))
  | 22 => need (decide (fldA w = 0#5)) (.evfsctuf (fldD w) (fldB w))
  | 23 => need (decide (fldA w = 0#5)) (.evfsctsf (fldD w) (fldB w))
  | 24 => need (decide (fldA w = 0#5)) (.evfsctuiz (fldD w) (fldB w))
  | 26 => need (decide (fldA w = 0#5)) (.evfsctsiz (fldD w) (fldB w))
  | 28 => need (decide ((fldD w).extractLsb' 0 2 = 0#2)) (.evfststgt ((fldD w).extractLsb' 2 3) (fldA w) (fldB w))
  | 29 => need (decide ((fldD w).extractLsb' 0 2 = 0#2)) (.evfststlt ((fldD w).extractLsb' 2 3) (fldA w) (fldB w))
  | 30 => need (decide ((fldD w).extractLsb' 0 2 = 0#2)) (.evfststeq ((fldD w).extractLsb' 2 3) (fldA w) (fldB w))
  | _ => none

/-- Primary opcode 4 (30_encoding.md R543), extended opcodes 672 to 703. -/
noncomputable def decodeEvG21 (w : Word) (lo : Nat) : Option Instr :=
  match lo with
  | 0 => some (.evfsmax (fldD w) (fldA w) (fldB w))
  | 1 => some (.evfsmin (fldD w) (fldA w) (fldB w))
  | 2 => some (.evfsaddsub (fldD w) (fldA w) (fldB w))
  | 3 => some (.evfssubadd (fldD w) (fldA w) (fldB w))
  | 4 => some (.evfssum (fldD w) (fldA w) (fldB w))
  | 5 => some (.evfsdiff (fldD w) (fldA w) (fldB w))
  | 6 => some (.evfssumdiff (fldD w) (fldA w) (fldB w))
  | 7 => some (.evfsdiffsum (fldD w) (fldA w) (fldB w))
  | 8 => some (.evfsaddx (fldD w) (fldA w) (fldB w))
  | 9 => some (.evfssubx (fldD w) (fldA w) (fldB w))
  | 10 => some (.evfsaddsubx (fldD w) (fldA w) (fldB w))
  | 11 => some (.evfssubaddx (fldD w) (fldA w) (fldB w))
  | 12 => some (.evfsmulx (fldD w) (fldA w) (fldB w))
  | 14 => some (.evfsmule (fldD w) (fldA w) (fldB w))
  | 15 => some (.evfsmulo (fldD w) (fldA w) (fldB w))
  | 16 => some (.efsmax (fldD w) (fldA w) (fldB w))
  | 17 => some (.efsmin (fldD w) (fldA w) (fldB w))
  | _ => none

/-- Primary opcode 4 (30_encoding.md R543), extended opcodes 704 to 735. -/
noncomputable def decodeEvG22 (w : Word) (lo : Nat) : Option Instr :=
  match lo with
  | 0 => some (.efsadd (fldD w) (fldA w) (fldB w))
  | 1 => some (.efssub (fldD w) (fldA w) (fldB w))
  | 2 => some (.efsmadd (fldD w) (fldA w) (fldB w))
  | 3 => some (.efsmsub (fldD w) (fldA w) (fldB w))
  | 4 => need (decide (fldB w = 0#5)) (.efsabs (fldD w) (fldA w))
  | 5 => need (decide (fldB w = 0#5)) (.efsnabs (fldD w) (fldA w))
  | 6 => need (decide (fldB w = 0#5)) (.efsneg (fldD w) (fldA w))
  | 7 => need (decide (fldB w = 0#5)) (.efssqrt (fldD w) (fldA w))
  | 8 => some (.efsmul (fldD w) (fldA w) (fldB w))
  | 9 => some (.efsdiv (fldD w) (fldA w) (fldB w))
  | 10 => some (.efsnmadd (fldD w) (fldA w) (fldB w))
  | 11 => some (.efsnmsub (fldD w) (fldA w) (fldB w))
  | 12 => need (decide ((fldD w).extractLsb' 0 2 = 0#2)) (.efscmpgt ((fldD w).extractLsb' 2 3) (fldA w) (fldB w))
  | 13 => need (decide ((fldD w).extractLsb' 0 2 = 0#2)) (.efscmplt ((fldD w).extractLsb' 2 3) (fldA w) (fldB w))
  | 14 => need (decide ((fldD w).extractLsb' 0 2 = 0#2)) (.efscmpeq ((fldD w).extractLsb' 2 3) (fldA w) (fldB w))
  | 16 => need (decide (fldA w = 0#5)) (.efscfui (fldD w) (fldB w))
  | 17 => if decide (fldA w = 4#5) then some (.efscfh (fldD w) (fldB w)) else need (decide (fldA w = 0#5)) (.efscfsi (fldD w) (fldB w))
  | 18 => need (decide (fldA w = 0#5)) (.efscfuf (fldD w) (fldB w))
  | 19 => need (decide (fldA w = 0#5)) (.efscfsf (fldD w) (fldB w))
  | 20 => need (decide (fldA w = 0#5)) (.efsctui (fldD w) (fldB w))
  | 21 => if decide (fldA w = 4#5) then some (.efscth (fldD w) (fldB w)) else need (decide (fldA w = 0#5)) (.efsctsi (fldD w) (fldB w))
  | 22 => need (decide (fldA w = 0#5)) (.efsctuf (fldD w) (fldB w))
  | 23 => need (decide (fldA w = 0#5)) (.efsctsf (fldD w) (fldB w))
  | 24 => need (decide (fldA w = 0#5)) (.efsctuiz (fldD w) (fldB w))
  | 26 => need (decide (fldA w = 0#5)) (.efsctsiz (fldD w) (fldB w))
  | 28 => need (decide ((fldD w).extractLsb' 0 2 = 0#2)) (.efststgt ((fldD w).extractLsb' 2 3) (fldA w) (fldB w))
  | 29 => need (decide ((fldD w).extractLsb' 0 2 = 0#2)) (.efststlt ((fldD w).extractLsb' 2 3) (fldA w) (fldB w))
  | 30 => need (decide ((fldD w).extractLsb' 0 2 = 0#2)) (.efststeq ((fldD w).extractLsb' 2 3) (fldA w) (fldB w))
  | _ => none

/-- Primary opcode 4 (30_encoding.md R543), extended opcodes 768 to 799. -/
noncomputable def decodeEvG24 (w : Word) (lo : Nat) : Option Instr :=
  match lo with
  | 0 => some (.evlddx (fldD w) (fldA w) (fldB w))
  | 1 => some (.evldd (fldD w) (fldB w) (fldA w))
  | 2 => some (.evldwx (fldD w) (fldA w) (fldB w))
  | 3 => some (.evldw (fldD w) (fldB w) (fldA w))
  | 4 => some (.evldhx (fldD w) (fldA w) (fldB w))
  | 5 => some (.evldh (fldD w) (fldB w) (fldA w))
  | 8 => some (.evlhhesplatx (fldD w) (fldA w) (fldB w))
  | 9 => some (.evlhhesplat (fldD w) (fldB w) (fldA w))
  | 12 => some (.evlhhousplatx (fldD w) (fldA w) (fldB w))
  | 13 => some (.evlhhousplat (fldD w) (fldB w) (fldA w))
  | 14 => some (.evlhhossplatx (fldD w) (fldA w) (fldB w))
  | 15 => some (.evlhhossplat (fldD w) (fldB w) (fldA w))
  | 16 => some (.evlwhex (fldD w) (fldA w) (fldB w))
  | 17 => some (.evlwhe (fldD w) (fldB w) (fldA w))
  | 20 => some (.evlwhoux (fldD w) (fldA w) (fldB w))
  | 21 => some (.evlwhou (fldD w) (fldB w) (fldA w))
  | 22 => some (.evlwhosx (fldD w) (fldA w) (fldB w))
  | 23 => some (.evlwhos (fldD w) (fldB w) (fldA w))
  | 24 => some (.evlwwsplatx (fldD w) (fldA w) (fldB w))
  | 25 => some (.evlwwsplat (fldD w) (fldB w) (fldA w))
  | 28 => some (.evlwhsplatx (fldD w) (fldA w) (fldB w))
  | 29 => some (.evlwhsplat (fldD w) (fldB w) (fldA w))
  | _ => none

/-- Primary opcode 4 (30_encoding.md R543), extended opcodes 800 to 831. -/
noncomputable def decodeEvG25 (w : Word) (lo : Nat) : Option Instr :=
  match lo with
  | 0 => some (.evstddx (fldD w) (fldA w) (fldB w))
  | 1 => some (.evstdd (fldD w) (fldB w) (fldA w))
  | 2 => some (.evstdwx (fldD w) (fldA w) (fldB w))
  | 3 => some (.evstdw (fldD w) (fldB w) (fldA w))
  | 4 => some (.evstdhx (fldD w) (fldA w) (fldB w))
  | 5 => some (.evstdh (fldD w) (fldB w) (fldA w))
  | 16 => some (.evstwhex (fldD w) (fldA w) (fldB w))
  | 17 => some (.evstwhe (fldD w) (fldB w) (fldA w))
  | 20 => some (.evstwhox (fldD w) (fldA w) (fldB w))
  | 21 => some (.evstwho (fldD w) (fldB w) (fldA w))
  | 24 => some (.evstwwex (fldD w) (fldA w) (fldB w))
  | 25 => some (.evstwwe (fldD w) (fldB w) (fldA w))
  | 28 => some (.evstwwox (fldD w) (fldA w) (fldB w))
  | 29 => some (.evstwwo (fldD w) (fldB w) (fldA w))
  | _ => none

/-- Primary opcode 4 (30_encoding.md R543), extended opcodes 1024 to 1055. -/
noncomputable def decodeEvG32 (w : Word) (lo : Nat) : Option Instr :=
  match lo with
  | 3 => some (.evmhessf (fldD w) (fldA w) (fldB w))
  | 7 => some (.evmhossf (fldD w) (fldA w) (fldB w))
  | 8 => some (.evmheumi (fldD w) (fldA w) (fldB w))
  | 9 => some (.evmhesmi (fldD w) (fldA w) (fldB w))
  | 11 => some (.evmhesmf (fldD w) (fldA w) (fldB w))
  | 12 => some (.evmhoumi (fldD w) (fldA w) (fldB w))
  | 13 => some (.evmhosmi (fldD w) (fldA w) (fldB w))
  | 15 => some (.evmhosmf (fldD w) (fldA w) (fldB w))
  | _ => none

/-- Primary opcode 4 (30_encoding.md R543), extended opcodes 1056 to 1087. -/
noncomputable def decodeEvG33 (w : Word) (lo : Nat) : Option Instr :=
  match lo with
  | 3 => some (.evmhessfa (fldD w) (fldA w) (fldB w))
  | 7 => some (.evmhossfa (fldD w) (fldA w) (fldB w))
  | 8 => some (.evmheumia (fldD w) (fldA w) (fldB w))
  | 9 => some (.evmhesmia (fldD w) (fldA w) (fldB w))
  | 11 => some (.evmhesmfa (fldD w) (fldA w) (fldB w))
  | 12 => some (.evmhoumia (fldD w) (fldA w) (fldB w))
  | 13 => some (.evmhosmia (fldD w) (fldA w) (fldB w))
  | 15 => some (.evmhosmfa (fldD w) (fldA w) (fldB w))
  | _ => none

/-- Primary opcode 4 (30_encoding.md R543), extended opcodes 1088 to 1119. -/
noncomputable def decodeEvG34 (w : Word) (lo : Nat) : Option Instr :=
  match lo with
  | 7 => some (.evmwhssf (fldD w) (fldA w) (fldB w))
  | 8 => some (.evmwlumi (fldD w) (fldA w) (fldB w))
  | 12 => some (.evmwhumi (fldD w) (fldA w) (fldB w))
  | 13 => some (.evmwhsmi (fldD w) (fldA w) (fldB w))
  | 15 => some (.evmwhsmf (fldD w) (fldA w) (fldB w))
  | 19 => some (.evmwssf (fldD w) (fldA w) (fldB w))
  | 24 => some (.evmwumi (fldD w) (fldA w) (fldB w))
  | 25 => some (.evmwsmi (fldD w) (fldA w) (fldB w))
  | 27 => some (.evmwsmf (fldD w) (fldA w) (fldB w))
  | _ => none

/-- Primary opcode 4 (30_encoding.md R543), extended opcodes 1120 to 1151. -/
noncomputable def decodeEvG35 (w : Word) (lo : Nat) : Option Instr :=
  match lo with
  | 7 => some (.evmwhssfa (fldD w) (fldA w) (fldB w))
  | 8 => some (.evmwlumia (fldD w) (fldA w) (fldB w))
  | 12 => some (.evmwhumia (fldD w) (fldA w) (fldB w))
  | 13 => some (.evmwhsmia (fldD w) (fldA w) (fldB w))
  | 15 => some (.evmwhsmfa (fldD w) (fldA w) (fldB w))
  | 19 => some (.evmwssfa (fldD w) (fldA w) (fldB w))
  | 24 => some (.evmwumia (fldD w) (fldA w) (fldB w))
  | 25 => some (.evmwsmia (fldD w) (fldA w) (fldB w))
  | 27 => some (.evmwsmfa (fldD w) (fldA w) (fldB w))
  | _ => none

/-- Primary opcode 4 (30_encoding.md R543), extended opcodes 1216 to 1247. -/
noncomputable def decodeEvG38 (w : Word) (lo : Nat) : Option Instr :=
  match lo with
  | 0 => need (decide (fldB w = 0#5)) (.evaddusiaaw (fldD w) (fldA w))
  | 1 => need (decide (fldB w = 0#5)) (.evaddssiaaw (fldD w) (fldA w))
  | 2 => need (decide (fldB w = 0#5)) (.evsubfusiaaw (fldD w) (fldA w))
  | 3 => need (decide (fldB w = 0#5)) (.evsubfssiaaw (fldD w) (fldA w))
  | 4 => need (decide (fldB w = 0#5)) (.evmra (fldD w) (fldA w))
  | 6 => some (.evdivws (fldD w) (fldA w) (fldB w))
  | 7 => some (.evdivwu (fldD w) (fldA w) (fldB w))
  | 8 => need (decide (fldB w = 0#5)) (.evaddumiaaw (fldD w) (fldA w))
  | 9 => need (decide (fldB w = 0#5)) (.evaddsmiaaw (fldD w) (fldA w))
  | 10 => need (decide (fldB w = 0#5)) (.evsubfumiaaw (fldD w) (fldA w))
  | 11 => need (decide (fldB w = 0#5)) (.evsubfsmiaaw (fldD w) (fldA w))
  | _ => none

/-- Primary opcode 4 (30_encoding.md R543), extended opcodes 1280 to 1311. -/
noncomputable def decodeEvG40 (w : Word) (lo : Nat) : Option Instr :=
  match lo with
  | 0 => some (.evmheusiaaw (fldD w) (fldA w) (fldB w))
  | 1 => some (.evmhessiaaw (fldD w) (fldA w) (fldB w))
  | 3 => some (.evmhessfaaw (fldD w) (fldA w) (fldB w))
  | 4 => some (.evmhousiaaw (fldD w) (fldA w) (fldB w))
  | 5 => some (.evmhossiaaw (fldD w) (fldA w) (fldB w))
  | 7 => some (.evmhossfaaw (fldD w) (fldA w) (fldB w))
  | 8 => some (.evmheumiaaw (fldD w) (fldA w) (fldB w))
  | 9 => some (.evmhesmiaaw (fldD w) (fldA w) (fldB w))
  | 11 => some (.evmhesmfaaw (fldD w) (fldA w) (fldB w))
  | 12 => some (.evmhoumiaaw (fldD w) (fldA w) (fldB w))
  | 13 => some (.evmhosmiaaw (fldD w) (fldA w) (fldB w))
  | 15 => some (.evmhosmfaaw (fldD w) (fldA w) (fldB w))
  | _ => none

/-- Primary opcode 4 (30_encoding.md R543), extended opcodes 1312 to 1343. -/
noncomputable def decodeEvG41 (w : Word) (lo : Nat) : Option Instr :=
  match lo with
  | 8 => some (.evmhegumiaa (fldD w) (fldA w) (fldB w))
  | 9 => some (.evmhegsmiaa (fldD w) (fldA w) (fldB w))
  | 11 => some (.evmhegsmfaa (fldD w) (fldA w) (fldB w))
  | 12 => some (.evmhogumiaa (fldD w) (fldA w) (fldB w))
  | 13 => some (.evmhogsmiaa (fldD w) (fldA w) (fldB w))
  | 15 => some (.evmhogsmfaa (fldD w) (fldA w) (fldB w))
  | _ => none

/-- Primary opcode 4 (30_encoding.md R543), extended opcodes 1344 to 1375. -/
noncomputable def decodeEvG42 (w : Word) (lo : Nat) : Option Instr :=
  match lo with
  | 0 => some (.evmwlusiaaw (fldD w) (fldA w) (fldB w))
  | 1 => some (.evmwlssiaaw (fldD w) (fldA w) (fldB w))
  | 8 => some (.evmwlumiaaw (fldD w) (fldA w) (fldB w))
  | 9 => some (.evmwlsmiaaw (fldD w) (fldA w) (fldB w))
  | 19 => some (.evmwssfaa (fldD w) (fldA w) (fldB w))
  | 24 => some (.evmwumiaa (fldD w) (fldA w) (fldB w))
  | 25 => some (.evmwsmiaa (fldD w) (fldA w) (fldB w))
  | 27 => some (.evmwsmfaa (fldD w) (fldA w) (fldB w))
  | _ => none

/-- Primary opcode 4 (30_encoding.md R543), extended opcodes 1408 to 1439. -/
noncomputable def decodeEvG44 (w : Word) (lo : Nat) : Option Instr :=
  match lo with
  | 0 => some (.evmheusianw (fldD w) (fldA w) (fldB w))
  | 1 => some (.evmhessianw (fldD w) (fldA w) (fldB w))
  | 3 => some (.evmhessfanw (fldD w) (fldA w) (fldB w))
  | 4 => some (.evmhousianw (fldD w) (fldA w) (fldB w))
  | 5 => some (.evmhossianw (fldD w) (fldA w) (fldB w))
  | 7 => some (.evmhossfanw (fldD w) (fldA w) (fldB w))
  | 8 => some (.evmheumianw (fldD w) (fldA w) (fldB w))
  | 9 => some (.evmhesmianw (fldD w) (fldA w) (fldB w))
  | 11 => some (.evmhesmfanw (fldD w) (fldA w) (fldB w))
  | 12 => some (.evmhoumianw (fldD w) (fldA w) (fldB w))
  | 13 => some (.evmhosmianw (fldD w) (fldA w) (fldB w))
  | 15 => some (.evmhosmfanw (fldD w) (fldA w) (fldB w))
  | _ => none

/-- Primary opcode 4 (30_encoding.md R543), extended opcodes 1440 to 1471. -/
noncomputable def decodeEvG45 (w : Word) (lo : Nat) : Option Instr :=
  match lo with
  | 8 => some (.evmhegumian (fldD w) (fldA w) (fldB w))
  | 9 => some (.evmhegsmian (fldD w) (fldA w) (fldB w))
  | 11 => some (.evmhegsmfan (fldD w) (fldA w) (fldB w))
  | 12 => some (.evmhogumian (fldD w) (fldA w) (fldB w))
  | 13 => some (.evmhogsmian (fldD w) (fldA w) (fldB w))
  | 15 => some (.evmhogsmfan (fldD w) (fldA w) (fldB w))
  | _ => none

/-- Primary opcode 4 (30_encoding.md R543), extended opcodes 1472 to 1503. -/
noncomputable def decodeEvG46 (w : Word) (lo : Nat) : Option Instr :=
  match lo with
  | 0 => some (.evmwlusianw (fldD w) (fldA w) (fldB w))
  | 1 => some (.evmwlssianw (fldD w) (fldA w) (fldB w))
  | 8 => some (.evmwlumianw (fldD w) (fldA w) (fldB w))
  | 9 => some (.evmwlsmianw (fldD w) (fldA w) (fldB w))
  | 19 => some (.evmwssfan (fldD w) (fldA w) (fldB w))
  | 24 => some (.evmwumian (fldD w) (fldA w) (fldB w))
  | 25 => some (.evmwsmian (fldD w) (fldA w) (fldB w))
  | 27 => some (.evmwsmfan (fldD w) (fldA w) (fldB w))
  | _ => none

/-- Primary opcode 4 (30_encoding.md R543). -/
noncomputable def decodeEv (w : Word) : Option Instr :=
  if w.extractLsb' 3 8 = 79#8 then some (.evsel (fldD w) (fldA w) (fldB w) (w.extractLsb' 0 3)) else
  match (w.extractLsb' 5 6).toNat with
  | 16 => decodeEvG16 w (w.extractLsb' 0 5).toNat
  | 17 => decodeEvG17 w (w.extractLsb' 0 5).toNat
  | 20 => decodeEvG20 w (w.extractLsb' 0 5).toNat
  | 21 => decodeEvG21 w (w.extractLsb' 0 5).toNat
  | 22 => decodeEvG22 w (w.extractLsb' 0 5).toNat
  | 24 => decodeEvG24 w (w.extractLsb' 0 5).toNat
  | 25 => decodeEvG25 w (w.extractLsb' 0 5).toNat
  | 32 => decodeEvG32 w (w.extractLsb' 0 5).toNat
  | 33 => decodeEvG33 w (w.extractLsb' 0 5).toNat
  | 34 => decodeEvG34 w (w.extractLsb' 0 5).toNat
  | 35 => decodeEvG35 w (w.extractLsb' 0 5).toNat
  | 38 => decodeEvG38 w (w.extractLsb' 0 5).toNat
  | 40 => decodeEvG40 w (w.extractLsb' 0 5).toNat
  | 41 => decodeEvG41 w (w.extractLsb' 0 5).toNat
  | 42 => decodeEvG42 w (w.extractLsb' 0 5).toNat
  | 44 => decodeEvG44 w (w.extractLsb' 0 5).toNat
  | 45 => decodeEvG45 w (w.extractLsb' 0 5).toNat
  | 46 => decodeEvG46 w (w.extractLsb' 0 5).toNat
  | _ => none

/-- Primary opcode 31 (30_encoding.md R542), extended opcodes 0 to 31. -/
def decodeX31G0 (w : Word) (lo : Nat) : Option Instr :=
  match lo with
  | 0 => need (decide ((fldD w).extractLsb' 0 2 = 0#2 ∧ w.getLsbD 0 = false)) (.cmp ((fldD w).extractLsb' 2 3) (fldA w) (fldB w))
  | 4 => need (decide (w.getLsbD 0 = false)) (.tw (fldD w) (fldA w) (fldB w))
  | 8 => some (.subfc (fldD w) (fldA w) (fldB w) false (w.getLsbD 0))
  | 10 => some (.addc (fldD w) (fldA w) (fldB w) false (w.getLsbD 0))
  | 11 => some (.mulhwu (fldD w) (fldA w) (fldB w) (w.getLsbD 0))
  | 19 => need (decide (fldA w = 0#5 ∧ fldB w = 0#5 ∧ w.getLsbD 0 = false)) (.mfcr (fldD w))
  | 20 => need (decide (w.getLsbD 0 = false)) (.lwarx (fldD w) (fldA w) (fldB w))
  | 22 => need (decide ((fldD w).extractLsb' 4 1 = 0#1 ∧ w.getLsbD 0 = false)) (.icbt ((fldD w).extractLsb' 0 4) (fldA w) (fldB w))
  | 23 => some (.lwzx (fldD w) (fldA w) (fldB w))
  | 24 => some (.slw (fldA w) (fldD w) (fldB w) (w.getLsbD 0))
  | 26 => need (decide (fldB w = 0#5)) (.cntlzw (fldA w) (fldD w) (w.getLsbD 0))
  | 28 => some (.and (fldA w) (fldD w) (fldB w) (w.getLsbD 0))
  | _ => none

/-- Primary opcode 31 (30_encoding.md R542), extended opcodes 32 to 63. -/
def decodeX31G1 (w : Word) (lo : Nat) : Option Instr :=
  match lo with
  | 0 => need (decide ((fldD w).extractLsb' 0 2 = 0#2 ∧ w.getLsbD 0 = false)) (.cmpl ((fldD w).extractLsb' 2 3) (fldA w) (fldB w))
  | 8 => some (.subf (fldD w) (fldA w) (fldB w) false (w.getLsbD 0))
  | 20 => need (decide (w.getLsbD 0 = false)) (.lbarx (fldD w) (fldA w) (fldB w))
  | 22 => need (decide (fldD w = 0#5 ∧ w.getLsbD 0 = false)) (.dcbst (fldA w) (fldB w))
  | 23 => some (.lwzux (fldD w) (fldA w) (fldB w))
  | 28 => some (.andc (fldA w) (fldD w) (fldB w) (w.getLsbD 0))
  | 30 => need (decide (fldD w = 0#5 ∧ fldA w = 0#5 ∧ fldB w = 0#5 ∧ w.getLsbD 0 = false)) (.wait)
  | _ => none

/-- Primary opcode 31 (30_encoding.md R542), extended opcodes 64 to 95. -/
def decodeX31G2 (w : Word) (lo : Nat) : Option Instr :=
  match lo with
  | 11 => some (.mulhw (fldD w) (fldA w) (fldB w) (w.getLsbD 0))
  | 19 => need (decide (fldA w = 0#5 ∧ fldB w = 0#5 ∧ w.getLsbD 0 = false)) (.mfmsr (fldD w))
  | 22 => need (decide (fldD w = 0#5 ∧ w.getLsbD 0 = false)) (.dcbf (fldA w) (fldB w))
  | 23 => some (.lbzx (fldD w) (fldA w) (fldB w))
  | _ => none

/-- Primary opcode 31 (30_encoding.md R542), extended opcodes 96 to 127. -/
def decodeX31G3 (w : Word) (lo : Nat) : Option Instr :=
  match lo with
  | 8 => need (decide (fldB w = 0#5)) (.neg (fldD w) (fldA w) false (w.getLsbD 0))
  | 20 => need (decide (w.getLsbD 0 = false)) (.lharx (fldD w) (fldA w) (fldB w))
  | 23 => some (.lbzux (fldD w) (fldA w) (fldB w))
  | 28 => some (.nor (fldA w) (fldD w) (fldB w) (w.getLsbD 0))
  | _ => none

/-- Primary opcode 31 (30_encoding.md R542), extended opcodes 128 to 159. -/
def decodeX31G4 (w : Word) (lo : Nat) : Option Instr :=
  match lo with
  | 3 => need (decide (fldA w = 0#5 ∧ fldB w = 0#5 ∧ w.getLsbD 0 = false)) (.wrtee (fldD w))
  | 6 => need (decide ((fldD w).extractLsb' 4 1 = 0#1 ∧ w.getLsbD 0 = false)) (.dcbtstls ((fldD w).extractLsb' 0 4) (fldA w) (fldB w))
  | 8 => some (.subfe (fldD w) (fldA w) (fldB w) false (w.getLsbD 0))
  | 10 => some (.adde (fldD w) (fldA w) (fldB w) false (w.getLsbD 0))
  | 16 => need (decide (w.extractLsb' 20 1 = 0#1 ∧ w.extractLsb' 11 1 = 0#1 ∧ w.getLsbD 0 = false)) (.mtcrf (w.extractLsb' 12 8) (fldD w))
  | 18 => need (decide (fldA w = 0#5 ∧ fldB w = 0#5 ∧ w.getLsbD 0 = false)) (.mtmsr (fldD w))
  | 22 => need (decide (w.getLsbD 0 = true)) (.stwcxDot (fldD w) (fldA w) (fldB w))
  | 23 => some (.stwx (fldD w) (fldA w) (fldB w))
  | _ => none

/-- Primary opcode 31 (30_encoding.md R542), extended opcodes 160 to 191. -/
def decodeX31G5 (w : Word) (lo : Nat) : Option Instr :=
  match lo with
  | 3 => need (decide (fldD w = 0#5 ∧ fldA w = 0#5 ∧ (fldB w).extractLsb' 0 4 = 0#4 ∧ w.getLsbD 0 = false)) (.wrteei ((fldB w).getLsbD 4))
  | 6 => need (decide ((fldD w).extractLsb' 4 1 = 0#1 ∧ w.getLsbD 0 = false)) (.dcbtls ((fldD w).extractLsb' 0 4) (fldA w) (fldB w))
  | 23 => some (.stwux (fldD w) (fldA w) (fldB w))
  | _ => none

/-- Primary opcode 31 (30_encoding.md R542), extended opcodes 192 to 223. -/
def decodeX31G6 (w : Word) (lo : Nat) : Option Instr :=
  match lo with
  | 8 => need (decide (fldB w = 0#5)) (.subfze (fldD w) (fldA w) false (w.getLsbD 0))
  | 10 => need (decide (fldB w = 0#5)) (.addze (fldD w) (fldA w) false (w.getLsbD 0))
  | 23 => some (.stbx (fldD w) (fldA w) (fldB w))
  | _ => none

/-- Primary opcode 31 (30_encoding.md R542), extended opcodes 224 to 255. -/
def decodeX31G7 (w : Word) (lo : Nat) : Option Instr :=
  match lo with
  | 6 => need (decide ((fldD w).extractLsb' 4 1 = 0#1 ∧ w.getLsbD 0 = false)) (.icblc ((fldD w).extractLsb' 0 4) (fldA w) (fldB w))
  | 8 => need (decide (fldB w = 0#5)) (.subfme (fldD w) (fldA w) false (w.getLsbD 0))
  | 10 => need (decide (fldB w = 0#5)) (.addme (fldD w) (fldA w) false (w.getLsbD 0))
  | 11 => some (.mullw (fldD w) (fldA w) (fldB w) false (w.getLsbD 0))
  | 22 => need (decide ((fldD w).extractLsb' 4 1 = 0#1 ∧ w.getLsbD 0 = false)) (.dcbtst ((fldD w).extractLsb' 0 4) (fldA w) (fldB w))
  | 23 => some (.stbux (fldD w) (fldA w) (fldB w))
  | _ => none

/-- Primary opcode 31 (30_encoding.md R542), extended opcodes 256 to 287. -/
def decodeX31G8 (w : Word) (lo : Nat) : Option Instr :=
  match lo with
  | 10 => some (.add (fldD w) (fldA w) (fldB w) false (w.getLsbD 0))
  | 22 => need (decide ((fldD w).extractLsb' 4 1 = 0#1 ∧ w.getLsbD 0 = false)) (.dcbt ((fldD w).extractLsb' 0 4) (fldA w) (fldB w))
  | 23 => some (.lhzx (fldD w) (fldA w) (fldB w))
  | 28 => some (.eqv (fldA w) (fldD w) (fldB w) (w.getLsbD 0))
  | _ => none

/-- Primary opcode 31 (30_encoding.md R542), extended opcodes 288 to 319. -/
def decodeX31G9 (w : Word) (lo : Nat) : Option Instr :=
  match lo with
  | 23 => some (.lhzux (fldD w) (fldA w) (fldB w))
  | 28 => some (.xor (fldA w) (fldD w) (fldB w) (w.getLsbD 0))
  | _ => none

/-- Primary opcode 31 (30_encoding.md R542), extended opcodes 320 to 351. -/
noncomputable def decodeX31G10 (w : Word) (lo : Nat) : Option Instr :=
  match lo with
  | 3 => need (decide (w.getLsbD 0 = false)) (.mfdcr (fldD w) (fldB w ++ fldA w))
  | 14 => need (decide (w.getLsbD 0 = false)) (.mfpmr (fldD w) (fldB w ++ fldA w))
  | 19 => need (decide (w.getLsbD 0 = false)) (.mfspr (fldD w) (fldB w ++ fldA w))
  | 23 => some (.lhax (fldD w) (fldA w) (fldB w))
  | _ => none

/-- Primary opcode 31 (30_encoding.md R542), extended opcodes 352 to 383. -/
def decodeX31G11 (w : Word) (lo : Nat) : Option Instr :=
  match lo with
  | 23 => some (.lhaux (fldD w) (fldA w) (fldB w))
  | _ => none

/-- Primary opcode 31 (30_encoding.md R542), extended opcodes 384 to 415. -/
def decodeX31G12 (w : Word) (lo : Nat) : Option Instr :=
  match lo with
  | 6 => need (decide ((fldD w).extractLsb' 4 1 = 0#1 ∧ w.getLsbD 0 = false)) (.dcblc ((fldD w).extractLsb' 0 4) (fldA w) (fldB w))
  | 23 => some (.sthx (fldD w) (fldA w) (fldB w))
  | 28 => some (.orc (fldA w) (fldD w) (fldB w) (w.getLsbD 0))
  | _ => none

/-- Primary opcode 31 (30_encoding.md R542), extended opcodes 416 to 447. -/
def decodeX31G13 (w : Word) (lo : Nat) : Option Instr :=
  match lo with
  | 23 => some (.sthux (fldD w) (fldA w) (fldB w))
  | 28 => some (.or (fldA w) (fldD w) (fldB w) (w.getLsbD 0))
  | _ => none

/-- Primary opcode 31 (30_encoding.md R542), extended opcodes 448 to 479. -/
noncomputable def decodeX31G14 (w : Word) (lo : Nat) : Option Instr :=
  match lo with
  | 3 => need (decide (w.getLsbD 0 = false)) (.mtdcr (fldB w ++ fldA w) (fldD w))
  | 11 => some (.divwu (fldD w) (fldA w) (fldB w) false (w.getLsbD 0))
  | 14 => need (decide (w.getLsbD 0 = false)) (.mtpmr (fldB w ++ fldA w) (fldD w))
  | 19 => need (decide (w.getLsbD 0 = false)) (.mtspr (fldB w ++ fldA w) (fldD w))
  | 22 => need (decide (fldD w = 0#5 ∧ w.getLsbD 0 = false)) (.dcbi (fldA w) (fldB w))
  | 28 => some (.nand (fldA w) (fldD w) (fldB w) (w.getLsbD 0))
  | _ => none

/-- Primary opcode 31 (30_encoding.md R542), extended opcodes 480 to 511. -/
def decodeX31G15 (w : Word) (lo : Nat) : Option Instr :=
  match lo with
  | 6 => need (decide ((fldD w).extractLsb' 4 1 = 0#1 ∧ w.getLsbD 0 = false)) (.icbtls ((fldD w).extractLsb' 0 4) (fldA w) (fldB w))
  | 11 => some (.divw (fldD w) (fldA w) (fldB w) false (w.getLsbD 0))
  | _ => none

/-- Primary opcode 31 (30_encoding.md R542), extended opcodes 512 to 543. -/
def decodeX31G16 (w : Word) (lo : Nat) : Option Instr :=
  match lo with
  | 0 => need (decide ((fldD w).extractLsb' 0 2 = 0#2 ∧ fldA w = 0#5 ∧ fldB w = 0#5 ∧ w.getLsbD 0 = false)) (.mcrxr ((fldD w).extractLsb' 2 3))
  | 8 => some (.subfc (fldD w) (fldA w) (fldB w) true (w.getLsbD 0))
  | 10 => some (.addc (fldD w) (fldA w) (fldB w) true (w.getLsbD 0))
  | 22 => some (.lwbrx (fldD w) (fldA w) (fldB w))
  | 24 => some (.srw (fldA w) (fldD w) (fldB w) (w.getLsbD 0))
  | _ => none

/-- Primary opcode 31 (30_encoding.md R542), extended opcodes 544 to 575. -/
def decodeX31G17 (w : Word) (lo : Nat) : Option Instr :=
  match lo with
  | 8 => some (.subf (fldD w) (fldA w) (fldB w) true (w.getLsbD 0))
  | 22 => need (decide (fldD w = 0#5 ∧ fldA w = 0#5 ∧ fldB w = 0#5 ∧ w.getLsbD 0 = false)) (.tlbsync)
  | _ => none

/-- Primary opcode 31 (30_encoding.md R542), extended opcodes 576 to 607. -/
def decodeX31G18 (w : Word) (lo : Nat) : Option Instr :=
  match lo with
  | 22 => need (decide (fldD w = 0#5 ∧ fldA w = 0#5 ∧ fldB w = 0#5 ∧ w.getLsbD 0 = false)) (.msync)
  | _ => none

/-- Primary opcode 31 (30_encoding.md R542), extended opcodes 608 to 639. -/
def decodeX31G19 (w : Word) (lo : Nat) : Option Instr :=
  match lo with
  | 8 => need (decide (fldB w = 0#5)) (.neg (fldD w) (fldA w) true (w.getLsbD 0))
  | _ => none

/-- Primary opcode 31 (30_encoding.md R542), extended opcodes 640 to 671. -/
def decodeX31G20 (w : Word) (lo : Nat) : Option Instr :=
  match lo with
  | 8 => some (.subfe (fldD w) (fldA w) (fldB w) true (w.getLsbD 0))
  | 10 => some (.adde (fldD w) (fldA w) (fldB w) true (w.getLsbD 0))
  | 22 => some (.stwbrx (fldD w) (fldA w) (fldB w))
  | _ => none

/-- Primary opcode 31 (30_encoding.md R542), extended opcodes 672 to 703. -/
def decodeX31G21 (w : Word) (lo : Nat) : Option Instr :=
  match lo with
  | 22 => need (decide (w.getLsbD 0 = true)) (.stbcxDot (fldD w) (fldA w) (fldB w))
  | _ => none

/-- Primary opcode 31 (30_encoding.md R542), extended opcodes 704 to 735. -/
def decodeX31G22 (w : Word) (lo : Nat) : Option Instr :=
  match lo with
  | 8 => need (decide (fldB w = 0#5)) (.subfze (fldD w) (fldA w) true (w.getLsbD 0))
  | 10 => need (decide (fldB w = 0#5)) (.addze (fldD w) (fldA w) true (w.getLsbD 0))
  | 22 => need (decide (w.getLsbD 0 = true)) (.sthcxDot (fldD w) (fldA w) (fldB w))
  | _ => none

/-- Primary opcode 31 (30_encoding.md R542), extended opcodes 736 to 767. -/
def decodeX31G23 (w : Word) (lo : Nat) : Option Instr :=
  match lo with
  | 8 => need (decide (fldB w = 0#5)) (.subfme (fldD w) (fldA w) true (w.getLsbD 0))
  | 10 => need (decide (fldB w = 0#5)) (.addme (fldD w) (fldA w) true (w.getLsbD 0))
  | 11 => some (.mullw (fldD w) (fldA w) (fldB w) true (w.getLsbD 0))
  | 22 => need (decide (fldD w = 0#5 ∧ w.getLsbD 0 = false)) (.dcba (fldA w) (fldB w))
  | _ => none

/-- Primary opcode 31 (30_encoding.md R542), extended opcodes 768 to 799. -/
def decodeX31G24 (w : Word) (lo : Nat) : Option Instr :=
  match lo with
  | 10 => some (.add (fldD w) (fldA w) (fldB w) true (w.getLsbD 0))
  | 18 => need (decide (fldD w = 0#5 ∧ w.getLsbD 0 = false)) (.tlbivax (fldA w) (fldB w))
  | 22 => some (.lhbrx (fldD w) (fldA w) (fldB w))
  | 24 => some (.sraw (fldA w) (fldD w) (fldB w) (w.getLsbD 0))
  | _ => none

/-- Primary opcode 31 (30_encoding.md R542), extended opcodes 800 to 831. -/
def decodeX31G25 (w : Word) (lo : Nat) : Option Instr :=
  match lo with
  | 24 => some (.srawi (fldA w) (fldD w) (fldB w) (w.getLsbD 0))
  | _ => none

/-- Primary opcode 31 (30_encoding.md R542), extended opcodes 832 to 863. -/
def decodeX31G26 (w : Word) (lo : Nat) : Option Instr :=
  match lo with
  | 22 => need (decide (fldA w = 0#5 ∧ fldB w = 0#5 ∧ w.getLsbD 0 = false)) (.mbar (fldD w))
  | _ => none

/-- Primary opcode 31 (30_encoding.md R542), extended opcodes 896 to 927. -/
def decodeX31G28 (w : Word) (lo : Nat) : Option Instr :=
  match lo with
  | 18 => need (decide (fldD w = 0#5 ∧ w.getLsbD 0 = false)) (.tlbsx (fldA w) (fldB w))
  | 22 => some (.sthbrx (fldD w) (fldA w) (fldB w))
  | 26 => need (decide (fldB w = 0#5)) (.extsh (fldA w) (fldD w) (w.getLsbD 0))
  | _ => none

/-- Primary opcode 31 (30_encoding.md R542), extended opcodes 928 to 959. -/
def decodeX31G29 (w : Word) (lo : Nat) : Option Instr :=
  match lo with
  | 18 => need (decide (fldD w = 0#5 ∧ fldA w = 0#5 ∧ fldB w = 0#5 ∧ w.getLsbD 0 = false)) (.tlbre)
  | 26 => need (decide (fldB w = 0#5)) (.extsb (fldA w) (fldD w) (w.getLsbD 0))
  | _ => none

/-- Primary opcode 31 (30_encoding.md R542), extended opcodes 960 to 991. -/
def decodeX31G30 (w : Word) (lo : Nat) : Option Instr :=
  match lo with
  | 11 => some (.divwu (fldD w) (fldA w) (fldB w) true (w.getLsbD 0))
  | 18 => need (decide (fldD w = 0#5 ∧ fldA w = 0#5 ∧ fldB w = 0#5 ∧ w.getLsbD 0 = false)) (.tlbwe)
  | 22 => need (decide (fldD w = 0#5 ∧ w.getLsbD 0 = false)) (.icbi (fldA w) (fldB w))
  | _ => none

/-- Primary opcode 31 (30_encoding.md R542), extended opcodes 992 to 1023. -/
def decodeX31G31 (w : Word) (lo : Nat) : Option Instr :=
  match lo with
  | 11 => some (.divw (fldD w) (fldA w) (fldB w) true (w.getLsbD 0))
  | 22 => need (decide (fldD w = 0#5 ∧ w.getLsbD 0 = false)) (.dcbz (fldA w) (fldB w))
  | _ => none

/-- Primary opcode 31 (30_encoding.md R542). -/
noncomputable def decodeX31 (w : Word) : Option Instr :=
  if w.extractLsb' 0 6 = 30#6 then some (.isel (fldD w) (fldA w) (fldB w) (w.extractLsb' 6 5)) else
  match (w.extractLsb' 6 5).toNat with
  | 0 => decodeX31G0 w (w.extractLsb' 1 5).toNat
  | 1 => decodeX31G1 w (w.extractLsb' 1 5).toNat
  | 2 => decodeX31G2 w (w.extractLsb' 1 5).toNat
  | 3 => decodeX31G3 w (w.extractLsb' 1 5).toNat
  | 4 => decodeX31G4 w (w.extractLsb' 1 5).toNat
  | 5 => decodeX31G5 w (w.extractLsb' 1 5).toNat
  | 6 => decodeX31G6 w (w.extractLsb' 1 5).toNat
  | 7 => decodeX31G7 w (w.extractLsb' 1 5).toNat
  | 8 => decodeX31G8 w (w.extractLsb' 1 5).toNat
  | 9 => decodeX31G9 w (w.extractLsb' 1 5).toNat
  | 10 => decodeX31G10 w (w.extractLsb' 1 5).toNat
  | 11 => decodeX31G11 w (w.extractLsb' 1 5).toNat
  | 12 => decodeX31G12 w (w.extractLsb' 1 5).toNat
  | 13 => decodeX31G13 w (w.extractLsb' 1 5).toNat
  | 14 => decodeX31G14 w (w.extractLsb' 1 5).toNat
  | 15 => decodeX31G15 w (w.extractLsb' 1 5).toNat
  | 16 => decodeX31G16 w (w.extractLsb' 1 5).toNat
  | 17 => decodeX31G17 w (w.extractLsb' 1 5).toNat
  | 18 => decodeX31G18 w (w.extractLsb' 1 5).toNat
  | 19 => decodeX31G19 w (w.extractLsb' 1 5).toNat
  | 20 => decodeX31G20 w (w.extractLsb' 1 5).toNat
  | 21 => decodeX31G21 w (w.extractLsb' 1 5).toNat
  | 22 => decodeX31G22 w (w.extractLsb' 1 5).toNat
  | 23 => decodeX31G23 w (w.extractLsb' 1 5).toNat
  | 24 => decodeX31G24 w (w.extractLsb' 1 5).toNat
  | 25 => decodeX31G25 w (w.extractLsb' 1 5).toNat
  | 26 => decodeX31G26 w (w.extractLsb' 1 5).toNat
  | 28 => decodeX31G28 w (w.extractLsb' 1 5).toNat
  | 29 => decodeX31G29 w (w.extractLsb' 1 5).toNat
  | 30 => decodeX31G30 w (w.extractLsb' 1 5).toNat
  | 31 => decodeX31G31 w (w.extractLsb' 1 5).toNat
  | _ => none

/-- Primary opcode 19 (30_encoding.md R541). -/
def decodeX19 (w : Word) : Option Instr :=
  match (w.extractLsb' 1 10).toNat with
  | 0 => need (decide ((fldD w).extractLsb' 0 2 = 0#2 ∧ (fldA w).extractLsb' 0 2 = 0#2 ∧ fldB w = 0#5 ∧ w.getLsbD 0 = false)) (.mcrf ((fldD w).extractLsb' 2 3) ((fldA w).extractLsb' 2 3))
  | 16 => need (decide (fldB w = 0#5)) (.bclr (fldD w) (fldA w) (w.getLsbD 0))
  | 33 => need (decide (w.getLsbD 0 = false)) (.crnor (fldD w) (fldA w) (fldB w))
  | 38 => need (decide (fldD w = 0#5 ∧ fldA w = 0#5 ∧ fldB w = 0#5 ∧ w.getLsbD 0 = false)) (.rfmci)
  | 39 => need (decide (fldD w = 0#5 ∧ fldA w = 0#5 ∧ fldB w = 0#5 ∧ w.getLsbD 0 = false)) (.rfdi)
  | 50 => need (decide (fldD w = 0#5 ∧ fldA w = 0#5 ∧ fldB w = 0#5 ∧ w.getLsbD 0 = false)) (.rfi)
  | 51 => need (decide (fldD w = 0#5 ∧ fldA w = 0#5 ∧ fldB w = 0#5 ∧ w.getLsbD 0 = false)) (.rfci)
  | 129 => need (decide (w.getLsbD 0 = false)) (.crandc (fldD w) (fldA w) (fldB w))
  | 150 => need (decide (fldD w = 0#5 ∧ fldA w = 0#5 ∧ fldB w = 0#5 ∧ w.getLsbD 0 = false)) (.isync)
  | 193 => need (decide (w.getLsbD 0 = false)) (.crxor (fldD w) (fldA w) (fldB w))
  | 198 => need (decide (w.getLsbD 0 = false)) (.dnh (fldD w) (fldA w ++ fldB w))
  | 225 => need (decide (w.getLsbD 0 = false)) (.crnand (fldD w) (fldA w) (fldB w))
  | 257 => need (decide (w.getLsbD 0 = false)) (.crand (fldD w) (fldA w) (fldB w))
  | 289 => need (decide (w.getLsbD 0 = false)) (.creqv (fldD w) (fldA w) (fldB w))
  | 417 => need (decide (w.getLsbD 0 = false)) (.crorc (fldD w) (fldA w) (fldB w))
  | 449 => need (decide (w.getLsbD 0 = false)) (.cror (fldD w) (fldA w) (fldB w))
  | 528 => need (decide (fldB w = 0#5)) (.bcctr (fldD w) (fldA w) (w.getLsbD 0))
  | _ => none

/-- A word fetched from a Book E page (30_encoding.md R510, R540). -/
noncomputable def decodeBookE (w : Word) : Option Instr :=
  match (w.extractLsb' 26 6).toNat with
  | 3 => some (.twi (fldD w) (fldA w) (fldI w))
  | 4 => decodeEv w
  | 7 => some (.mulli (fldD w) (fldA w) (fldI w))
  | 8 => some (.subfic (fldD w) (fldA w) (fldI w))
  | 10 => need (decide (w.extractLsb' 21 2 = 0#2)) (.cmpli (w.extractLsb' 23 3) (fldA w) (fldI w))
  | 11 => need (decide (w.extractLsb' 21 2 = 0#2)) (.cmpi (w.extractLsb' 23 3) (fldA w) (fldI w))
  | 12 => some (.addic (fldD w) (fldA w) (fldI w))
  | 13 => some (.addicDot (fldD w) (fldA w) (fldI w))
  | 14 => some (.addi (fldD w) (fldA w) (fldI w))
  | 15 => some (.addis (fldD w) (fldA w) (fldI w))
  | 16 => some (.bc (fldD w) (fldA w) (w.extractLsb' 2 14) (w.getLsbD 1) (w.getLsbD 0))
  | 17 => need (decide (w = 1140850690#32)) (.sc)
  | 18 => some (.b (w.extractLsb' 2 24) (w.getLsbD 1) (w.getLsbD 0))
  | 19 => decodeX19 w
  | 20 => some (.rlwimi (fldA w) (fldD w) (fldB w) (w.extractLsb' 6 5) (w.extractLsb' 1 5) (w.getLsbD 0))
  | 21 => some (.rlwinm (fldA w) (fldD w) (fldB w) (w.extractLsb' 6 5) (w.extractLsb' 1 5) (w.getLsbD 0))
  | 23 => some (.rlwnm (fldA w) (fldD w) (fldB w) (w.extractLsb' 6 5) (w.extractLsb' 1 5) (w.getLsbD 0))
  | 24 => some (.ori (fldA w) (fldD w) (fldI w))
  | 25 => some (.oris (fldA w) (fldD w) (fldI w))
  | 26 => some (.xori (fldA w) (fldD w) (fldI w))
  | 27 => some (.xoris (fldA w) (fldD w) (fldI w))
  | 28 => some (.andiDot (fldA w) (fldD w) (fldI w))
  | 29 => some (.andisDot (fldA w) (fldD w) (fldI w))
  | 31 => decodeX31 w
  | 32 => some (.lwz (fldD w) (fldI w) (fldA w))
  | 33 => some (.lwzu (fldD w) (fldI w) (fldA w))
  | 34 => some (.lbz (fldD w) (fldI w) (fldA w))
  | 35 => some (.lbzu (fldD w) (fldI w) (fldA w))
  | 36 => some (.stw (fldD w) (fldI w) (fldA w))
  | 37 => some (.stwu (fldD w) (fldI w) (fldA w))
  | 38 => some (.stb (fldD w) (fldI w) (fldA w))
  | 39 => some (.stbu (fldD w) (fldI w) (fldA w))
  | 40 => some (.lhz (fldD w) (fldI w) (fldA w))
  | 41 => some (.lhzu (fldD w) (fldI w) (fldA w))
  | 42 => some (.lha (fldD w) (fldI w) (fldA w))
  | 43 => some (.lhau (fldD w) (fldI w) (fldA w))
  | 44 => some (.sth (fldD w) (fldI w) (fldA w))
  | 45 => some (.sthu (fldD w) (fldI w) (fldA w))
  | 46 => some (.lmw (fldD w) (fldI w) (fldA w))
  | 47 => some (.stmw (fldD w) (fldI w) (fldA w))
  | _ => none

/-- The VLE-only instructions of primary opcode 31 (44_vle.md R2743 to R2758). -/
noncomputable def decodeX31V (w : Word) : Option Instr :=
  match (w.extractLsb' 1 10).toNat with
  | 14 => need (decide ((fldD w).extractLsb' 0 2 = 0#2 ∧ w.getLsbD 0 = false)) (.eCmph ((fldD w).extractLsb' 2 3) (fldA w) (fldB w))
  | 16 => need (decide ((fldD w).extractLsb' 0 2 = 0#2 ∧ (fldA w).extractLsb' 0 2 = 0#2 ∧ fldB w = 0#5 ∧ w.getLsbD 0 = false)) (.eMcrf ((fldD w).extractLsb' 2 3) ((fldA w).extractLsb' 2 3))
  | 33 => need (decide (w.getLsbD 0 = false)) (.eCrnor (fldD w) (fldA w) (fldB w))
  | 46 => need (decide ((fldD w).extractLsb' 0 2 = 0#2 ∧ w.getLsbD 0 = false)) (.eCmphl ((fldD w).extractLsb' 2 3) (fldA w) (fldB w))
  | 56 => some (.eSlwi (fldA w) (fldD w) (fldB w) (w.getLsbD 0))
  | 97 => need (decide (w.getLsbD 0 = false)) (.eDnh (fldD w) (fldA w ++ fldB w))
  | 129 => need (decide (w.getLsbD 0 = false)) (.eCrandc (fldD w) (fldA w) (fldB w))
  | 193 => need (decide (w.getLsbD 0 = false)) (.eCrxor (fldD w) (fldA w) (fldB w))
  | 225 => need (decide (w.getLsbD 0 = false)) (.eCrnand (fldD w) (fldA w) (fldB w))
  | 257 => need (decide (w.getLsbD 0 = false)) (.eCrand (fldD w) (fldA w) (fldB w))
  | 280 => some (.eRlw (fldA w) (fldD w) (fldB w) (w.getLsbD 0))
  | 289 => need (decide (w.getLsbD 0 = false)) (.eCreqv (fldD w) (fldA w) (fldB w))
  | 312 => some (.eRlwi (fldA w) (fldD w) (fldB w) (w.getLsbD 0))
  | 417 => need (decide (w.getLsbD 0 = false)) (.eCrorc (fldD w) (fldA w) (fldB w))
  | 449 => need (decide (w.getLsbD 0 = false)) (.eCror (fldD w) (fldA w) (fldB w))
  | 568 => some (.eSrwi (fldA w) (fldD w) (fldB w) (w.getLsbD 0))
  | _ => none

/-- The volatile-context forms, whose register field selects the registers (43_apu_misc.md R931 to R943). -/
def decodeVol (w : Word) (store : Bool) : Option Instr :=
  match (fldD w).toNat, store with
  | 0, false => some (.eLmvgprw (w.extractLsb' 0 8) (fldA w))
  | 0, true => some (.eStmvgprw (w.extractLsb' 0 8) (fldA w))
  | 1, false => some (.eLmvsprw (w.extractLsb' 0 8) (fldA w))
  | 1, true => some (.eStmvsprw (w.extractLsb' 0 8) (fldA w))
  | 4, false => some (.eLmvsrrw (w.extractLsb' 0 8) (fldA w))
  | 4, true => some (.eStmvsrrw (w.extractLsb' 0 8) (fldA w))
  | 5, false => some (.eLmvcsrrw (w.extractLsb' 0 8) (fldA w))
  | 5, true => some (.eStmvcsrrw (w.extractLsb' 0 8) (fldA w))
  | 6, false => some (.eLmvdsrrw (w.extractLsb' 0 8) (fldA w))
  | 6, true => some (.eStmvdsrrw (w.extractLsb' 0 8) (fldA w))
  | 7, false => some (.eLmvmcsrrw (w.extractLsb' 0 8) (fldA w))
  | 7, true => some (.eStmvmcsrrw (w.extractLsb' 0 8) (fldA w))
  | _, _ => none

/-- Primary opcode 6 on a VLE page: the D8 and SCI8 forms (44_vle.md R2708 to R2725, R2799). -/
def decodeV6 (w : Word) : Option Instr :=
  match (w.extractLsb' 11 5).toNat with
  | 0 =>
      match (w.extractLsb' 8 3).toNat with
      | 0 => some (.eLbzu (fldD w) (w.extractLsb' 0 8) (fldA w))
      | 1 => some (.eLhzu (fldD w) (w.extractLsb' 0 8) (fldA w))
      | 2 => some (.eLwzu (fldD w) (w.extractLsb' 0 8) (fldA w))
      | 3 => some (.eLhau (fldD w) (w.extractLsb' 0 8) (fldA w))
      | 4 => some (.eStbu (fldD w) (w.extractLsb' 0 8) (fldA w))
      | 5 => some (.eSthu (fldD w) (w.extractLsb' 0 8) (fldA w))
      | 6 => some (.eStwu (fldD w) (w.extractLsb' 0 8) (fldA w))
      | _ => none
  | 1 =>
      match (w.extractLsb' 8 3).toNat with
      | 0 => some (.eLmw (fldD w) (w.extractLsb' 0 8) (fldA w))
      | 1 => some (.eStmw (fldD w) (w.extractLsb' 0 8) (fldA w))
      | _ => none
  | 2 =>
      match (w.extractLsb' 8 3).toNat with
      | 0 => decodeVol w false
      | 1 => decodeVol w true
      | _ => none
  | 16 => some (.eAddi (fldD w) (fldA w) (w.getLsbD 10) (w.extractLsb' 8 2) (w.extractLsb' 0 8) (w.getLsbD 11))
  | 17 => some (.eAddi (fldD w) (fldA w) (w.getLsbD 10) (w.extractLsb' 8 2) (w.extractLsb' 0 8) (w.getLsbD 11))
  | 18 => some (.eAddic (fldD w) (fldA w) (w.getLsbD 10) (w.extractLsb' 8 2) (w.extractLsb' 0 8) (w.getLsbD 11))
  | 19 => some (.eAddic (fldD w) (fldA w) (w.getLsbD 10) (w.extractLsb' 8 2) (w.extractLsb' 0 8) (w.getLsbD 11))
  | 20 => some (.eMulli (fldD w) (fldA w) (w.getLsbD 10) (w.extractLsb' 8 2) (w.extractLsb' 0 8))
  | 21 =>
      match (w.extractLsb' 23 3).toNat with
      | 0 => some (.eCmpi (w.extractLsb' 21 2) (fldA w) (w.getLsbD 10) (w.extractLsb' 8 2) (w.extractLsb' 0 8))
      | 1 => some (.eCmpli (w.extractLsb' 21 2) (fldA w) (w.getLsbD 10) (w.extractLsb' 8 2) (w.extractLsb' 0 8))
      | _ => none
  | 22 => some (.eSubfic (fldD w) (fldA w) (w.getLsbD 10) (w.extractLsb' 8 2) (w.extractLsb' 0 8) (w.getLsbD 11))
  | 23 => some (.eSubfic (fldD w) (fldA w) (w.getLsbD 10) (w.extractLsb' 8 2) (w.extractLsb' 0 8) (w.getLsbD 11))
  | 24 => some (.eAndi (fldA w) (fldD w) (w.getLsbD 10) (w.extractLsb' 8 2) (w.extractLsb' 0 8) (w.getLsbD 11))
  | 25 => some (.eAndi (fldA w) (fldD w) (w.getLsbD 10) (w.extractLsb' 8 2) (w.extractLsb' 0 8) (w.getLsbD 11))
  | 26 => some (.eOri (fldA w) (fldD w) (w.getLsbD 10) (w.extractLsb' 8 2) (w.extractLsb' 0 8) (w.getLsbD 11))
  | 27 => some (.eOri (fldA w) (fldD w) (w.getLsbD 10) (w.extractLsb' 8 2) (w.extractLsb' 0 8) (w.getLsbD 11))
  | 28 => some (.eXori (fldA w) (fldD w) (w.getLsbD 10) (w.extractLsb' 8 2) (w.extractLsb' 0 8) (w.getLsbD 11))
  | 29 => some (.eXori (fldA w) (fldD w) (w.getLsbD 10) (w.extractLsb' 8 2) (w.extractLsb' 0 8) (w.getLsbD 11))
  | _ => none

/-- Primary opcode 28 on a VLE page: the LI20, I16A and I16L forms (44_vle.md R2726 to R2738). -/
noncomputable def decodeV28 (w : Word) : Option Instr :=
  if w.getLsbD 15 = false then some (.eLi (fldD w) (w.extractLsb' 11 4 ++ fldA w ++ fldX w)) else
  match (fldB w).toNat with
  | 17 => some (.eAdd2iDot (fldA w) (fldD w ++ fldX w))
  | 18 => some (.eAdd2is (fldA w) (fldD w ++ fldX w))
  | 19 => some (.eCmp16i (fldA w) (fldD w ++ fldX w))
  | 20 => some (.eMull2i (fldA w) (fldD w ++ fldX w))
  | 21 => some (.eCmpl16i (fldA w) (fldD w ++ fldX w))
  | 22 => some (.eCmph16i (fldA w) (fldD w ++ fldX w))
  | 23 => some (.eCmphl16i (fldA w) (fldD w ++ fldX w))
  | 24 => some (.eOr2i (fldD w) (fldA w ++ fldX w))
  | 25 => some (.eAnd2iDot (fldD w) (fldA w ++ fldX w))
  | 26 => some (.eOr2is (fldD w) (fldA w ++ fldX w))
  | 28 => some (.eLis (fldD w) (fldA w ++ fldX w))
  | 29 => some (.eAnd2isDot (fldD w) (fldA w ++ fldX w))
  | _ => none

/-- Primary opcode 30 on a VLE page: the BD24 and BD15 branches (44_vle.md R2741, R2742). -/
noncomputable def decodeV30 (w : Word) : Option Instr :=
  if w.getLsbD 25 = false then some (.eB (w.extractLsb' 1 24) (w.getLsbD 0))
  else if w.extractLsb' 22 4 = 8#4 then some (.eBc (w.extractLsb' 20 2) (w.extractLsb' 16 4) (w.extractLsb' 1 15) (w.getLsbD 0))
  else none

/-- A 32-bit word fetched from a VLE page (44_vle.md R1003, part B). -/
noncomputable def decodeVle32 (w : Word) : Option Instr :=
  match (w.extractLsb' 26 6).toNat with
  | 4 => decodeEv w
  | 6 => decodeV6 w
  | 7 => some (.eAdd16i (fldD w) (fldA w) (fldI w))
  | 12 => some (.eLbz (fldD w) (fldI w) (fldA w))
  | 13 => some (.eStb (fldD w) (fldI w) (fldA w))
  | 14 => some (.eLha (fldD w) (fldI w) (fldA w))
  | 20 => some (.eLwz (fldD w) (fldI w) (fldA w))
  | 21 => some (.eStw (fldD w) (fldI w) (fldA w))
  | 22 => some (.eLhz (fldD w) (fldI w) (fldA w))
  | 23 => some (.eSth (fldD w) (fldI w) (fldA w))
  | 28 => decodeV28 w
  | 29 => if w.getLsbD 0 then some (.eRlwinm (fldA w) (fldD w) (fldB w) (w.extractLsb' 6 5) (w.extractLsb' 1 5)) else some (.eRlwimi (fldA w) (fldD w) (fldB w) (w.extractLsb' 6 5) (w.extractLsb' 1 5))
  | 30 => decodeV30 w
  | 31 =>
    match decodeX31V w with
    | some i => some i
    | none => decodeX31 w
  | _ => none

/-- A halfword fetched from a VLE page (44_vle.md R1030 to R1099). -/
def decodeVle16 (h : Half) : Option Instr :=
  match (h.extractLsb' 12 4).toNat with
  | 0 =>
    match (h.extractLsb' 8 4).toNat with
    | 0 =>
      match (h.extractLsb' 4 4).toNat with
      | 0 =>
        match (h.extractLsb' 0 4).toNat with
        | 0 => some (.seIllegal)
        | 1 => some (.seIsync)
        | 2 => some (.seSc)
        | 4 => some (.seBlr (h.getLsbD 0))
        | 5 => some (.seBlr (h.getLsbD 0))
        | 6 => some (.seBctr (h.getLsbD 0))
        | 7 => some (.seBctr (h.getLsbD 0))
        | 8 => some (.seRfi)
        | 9 => some (.seRfci)
        | 10 => some (.seRfdi)
        | 11 => some (.seRfmci)
        | 15 => some (.seDnh)
        | _ => none
      | 2 => some (.seNot (reg4 (h.extractLsb' 0 4)))
      | 3 => some (.seNeg (reg4 (h.extractLsb' 0 4)))
      | 8 => some (.seMflr (reg4 (h.extractLsb' 0 4)))
      | 9 => some (.seMtlr (reg4 (h.extractLsb' 0 4)))
      | 10 => some (.seMfctr (reg4 (h.extractLsb' 0 4)))
      | 11 => some (.seMtctr (reg4 (h.extractLsb' 0 4)))
      | 12 => some (.seExtzb (reg4 (h.extractLsb' 0 4)))
      | 13 => some (.seExtsb (reg4 (h.extractLsb' 0 4)))
      | 14 => some (.seExtzh (reg4 (h.extractLsb' 0 4)))
      | 15 => some (.seExtsh (reg4 (h.extractLsb' 0 4)))
      | _ => none
    | 1 => some (.seMr (reg4 (h.extractLsb' 0 4)) (reg4 (h.extractLsb' 4 4)))
    | 2 => some (.seMtar (areg4 (h.extractLsb' 0 4)) (reg4 (h.extractLsb' 4 4)))
    | 3 => some (.seMfar (reg4 (h.extractLsb' 0 4)) (areg4 (h.extractLsb' 4 4)))
    | 4 => some (.seAdd (reg4 (h.extractLsb' 0 4)) (reg4 (h.extractLsb' 4 4)))
    | 5 => some (.seMullw (reg4 (h.extractLsb' 0 4)) (reg4 (h.extractLsb' 4 4)))
    | 6 => some (.seSub (reg4 (h.extractLsb' 0 4)) (reg4 (h.extractLsb' 4 4)))
    | 7 => some (.seSubf (reg4 (h.extractLsb' 0 4)) (reg4 (h.extractLsb' 4 4)))
    | 12 => some (.seCmp (reg4 (h.extractLsb' 0 4)) (reg4 (h.extractLsb' 4 4)))
    | 13 => some (.seCmpl (reg4 (h.extractLsb' 0 4)) (reg4 (h.extractLsb' 4 4)))
    | 14 => some (.seCmph (reg4 (h.extractLsb' 0 4)) (reg4 (h.extractLsb' 4 4)))
    | 15 => some (.seCmphl (reg4 (h.extractLsb' 0 4)) (reg4 (h.extractLsb' 4 4)))
    | _ => none
  | 2 =>
    match (h.extractLsb' 8 4).toNat with
    | 0 => some (.seAddi (reg4 (h.extractLsb' 0 4)) (oimm (h.extractLsb' 4 5)))
    | 1 => some (.seAddi (reg4 (h.extractLsb' 0 4)) (oimm (h.extractLsb' 4 5)))
    | 2 => some (.seCmpli (reg4 (h.extractLsb' 0 4)) (oimm (h.extractLsb' 4 5)))
    | 3 => some (.seCmpli (reg4 (h.extractLsb' 0 4)) (oimm (h.extractLsb' 4 5)))
    | 4 => some (.seSubi (reg4 (h.extractLsb' 0 4)) (oimm (h.extractLsb' 4 5)) (h.getLsbD 9))
    | 5 => some (.seSubi (reg4 (h.extractLsb' 0 4)) (oimm (h.extractLsb' 4 5)) (h.getLsbD 9))
    | 6 => some (.seSubi (reg4 (h.extractLsb' 0 4)) (oimm (h.extractLsb' 4 5)) (h.getLsbD 9))
    | 7 => some (.seSubi (reg4 (h.extractLsb' 0 4)) (oimm (h.extractLsb' 4 5)) (h.getLsbD 9))
    | 10 => some (.seCmpi (reg4 (h.extractLsb' 0 4)) (h.extractLsb' 4 5))
    | 11 => some (.seCmpi (reg4 (h.extractLsb' 0 4)) (h.extractLsb' 4 5))
    | 12 => some (.seBmaski (reg4 (h.extractLsb' 0 4)) (h.extractLsb' 4 5))
    | 13 => some (.seBmaski (reg4 (h.extractLsb' 0 4)) (h.extractLsb' 4 5))
    | 14 => some (.seAndi (reg4 (h.extractLsb' 0 4)) (h.extractLsb' 4 5))
    | 15 => some (.seAndi (reg4 (h.extractLsb' 0 4)) (h.extractLsb' 4 5))
    | _ => none
  | 4 =>
    match (h.extractLsb' 8 4).toNat with
    | 0 => some (.seSrw (reg4 (h.extractLsb' 0 4)) (reg4 (h.extractLsb' 4 4)))
    | 1 => some (.seSraw (reg4 (h.extractLsb' 0 4)) (reg4 (h.extractLsb' 4 4)))
    | 2 => some (.seSlw (reg4 (h.extractLsb' 0 4)) (reg4 (h.extractLsb' 4 4)))
    | 4 => some (.seOr (reg4 (h.extractLsb' 0 4)) (reg4 (h.extractLsb' 4 4)))
    | 5 => some (.seAndc (reg4 (h.extractLsb' 0 4)) (reg4 (h.extractLsb' 4 4)))
    | 6 => some (.seAnd (reg4 (h.extractLsb' 0 4)) (reg4 (h.extractLsb' 4 4)) (h.getLsbD 8))
    | 7 => some (.seAnd (reg4 (h.extractLsb' 0 4)) (reg4 (h.extractLsb' 4 4)) (h.getLsbD 8))
    | 8 => some (.seLi (reg4 (h.extractLsb' 0 4)) (h.extractLsb' 4 7))
    | 9 => some (.seLi (reg4 (h.extractLsb' 0 4)) (h.extractLsb' 4 7))
    | 10 => some (.seLi (reg4 (h.extractLsb' 0 4)) (h.extractLsb' 4 7))
    | 11 => some (.seLi (reg4 (h.extractLsb' 0 4)) (h.extractLsb' 4 7))
    | 12 => some (.seLi (reg4 (h.extractLsb' 0 4)) (h.extractLsb' 4 7))
    | 13 => some (.seLi (reg4 (h.extractLsb' 0 4)) (h.extractLsb' 4 7))
    | 14 => some (.seLi (reg4 (h.extractLsb' 0 4)) (h.extractLsb' 4 7))
    | 15 => some (.seLi (reg4 (h.extractLsb' 0 4)) (h.extractLsb' 4 7))
    | _ => none
  | 6 =>
    match (h.extractLsb' 8 4).toNat with
    | 0 => some (.seBclri (reg4 (h.extractLsb' 0 4)) (h.extractLsb' 4 5))
    | 1 => some (.seBclri (reg4 (h.extractLsb' 0 4)) (h.extractLsb' 4 5))
    | 2 => some (.seBgeni (reg4 (h.extractLsb' 0 4)) (h.extractLsb' 4 5))
    | 3 => some (.seBgeni (reg4 (h.extractLsb' 0 4)) (h.extractLsb' 4 5))
    | 4 => some (.seBseti (reg4 (h.extractLsb' 0 4)) (h.extractLsb' 4 5))
    | 5 => some (.seBseti (reg4 (h.extractLsb' 0 4)) (h.extractLsb' 4 5))
    | 6 => some (.seBtsti (reg4 (h.extractLsb' 0 4)) (h.extractLsb' 4 5))
    | 7 => some (.seBtsti (reg4 (h.extractLsb' 0 4)) (h.extractLsb' 4 5))
    | 8 => some (.seSrwi (reg4 (h.extractLsb' 0 4)) (h.extractLsb' 4 5))
    | 9 => some (.seSrwi (reg4 (h.extractLsb' 0 4)) (h.extractLsb' 4 5))
    | 10 => some (.seSrawi (reg4 (h.extractLsb' 0 4)) (h.extractLsb' 4 5))
    | 11 => some (.seSrawi (reg4 (h.extractLsb' 0 4)) (h.extractLsb' 4 5))
    | 12 => some (.seSlwi (reg4 (h.extractLsb' 0 4)) (h.extractLsb' 4 5))
    | 13 => some (.seSlwi (reg4 (h.extractLsb' 0 4)) (h.extractLsb' 4 5))
    | _ => none
  | 8 => some (.seLbz (reg4 (h.extractLsb' 4 4)) (h.extractLsb' 8 4) (reg4 (h.extractLsb' 0 4)))
  | 9 => some (.seStb (reg4 (h.extractLsb' 4 4)) (h.extractLsb' 8 4) (reg4 (h.extractLsb' 0 4)))
  | 10 => some (.seLhz (reg4 (h.extractLsb' 4 4)) (h.extractLsb' 8 4) (reg4 (h.extractLsb' 0 4)))
  | 11 => some (.seSth (reg4 (h.extractLsb' 4 4)) (h.extractLsb' 8 4) (reg4 (h.extractLsb' 0 4)))
  | 12 => some (.seLwz (reg4 (h.extractLsb' 4 4)) (h.extractLsb' 8 4) (reg4 (h.extractLsb' 0 4)))
  | 13 => some (.seStw (reg4 (h.extractLsb' 4 4)) (h.extractLsb' 8 4) (reg4 (h.extractLsb' 0 4)))
  | 14 =>
    match (h.extractLsb' 8 4).toNat with
    | 0 => some (.seBc (h.getLsbD 10) (h.extractLsb' 8 2) (h.extractLsb' 0 8))
    | 1 => some (.seBc (h.getLsbD 10) (h.extractLsb' 8 2) (h.extractLsb' 0 8))
    | 2 => some (.seBc (h.getLsbD 10) (h.extractLsb' 8 2) (h.extractLsb' 0 8))
    | 3 => some (.seBc (h.getLsbD 10) (h.extractLsb' 8 2) (h.extractLsb' 0 8))
    | 4 => some (.seBc (h.getLsbD 10) (h.extractLsb' 8 2) (h.extractLsb' 0 8))
    | 5 => some (.seBc (h.getLsbD 10) (h.extractLsb' 8 2) (h.extractLsb' 0 8))
    | 6 => some (.seBc (h.getLsbD 10) (h.extractLsb' 8 2) (h.extractLsb' 0 8))
    | 7 => some (.seBc (h.getLsbD 10) (h.extractLsb' 8 2) (h.extractLsb' 0 8))
    | 8 => some (.seB (h.extractLsb' 0 8) (h.getLsbD 8))
    | 9 => some (.seB (h.extractLsb' 0 8) (h.getLsbD 8))
    | _ => none
  | _ => none

/-- A halfword that begins a 32-bit VLE instruction: first hex digit 1, 3, 5 or 7 (44_vle.md R1002). -/
def vleLong (h : Half) : Bool := (h.extractLsb' 12 1 = 1#1) && !(h.getLsbD 15)

/-- The instruction at the head of a list of bytes, lowest address first, and the bytes after it
(30_encoding.md R501, R502). -/
noncomputable def decode (vle : Bool) (bytes : List Byte) : Except Reject (Instr × List Byte) :=
  match vle, bytes with
  | false, b0 :: b1 :: b2 :: b3 :: rest =>
    match decodeBookE (b0 ++ b1 ++ b2 ++ b3) with
    | some i => .ok (i, rest)
    | none => .error .illegal
  | true, b0 :: b1 :: rest =>
    if vleLong (b0 ++ b1) then
      match rest with
      | b2 :: b3 :: rest' =>
        match decodeVle32 (b0 ++ b1 ++ b2 ++ b3) with
        | some i => .ok (i, rest')
        | none => .error .illegal
      | _ => .error .truncated
    else
      match decodeVle16 (b0 ++ b1) with
      | some i => .ok (i, rest)
      | none => .error .illegal
  | _, _ => .error .truncated

/-- The instruction whose bits are `w`, numbered as the opcode table numbers them. A word that both page kinds
assign (nine rows of the two opcode tables share words) is read as a VLE page reads it; see the log. -/
noncomputable def decodeTableWord (nbits w : Nat) : Option Instr :=
  if nbits ≤ 16 then
    match decode true [BitVec.ofNat 8 (w / 256), BitVec.ofNat 8 w] with
    | .ok (i, []) => some i
    | _ => none
  else
    let bytes := [BitVec.ofNat 8 (w / 16777216), BitVec.ofNat 8 (w / 65536), BitVec.ofNat 8 (w / 256), BitVec.ofNat 8 w]
    match decode true bytes with
    | .ok (i, []) => some i
    | _ =>
      match decode false bytes with
      | .ok (i, []) => some i
      | _ => none

/-! The encoder. -/

/-- A word from its five fields (30_encoding.md R503). -/
def asm (op : BitVec 6) (d a b : BitVec 5) (x : BitVec 11) : Word := op ++ d ++ a ++ b ++ x
/-- A D-form word (30_encoding.md R503). -/
def asmD (op : BitVec 6) (d a : BitVec 5) (imm : BitVec 16) : Word := op ++ d ++ a ++ imm
/-- The 4-bit field of a register r0 to r7, r24 to r31 (44_vle.md R1020). -/
def enc4 (r : Gpr) : BitVec 4 := r.extractLsb' 0 4 ||| (if r.toNat < 16 then 0#4 else 8#4)
/-- The 4-bit field of an alternate register r8 to r23 (44_vle.md R1020). -/
def encA4 (r : Gpr) : BitVec 4 := (r - 8#5).extractLsb' 0 4
/-- The OIM5 field of a value 1 to 32 (44_vle.md R1067). -/
def encO (v : BitVec 6) : BitVec 5 := (v - 1#6).extractLsb' 0 5

/-- The encoding of an instruction (30_encoding.md R503, 44_vle.md R1021). -/
def encode (i : Instr) : Enc :=
  match i with
  -- spec/21_mmu.md
  | .tlbre => .word (asm 31#6 0#5 0#5 0#5 1892#11)
  | .tlbwe => .word (asm 31#6 0#5 0#5 0#5 1956#11)
  | .tlbsx ra rb => .word (asm 31#6 0#5 ra rb 1828#11)
  | .tlbivax ra rb => .word (asm 31#6 0#5 ra rb 1572#11)
  | .tlbsync => .word (asm 31#6 0#5 0#5 0#5 1132#11)
  -- spec/22_cache.md
  | .icbi ra rb => .word (asm 31#6 0#5 ra rb 1964#11)
  | .icbt ct ra rb => .word (asm 31#6 (0#1 ++ ct) ra rb 44#11)
  | .dcba ra rb => .word (asm 31#6 0#5 ra rb 1516#11)
  | .dcbf ra rb => .word (asm 31#6 0#5 ra rb 172#11)
  | .dcbi ra rb => .word (asm 31#6 0#5 ra rb 940#11)
  | .dcbst ra rb => .word (asm 31#6 0#5 ra rb 108#11)
  | .dcbt ct ra rb => .word (asm 31#6 (0#1 ++ ct) ra rb 556#11)
  | .dcbtst ct ra rb => .word (asm 31#6 (0#1 ++ ct) ra rb 492#11)
  | .dcbz ra rb => .word (asm 31#6 0#5 ra rb 2028#11)
  | .dcbtls ct ra rb => .word (asm 31#6 (0#1 ++ ct) ra rb 332#11)
  | .dcbtstls ct ra rb => .word (asm 31#6 (0#1 ++ ct) ra rb 268#11)
  | .dcblc ct ra rb => .word (asm 31#6 (0#1 ++ ct) ra rb 780#11)
  | .icbtls ct ra rb => .word (asm 31#6 (0#1 ++ ct) ra rb 972#11)
  | .icblc ct ra rb => .word (asm 31#6 (0#1 ++ ct) ra rb 460#11)
  -- spec/40_base_integer.md
  | .addi rt ra si => .word (asmD 14#6 rt ra si)
  | .addis rt ra si => .word (asmD 15#6 rt ra si)
  | .addic rt ra si => .word (asmD 12#6 rt ra si)
  | .addicDot rt ra si => .word (asmD 13#6 rt ra si)
  | .subfic rt ra si => .word (asmD 8#6 rt ra si)
  | .mulli rt ra si => .word (asmD 7#6 rt ra si)
  | .add rt ra rb oe rc => .word (asm 31#6 rt ra rb (BitVec.ofBool oe ++ 266#9 ++ BitVec.ofBool rc))
  | .addc rt ra rb oe rc => .word (asm 31#6 rt ra rb (BitVec.ofBool oe ++ 10#9 ++ BitVec.ofBool rc))
  | .adde rt ra rb oe rc => .word (asm 31#6 rt ra rb (BitVec.ofBool oe ++ 138#9 ++ BitVec.ofBool rc))
  | .addme rt ra oe rc => .word (asm 31#6 rt ra 0#5 (BitVec.ofBool oe ++ 234#9 ++ BitVec.ofBool rc))
  | .addze rt ra oe rc => .word (asm 31#6 rt ra 0#5 (BitVec.ofBool oe ++ 202#9 ++ BitVec.ofBool rc))
  | .subf rt ra rb oe rc => .word (asm 31#6 rt ra rb (BitVec.ofBool oe ++ 40#9 ++ BitVec.ofBool rc))
  | .subfc rt ra rb oe rc => .word (asm 31#6 rt ra rb (BitVec.ofBool oe ++ 8#9 ++ BitVec.ofBool rc))
  | .subfe rt ra rb oe rc => .word (asm 31#6 rt ra rb (BitVec.ofBool oe ++ 136#9 ++ BitVec.ofBool rc))
  | .subfme rt ra oe rc => .word (asm 31#6 rt ra 0#5 (BitVec.ofBool oe ++ 232#9 ++ BitVec.ofBool rc))
  | .subfze rt ra oe rc => .word (asm 31#6 rt ra 0#5 (BitVec.ofBool oe ++ 200#9 ++ BitVec.ofBool rc))
  | .neg rt ra oe rc => .word (asm 31#6 rt ra 0#5 (BitVec.ofBool oe ++ 104#9 ++ BitVec.ofBool rc))
  | .mullw rt ra rb oe rc => .word (asm 31#6 rt ra rb (BitVec.ofBool oe ++ 235#9 ++ BitVec.ofBool rc))
  | .divw rt ra rb oe rc => .word (asm 31#6 rt ra rb (BitVec.ofBool oe ++ 491#9 ++ BitVec.ofBool rc))
  | .divwu rt ra rb oe rc => .word (asm 31#6 rt ra rb (BitVec.ofBool oe ++ 459#9 ++ BitVec.ofBool rc))
  | .mulhw rt ra rb rc => .word (asm 31#6 rt ra rb (75#10 ++ BitVec.ofBool rc))
  | .mulhwu rt ra rb rc => .word (asm 31#6 rt ra rb (11#10 ++ BitVec.ofBool rc))
  | .cmpi crf ra si => .word (asmD 11#6 (crf ++ 0#2) ra si)
  | .cmp crf ra rb => .word (asm 31#6 (crf ++ 0#2) ra rb 0#11)
  | .cmpli crf ra ui => .word (asmD 10#6 (crf ++ 0#2) ra ui)
  | .cmpl crf ra rb => .word (asm 31#6 (crf ++ 0#2) ra rb 64#11)
  | .andiDot ra rs ui => .word (asmD 28#6 rs ra ui)
  | .andisDot ra rs ui => .word (asmD 29#6 rs ra ui)
  | .ori ra rs ui => .word (asmD 24#6 rs ra ui)
  | .oris ra rs ui => .word (asmD 25#6 rs ra ui)
  | .xori ra rs ui => .word (asmD 26#6 rs ra ui)
  | .xoris ra rs ui => .word (asmD 27#6 rs ra ui)
  | .and ra rs rb rc => .word (asm 31#6 rs ra rb (28#10 ++ BitVec.ofBool rc))
  | .andc ra rs rb rc => .word (asm 31#6 rs ra rb (60#10 ++ BitVec.ofBool rc))
  | .or ra rs rb rc => .word (asm 31#6 rs ra rb (444#10 ++ BitVec.ofBool rc))
  | .orc ra rs rb rc => .word (asm 31#6 rs ra rb (412#10 ++ BitVec.ofBool rc))
  | .xor ra rs rb rc => .word (asm 31#6 rs ra rb (316#10 ++ BitVec.ofBool rc))
  | .nand ra rs rb rc => .word (asm 31#6 rs ra rb (476#10 ++ BitVec.ofBool rc))
  | .nor ra rs rb rc => .word (asm 31#6 rs ra rb (124#10 ++ BitVec.ofBool rc))
  | .eqv ra rs rb rc => .word (asm 31#6 rs ra rb (284#10 ++ BitVec.ofBool rc))
  | .extsb ra rs rc => .word (asm 31#6 rs ra 0#5 (954#10 ++ BitVec.ofBool rc))
  | .extsh ra rs rc => .word (asm 31#6 rs ra 0#5 (922#10 ++ BitVec.ofBool rc))
  | .cntlzw ra rs rc => .word (asm 31#6 rs ra 0#5 (26#10 ++ BitVec.ofBool rc))
  | .rlwinm ra rs sh mb me rc => .word (asm 21#6 rs ra sh (mb ++ me ++ BitVec.ofBool rc))
  | .rlwimi ra rs sh mb me rc => .word (asm 20#6 rs ra sh (mb ++ me ++ BitVec.ofBool rc))
  | .rlwnm ra rs rb mb me rc => .word (asm 23#6 rs ra rb (mb ++ me ++ BitVec.ofBool rc))
  | .slw ra rs rb rc => .word (asm 31#6 rs ra rb (24#10 ++ BitVec.ofBool rc))
  | .srw ra rs rb rc => .word (asm 31#6 rs ra rb (536#10 ++ BitVec.ofBool rc))
  | .sraw ra rs rb rc => .word (asm 31#6 rs ra rb (792#10 ++ BitVec.ofBool rc))
  | .srawi ra rs sh rc => .word (asm 31#6 rs ra sh (824#10 ++ BitVec.ofBool rc))
  -- spec/41_base_loadstore.md
  | .lbz rt d ra => .word (asmD 34#6 rt ra d)
  | .lbzu rt d ra => .word (asmD 35#6 rt ra d)
  | .lhz rt d ra => .word (asmD 40#6 rt ra d)
  | .lhzu rt d ra => .word (asmD 41#6 rt ra d)
  | .lha rt d ra => .word (asmD 42#6 rt ra d)
  | .lhau rt d ra => .word (asmD 43#6 rt ra d)
  | .lwz rt d ra => .word (asmD 32#6 rt ra d)
  | .lwzu rt d ra => .word (asmD 33#6 rt ra d)
  | .stb rs d ra => .word (asmD 38#6 rs ra d)
  | .stbu rs d ra => .word (asmD 39#6 rs ra d)
  | .sth rs d ra => .word (asmD 44#6 rs ra d)
  | .sthu rs d ra => .word (asmD 45#6 rs ra d)
  | .stw rs d ra => .word (asmD 36#6 rs ra d)
  | .stwu rs d ra => .word (asmD 37#6 rs ra d)
  | .lbzx rt ra rb => .word (asm 31#6 rt ra rb 174#11)
  | .lbzux rt ra rb => .word (asm 31#6 rt ra rb 238#11)
  | .lhzx rt ra rb => .word (asm 31#6 rt ra rb 558#11)
  | .lhzux rt ra rb => .word (asm 31#6 rt ra rb 622#11)
  | .lhax rt ra rb => .word (asm 31#6 rt ra rb 686#11)
  | .lhaux rt ra rb => .word (asm 31#6 rt ra rb 750#11)
  | .lwzx rt ra rb => .word (asm 31#6 rt ra rb 46#11)
  | .lwzux rt ra rb => .word (asm 31#6 rt ra rb 110#11)
  | .stbx rs ra rb => .word (asm 31#6 rs ra rb 430#11)
  | .stbux rs ra rb => .word (asm 31#6 rs ra rb 494#11)
  | .sthx rs ra rb => .word (asm 31#6 rs ra rb 814#11)
  | .sthux rs ra rb => .word (asm 31#6 rs ra rb 878#11)
  | .stwx rs ra rb => .word (asm 31#6 rs ra rb 302#11)
  | .stwux rs ra rb => .word (asm 31#6 rs ra rb 366#11)
  | .lhbrx rt ra rb => .word (asm 31#6 rt ra rb 1580#11)
  | .lwbrx rt ra rb => .word (asm 31#6 rt ra rb 1068#11)
  | .sthbrx rs ra rb => .word (asm 31#6 rs ra rb 1836#11)
  | .stwbrx rs ra rb => .word (asm 31#6 rs ra rb 1324#11)
  | .lmw rt d ra => .word (asmD 46#6 rt ra d)
  | .stmw rs d ra => .word (asmD 47#6 rs ra d)
  -- spec/42_base_branch_cr_system.md
  | .b li aa lk => .word (18#6 ++ li ++ BitVec.ofBool aa ++ BitVec.ofBool lk)
  | .bc bo bi bd aa lk => .word (16#6 ++ bo ++ bi ++ bd ++ BitVec.ofBool aa ++ BitVec.ofBool lk)
  | .bclr bo bi lk => .word (asm 19#6 bo bi 0#5 (16#10 ++ BitVec.ofBool lk))
  | .bcctr bo bi lk => .word (asm 19#6 bo bi 0#5 (528#10 ++ BitVec.ofBool lk))
  | .crand bt ba bb => .word (asm 19#6 bt ba bb 514#11)
  | .crandc bt ba bb => .word (asm 19#6 bt ba bb 258#11)
  | .creqv bt ba bb => .word (asm 19#6 bt ba bb 578#11)
  | .crnand bt ba bb => .word (asm 19#6 bt ba bb 450#11)
  | .crnor bt ba bb => .word (asm 19#6 bt ba bb 66#11)
  | .cror bt ba bb => .word (asm 19#6 bt ba bb 898#11)
  | .crorc bt ba bb => .word (asm 19#6 bt ba bb 834#11)
  | .crxor bt ba bb => .word (asm 19#6 bt ba bb 386#11)
  | .mcrf crf crs => .word (asm 19#6 (crf ++ 0#2) (crs ++ 0#2) 0#5 0#11)
  | .mcrxr crf => .word (asm 31#6 (crf ++ 0#2) 0#5 0#5 1024#11)
  | .mfcr rt => .word (asm 31#6 rt 0#5 0#5 38#11)
  | .mtcrf fxm rs => .word (asm 31#6 rs (0#1 ++ fxm.extractLsb' 4 4) (fxm.extractLsb' 0 4 ++ 0#1) 288#11)
  | .tw tmask ra rb => .word (asm 31#6 tmask ra rb 8#11)
  | .twi tmask ra simm => .word (asmD 3#6 tmask ra simm)
  | .sc => .word 1140850690#32
  | .rfi => .word (asm 19#6 0#5 0#5 0#5 100#11)
  | .rfci => .word (asm 19#6 0#5 0#5 0#5 102#11)
  | .isync => .word (asm 19#6 0#5 0#5 0#5 300#11)
  | .mfmsr rt => .word (asm 31#6 rt 0#5 0#5 166#11)
  | .mtmsr rs => .word (asm 31#6 rs 0#5 0#5 292#11)
  | .wrtee rs => .word (asm 31#6 rs 0#5 0#5 262#11)
  | .wrteei e => .word (asm 31#6 0#5 0#5 (BitVec.ofBool e ++ 0#4) 326#11)
  | .mfspr rt sprn => .word (asm 31#6 rt (sprn.extractLsb' 0 5) (sprn.extractLsb' 5 5) 678#11)
  | .mtspr sprn rs => .word (asm 31#6 rs (sprn.extractLsb' 0 5) (sprn.extractLsb' 5 5) 934#11)
  -- spec/43_apu_misc.md
  | .isel rt ra rb crb => .word (asm 31#6 rt ra rb (crb ++ 30#6))
  | .rfdi => .word (asm 19#6 0#5 0#5 0#5 78#11)
  | .rfmci => .word (asm 19#6 0#5 0#5 0#5 76#11)
  | .dnh dui duis => .word (asm 19#6 dui (duis.extractLsb' 5 5) (duis.extractLsb' 0 5) 396#11)
  | .wait => .word (asm 31#6 0#5 0#5 0#5 124#11)
  | .msync => .word (asm 31#6 0#5 0#5 0#5 1196#11)
  | .mbar mo => .word (asm 31#6 mo 0#5 0#5 1708#11)
  | .mfdcr rt dcrn => .word (asm 31#6 rt (dcrn.extractLsb' 0 5) (dcrn.extractLsb' 5 5) 646#11)
  | .mtdcr dcrn rs => .word (asm 31#6 rs (dcrn.extractLsb' 0 5) (dcrn.extractLsb' 5 5) 902#11)
  | .lbarx rt ra rb => .word (asm 31#6 rt ra rb 104#11)
  | .lharx rt ra rb => .word (asm 31#6 rt ra rb 232#11)
  | .lwarx rt ra rb => .word (asm 31#6 rt ra rb 40#11)
  | .stbcxDot rs ra rb => .word (asm 31#6 rs ra rb 1389#11)
  | .sthcxDot rs ra rb => .word (asm 31#6 rs ra rb 1453#11)
  | .stwcxDot rs ra rb => .word (asm 31#6 rs ra rb 301#11)
  | .eLmvgprw d8 ra => .word (asmD 6#6 0#5 ra (16#8 ++ d8))
  | .eStmvgprw d8 ra => .word (asmD 6#6 0#5 ra (17#8 ++ d8))
  | .eLmvsprw d8 ra => .word (asmD 6#6 1#5 ra (16#8 ++ d8))
  | .eStmvsprw d8 ra => .word (asmD 6#6 1#5 ra (17#8 ++ d8))
  | .eLmvsrrw d8 ra => .word (asmD 6#6 4#5 ra (16#8 ++ d8))
  | .eStmvsrrw d8 ra => .word (asmD 6#6 4#5 ra (17#8 ++ d8))
  | .eLmvcsrrw d8 ra => .word (asmD 6#6 5#5 ra (16#8 ++ d8))
  | .eStmvcsrrw d8 ra => .word (asmD 6#6 5#5 ra (17#8 ++ d8))
  | .eLmvdsrrw d8 ra => .word (asmD 6#6 6#5 ra (16#8 ++ d8))
  | .eStmvdsrrw d8 ra => .word (asmD 6#6 6#5 ra (17#8 ++ d8))
  | .eLmvmcsrrw d8 ra => .word (asmD 6#6 7#5 ra (16#8 ++ d8))
  | .eStmvmcsrrw d8 ra => .word (asmD 6#6 7#5 ra (17#8 ++ d8))
  -- spec/44_vle.md
  | .seIllegal => .half 0#16
  | .seIsync => .half 1#16
  | .seSc => .half 2#16
  | .seBlr lk => .half (2#15 ++ BitVec.ofBool lk)
  | .seBctr lk => .half (3#15 ++ BitVec.ofBool lk)
  | .seRfi => .half 8#16
  | .seRfci => .half 9#16
  | .seRfdi => .half 10#16
  | .seRfmci => .half 11#16
  | .seDnh => .half 15#16
  | .seNot rx => .half (2#12 ++ enc4 rx)
  | .seNeg rx => .half (3#12 ++ enc4 rx)
  | .seMflr rx => .half (8#12 ++ enc4 rx)
  | .seMtlr rx => .half (9#12 ++ enc4 rx)
  | .seMfctr rx => .half (10#12 ++ enc4 rx)
  | .seMtctr rx => .half (11#12 ++ enc4 rx)
  | .seExtzb rx => .half (12#12 ++ enc4 rx)
  | .seExtsb rx => .half (13#12 ++ enc4 rx)
  | .seExtzh rx => .half (14#12 ++ enc4 rx)
  | .seExtsh rx => .half (15#12 ++ enc4 rx)
  | .seMr rx ry => .half (1#8 ++ enc4 ry ++ enc4 rx)
  | .seMtar arx ry => .half (2#8 ++ enc4 ry ++ encA4 arx)
  | .seMfar rx ary => .half (3#8 ++ encA4 ary ++ enc4 rx)
  | .seAdd rx ry => .half (4#8 ++ enc4 ry ++ enc4 rx)
  | .seMullw rx ry => .half (5#8 ++ enc4 ry ++ enc4 rx)
  | .seSub rx ry => .half (6#8 ++ enc4 ry ++ enc4 rx)
  | .seSubf rx ry => .half (7#8 ++ enc4 ry ++ enc4 rx)
  | .seCmp rx ry => .half (12#8 ++ enc4 ry ++ enc4 rx)
  | .seCmpl rx ry => .half (13#8 ++ enc4 ry ++ enc4 rx)
  | .seCmph rx ry => .half (14#8 ++ enc4 ry ++ enc4 rx)
  | .seCmphl rx ry => .half (15#8 ++ enc4 ry ++ enc4 rx)
  | .seSrw rx ry => .half (64#8 ++ enc4 ry ++ enc4 rx)
  | .seSraw rx ry => .half (65#8 ++ enc4 ry ++ enc4 rx)
  | .seSlw rx ry => .half (66#8 ++ enc4 ry ++ enc4 rx)
  | .seOr rx ry => .half (68#8 ++ enc4 ry ++ enc4 rx)
  | .seAndc rx ry => .half (69#8 ++ enc4 ry ++ enc4 rx)
  | .seAnd rx ry rc => .half (35#7 ++ BitVec.ofBool rc ++ enc4 ry ++ enc4 rx)
  | .seAddi rx oimm => .half (16#7 ++ encO oimm ++ enc4 rx)
  | .seCmpli rx oimm => .half (17#7 ++ encO oimm ++ enc4 rx)
  | .seSubi rx oimm rc => .half (9#6 ++ BitVec.ofBool rc ++ encO oimm ++ enc4 rx)
  | .seCmpi rx ui5 => .half (21#7 ++ ui5 ++ enc4 rx)
  | .seBmaski rx ui5 => .half (22#7 ++ ui5 ++ enc4 rx)
  | .seAndi rx ui5 => .half (23#7 ++ ui5 ++ enc4 rx)
  | .seBclri rx ui5 => .half (48#7 ++ ui5 ++ enc4 rx)
  | .seBgeni rx ui5 => .half (49#7 ++ ui5 ++ enc4 rx)
  | .seBseti rx ui5 => .half (50#7 ++ ui5 ++ enc4 rx)
  | .seBtsti rx ui5 => .half (51#7 ++ ui5 ++ enc4 rx)
  | .seSrwi rx ui5 => .half (52#7 ++ ui5 ++ enc4 rx)
  | .seSrawi rx ui5 => .half (53#7 ++ ui5 ++ enc4 rx)
  | .seSlwi rx ui5 => .half (54#7 ++ ui5 ++ enc4 rx)
  | .seLi rx ui7 => .half (9#5 ++ ui7 ++ enc4 rx)
  | .seLbz rz sd4 rx => .half (8#4 ++ sd4 ++ enc4 rz ++ enc4 rx)
  | .seStb rz sd4 rx => .half (9#4 ++ sd4 ++ enc4 rz ++ enc4 rx)
  | .seLhz rz sd4 rx => .half (10#4 ++ sd4 ++ enc4 rz ++ enc4 rx)
  | .seSth rz sd4 rx => .half (11#4 ++ sd4 ++ enc4 rz ++ enc4 rx)
  | .seLwz rz sd4 rx => .half (12#4 ++ sd4 ++ enc4 rz ++ enc4 rx)
  | .seStw rz sd4 rx => .half (13#4 ++ sd4 ++ enc4 rz ++ enc4 rx)
  | .seB bd8 lk => .half (116#7 ++ BitVec.ofBool lk ++ bd8)
  | .seBc bo16 bi16 bd8 => .half (28#5 ++ BitVec.ofBool bo16 ++ bi16 ++ bd8)
  | .eLbz rd d ra => .word (asmD 12#6 rd ra d)
  | .eStb rs d ra => .word (asmD 13#6 rs ra d)
  | .eLha rd d ra => .word (asmD 14#6 rd ra d)
  | .eLwz rd d ra => .word (asmD 20#6 rd ra d)
  | .eStw rs d ra => .word (asmD 21#6 rs ra d)
  | .eLhz rd d ra => .word (asmD 22#6 rd ra d)
  | .eSth rs d ra => .word (asmD 23#6 rs ra d)
  | .eAdd16i rd ra si => .word (asmD 7#6 rd ra si)
  | .eLbzu rd d8 ra => .word (asmD 6#6 rd ra (0#8 ++ d8))
  | .eLhzu rd d8 ra => .word (asmD 6#6 rd ra (1#8 ++ d8))
  | .eLwzu rd d8 ra => .word (asmD 6#6 rd ra (2#8 ++ d8))
  | .eLhau rd d8 ra => .word (asmD 6#6 rd ra (3#8 ++ d8))
  | .eStbu rs d8 ra => .word (asmD 6#6 rs ra (4#8 ++ d8))
  | .eSthu rs d8 ra => .word (asmD 6#6 rs ra (5#8 ++ d8))
  | .eStwu rs d8 ra => .word (asmD 6#6 rs ra (6#8 ++ d8))
  | .eLmw rd d8 ra => .word (asmD 6#6 rd ra (8#8 ++ d8))
  | .eStmw rs d8 ra => .word (asmD 6#6 rs ra (9#8 ++ d8))
  | .eAddi rd ra f scl ui8 rc => .word (asmD 6#6 rd ra (8#4 ++ BitVec.ofBool rc ++ BitVec.ofBool f ++ scl ++ ui8))
  | .eAddic rd ra f scl ui8 rc => .word (asmD 6#6 rd ra (9#4 ++ BitVec.ofBool rc ++ BitVec.ofBool f ++ scl ++ ui8))
  | .eMulli rd ra f scl ui8 => .word (asmD 6#6 rd ra (20#5 ++ BitVec.ofBool f ++ scl ++ ui8))
  | .eCmpi crf ra f scl ui8 => .word (asmD 6#6 (0#3 ++ crf) ra (21#5 ++ BitVec.ofBool f ++ scl ++ ui8))
  | .eCmpli crf ra f scl ui8 => .word (asmD 6#6 (1#3 ++ crf) ra (21#5 ++ BitVec.ofBool f ++ scl ++ ui8))
  | .eSubfic rd ra f scl ui8 rc => .word (asmD 6#6 rd ra (11#4 ++ BitVec.ofBool rc ++ BitVec.ofBool f ++ scl ++ ui8))
  | .eAndi ra rs f scl ui8 rc => .word (asmD 6#6 rs ra (12#4 ++ BitVec.ofBool rc ++ BitVec.ofBool f ++ scl ++ ui8))
  | .eOri ra rs f scl ui8 rc => .word (asmD 6#6 rs ra (13#4 ++ BitVec.ofBool rc ++ BitVec.ofBool f ++ scl ++ ui8))
  | .eXori ra rs f scl ui8 rc => .word (asmD 6#6 rs ra (14#4 ++ BitVec.ofBool rc ++ BitVec.ofBool f ++ scl ++ ui8))
  | .eLi rd li20 => .word (28#6 ++ rd ++ li20.extractLsb' 11 5 ++ 0#1 ++ li20.extractLsb' 16 4 ++ li20.extractLsb' 0 11)
  | .eAdd2iDot ra si => .word (asm 28#6 (si.extractLsb' 11 5) ra 17#5 (si.extractLsb' 0 11))
  | .eAdd2is ra si => .word (asm 28#6 (si.extractLsb' 11 5) ra 18#5 (si.extractLsb' 0 11))
  | .eCmp16i ra si => .word (asm 28#6 (si.extractLsb' 11 5) ra 19#5 (si.extractLsb' 0 11))
  | .eMull2i ra si => .word (asm 28#6 (si.extractLsb' 11 5) ra 20#5 (si.extractLsb' 0 11))
  | .eCmpl16i ra ui => .word (asm 28#6 (ui.extractLsb' 11 5) ra 21#5 (ui.extractLsb' 0 11))
  | .eCmph16i ra si => .word (asm 28#6 (si.extractLsb' 11 5) ra 22#5 (si.extractLsb' 0 11))
  | .eCmphl16i ra ui => .word (asm 28#6 (ui.extractLsb' 11 5) ra 23#5 (ui.extractLsb' 0 11))
  | .eOr2i rd ui => .word (asm 28#6 rd (ui.extractLsb' 11 5) 24#5 (ui.extractLsb' 0 11))
  | .eAnd2iDot rd ui => .word (asm 28#6 rd (ui.extractLsb' 11 5) 25#5 (ui.extractLsb' 0 11))
  | .eOr2is rd ui => .word (asm 28#6 rd (ui.extractLsb' 11 5) 26#5 (ui.extractLsb' 0 11))
  | .eLis rd ui => .word (asm 28#6 rd (ui.extractLsb' 11 5) 28#5 (ui.extractLsb' 0 11))
  | .eAnd2isDot rd ui => .word (asm 28#6 rd (ui.extractLsb' 11 5) 29#5 (ui.extractLsb' 0 11))
  | .eRlwimi ra rs sh mb me => .word (asm 29#6 rs ra sh (mb ++ me ++ 0#1))
  | .eRlwinm ra rs sh mb me => .word (asm 29#6 rs ra sh (mb ++ me ++ 1#1))
  | .eB bd24 lk => .word (30#6 ++ 0#1 ++ bd24 ++ BitVec.ofBool lk)
  | .eBc bo32 bi32 bd15 lk => .word (30#6 ++ 8#4 ++ bo32 ++ bi32 ++ bd15 ++ BitVec.ofBool lk)
  | .eCmph crf ra rb => .word (asm 31#6 (crf ++ 0#2) ra rb 28#11)
  | .eCmphl crf ra rb => .word (asm 31#6 (crf ++ 0#2) ra rb 92#11)
  | .eMcrf crf crs => .word (asm 31#6 (crf ++ 0#2) (crs ++ 0#2) 0#5 32#11)
  | .eCrnor bt ba bb => .word (asm 31#6 bt ba bb 66#11)
  | .eCrandc bt ba bb => .word (asm 31#6 bt ba bb 258#11)
  | .eCrxor bt ba bb => .word (asm 31#6 bt ba bb 386#11)
  | .eCrnand bt ba bb => .word (asm 31#6 bt ba bb 450#11)
  | .eCrand bt ba bb => .word (asm 31#6 bt ba bb 514#11)
  | .eCreqv bt ba bb => .word (asm 31#6 bt ba bb 578#11)
  | .eCrorc bt ba bb => .word (asm 31#6 bt ba bb 834#11)
  | .eCror bt ba bb => .word (asm 31#6 bt ba bb 898#11)
  | .eSlwi ra rs sh rc => .word (asm 31#6 rs ra sh (56#10 ++ BitVec.ofBool rc))
  | .eRlw ra rs rb rc => .word (asm 31#6 rs ra rb (280#10 ++ BitVec.ofBool rc))
  | .eRlwi ra rs sh rc => .word (asm 31#6 rs ra sh (312#10 ++ BitVec.ofBool rc))
  | .eSrwi ra rs sh rc => .word (asm 31#6 rs ra sh (568#10 ++ BitVec.ofBool rc))
  | .eDnh dui duis => .word (asm 31#6 dui (duis.extractLsb' 5 5) (duis.extractLsb' 0 5) 194#11)
  -- spec/45_efpu_scalar.md
  | .efsabs rd ra => .word (asm 4#6 rd ra 0#5 708#11)
  | .efsnabs rd ra => .word (asm 4#6 rd ra 0#5 709#11)
  | .efsneg rd ra => .word (asm 4#6 rd ra 0#5 710#11)
  | .efsadd rd ra rb => .word (asm 4#6 rd ra rb 704#11)
  | .efssub rd ra rb => .word (asm 4#6 rd ra rb 705#11)
  | .efsmul rd ra rb => .word (asm 4#6 rd ra rb 712#11)
  | .efsdiv rd ra rb => .word (asm 4#6 rd ra rb 713#11)
  | .efsmadd rd ra rb => .word (asm 4#6 rd ra rb 706#11)
  | .efsmsub rd ra rb => .word (asm 4#6 rd ra rb 707#11)
  | .efsnmadd rd ra rb => .word (asm 4#6 rd ra rb 714#11)
  | .efsnmsub rd ra rb => .word (asm 4#6 rd ra rb 715#11)
  | .efssqrt rd ra => .word (asm 4#6 rd ra 0#5 711#11)
  | .efsmax rd ra rb => .word (asm 4#6 rd ra rb 688#11)
  | .efsmin rd ra rb => .word (asm 4#6 rd ra rb 689#11)
  | .efscmpgt crf ra rb => .word (asm 4#6 (crf ++ 0#2) ra rb 716#11)
  | .efscmplt crf ra rb => .word (asm 4#6 (crf ++ 0#2) ra rb 717#11)
  | .efscmpeq crf ra rb => .word (asm 4#6 (crf ++ 0#2) ra rb 718#11)
  | .efststgt crf ra rb => .word (asm 4#6 (crf ++ 0#2) ra rb 732#11)
  | .efststlt crf ra rb => .word (asm 4#6 (crf ++ 0#2) ra rb 733#11)
  | .efststeq crf ra rb => .word (asm 4#6 (crf ++ 0#2) ra rb 734#11)
  | .efscfsi rd rb => .word (asm 4#6 rd 0#5 rb 721#11)
  | .efscfui rd rb => .word (asm 4#6 rd 0#5 rb 720#11)
  | .efscfsf rd rb => .word (asm 4#6 rd 0#5 rb 723#11)
  | .efscfuf rd rb => .word (asm 4#6 rd 0#5 rb 722#11)
  | .efsctsi rd rb => .word (asm 4#6 rd 0#5 rb 725#11)
  | .efsctsiz rd rb => .word (asm 4#6 rd 0#5 rb 730#11)
  | .efsctui rd rb => .word (asm 4#6 rd 0#5 rb 724#11)
  | .efsctuiz rd rb => .word (asm 4#6 rd 0#5 rb 728#11)
  | .efsctsf rd rb => .word (asm 4#6 rd 0#5 rb 727#11)
  | .efsctuf rd rb => .word (asm 4#6 rd 0#5 rb 726#11)
  | .efscfh rd rb => .word (asm 4#6 rd 4#5 rb 721#11)
  | .efscth rd rb => .word (asm 4#6 rd 4#5 rb 725#11)
  -- spec/46_efpu_vector.md
  | .evfsabs rd ra => .word (asm 4#6 rd ra 0#5 644#11)
  | .evfsnabs rd ra => .word (asm 4#6 rd ra 0#5 645#11)
  | .evfsneg rd ra => .word (asm 4#6 rd ra 0#5 646#11)
  | .evfsadd rd ra rb => .word (asm 4#6 rd ra rb 640#11)
  | .evfssub rd ra rb => .word (asm 4#6 rd ra rb 641#11)
  | .evfsaddsub rd ra rb => .word (asm 4#6 rd ra rb 674#11)
  | .evfssubadd rd ra rb => .word (asm 4#6 rd ra rb 675#11)
  | .evfsaddx rd ra rb => .word (asm 4#6 rd ra rb 680#11)
  | .evfssubx rd ra rb => .word (asm 4#6 rd ra rb 681#11)
  | .evfsaddsubx rd ra rb => .word (asm 4#6 rd ra rb 682#11)
  | .evfssubaddx rd ra rb => .word (asm 4#6 rd ra rb 683#11)
  | .evfssum rd ra rb => .word (asm 4#6 rd ra rb 676#11)
  | .evfsdiff rd ra rb => .word (asm 4#6 rd ra rb 677#11)
  | .evfssumdiff rd ra rb => .word (asm 4#6 rd ra rb 678#11)
  | .evfsdiffsum rd ra rb => .word (asm 4#6 rd ra rb 679#11)
  | .evfsmul rd ra rb => .word (asm 4#6 rd ra rb 648#11)
  | .evfsmule rd ra rb => .word (asm 4#6 rd ra rb 686#11)
  | .evfsmulo rd ra rb => .word (asm 4#6 rd ra rb 687#11)
  | .evfsmulx rd ra rb => .word (asm 4#6 rd ra rb 684#11)
  | .evfsdiv rd ra rb => .word (asm 4#6 rd ra rb 649#11)
  | .evfssqrt rd ra => .word (asm 4#6 rd ra 0#5 647#11)
  | .evfsmadd rd ra rb => .word (asm 4#6 rd ra rb 642#11)
  | .evfsmsub rd ra rb => .word (asm 4#6 rd ra rb 643#11)
  | .evfsnmadd rd ra rb => .word (asm 4#6 rd ra rb 650#11)
  | .evfsnmsub rd ra rb => .word (asm 4#6 rd ra rb 651#11)
  | .evfsmax rd ra rb => .word (asm 4#6 rd ra rb 672#11)
  | .evfsmin rd ra rb => .word (asm 4#6 rd ra rb 673#11)
  | .evfscmpgt crf ra rb => .word (asm 4#6 (crf ++ 0#2) ra rb 652#11)
  | .evfscmplt crf ra rb => .word (asm 4#6 (crf ++ 0#2) ra rb 653#11)
  | .evfscmpeq crf ra rb => .word (asm 4#6 (crf ++ 0#2) ra rb 654#11)
  | .evfststgt crf ra rb => .word (asm 4#6 (crf ++ 0#2) ra rb 668#11)
  | .evfststlt crf ra rb => .word (asm 4#6 (crf ++ 0#2) ra rb 669#11)
  | .evfststeq crf ra rb => .word (asm 4#6 (crf ++ 0#2) ra rb 670#11)
  | .evfscfsi rd rb => .word (asm 4#6 rd 0#5 rb 657#11)
  | .evfscfui rd rb => .word (asm 4#6 rd 0#5 rb 656#11)
  | .evfscfsf rd rb => .word (asm 4#6 rd 0#5 rb 659#11)
  | .evfscfuf rd rb => .word (asm 4#6 rd 0#5 rb 658#11)
  | .evfsctsi rd rb => .word (asm 4#6 rd 0#5 rb 661#11)
  | .evfsctsiz rd rb => .word (asm 4#6 rd 0#5 rb 666#11)
  | .evfsctui rd rb => .word (asm 4#6 rd 0#5 rb 660#11)
  | .evfsctuiz rd rb => .word (asm 4#6 rd 0#5 rb 664#11)
  | .evfsctsf rd rb => .word (asm 4#6 rd 0#5 rb 663#11)
  | .evfsctuf rd rb => .word (asm 4#6 rd 0#5 rb 662#11)
  | .evfscfh rd rb => .word (asm 4#6 rd 4#5 rb 657#11)
  | .evfscth rd rb => .word (asm 4#6 rd 4#5 rb 661#11)
  -- spec/47_spe_state_and_simple.md
  | .brinc rd ra rb => .word (asm 4#6 rd ra rb 527#11)
  | .evabs rd ra => .word (asm 4#6 rd ra 0#5 520#11)
  | .evaddiw rd rb uimm => .word (asm 4#6 rd uimm rb 514#11)
  | .evaddw rd ra rb => .word (asm 4#6 rd ra rb 512#11)
  | .evand rd ra rb => .word (asm 4#6 rd ra rb 529#11)
  | .evandc rd ra rb => .word (asm 4#6 rd ra rb 530#11)
  | .evcmpeq crf ra rb => .word (asm 4#6 (crf ++ 0#2) ra rb 564#11)
  | .evcmpgts crf ra rb => .word (asm 4#6 (crf ++ 0#2) ra rb 561#11)
  | .evcmpgtu crf ra rb => .word (asm 4#6 (crf ++ 0#2) ra rb 560#11)
  | .evcmplts crf ra rb => .word (asm 4#6 (crf ++ 0#2) ra rb 563#11)
  | .evcmpltu crf ra rb => .word (asm 4#6 (crf ++ 0#2) ra rb 562#11)
  | .evcntlsw rd ra => .word (asm 4#6 rd ra 0#5 526#11)
  | .evcntlzw rd ra => .word (asm 4#6 rd ra 0#5 525#11)
  | .evdivws rd ra rb => .word (asm 4#6 rd ra rb 1222#11)
  | .evdivwu rd ra rb => .word (asm 4#6 rd ra rb 1223#11)
  | .eveqv rd ra rb => .word (asm 4#6 rd ra rb 537#11)
  | .evextsb rd ra => .word (asm 4#6 rd ra 0#5 522#11)
  | .evextsh rd ra => .word (asm 4#6 rd ra 0#5 523#11)
  | .evmergehi rd ra rb => .word (asm 4#6 rd ra rb 556#11)
  | .evmergehilo rd ra rb => .word (asm 4#6 rd ra rb 558#11)
  | .evmergelo rd ra rb => .word (asm 4#6 rd ra rb 557#11)
  | .evmergelohi rd ra rb => .word (asm 4#6 rd ra rb 559#11)
  | .evnand rd ra rb => .word (asm 4#6 rd ra rb 542#11)
  | .evneg rd ra => .word (asm 4#6 rd ra 0#5 521#11)
  | .evnor rd ra rb => .word (asm 4#6 rd ra rb 536#11)
  | .evor rd ra rb => .word (asm 4#6 rd ra rb 535#11)
  | .evorc rd ra rb => .word (asm 4#6 rd ra rb 539#11)
  | .evrlw rd ra rb => .word (asm 4#6 rd ra rb 552#11)
  | .evrlwi rd ra uimm => .word (asm 4#6 rd ra uimm 554#11)
  | .evrndw rd ra => .word (asm 4#6 rd ra 0#5 524#11)
  | .evsel rd ra rb crs => .word (asm 4#6 rd ra rb (79#8 ++ crs))
  | .evslw rd ra rb => .word (asm 4#6 rd ra rb 548#11)
  | .evslwi rd ra uimm => .word (asm 4#6 rd ra uimm 550#11)
  | .evsplatfi rd simm => .word (asm 4#6 rd simm 0#5 555#11)
  | .evsplati rd simm => .word (asm 4#6 rd simm 0#5 553#11)
  | .evsrwis rd ra uimm => .word (asm 4#6 rd ra uimm 547#11)
  | .evsrwiu rd ra uimm => .word (asm 4#6 rd ra uimm 546#11)
  | .evsrws rd ra rb => .word (asm 4#6 rd ra rb 545#11)
  | .evsrwu rd ra rb => .word (asm 4#6 rd ra rb 544#11)
  | .evsubfw rd ra rb => .word (asm 4#6 rd ra rb 516#11)
  | .evsubifw rd uimm rb => .word (asm 4#6 rd uimm rb 518#11)
  | .evxor rd ra rb => .word (asm 4#6 rd ra rb 534#11)
  | .evmra rd ra => .word (asm 4#6 rd ra 0#5 1220#11)
  -- spec/48_spe_multiply_halfword.md
  | .evmhegsmfaa rd ra rb => .word (asm 4#6 rd ra rb 1323#11)
  | .evmhegsmfan rd ra rb => .word (asm 4#6 rd ra rb 1451#11)
  | .evmhegsmiaa rd ra rb => .word (asm 4#6 rd ra rb 1321#11)
  | .evmhegsmian rd ra rb => .word (asm 4#6 rd ra rb 1449#11)
  | .evmhegumiaa rd ra rb => .word (asm 4#6 rd ra rb 1320#11)
  | .evmhegumian rd ra rb => .word (asm 4#6 rd ra rb 1448#11)
  | .evmhesmf rd ra rb => .word (asm 4#6 rd ra rb 1035#11)
  | .evmhesmfa rd ra rb => .word (asm 4#6 rd ra rb 1067#11)
  | .evmhesmi rd ra rb => .word (asm 4#6 rd ra rb 1033#11)
  | .evmhesmia rd ra rb => .word (asm 4#6 rd ra rb 1065#11)
  | .evmhessf rd ra rb => .word (asm 4#6 rd ra rb 1027#11)
  | .evmhessfa rd ra rb => .word (asm 4#6 rd ra rb 1059#11)
  | .evmheumi rd ra rb => .word (asm 4#6 rd ra rb 1032#11)
  | .evmheumia rd ra rb => .word (asm 4#6 rd ra rb 1064#11)
  | .evmhesmfaaw rd ra rb => .word (asm 4#6 rd ra rb 1291#11)
  | .evmhesmfanw rd ra rb => .word (asm 4#6 rd ra rb 1419#11)
  | .evmhesmiaaw rd ra rb => .word (asm 4#6 rd ra rb 1289#11)
  | .evmhesmianw rd ra rb => .word (asm 4#6 rd ra rb 1417#11)
  | .evmhessfaaw rd ra rb => .word (asm 4#6 rd ra rb 1283#11)
  | .evmhessfanw rd ra rb => .word (asm 4#6 rd ra rb 1411#11)
  | .evmhessiaaw rd ra rb => .word (asm 4#6 rd ra rb 1281#11)
  | .evmhessianw rd ra rb => .word (asm 4#6 rd ra rb 1409#11)
  | .evmheumiaaw rd ra rb => .word (asm 4#6 rd ra rb 1288#11)
  | .evmheumianw rd ra rb => .word (asm 4#6 rd ra rb 1416#11)
  | .evmheusiaaw rd ra rb => .word (asm 4#6 rd ra rb 1280#11)
  | .evmheusianw rd ra rb => .word (asm 4#6 rd ra rb 1408#11)
  | .evmhogsmfaa rd ra rb => .word (asm 4#6 rd ra rb 1327#11)
  | .evmhogsmfan rd ra rb => .word (asm 4#6 rd ra rb 1455#11)
  | .evmhogsmiaa rd ra rb => .word (asm 4#6 rd ra rb 1325#11)
  | .evmhogsmian rd ra rb => .word (asm 4#6 rd ra rb 1453#11)
  | .evmhogumiaa rd ra rb => .word (asm 4#6 rd ra rb 1324#11)
  | .evmhogumian rd ra rb => .word (asm 4#6 rd ra rb 1452#11)
  | .evmhosmf rd ra rb => .word (asm 4#6 rd ra rb 1039#11)
  | .evmhosmfa rd ra rb => .word (asm 4#6 rd ra rb 1071#11)
  | .evmhosmi rd ra rb => .word (asm 4#6 rd ra rb 1037#11)
  | .evmhosmia rd ra rb => .word (asm 4#6 rd ra rb 1069#11)
  | .evmhossf rd ra rb => .word (asm 4#6 rd ra rb 1031#11)
  | .evmhossfa rd ra rb => .word (asm 4#6 rd ra rb 1063#11)
  | .evmhoumi rd ra rb => .word (asm 4#6 rd ra rb 1036#11)
  | .evmhoumia rd ra rb => .word (asm 4#6 rd ra rb 1068#11)
  | .evmhosmfaaw rd ra rb => .word (asm 4#6 rd ra rb 1295#11)
  | .evmhosmfanw rd ra rb => .word (asm 4#6 rd ra rb 1423#11)
  | .evmhosmiaaw rd ra rb => .word (asm 4#6 rd ra rb 1293#11)
  | .evmhosmianw rd ra rb => .word (asm 4#6 rd ra rb 1421#11)
  | .evmhossfaaw rd ra rb => .word (asm 4#6 rd ra rb 1287#11)
  | .evmhossfanw rd ra rb => .word (asm 4#6 rd ra rb 1415#11)
  | .evmhossiaaw rd ra rb => .word (asm 4#6 rd ra rb 1285#11)
  | .evmhossianw rd ra rb => .word (asm 4#6 rd ra rb 1413#11)
  | .evmhoumiaaw rd ra rb => .word (asm 4#6 rd ra rb 1292#11)
  | .evmhoumianw rd ra rb => .word (asm 4#6 rd ra rb 1420#11)
  | .evmhousiaaw rd ra rb => .word (asm 4#6 rd ra rb 1284#11)
  | .evmhousianw rd ra rb => .word (asm 4#6 rd ra rb 1412#11)
  -- spec/49_spe_multiply_word_loadstore.md
  | .evmwhsmf rd ra rb => .word (asm 4#6 rd ra rb 1103#11)
  | .evmwhsmfa rd ra rb => .word (asm 4#6 rd ra rb 1135#11)
  | .evmwhsmi rd ra rb => .word (asm 4#6 rd ra rb 1101#11)
  | .evmwhsmia rd ra rb => .word (asm 4#6 rd ra rb 1133#11)
  | .evmwhssf rd ra rb => .word (asm 4#6 rd ra rb 1095#11)
  | .evmwhssfa rd ra rb => .word (asm 4#6 rd ra rb 1127#11)
  | .evmwhumi rd ra rb => .word (asm 4#6 rd ra rb 1100#11)
  | .evmwhumia rd ra rb => .word (asm 4#6 rd ra rb 1132#11)
  | .evmwlumi rd ra rb => .word (asm 4#6 rd ra rb 1096#11)
  | .evmwlumia rd ra rb => .word (asm 4#6 rd ra rb 1128#11)
  | .evmwlsmiaaw rd ra rb => .word (asm 4#6 rd ra rb 1353#11)
  | .evmwlsmianw rd ra rb => .word (asm 4#6 rd ra rb 1481#11)
  | .evmwlssiaaw rd ra rb => .word (asm 4#6 rd ra rb 1345#11)
  | .evmwlssianw rd ra rb => .word (asm 4#6 rd ra rb 1473#11)
  | .evmwlumiaaw rd ra rb => .word (asm 4#6 rd ra rb 1352#11)
  | .evmwlumianw rd ra rb => .word (asm 4#6 rd ra rb 1480#11)
  | .evmwlusiaaw rd ra rb => .word (asm 4#6 rd ra rb 1344#11)
  | .evmwlusianw rd ra rb => .word (asm 4#6 rd ra rb 1472#11)
  | .evmwsmf rd ra rb => .word (asm 4#6 rd ra rb 1115#11)
  | .evmwsmfa rd ra rb => .word (asm 4#6 rd ra rb 1147#11)
  | .evmwsmfaa rd ra rb => .word (asm 4#6 rd ra rb 1371#11)
  | .evmwsmfan rd ra rb => .word (asm 4#6 rd ra rb 1499#11)
  | .evmwsmi rd ra rb => .word (asm 4#6 rd ra rb 1113#11)
  | .evmwsmia rd ra rb => .word (asm 4#6 rd ra rb 1145#11)
  | .evmwsmiaa rd ra rb => .word (asm 4#6 rd ra rb 1369#11)
  | .evmwsmian rd ra rb => .word (asm 4#6 rd ra rb 1497#11)
  | .evmwssf rd ra rb => .word (asm 4#6 rd ra rb 1107#11)
  | .evmwssfa rd ra rb => .word (asm 4#6 rd ra rb 1139#11)
  | .evmwssfaa rd ra rb => .word (asm 4#6 rd ra rb 1363#11)
  | .evmwssfan rd ra rb => .word (asm 4#6 rd ra rb 1491#11)
  | .evmwumi rd ra rb => .word (asm 4#6 rd ra rb 1112#11)
  | .evmwumia rd ra rb => .word (asm 4#6 rd ra rb 1144#11)
  | .evmwumiaa rd ra rb => .word (asm 4#6 rd ra rb 1368#11)
  | .evmwumian rd ra rb => .word (asm 4#6 rd ra rb 1496#11)
  | .evaddsmiaaw rd ra => .word (asm 4#6 rd ra 0#5 1225#11)
  | .evaddssiaaw rd ra => .word (asm 4#6 rd ra 0#5 1217#11)
  | .evaddumiaaw rd ra => .word (asm 4#6 rd ra 0#5 1224#11)
  | .evaddusiaaw rd ra => .word (asm 4#6 rd ra 0#5 1216#11)
  | .evsubfsmiaaw rd ra => .word (asm 4#6 rd ra 0#5 1227#11)
  | .evsubfssiaaw rd ra => .word (asm 4#6 rd ra 0#5 1219#11)
  | .evsubfumiaaw rd ra => .word (asm 4#6 rd ra 0#5 1226#11)
  | .evsubfusiaaw rd ra => .word (asm 4#6 rd ra 0#5 1218#11)
  | .evldd rd uimm ra => .word (asm 4#6 rd ra uimm 769#11)
  | .evlddx rd ra rb => .word (asm 4#6 rd ra rb 768#11)
  | .evldw rd uimm ra => .word (asm 4#6 rd ra uimm 771#11)
  | .evldwx rd ra rb => .word (asm 4#6 rd ra rb 770#11)
  | .evldh rd uimm ra => .word (asm 4#6 rd ra uimm 773#11)
  | .evldhx rd ra rb => .word (asm 4#6 rd ra rb 772#11)
  | .evlhhesplat rd uimm ra => .word (asm 4#6 rd ra uimm 777#11)
  | .evlhhesplatx rd ra rb => .word (asm 4#6 rd ra rb 776#11)
  | .evlhhousplat rd uimm ra => .word (asm 4#6 rd ra uimm 781#11)
  | .evlhhousplatx rd ra rb => .word (asm 4#6 rd ra rb 780#11)
  | .evlhhossplat rd uimm ra => .word (asm 4#6 rd ra uimm 783#11)
  | .evlhhossplatx rd ra rb => .word (asm 4#6 rd ra rb 782#11)
  | .evlwhe rd uimm ra => .word (asm 4#6 rd ra uimm 785#11)
  | .evlwhex rd ra rb => .word (asm 4#6 rd ra rb 784#11)
  | .evlwhou rd uimm ra => .word (asm 4#6 rd ra uimm 789#11)
  | .evlwhoux rd ra rb => .word (asm 4#6 rd ra rb 788#11)
  | .evlwhos rd uimm ra => .word (asm 4#6 rd ra uimm 791#11)
  | .evlwhosx rd ra rb => .word (asm 4#6 rd ra rb 790#11)
  | .evlwwsplat rd uimm ra => .word (asm 4#6 rd ra uimm 793#11)
  | .evlwwsplatx rd ra rb => .word (asm 4#6 rd ra rb 792#11)
  | .evlwhsplat rd uimm ra => .word (asm 4#6 rd ra uimm 797#11)
  | .evlwhsplatx rd ra rb => .word (asm 4#6 rd ra rb 796#11)
  | .evstdd rs uimm ra => .word (asm 4#6 rs ra uimm 801#11)
  | .evstddx rs ra rb => .word (asm 4#6 rs ra rb 800#11)
  | .evstdw rs uimm ra => .word (asm 4#6 rs ra uimm 803#11)
  | .evstdwx rs ra rb => .word (asm 4#6 rs ra rb 802#11)
  | .evstdh rs uimm ra => .word (asm 4#6 rs ra uimm 805#11)
  | .evstdhx rs ra rb => .word (asm 4#6 rs ra rb 804#11)
  | .evstwhe rs uimm ra => .word (asm 4#6 rs ra uimm 817#11)
  | .evstwhex rs ra rb => .word (asm 4#6 rs ra rb 816#11)
  | .evstwho rs uimm ra => .word (asm 4#6 rs ra uimm 821#11)
  | .evstwhox rs ra rb => .word (asm 4#6 rs ra rb 820#11)
  | .evstwwe rs uimm ra => .word (asm 4#6 rs ra uimm 825#11)
  | .evstwwex rs ra rb => .word (asm 4#6 rs ra rb 824#11)
  | .evstwwo rs uimm ra => .word (asm 4#6 rs ra uimm 829#11)
  | .evstwwox rs ra rb => .word (asm 4#6 rs ra rb 828#11)
  -- spec/62_perfmon_power.md
  | .mfpmr rd pmrn => .word (asm 31#6 rd (pmrn.extractLsb' 0 5) (pmrn.extractLsb' 5 5) 668#11)
  | .mtpmr pmrn rs => .word (asm 31#6 rs (pmrn.extractLsb' 0 5) (pmrn.extractLsb' 5 5) 924#11)

/-- The bytes of an encoded instruction, lowest address first (30_encoding.md R502). -/
def Enc.bytes (e : Enc) : List Byte :=
  match e with
  | .half h => [h.extractLsb' 8 8, h.extractLsb' 0 8]
  | .word w => [w.extractLsb' 24 8, w.extractLsb' 16 8, w.extractLsb' 8 8, w.extractLsb' 0 8]

/-- The instruction exists on pages of that kind only (44_vle.md R1003): `some true` VLE pages, `some false`
Book E pages, `none` both. -/
def pageKind (i : Instr) : Option Bool :=
  match i with
  | .tlbre => none
  | .tlbwe => none
  | .tlbsx .. => none
  | .tlbivax .. => none
  | .tlbsync => none
  | .icbi .. => none
  | .icbt .. => none
  | .dcba .. => none
  | .dcbf .. => none
  | .dcbi .. => none
  | .dcbst .. => none
  | .dcbt .. => none
  | .dcbtst .. => none
  | .dcbz .. => none
  | .dcbtls .. => none
  | .dcbtstls .. => none
  | .dcblc .. => none
  | .icbtls .. => none
  | .icblc .. => none
  | .addi .. => some false
  | .addis .. => some false
  | .addic .. => some false
  | .addicDot .. => some false
  | .subfic .. => some false
  | .mulli .. => some false
  | .add .. => none
  | .addc .. => none
  | .adde .. => none
  | .addme .. => none
  | .addze .. => none
  | .subf .. => none
  | .subfc .. => none
  | .subfe .. => none
  | .subfme .. => none
  | .subfze .. => none
  | .neg .. => none
  | .mullw .. => none
  | .divw .. => none
  | .divwu .. => none
  | .mulhw .. => none
  | .mulhwu .. => none
  | .cmpi .. => some false
  | .cmp .. => none
  | .cmpli .. => some false
  | .cmpl .. => none
  | .andiDot .. => some false
  | .andisDot .. => some false
  | .ori .. => some false
  | .oris .. => some false
  | .xori .. => some false
  | .xoris .. => some false
  | .and .. => none
  | .andc .. => none
  | .or .. => none
  | .orc .. => none
  | .xor .. => none
  | .nand .. => none
  | .nor .. => none
  | .eqv .. => none
  | .extsb .. => none
  | .extsh .. => none
  | .cntlzw .. => none
  | .rlwinm .. => some false
  | .rlwimi .. => some false
  | .rlwnm .. => some false
  | .slw .. => none
  | .srw .. => none
  | .sraw .. => none
  | .srawi .. => none
  | .lbz .. => some false
  | .lbzu .. => some false
  | .lhz .. => some false
  | .lhzu .. => some false
  | .lha .. => some false
  | .lhau .. => some false
  | .lwz .. => some false
  | .lwzu .. => some false
  | .stb .. => some false
  | .stbu .. => some false
  | .sth .. => some false
  | .sthu .. => some false
  | .stw .. => some false
  | .stwu .. => some false
  | .lbzx .. => none
  | .lbzux .. => none
  | .lhzx .. => none
  | .lhzux .. => none
  | .lhax .. => none
  | .lhaux .. => none
  | .lwzx .. => none
  | .lwzux .. => none
  | .stbx .. => none
  | .stbux .. => none
  | .sthx .. => none
  | .sthux .. => none
  | .stwx .. => none
  | .stwux .. => none
  | .lhbrx .. => none
  | .lwbrx .. => none
  | .sthbrx .. => none
  | .stwbrx .. => none
  | .lmw .. => some false
  | .stmw .. => some false
  | .b .. => some false
  | .bc .. => some false
  | .bclr .. => some false
  | .bcctr .. => some false
  | .crand .. => some false
  | .crandc .. => some false
  | .creqv .. => some false
  | .crnand .. => some false
  | .crnor .. => some false
  | .cror .. => some false
  | .crorc .. => some false
  | .crxor .. => some false
  | .mcrf .. => some false
  | .mcrxr .. => none
  | .mfcr .. => none
  | .mtcrf .. => none
  | .tw .. => none
  | .twi .. => some false
  | .sc => some false
  | .rfi => some false
  | .rfci => some false
  | .isync => some false
  | .mfmsr .. => none
  | .mtmsr .. => none
  | .wrtee .. => none
  | .wrteei .. => none
  | .mfspr .. => none
  | .mtspr .. => none
  | .isel .. => none
  | .rfdi => some false
  | .rfmci => some false
  | .dnh .. => some false
  | .wait => none
  | .msync => none
  | .mbar .. => none
  | .mfdcr .. => none
  | .mtdcr .. => none
  | .lbarx .. => none
  | .lharx .. => none
  | .lwarx .. => none
  | .stbcxDot .. => none
  | .sthcxDot .. => none
  | .stwcxDot .. => none
  | .eLmvgprw .. => some true
  | .eStmvgprw .. => some true
  | .eLmvsprw .. => some true
  | .eStmvsprw .. => some true
  | .eLmvsrrw .. => some true
  | .eStmvsrrw .. => some true
  | .eLmvcsrrw .. => some true
  | .eStmvcsrrw .. => some true
  | .eLmvdsrrw .. => some true
  | .eStmvdsrrw .. => some true
  | .eLmvmcsrrw .. => some true
  | .eStmvmcsrrw .. => some true
  | .seIllegal => some true
  | .seIsync => some true
  | .seSc => some true
  | .seBlr .. => some true
  | .seBctr .. => some true
  | .seRfi => some true
  | .seRfci => some true
  | .seRfdi => some true
  | .seRfmci => some true
  | .seDnh => some true
  | .seNot .. => some true
  | .seNeg .. => some true
  | .seMflr .. => some true
  | .seMtlr .. => some true
  | .seMfctr .. => some true
  | .seMtctr .. => some true
  | .seExtzb .. => some true
  | .seExtsb .. => some true
  | .seExtzh .. => some true
  | .seExtsh .. => some true
  | .seMr .. => some true
  | .seMtar .. => some true
  | .seMfar .. => some true
  | .seAdd .. => some true
  | .seMullw .. => some true
  | .seSub .. => some true
  | .seSubf .. => some true
  | .seCmp .. => some true
  | .seCmpl .. => some true
  | .seCmph .. => some true
  | .seCmphl .. => some true
  | .seSrw .. => some true
  | .seSraw .. => some true
  | .seSlw .. => some true
  | .seOr .. => some true
  | .seAndc .. => some true
  | .seAnd .. => some true
  | .seAddi .. => some true
  | .seCmpli .. => some true
  | .seSubi .. => some true
  | .seCmpi .. => some true
  | .seBmaski .. => some true
  | .seAndi .. => some true
  | .seBclri .. => some true
  | .seBgeni .. => some true
  | .seBseti .. => some true
  | .seBtsti .. => some true
  | .seSrwi .. => some true
  | .seSrawi .. => some true
  | .seSlwi .. => some true
  | .seLi .. => some true
  | .seLbz .. => some true
  | .seStb .. => some true
  | .seLhz .. => some true
  | .seSth .. => some true
  | .seLwz .. => some true
  | .seStw .. => some true
  | .seB .. => some true
  | .seBc .. => some true
  | .eLbz .. => some true
  | .eStb .. => some true
  | .eLha .. => some true
  | .eLwz .. => some true
  | .eStw .. => some true
  | .eLhz .. => some true
  | .eSth .. => some true
  | .eAdd16i .. => some true
  | .eLbzu .. => some true
  | .eLhzu .. => some true
  | .eLwzu .. => some true
  | .eLhau .. => some true
  | .eStbu .. => some true
  | .eSthu .. => some true
  | .eStwu .. => some true
  | .eLmw .. => some true
  | .eStmw .. => some true
  | .eAddi .. => some true
  | .eAddic .. => some true
  | .eMulli .. => some true
  | .eCmpi .. => some true
  | .eCmpli .. => some true
  | .eSubfic .. => some true
  | .eAndi .. => some true
  | .eOri .. => some true
  | .eXori .. => some true
  | .eLi .. => some true
  | .eAdd2iDot .. => some true
  | .eAdd2is .. => some true
  | .eCmp16i .. => some true
  | .eMull2i .. => some true
  | .eCmpl16i .. => some true
  | .eCmph16i .. => some true
  | .eCmphl16i .. => some true
  | .eOr2i .. => some true
  | .eAnd2iDot .. => some true
  | .eOr2is .. => some true
  | .eLis .. => some true
  | .eAnd2isDot .. => some true
  | .eRlwimi .. => some true
  | .eRlwinm .. => some true
  | .eB .. => some true
  | .eBc .. => some true
  | .eCmph .. => some true
  | .eCmphl .. => some true
  | .eMcrf .. => some true
  | .eCrnor .. => some true
  | .eCrandc .. => some true
  | .eCrxor .. => some true
  | .eCrnand .. => some true
  | .eCrand .. => some true
  | .eCreqv .. => some true
  | .eCrorc .. => some true
  | .eCror .. => some true
  | .eSlwi .. => some true
  | .eRlw .. => some true
  | .eRlwi .. => some true
  | .eSrwi .. => some true
  | .eDnh .. => some true
  | .efsabs .. => none
  | .efsnabs .. => none
  | .efsneg .. => none
  | .efsadd .. => none
  | .efssub .. => none
  | .efsmul .. => none
  | .efsdiv .. => none
  | .efsmadd .. => none
  | .efsmsub .. => none
  | .efsnmadd .. => none
  | .efsnmsub .. => none
  | .efssqrt .. => none
  | .efsmax .. => none
  | .efsmin .. => none
  | .efscmpgt .. => none
  | .efscmplt .. => none
  | .efscmpeq .. => none
  | .efststgt .. => none
  | .efststlt .. => none
  | .efststeq .. => none
  | .efscfsi .. => none
  | .efscfui .. => none
  | .efscfsf .. => none
  | .efscfuf .. => none
  | .efsctsi .. => none
  | .efsctsiz .. => none
  | .efsctui .. => none
  | .efsctuiz .. => none
  | .efsctsf .. => none
  | .efsctuf .. => none
  | .efscfh .. => none
  | .efscth .. => none
  | .evfsabs .. => none
  | .evfsnabs .. => none
  | .evfsneg .. => none
  | .evfsadd .. => none
  | .evfssub .. => none
  | .evfsaddsub .. => none
  | .evfssubadd .. => none
  | .evfsaddx .. => none
  | .evfssubx .. => none
  | .evfsaddsubx .. => none
  | .evfssubaddx .. => none
  | .evfssum .. => none
  | .evfsdiff .. => none
  | .evfssumdiff .. => none
  | .evfsdiffsum .. => none
  | .evfsmul .. => none
  | .evfsmule .. => none
  | .evfsmulo .. => none
  | .evfsmulx .. => none
  | .evfsdiv .. => none
  | .evfssqrt .. => none
  | .evfsmadd .. => none
  | .evfsmsub .. => none
  | .evfsnmadd .. => none
  | .evfsnmsub .. => none
  | .evfsmax .. => none
  | .evfsmin .. => none
  | .evfscmpgt .. => none
  | .evfscmplt .. => none
  | .evfscmpeq .. => none
  | .evfststgt .. => none
  | .evfststlt .. => none
  | .evfststeq .. => none
  | .evfscfsi .. => none
  | .evfscfui .. => none
  | .evfscfsf .. => none
  | .evfscfuf .. => none
  | .evfsctsi .. => none
  | .evfsctsiz .. => none
  | .evfsctui .. => none
  | .evfsctuiz .. => none
  | .evfsctsf .. => none
  | .evfsctuf .. => none
  | .evfscfh .. => none
  | .evfscth .. => none
  | .brinc .. => none
  | .evabs .. => none
  | .evaddiw .. => none
  | .evaddw .. => none
  | .evand .. => none
  | .evandc .. => none
  | .evcmpeq .. => none
  | .evcmpgts .. => none
  | .evcmpgtu .. => none
  | .evcmplts .. => none
  | .evcmpltu .. => none
  | .evcntlsw .. => none
  | .evcntlzw .. => none
  | .evdivws .. => none
  | .evdivwu .. => none
  | .eveqv .. => none
  | .evextsb .. => none
  | .evextsh .. => none
  | .evmergehi .. => none
  | .evmergehilo .. => none
  | .evmergelo .. => none
  | .evmergelohi .. => none
  | .evnand .. => none
  | .evneg .. => none
  | .evnor .. => none
  | .evor .. => none
  | .evorc .. => none
  | .evrlw .. => none
  | .evrlwi .. => none
  | .evrndw .. => none
  | .evsel .. => none
  | .evslw .. => none
  | .evslwi .. => none
  | .evsplatfi .. => none
  | .evsplati .. => none
  | .evsrwis .. => none
  | .evsrwiu .. => none
  | .evsrws .. => none
  | .evsrwu .. => none
  | .evsubfw .. => none
  | .evsubifw .. => none
  | .evxor .. => none
  | .evmra .. => none
  | .evmhegsmfaa .. => none
  | .evmhegsmfan .. => none
  | .evmhegsmiaa .. => none
  | .evmhegsmian .. => none
  | .evmhegumiaa .. => none
  | .evmhegumian .. => none
  | .evmhesmf .. => none
  | .evmhesmfa .. => none
  | .evmhesmi .. => none
  | .evmhesmia .. => none
  | .evmhessf .. => none
  | .evmhessfa .. => none
  | .evmheumi .. => none
  | .evmheumia .. => none
  | .evmhesmfaaw .. => none
  | .evmhesmfanw .. => none
  | .evmhesmiaaw .. => none
  | .evmhesmianw .. => none
  | .evmhessfaaw .. => none
  | .evmhessfanw .. => none
  | .evmhessiaaw .. => none
  | .evmhessianw .. => none
  | .evmheumiaaw .. => none
  | .evmheumianw .. => none
  | .evmheusiaaw .. => none
  | .evmheusianw .. => none
  | .evmhogsmfaa .. => none
  | .evmhogsmfan .. => none
  | .evmhogsmiaa .. => none
  | .evmhogsmian .. => none
  | .evmhogumiaa .. => none
  | .evmhogumian .. => none
  | .evmhosmf .. => none
  | .evmhosmfa .. => none
  | .evmhosmi .. => none
  | .evmhosmia .. => none
  | .evmhossf .. => none
  | .evmhossfa .. => none
  | .evmhoumi .. => none
  | .evmhoumia .. => none
  | .evmhosmfaaw .. => none
  | .evmhosmfanw .. => none
  | .evmhosmiaaw .. => none
  | .evmhosmianw .. => none
  | .evmhossfaaw .. => none
  | .evmhossfanw .. => none
  | .evmhossiaaw .. => none
  | .evmhossianw .. => none
  | .evmhoumiaaw .. => none
  | .evmhoumianw .. => none
  | .evmhousiaaw .. => none
  | .evmhousianw .. => none
  | .evmwhsmf .. => none
  | .evmwhsmfa .. => none
  | .evmwhsmi .. => none
  | .evmwhsmia .. => none
  | .evmwhssf .. => none
  | .evmwhssfa .. => none
  | .evmwhumi .. => none
  | .evmwhumia .. => none
  | .evmwlumi .. => none
  | .evmwlumia .. => none
  | .evmwlsmiaaw .. => none
  | .evmwlsmianw .. => none
  | .evmwlssiaaw .. => none
  | .evmwlssianw .. => none
  | .evmwlumiaaw .. => none
  | .evmwlumianw .. => none
  | .evmwlusiaaw .. => none
  | .evmwlusianw .. => none
  | .evmwsmf .. => none
  | .evmwsmfa .. => none
  | .evmwsmfaa .. => none
  | .evmwsmfan .. => none
  | .evmwsmi .. => none
  | .evmwsmia .. => none
  | .evmwsmiaa .. => none
  | .evmwsmian .. => none
  | .evmwssf .. => none
  | .evmwssfa .. => none
  | .evmwssfaa .. => none
  | .evmwssfan .. => none
  | .evmwumi .. => none
  | .evmwumia .. => none
  | .evmwumiaa .. => none
  | .evmwumian .. => none
  | .evaddsmiaaw .. => none
  | .evaddssiaaw .. => none
  | .evaddumiaaw .. => none
  | .evaddusiaaw .. => none
  | .evsubfsmiaaw .. => none
  | .evsubfssiaaw .. => none
  | .evsubfumiaaw .. => none
  | .evsubfusiaaw .. => none
  | .evldd .. => none
  | .evlddx .. => none
  | .evldw .. => none
  | .evldwx .. => none
  | .evldh .. => none
  | .evldhx .. => none
  | .evlhhesplat .. => none
  | .evlhhesplatx .. => none
  | .evlhhousplat .. => none
  | .evlhhousplatx .. => none
  | .evlhhossplat .. => none
  | .evlhhossplatx .. => none
  | .evlwhe .. => none
  | .evlwhex .. => none
  | .evlwhou .. => none
  | .evlwhoux .. => none
  | .evlwhos .. => none
  | .evlwhosx .. => none
  | .evlwwsplat .. => none
  | .evlwwsplatx .. => none
  | .evlwhsplat .. => none
  | .evlwhsplatx .. => none
  | .evstdd .. => none
  | .evstddx .. => none
  | .evstdw .. => none
  | .evstdwx .. => none
  | .evstdh .. => none
  | .evstdhx .. => none
  | .evstwhe .. => none
  | .evstwhex .. => none
  | .evstwho .. => none
  | .evstwhox .. => none
  | .evstwwe .. => none
  | .evstwwex .. => none
  | .evstwwo .. => none
  | .evstwwox .. => none
  | .mfpmr .. => none
  | .mtpmr .. => none

end Sys2Proof
end

