-- ==== Sys2Proof/Machine/Fetch.lean ====
section
/-! DEFINITION. Fetching an instruction: translation, the storage interrupts of the fetch, the instruction cache, and the
bytes handed to the decoder (spec/60_exceptions.md R2035, R2046, R2063; spec/21_mmu.md R307, R308; spec/30_encoding.md
R501, R502; spec/44_vle.md R1020). -/

namespace Sys2Proof.Machine

/-- What a fetch comes to: an instruction, no instruction (an illegal encoding), an interrupt taken, a stop. -/
inductive Fetched where
  | instr (i : Instr) (s : State)
  | illegal (s : State)
  | done (s : State)
  | stop (f : Fault)
deriving DecidableEq, Repr

/-- EXCP_ERR of MCSR (60_exceptions.md R2035, R2037). -/
def excpErr : Word := 0x08000000#32

/-- A fetch that cannot be translated: an Instruction TLB Error, or, at the first instruction of a handler, a machine check
(60_exceptions.md R2012, R2037, R2063). -/
def fetchMiss (first : Bool) (ea : Word) (mif : Bool) (s : State) : State :=
  if first then errorReport 0x00010000#32 (s.asyncMcheck excpErr ea true) else raiseInstrTlb ea mif s

/-- A fetch its page does not allow: an Instruction Storage interrupt, or, at the first instruction of a handler, a
machine check (60_exceptions.md R2012, R2037, R2046). -/
def fetchBarred (first : Bool) (ra : Word) (bits : Word) (s : State) : State :=
  if first then errorReport 0x00010000#32 (s.asyncMcheck excpErr ra false) else raiseIsi bits s

/-- A fetch of instruction bytes ends in a bus error: alone, it would report BUS_IRERR. -/
def State.fetchBusErr (s : State) (ea : Word) (p : Page) (n : Nat) : Bool :=
  match { s with ints := { s.ints with mcsr := 0#32 } }.readBeat .instr ea p n with
  | .exc t => t.ints.mcsr.getLsbD 4
  | .ok _ _ => false
  | .stop _ => false

/-- Read instruction bytes; each may be one that the core had fetched ahead (20_memory.md R246; 22_cache.md R434). A bus error
at the first instruction of a handler is EXCP_ERR too; an error of the instruction cache is not (60_exceptions.md R2036, R2037).
-/
def State.fetchBytes (s : State) (first : Bool) (ea : Word) (p : Page) (n : Nat) : Res (List Byte) :=
  match s.readBeat .instr ea p n with
  | .ok b s => .ok (seenBytes s.free s.buf.stale 0 p.ra b) (s.drawIf (anyOlder s.buf.stale p.ra n) n)
  | .exc t => .exc (if first && s.fetchBusErr ea p n then t.orMcsr excpErr else t)
  | .stop f => .stop f

/-- Decode what was fetched. -/
noncomputable def decodeFetched (vle : Bool) (b : List Byte) (s : State) : Fetched :=
  match decode vle b with
  | .ok (i, _) => .instr i s
  | .error _ => .illegal s

/-- The page of the second halfword of a VLE instruction: another one only where the address enters a new page. -/
def State.secondPage (s : State) (p : Page) (ea : Word) : Option Page × State :=
  if ea &&& 0x3FF#32 == 0#32 then s.translate s.msrIs ea else (some { p with ra := p.ra + 2#32 }, s)

/-- The second halfword of a 32-bit VLE instruction, and its decoding (60_exceptions.md R2046, R2063). Where its page lacks execute
permission and also differs in VLE or byte order, permission is tested first and ESR[BO] stays 0 (DESIGN CHOICE, log entry 62;
44_vle.md R1002 and 60_exceptions.md R2011 give no order). -/
noncomputable def State.fetchSecond (s : State) (first : Bool) (p : Page) (b : List Byte) : Fetched :=
  let ea := s.pc + 2#32
  let (q, s) := s.secondPage p ea
  match q with
  | none => .done (fetchMiss first ea true s)
  | some q =>
    if !q.allows s.user .fetch then .done (fetchBarred first q.ra 0x20#32 s)
    else if !q.vle || q.e then .done (fetchBarred first q.ra (esrBo ||| 0x20#32) s)
    else
      match s.fetchBytes first ea q 2 with
      | .ok b' s => decodeFetched true (b ++ b') { s with cur := { vle := true, ir := bytesWord (b ++ b') } }
      | .exc s => .done s
      | .stop f => .stop f

/-- A fetch from a VLE page. -/
noncomputable def State.fetchVle (s : State) (first : Bool) (p : Page) : Fetched :=
  if p.e then .done (fetchBarred first p.ra (esrBo ||| 0x20#32) s)
  else
    match s.fetchBytes first s.pc p 2 with
    | .exc s => .done s
    | .stop f => .stop f
    | .ok b s =>
      if vleLong (BitVec.ofNat 16 (bytesNat b)) then s.fetchSecond first p b
      else decodeFetched true b { s with cur := { vle := true, ir := bytesWord b <<< 16 } }

/-- A fetch from a Book E page: a word, little-endian where the page is (92_eei_decisions.md D57). -/
noncomputable def State.fetchBookE (s : State) (first : Bool) (p : Page) : Fetched :=
  match s.fetchBytes first s.pc p 4 with
  | .exc s => .done s
  | .stop f => .stop f
  | .ok b s => decodeFetched false (endian p.e b) { s with cur := { vle := false, ir := bytesWord (endian p.e b) } }

/-- Fetch the instruction at the pc from its page, if it has one. Where a little-endian VLE page also lacks execute permission,
permission is tested first and ESR[BO] stays 0 (DESIGN CHOICE, log entry 62; 44_vle.md R1001 and 60_exceptions.md R2011 give the
two causes one priority). A Book E page with an address that is no multiple of 4 is a
misaligned fetch whatever the page allows (10_state.md R57). -/
noncomputable def State.fetch (s : State) (p : Option Page) : Fetched :=
  let first := s.ints.handlerFetch
  let s := { s with ints := { s.ints with handlerFetch := false } }
  match p with
  | none => .done (fetchMiss first s.pc false s)
  | some p =>
    if !p.vle && s.pc.getLsbD 1 then .done (fetchBarred first p.ra 0x2#32 s)
    else if !p.allows s.user .fetch then .done (fetchBarred first p.ra (if p.vle then 0x20#32 else 0#32) s)
    else if p.vle then s.fetchVle first p
    else s.fetchBookE first p

/-! Placing an instruction where the next fetch reads it (log entry 14). -/

/-- The four bytes at the fetch address for a word of the opcode table: a halfword instruction is followed by zeros. -/
def tableBytes (nbits w : Nat) : List Byte :=
  if nbits ≤ 16 then [BitVec.ofNat 8 (w / 256), BitVec.ofNat 8 w, 0#8, 0#8]
  else [BitVec.ofNat 8 (w / 16777216), BitVec.ofNat 8 (w / 65536), BitVec.ofNat 8 (w / 256), BitVec.ofNat 8 w]

/-- The page kind that reads a word of the opcode table as `decodeTableWord` does. -/
noncomputable def tableVle (nbits w : Nat) : Bool :=
  decide (nbits ≤ 16) || (match decode true (tableBytes nbits w) with | .ok (_, []) => true | _ => false)

/-- The bytes in memory at the real address of the pc, its TLB entry's VLE attribute set and its byte order big-endian. -/
noncomputable def State.placeWord (s : State) (nbits w : Nat) : State :=
  match s.tlbHits s.msrIs s.pid s.pc with
  | (i, t) :: _ =>
    { s with
      mem := s.mem.putBytes (t.page s.pc).ra (tableBytes nbits w)
      mmu :=
        { s.mmu with
          tlb := vmap (fun k e => if k = i then { e with vle := tableVle nbits w, e := false } else e) s.mmu.tlb } }
  | [] => s

end Sys2Proof.Machine
end

