-- ==== Sys2Proof/Machine/Post.lean ====
section
/-! DEFINITION. What happens round an instruction: asynchronous interrupts before it, the debug events before and after it,
the counters, and one step given the meanings of the instructions (spec/60_exceptions.md R2010, R2011, R2017, R2030 to R2034;
spec/61_debug.md R2200 to R2216, R2226; spec/62_perfmon_power.md R2330, R2350, R2351). -/

namespace Sys2Proof.Machine

/-! Asynchronous interrupts (60_exceptions.md R2010, R2011). -/

/-- An asynchronous machine check is to be taken (60_exceptions.md R2032; 92_eei_decisions.md D23). The rule's masks leave out
EXCP_ERR and its comment lists it: the masks are followed (DESIGN CHOICE, log entry 60), so that EXCP_ERR alone does not raise
the interrupt again. -/
def State.mcheckPending (s : State) : Bool := s.ints.mcsr &&& 0xF611E03C#32 != 0#32 && s.msrMe

/-- A machine check that is not the instruction's. A Debug interrupt due for a CIRPT event waits for MSR[DE] from then on: its
handler is no longer the first to run (61_debug.md R2202; log entry 56). -/
def takeCheck (s : State) : State :=
  takeInterrupt .machineCheck s.pc { s with dbg := { s.dbg with cirptDue := false } }

/-- The NMI machine check (60_exceptions.md R2034, R2040). -/
def takeNmi (s : State) : State :=
  takeCheck
    { s with
      ints := { s.ints with mcsr := s.ints.mcsr ||| 0x00100000#32, nmiPend := false }
      resv := if s.hidIcr then false else s.resv }

/-- The Performance Monitor interrupt clears the latched time base event, once that has frozen the counters where
PMGC0[FCECE] says so (62_perfmon_power.md R2331). -/
def takePerf (s : State) : State :=
  takeInterrupt .perfMonitor s.pc { s with pm := { s.pm.freeze with tbEvent := false } }

/-- The machine check that a boundary takes before everything else, if there is one. -/
def State.urgent (s : State) : Option State :=
  if s.ints.nmiPend then some (takeNmi s)
  else if s.mcheckPending then some (takeCheck s)
  else none

/-- The asynchronous interrupt of lower priority that a boundary takes, if there is one (60_exceptions.md R2011). -/
def State.maskable (s : State) : Option State :=
  if s.debugPending then some (takeDebug s)
  else if s.pins.critint && s.msrCe then some (takeInterrupt .criticalInput s.pc s)
  else if s.tmr.tsr.getLsbD 30 && s.tmr.tcr.getLsbD 27 && s.msrCe then some (takeInterrupt .watchdog s.pc s)
  else if s.pins.extint && s.msrEe then some (takeInterrupt .externalInput s.pc s)
  else if s.tmr.tsr.getLsbD 26 && s.tmr.tcr.getLsbD 23 && s.msrEe then some (takeInterrupt .fixedInterval s.pc s)
  else if s.tmr.tsr.getLsbD 27 && s.tmr.tcr.getLsbD 26 && s.msrEe then some (takeInterrupt .decrementer s.pc s)
  else if s.pm.pending && s.msrEe then some (takePerf s)
  else none

/-! The window after a value-compare data address event (61_debug.md R2213; 92_eei_decisions.md D46). -/

/-- The window closes: DAC_OFST is how many instructions completed in it. -/
def State.closeDvc (s : State) (w : DvcWindow) : State :=
  let t := s.setOfst w.soft w.hard (BitVec.ofNat 32 (2 * w.done))
  { t with dbg := { t.dbg with dvcPend := none } }

/-- Close the window when it is over, when Debug interrupts have been disabled and only software waits, or when the core
waits. -/
def State.settleDvc (s : State) : State :=
  match s.dbg.dvcPend with
  | none => s
  | some w => if w.total = w.done || (!s.msrDe && !w.hard) || s.pwr.waiting then s.closeDvc w else s

/-! Debug events before an instruction executes (61_debug.md R2208, R2210, R2212). -/

/-- Record the events of an instruction that is about to execute: branch taken, trap, return, critical return. -/
def preDebug (i : Instr) (s : State) : State :=
  if !s.debugOn then s
  else
    let vle := some s.cur.vle
    let taken := match branchOf i s with | some (r, _) => r.taken | none => false
    let s1 :=
      if taken && (s.msrDe || s.dbg.edm) then s.postIf 0x04000000#32 0x04000000#32 dbBrt vle s.msrDe else s
    let s2 := if trapOf i s then s1.postIf 0x01000000#32 0x01000000#32 dbTrap vle s.msrDe else s1
    let s3 := { s2 with ev := { s2.ev with ret := if s.user then none else returnKind i } }
    match s3.ev.ret with
    | some true => s3.postIf 0x8000#32 0x8000#32 dbRet vle s.msrDe
    | some false => s3.postIf 0x20#32 0x20#32 dbCret vle s.msrDe
    | none => s3

/-- Recording changed what a Debug interrupt waits for: in the window of a value-compare event only a new bit counts. -/
def newDebug (old s : State) : Bool := s.debugPending && (old.dbg.dvcPend.isNone || s.dbg.dbsr != old.dbg.dbsr)
/-- The same for what the CPU halts on. -/
def newHalt (old s : State) : Bool := s.haltPending && (old.dbg.dvcPend.isNone || s.dbg.edbsr0 != old.dbg.edbsr0)

/-! The end of a step. -/

/-- What ran in a step: the instruction and the state it began in; none where no instruction executed. -/
abbrev Ran := Option (Instr × State)

/-- An interrupt that leaves its instruction complete (61_debug.md R2209). -/
def IntType.completes (t : IntType) : Bool := t == .systemCall || t == .fpRound

/-- The instruction completed (60_exceptions.md R2017): no interrupt of its own stopped it, nor a halt, and no access of it failed,
be it that a debug event took the place of the interrupt (61_debug.md R2213). -/
def completed (ran : Ran) (s : State) : Bool :=
  ran.isSome && s.ev.ints.all IntType.completes && !s.dbg.halted && !s.ev.dataFail

/-- A load or store that failed under a DAC event: its interrupt is not taken, its syndrome, its error report and its MAS
update do not happen (61_debug.md R2213, R2214). -/
def undoFail (s0 s : State) : State :=
  { s with
    pc := s0.pc, msr := s0.msr
    ints :=
      { s0.ints with
        mcsr := (s.ints.mcsr &&& ~~~0x0001E000#32) ||| (s0.ints.mcsr &&& 0x0001E000#32)
        mcar := s.ints.mcar
        handlerFetch := false }
    mmu := s0.mmu
    pwr := s0.pwr
    ev := { s.ev with ints := [] } }

/-- Every enabled hit is of a value compare. -/
def Debug.onlyDvc (d : Debug) (h : DacHits) : Bool :=
  (!(h.d1r || h.d1w) || d.dvcOn 0) && (!(h.d2r || h.d2w) || d.dvcOn 1)

/-- Some hit is of a compare that software owns (`soft`), or of one that hardware owns; `unmasked` leaves out what
EDBSRMSK0 masks. -/
def Debug.hitOf (d : Debug) (soft unmasked : Bool) (h : DacHits) : Bool :=
  let one (own bits : Word) : Bool := bits != 0#32 && d.softOwns own == soft && !(unmasked && d.masked own bits)
  one ownDac1 (dac1Bits h) || one ownDac2 (dac2Bits h)

/-- The DAC events of an instruction that completed (61_debug.md R2207, R2213; 64_external_debug_psu.md R2253): a value compare
opens a window of up to five further instructions, before the Debug interrupt where software owns it, before the halt where
hardware does; what leads to neither leaves DAC_OFST free. -/
def completedDac (s0 : State) (h : DacHits) (s : State) : State :=
  if !h.any then s
  else
    let s := s.postDac h false s0.msrDe
    if s0.dbg.onlyDvc h then
      if s.dbg.dvcPend.isSome then s
      else
        let soft := s0.dbg.hitOf true false h
        let hard := s0.dbg.hitOf false true h
        let wait := soft && s0.msrDe
        let t := s.setOfst (soft && !wait) (s0.dbg.hitOf false false h && !hard) (Config.freeWord s.free)
        let w : DvcWindow := { total := Config.freeNat (s.free + 1) % 6, done := 0, soft := wait, hard := hard }
        { t with dbg := { t.dbg with dvcPend := if wait || hard then some w else none }, free := s.free + 2 }
    else { s with dbg := { s.dbg with dvcPend := none } }

/-- The Debug interrupt of a CIRPT event of software recorded with MSR[DE] = 1, where the Debug APU is enabled and the critical
interrupt clears MSR[DE], comes before the first instruction of the critical handler (10_state.md R82). Without the Debug APU,
where MSR[DE] is cleared too (R81), it waits for MSR[DE] (61_debug.md R2202, R2211; log entry 56). -/
def State.owesCirpt (s : State) (de : Bool) : State :=
  if de && s.dbg.softOwns 0x40#32 && s.dbg.idm && s.dapuen && s.hidCiclrde then
    { s with dbg := { s.dbg with cirptDue := true } }
  else s

/-- IRPT and CIRPT (61_debug.md R2211). -/
def postTaken (irpt cirpt de : Bool) (s : State) : State :=
  let s := if irpt then s.postIf 0x02000000#32 0x02000000#32 dbIrpt none de else s
  if cirpt && s.dbg.dbcr0 &&& 0x40#32 != 0#32 then (s.postEvent 0x40#32 dbCirpt none de).owesCirpt de else s

/-- DBCR0[ICMP]. -/
def Debug.icmpEn (d : Debug) : Bool := d.dbcr0.getLsbD 27

/-- The instruction that led from `s0` to `s`, and completed, is one of those with an ICMP event: MSR[DE] or DBCR0[EDM] was 1, and it
has set neither MSR[DE] while DBCR0[ICMP] was 1 nor DBCR0[ICMP] (61_debug.md R2209). -/
def icmpCounts (s0 s : State) : Bool :=
  (s0.msrDe || s0.dbg.edm) && !(!s0.msrDe && s.msrDe && s0.dbg.icmpEn) && !(!s0.dbg.icmpEn && s.dbg.icmpEn)

/-- ICMP, under the controls the instruction began with (61_debug.md R2209); with an EFPU Round interrupt it is imprecise,
unless hardware owns the event and masks it (64_external_debug_psu.md R2251, R2252). -/
def postIcmp (s0 s : State) : State :=
  if s0.dbg.icmpEn && icmpCounts s0 s then
    let ide := s.ev.ints.contains .fpRound && !s.dbg.masked 0x08000000#32 dbIcmp
    s.postEvent 0x08000000#32 (if ide then dbIcmp ||| dbIde else dbIcmp) (some s.cur.vle) s0.msrDe
  else s

/-- No debug event of a step. -/
def DbgEvents.none : DbgEvents :=
  { iac := [], dac := DacHits.none, devt1 := false, devt2 := false, icmp := false, irpt := false, cirpt := false
    ret := false, cret := false }

/-- The debug events of a step that began in `s0` and left `s`, with the compares `hits` and `dac`. -/
def stepEvents (s0 : State) (hits : List Bool) (dac : DacHits) (done : Bool) (s : State) : DbgEvents :=
  { iac := hits
    dac := if done || s.ev.dataFail then s0.dbg.dacCounted dac else DacHits.none
    devt1 := s.ev.wp.getLsbD 10, devt2 := s.ev.wp.getLsbD 11
    icmp := done && icmpCounts s0 s
    irpt := s.ev.ints.any fun t => t.cls == .nonCritical, cirpt := s.ev.ints.any fun t => t.cls == .critical
    ret := s.ev.ret == some true, cret := s.ev.ret == some false }

/-- The end of a step whose access failed while a DAC event, or the event of a counter that counted a DAC, occurred: an
imprecise Debug interrupt (or halt) at the load or store itself, whose own interrupt is not taken; if no Debug interrupt can
be taken either, the events are recorded all the same (61_debug.md R2213). -/
def failedDac (s0 : State) (en : DacHits) (e : DbgEvents) (s : State) : State :=
  let s := if en.any then s.postDac en true s0.msrDe else s
  let s := (s.countDebug s0.dbg { e with irpt := false, cirpt := false } true s0.msrDe).2
  let t := { undoFail s0 s with dbg := s.dbg }
  if t.debugPending then takeDebug t
  else if t.haltPending then t
  else
    let s := postTaken e.irpt e.cirpt s0.msrDe s
    (s.countDebug s0.dbg { DbgEvents.none with irpt := e.irpt, cirpt := e.cirpt } false s0.msrDe).2

/-- The events and counters of the other steps. -/
def normalDebug (s0 : State) (en : DacHits) (e : DbgEvents) (done : Bool) (s : State) : State :=
  let s := if done then completedDac s0 en s else s
  let s := postTaken e.irpt e.cirpt s0.msrDe s
  let s := if done then postIcmp s0 s else s
  (s.countDebug s0.dbg e false s0.msrDe).2

/-- The debug events, counters and watchpoints at the end of a step that began in `s0`: in external debug mode none while OnCE
operation is disabled (64_external_debug_psu.md R2253); the watchpoints of DEVENT do not need a debug mode (61_debug.md R2236). -/
def endDebug (s0 : State) (ran : Ran) (hits : List Bool) (s : State) : State :=
  if !s0.debugOn then
    if s0.dbg.active then s else { s with ev := { s.ev with wp := s.ev.wp ||| devntWatchpoints s.ev.devnt } }
  else
    let done := completed ran s
    let h := s0.dacOf hits s.ev.dataFail s.ev.accesses
    let en := s0.dbg.dacEvents h
    let e := stepEvents s0 hits h done s
    let counted := (s.countDebug s0.dbg { DbgEvents.none with dac := e.dac } true s0.msrDe).1
    let t := if s.ev.dataFail && (en.any || counted) then failedDac s0 en e s else normalDebug s0 en e done s
    let seen := if s0.dbg.halted then 0#30 else e.watchpoints
    { t with ev := { t.ev with wp := t.ev.wp ||| seen ||| devntWatchpoints t.ev.devnt } }

/-- Micro-ops: an access that crosses an aligned doubleword is two (62_perfmon_power.md R2340). -/
def microOps (store : Bool) (l : List Access) : Nat :=
  l.foldl (fun n a => if a.store == store then n + (if room a.ea < a.size then 2 else 1) else n) 0

/-- The performance monitor at the end of a step that began in `s0`. A store conditional that completes without a reservation is a
store that completed (event 16); whether it is a store micro-op too is free (`PmStep.count`, log entry 36). DESIGN CHOICE: an
`lmw`, `stmw` or volatile context form that takes an interrupt after some of its words were transferred counts none of them as
micro-ops (events 17 and 18; log entries 25 and 36). -/
def endPerf (s0 : State) (ran : Ran) (s : State) : State :=
  let kind := match ran with | some (i, _) => if completed ran s then some (instrKind i) else none | none => none
  let st : PmStep :=
    { kind := kind
      br := match ran with | some (i, t) => branchOf i t | none => none
      loads := microOps false s.ev.accesses
      stores := microOps true s.ev.accesses
      ints := s.ev.ints
      traps := (s.ev.ints.countP (· == .systemCall)) +
        (if s.ev.ints.contains .program && s.ints.esr.getLsbD 25 then 1 else 0)
      wp := s.ev.wp
      devnt := s.ev.devnt
      pmEdges := s.ev.pmEdges
      tbEdges := s.ev.tbEdges
      session := s.dbg.halted
      idle := ran.isNone && (s.pwr.waiting || s.pwr.halted || s.pwr.stopped)
      free := s.free }
  s.countPerf s0.pm s0.user s0.msrPmm st

/-- In the window of a value-compare event the step does not count as run: an interrupt, a debug event before the instruction
or a halt undoes it (log entry 39). -/
def undone (s0 : State) (ran : Ran) (s : State) : Bool :=
  s0.dbg.dvcPend.isSome && !(s.ev.ints.isEmpty && !s.dbg.halted && ran.isSome)

/-- The end of a step that began in `s0` and ran `ran`, but for what it owes a context synchronizing instruction. A step undone
closes the window; the inputs that arrived in it are seen and counted as in any other step. -/
def endWindow (s0 : State) (ran : Ran) (hits : List Bool) (s : State) : State :=
  match s0.dbg.dvcPend with
  | none => endPerf s0 ran (endDebug s0 ran hits s)
  | some w =>
    if undone s0 ran s then
      endPerf s0 none <| endDebug s0 none []
        { s0 with dbg := { s0.dbg with dvcPend := some { w with total := w.done } }, free := s.free }
    else
      let s := endPerf s0 ran (endDebug s0 ran hits s)
      let more := { w with total := if s.dbg.dvcPend.isNone then w.done + 1 else w.total, done := w.done + 1 }
      { s with dbg := { s.dbg with dvcPend := some more } }

/-- The end of a step that began in `s0` and ran `ran`. -/
def endStep (s0 : State) (ran : Ran) (hits : List Bool) (s : State) : State :=
  let i := if undone s0 ran s then none else ran.map Prod.fst
  (endWindow s0 ran hits s).endSync s0.sync (i.any contextSyncs) (i.any replacesMsr)

/-! A step, given the meanings of the instructions. -/

/-- The meanings of the instructions. -/
abbrev Meaning := Instr → State → Host.Outcome State Fault Refusal

/-- Execute a decoded instruction, unless a debug event comes first: the Debug interrupt before a halt (61_debug.md
R2204). -/
def executeWith (ex : Meaning) (s0 : State) (hits : List Bool) (i : Instr) (s : State) :
    Host.Outcome State Fault Refusal :=
  let s' := preDebug i s
  if newDebug s0 s' then .next (endStep s0 none hits (takeDebug s'))
  else if newHalt s0 s' then .next (endStep s0 none hits s')
  else
    match ex i s' with
    | .next t => .next (endStep s0 (some (i, s')) hits t)
    | .fault f => .fault f
    | .refused r => .refused r

/-- A word of the EFPU's double-precision operations, which this core does not have: primary opcode 4, extended opcode 0x2E0 to
0x2FF (45_efpu_scalar.md R1156). -/
def efpDouble (w : Word) : Bool := w.extractLsb' 26 6 == 4#6 && w.extractLsb' 5 6 == 0x17#6

/-- What a word that is no instruction of the table comes to: an Illegal Instruction exception, but for a double-precision
operation of the EFPU, which takes the SPE/EFPU Unavailable interrupt while MSR[SPE] is 0; which words are such operations is
free (45_efpu_scalar.md R1156; 91_not_in_source.md N21; log entry 63). -/
def raiseRefused (s : State) : State :=
  if efpDouble s.cur.ir && !s.msrSpe && Config.efpDoubleDefined s.cur.ir then raiseSpeUnavailable s else raiseIllegal s

/-- An instruction begins: what leaving a debug session has blocked is blocked no longer (64_external_debug_psu.md R2261). -/
def State.started (s : State) : State := if s.dbg.exiting then { s with dbg := { s.dbg with exiting := false } } else s

/-- Fetch, decode and execute the instruction at the pc, unless a debug event or an interrupt comes first. -/
noncomputable def runInstr (ex : Meaning) (s0 : State) : Host.Outcome State Fault Refusal :=
  let (p, s) := s0.translate s0.msrIs s0.pc
  let vle := match p with | some q => q.vle | none => false
  let hits := s.iacHits s.pc vle
  let s := s.postIacFrom vle 0 hits
  if newDebug s0 s then .next (endStep s0 none hits (takeDebug s))
  else if newHalt s0 s then .next (endStep s0 none hits s)
  else
    match s.started.fetch p with
    | .done s => .next (endStep s0 none hits s)
    | .illegal s => .next (endStep s0 none hits (raiseRefused s))
    | .stop f => .fault f
    | .instr i s => executeWith ex s0 hits i s

/-- No instruction can run in the Halted or the Stopped state. -/
def State.suspended (s : State) : Bool := s.pwr.halted || s.pwr.stopped

/-- A state without a value-compare window: a non-maskable interrupt or an asynchronous machine check that comes in the window is
taken at once and drops it, and DAC_OFST stays 000 (DESIGN CHOICE, log entry 39). -/
def State.noWindow (s : State) : State := { s with dbg := { s.dbg with dvcPend := none } }

/-- The asynchronous interrupt that comes before the instruction at the pc, if there is one: after a debug session is left, until an
instruction begins, the Debug interrupt alone (64_external_debug_psu.md R2261). -/
def State.foremost (s : State) : Option State :=
  if s.dbg.exiting then (if s.debugPending then some (takeDebug s) else none) else s.maskable

/-- The core stays in the Waiting state. One that leaves a debug session while an interrupt is pending does not return to it
(62_perfmon_power.md R2354); as that interrupt is blocked until an instruction begins, the instruction at the pc runs (DEDUCED,
log entry 37). -/
def State.staysWaiting (s : State) : Bool :=
  s.pwr.waiting && !(s.dbg.exiting && (s.urgent.isSome || s.maskable.isSome))

/-- A core that does not wait. -/
def State.awake (s : State) : State := if s.pwr.waiting then { s with pwr := { s.pwr with waiting := false } } else s

/-- A step from a state whose inputs have arrived and in which no machine check comes first. A halt comes even in the Halted and
Stopped states (62_perfmon_power.md R2354), after a Debug interrupt that can be taken (61_debug.md R2204). -/
noncomputable def stepCalm (ex : Meaning) (s : State) : Host.Outcome State Fault Refusal :=
  if s.haltPending && s.dbg.dvcPend.isNone then
    if s.debugPending && !s.suspended then .next (endStep s none [] (takeDebug s))
    else .next (endStep s none [] s.enterHalt)
  else if s.suspended then .next (endStep s none [] s)
  else if s.dbg.dvcPend.isSome then runInstr ex s
  else
    match s.foremost with
    | some t => .next (endStep s none [] t)
    | none => if s.staysWaiting then .next (endStep s none [] s.started) else runInstr ex s.awake

/-- A step from a state whose inputs have arrived: a debug session holds; a non-maskable interrupt or a machine check comes before
every other interrupt and before a halt (60_exceptions.md R2011), unless leaving a debug session blocks it
(64_external_debug_psu.md R2261). -/
noncomputable def stepFrom (ex : Meaning) (s : State) : Host.Outcome State Fault Refusal :=
  if s.dbg.halted then .next (endStep s none [] s)
  else
    match (if s.suspended || s.dbg.exiting then none else s.urgent) with
    | some t => .next (endStep s.noWindow none [] t.noWindow)
    | none => stepCalm ex s

/-- A step from a state whose inputs have arrived, with the values of unsynchronized registers that are in effect for it
(93_implementation_defined.md U5). -/
noncomputable def stepNow (ex : Meaning) (s : State) : Host.Outcome State Fault Refusal :=
  stepFrom ex (s.viewOld s.sync.old)

/-! A reset during an instruction (70_reset_and_hazards.md R2400; 93_implementation_defined.md U60). -/

/-- Memory in which each byte that `old` and `new` hold differently is one or the other. -/
def mixMem (old : Memory) (n : Nat) : List Host.Cell → Memory → Memory
  | [], m => m
  | (a, _) :: l, m =>
    mixMem old (n + 1) l (if old.byte a != m.byte a && Config.freeBit n then m.put a (old.byte a) else m)

/-- What another state holds of byte `j` of a data cache line: in its own copy of the line, or in memory. -/
def State.lineByte (s : State) (k : Nat) (l : CacheLine) (j : Nat) : Byte :=
  let o := sparseGet CacheLine.zero s.cache.dcache.lines k
  if o.here l.tag then o.data.toList.getD j 0#8
  else s.mem.byte (lineAddr (k / 4) l + BitVec.ofNat 32 j).toNat

/-- Data cache lines in which each byte that `other` holds differently is one or the other. -/
def mixLines (other : State) (n : Nat) : List (Nat × CacheLine) → List (Nat × CacheLine)
  | [] => []
  | (k, l) :: t =>
    let mixed : CacheLine :=
      { l with
        data := Vector.ofFn fun j => if Config.freeBit (n + j.val) then other.lineByte k l j.val else l.data.get j }
    (k, if l.valid then mixed else l) :: mixLines other (n + 32) t

/-- The machine when a reset cuts short the instruction that would have led from `s` to `t`: each byte of memory and of the data
cache and each GPR is the old one or the new one, and so is all the rest together. -/
def State.cutShort (s t : State) : State :=
  let n := t.free
  let new := Config.freeBit n
  let base := if new then t else s
  let cells := s.mem ++ t.mem
  let m := n + 33 + cells.length
  let lines := base.cache.dcache.lines
  { base with
    gpr := Vector.ofFn fun k => if Config.freeBit (n + 1 + k.val) then t.gpr.get k else s.gpr.get k
    mem := mixMem s.mem (n + 33) cells t.mem
    cache :=
      { base.cache with
        dcache := { base.cache.dcache with lines := mixLines (if new then s else t) m lines } }
    pins := s.pins
    env := s.env
    free := m + 32 * lines.length }

/-- The event is a reset of the processor. -/
def EnvEvent.resets (e : EnvEvent) : Bool := e == .reset || e == .powerOn

/-- The machine when the inputs of a step arrive: where they hold a reset, an instruction may have been in progress. -/
noncomputable def State.interrupted (ex : Meaning) (s : State) : State :=
  if (s.env.headD []).any EnvEvent.resets then
    match stepNow ex { s with env := [] }.begin.settleDvc with
    | .next t => s.cutShort t
    | .fault _ => s
    | .refused _ => s
  else s

/-- One step: the inputs arrive, then an interrupt is taken or an instruction runs. -/
noncomputable def stepWith (ex : Meaning) (s : State) : Host.Outcome State Fault Refusal :=
  stepNow ex (s.interrupted ex).begin.settleDvc

end Sys2Proof.Machine
end

