-- ==== Sys2Proof/Machine/Step.lean ====
section
/-! DEFINITION. The step function, and an instruction placed where the next step fetches it. -/

namespace Sys2Proof.Machine

/-- One step of the machine (60_exceptions.md R2011): inputs arrive, then an interrupt is taken or an instruction runs. -/
noncomputable def step (s : State) : Host.Outcome State Fault Refusal := stepWith exec s

/-- The state with an instruction placed where `step` fetches: its bytes in memory at the real address of the pc, and the
page of the pc made a VLE page or a Book E page, big-endian. -/
noncomputable def State.withFetchWord (s : State) (nbits w : Nat) : State := s.placeWord nbits w

end Sys2Proof.Machine
end

