-- ==== Sys2Proof/Safety.lean ====
section
/-! DEFINITION. What counts as a safe run and as a well-formed state, and the vocabulary of the statements: what an
instruction leaves, field by field, and what it leaves alone. -/

namespace Sys2Proof.Machine

/-! Runs. -/

/-- A step that goes on: neither a fault nor a refusal. -/
def State.goesOn (s : State) : Prop := ∃ t, step s = .next t

/-- The instruction answers a next state, and it satisfies `P`. -/
def Runs (i : Instr) (s : State) (P : State → Prop) : Prop := ∃ t, exec i s = .next t ∧ P t

/-! Invariants. -/

/-- The registers of a legal state: the reserved bits of MSR, XER and SPEFSCR are zero (10_state.md R61, R62, R64), and
the pc is a multiple of 2 (10_state.md R56). -/
def State.regsWf (s : State) : Prop :=
  s.msr &&& ~~~msrMask = 0#32 ∧ s.xer &&& ~~~xerMask = 0#32 ∧ s.spefscr &&& ~~~0xFF3EFF7F#32 = 0#32 ∧
    s.pc.getLsbD 0 = false

/-! What stays. -/

/-- Nothing waits: no snoop and no bus error of a store is in the buffers, and no change of a register is unsynchronized. -/
def State.settled (s : State) : Prop := s.buf.snoops = [] ∧ s.buf.storeErrs = [] ∧ s.sync = Sync.none

/-- No system state changed: the MSR, the reservation, the interrupt, software-use, hardware, timer, MMU, cache, debug,
performance and signature registers, the power state, the inputs, every byte of memory, and what waits in the buffers or for
a context synchronizing instruction. -/
def SameSystem (s t : State) : Prop :=
  t.msr = s.msr ∧ t.resv = s.resv ∧ t.ints = s.ints ∧ t.sprg = s.sprg ∧ t.hid = s.hid ∧ t.tmr = s.tmr ∧ t.mmu = s.mmu ∧
    t.cache = s.cache ∧ t.dbg = s.dbg ∧ t.pm = s.pm ∧ t.psu = s.psu ∧ t.pwr = s.pwr ∧ t.pins = s.pins ∧
    t.buf = s.buf ∧ t.sync = s.sync ∧ ∀ a, t.mem.byte a = s.mem.byte a

/-- No branch or SPE register changed: LR, CTR, the accumulator, SPEFSCR. -/
def SameLinks (s t : State) : Prop := t.lr = s.lr ∧ t.ctr = s.ctr ∧ t.acc = s.acc ∧ t.spefscr = s.spefscr

/-- No GPR but `r` changed. -/
def SameGprsBut (r : Gpr) (s t : State) : Prop := ∀ q, q ≠ r → t.gprD q = s.gprD q

/-- No GPR changed. -/
def SameGprs (s t : State) : Prop := ∀ q, t.gprD q = s.gprD q

/-! What an instruction leaves. -/

/-- The pc is past an instruction of `len` bytes. -/
def Past (len : Nat) (s t : State) : Prop := t.pc = s.pc + BitVec.ofNat 32 len

/-- XER after an instruction that writes CA and OV where they are given: an overflow sets SO, and nothing else changes
(40_base_integer.md R601). -/
def XerAfter (ca ov : Option Bool) (s t : State) : Prop :=
  t.xer.getLsbD 29 = ca.getD (s.xer.getLsbD 29) ∧ t.xer.getLsbD 30 = ov.getD (s.xer.getLsbD 30) ∧
    t.xer.getLsbD 31 = (s.xer.getLsbD 31 || ov.getD false) ∧ ∀ n, n < 29 → t.xer.getLsbD n = s.xer.getLsbD n

/-- No CR field but `f` changed. -/
def SameCrBut (f : CrField) (s t : State) : Prop := ∀ g, g ≠ f → crField t.cr g = crField s.cr g

/-- CR0 after an instruction whose result is `v`: LT, GT, EQ of the signed result and the new SO where the instruction
records (10_state.md R59). -/
def Cr0After (rc : Bool) (v : Word) (s t : State) : Prop :=
  SameCrBut 0#3 s t ∧
    if rc then
      (crField t.cr 0#3).getLsbD 3 = decide (v.toInt < 0) ∧ (crField t.cr 0#3).getLsbD 2 = decide (0 < v.toInt) ∧
        (crField t.cr 0#3).getLsbD 1 = decide (v = 0#32) ∧ (crField t.cr 0#3).getLsbD 0 = t.xer.getLsbD 31
    else crField t.cr 0#3 = crField s.cr 0#3

/-- What an integer instruction of `len` bytes leaves: `v` in the low word of `r` (the high word stays, 10_state.md R51),
CA and OV where given, CR0 where recorded, and nothing else but the pc. -/
def IntResult (len : Nat) (r : Gpr) (v : Word) (ca ov : Option Bool) (rc : Bool) (s t : State) : Prop :=
  t.gprW r = v ∧ t.gprH r = s.gprH r ∧ SameGprsBut r s t ∧ Past len s t ∧ XerAfter ca ov s t ∧ Cr0After rc v s t ∧
    SameLinks s t ∧ SameSystem s t

/-- What an instruction that only writes CR field `f` leaves: LT, GT, EQ, SO there. -/
def CrResult (len : Nat) (f : CrField) (lt gt eq so : Bool) (s t : State) : Prop :=
  (crField t.cr f).getLsbD 3 = lt ∧ (crField t.cr f).getLsbD 2 = gt ∧ (crField t.cr f).getLsbD 1 = eq ∧
    (crField t.cr f).getLsbD 0 = so ∧ SameCrBut f s t ∧ SameGprs s t ∧ Past len s t ∧ t.xer = s.xer ∧ SameLinks s t ∧
    SameSystem s t

/-- What an instruction that only goes on leaves. -/
def OnlyPc (len : Nat) (s t : State) : Prop :=
  Past len s t ∧ SameGprs s t ∧ t.cr = s.cr ∧ t.xer = s.xer ∧ SameLinks s t ∧ SameSystem s t

/-- The bus errors of the store buffer are reported in MCSR[BUS_WRERR], with the address of the first in MCAR unless an address
is logged there already (60_exceptions.md R2038). -/
def StoreErrsReported (s t : State) : Prop :=
  (s.buf.storeErrs = [] → t.ints = s.ints) ∧
    (s.buf.storeErrs ≠ [] → t.ints = { s.ints with mcsr := t.ints.mcsr, mcar := t.ints.mcar } ∧
      t.ints.mcsr.getLsbD 2 = true ∧ t.ints.mcsr.getLsbD 19 = true ∧
      (∀ j, j ≠ 2 → j ≠ 18 → j ≠ 19 → t.ints.mcsr.getLsbD j = s.ints.mcsr.getLsbD j) ∧
      t.ints.mcar = if s.ints.mcsr.getLsbD 19 then s.ints.mcar else s.buf.storeErrs.headD 0#32)

/-- What an instruction that empties the store buffer and goes on leaves (22_cache.md R430); `sync`: it is `msync`, after which a
context synchronizing event leaves no older byte to fetch (R434). -/
def StoresDrained (sync : Bool) (s t : State) : Prop :=
  OnlyPc 4 { s with
    ints := t.ints
    buf := { s.buf with storeErrs := [], entries := [], unsynced := if sync then [] else s.buf.unsynced } } t ∧
    StoreErrsReported s t

/-- What a branch leaves: the pc at the target or past it, LR past it in a link form, CTR. -/
def BranchResult (len : Nat) (lk taken : Bool) (target ctr : Word) (s t : State) : Prop :=
  t.pc = (if taken then target else s.pc + BitVec.ofNat 32 len) ∧
    t.lr = (if lk then s.pc + BitVec.ofNat 32 len else s.lr) ∧ t.ctr = ctr ∧ SameGprs s t ∧ t.cr = s.cr ∧ t.xer = s.xer ∧
    t.acc = s.acc ∧ t.spefscr = s.spefscr ∧ SameSystem s t

/-- SPEFSCR after an instruction that writes the overflow bits: OVH and OV replaced, SOVH and SOV sticky, nothing else
(47_spe_state_and_simple.md R1401). -/
def OvAfter (h l : Bool) (s t : State) : Prop :=
  t.spefscr.getLsbD 30 = h ∧ t.spefscr.getLsbD 14 = l ∧ t.spefscr.getLsbD 31 = (s.spefscr.getLsbD 31 || h) ∧
    t.spefscr.getLsbD 15 = (s.spefscr.getLsbD 15 || l) ∧
    ∀ n, n ≠ 14 → n ≠ 15 → n ≠ 30 → n ≠ 31 → t.spefscr.getLsbD n = s.spefscr.getLsbD n

/-- What an SPE instruction leaves: `v` in the whole of `r`, in the accumulator too where the form says so, the overflow
bits where given, and nothing else but the pc. -/
def SpeResult (r : Gpr) (v : DWord) (toAcc : Bool) (ov : Option (Bool × Bool)) (s t : State) : Prop :=
  t.gprD r = v ∧ SameGprsBut r s t ∧ t.acc = (if toAcc then v else s.acc) ∧
    (match ov with | none => t.spefscr = s.spefscr | some (h, l) => OvAfter h l s t) ∧
    Past 4 s t ∧ t.cr = s.cr ∧ t.xer = s.xer ∧ t.lr = s.lr ∧ t.ctr = s.ctr ∧ SameSystem s t

/-! Interrupts. -/

/-- What taking an interrupt of the first class leaves (60_exceptions.md R2003, R2012): the address `save` and the MSR
in SRR0 and SRR1, the MSR bits of the class cleared, `esr` in ESR, the pc at the handler; the registers, the tables and
every byte of memory as before. -/
def TakesNonCritical (ty : IntType) (save esr : Word) (s t : State) : Prop :=
  t.ints.srr0 = save ∧ t.ints.srr1 = s.msr ∧ t.ints.esr = esr ∧ t.msr = s.msr &&& 0x00021202#32 ∧
    t.pc = (s.ints.ivpr &&& 0xFFFF0000#32) ||| (s.ints.ivor.get ty.ivorIndex &&& 0x0000FFF0#32) ∧
    SameGprs s t ∧ t.cr = s.cr ∧ t.xer = s.xer ∧ SameLinks s t ∧
    t.ints.csrr0 = s.ints.csrr0 ∧ t.ints.csrr1 = s.ints.csrr1 ∧ t.ints.dsrr0 = s.ints.dsrr0 ∧
    t.ints.dsrr1 = s.ints.dsrr1 ∧ t.ints.mcsrr0 = s.ints.mcsrr0 ∧ t.ints.mcsrr1 = s.ints.mcsrr1 ∧
    t.ints.mcsr = s.ints.mcsr ∧ t.ints.mcar = s.ints.mcar ∧ t.ints.ivpr = s.ints.ivpr ∧ t.ints.ivor = s.ints.ivor ∧
    t.sprg = s.sprg ∧ t.hid = s.hid ∧ t.tmr = s.tmr ∧ t.cache = s.cache ∧ t.dbg = s.dbg ∧ t.pm = s.pm ∧ t.psu = s.psu ∧
    t.resv = s.resv ∧ t.pwr = { s.pwr with waiting := false } ∧ t.pins = s.pins ∧ t.buf = s.buf ∧
    t.sync = s.sync ∧ ∀ a, t.mem.byte a = s.mem.byte a

/-- A Program interrupt of the instruction at the pc with an ESR bit (60_exceptions.md R2052 to R2055). -/
def TakesProgram (bit : Word) (s t : State) : Prop :=
  TakesNonCritical .program s.pc (bit ||| (if s.cur.vle then 0x20#32 else 0#32)) s t ∧ t.ints.dear = s.ints.dear ∧
    t.mmu = s.mmu

/-- The state once a context synchronizing event has discarded what was fetched ahead: only the older bytes that no `msync` has
waited for can be fetched (22_cache.md R434). -/
def State.refetched (s : State) : State := { s with buf := { s.buf with stale := s.buf.unsynced } }

/-! Accesses to memory. -/

/-- The number that `n` bytes of memory from a real address on stand for: most significant byte first, or, on a
little-endian page, last (20_memory.md R210). -/
def State.elem (s : State) (e : Bool) (ra : Word) (n : Nat) : Nat := bytesNat (endian e (s.mem.bytes ra n))

/-- An access of `n` bytes that nothing stands in the way of: the data cache is off, every byte hits TLB entry `p` and no
other, the page allows the access, every byte is memory and none answers with a bus error, and the store buffer holds no
error. -/
structure PlainAccess (s : State) (ea : Word) (n : Nat) (k : AccessKind) (p : TlbEntry) : Prop where
  cacheOff : s.cacheOn .data = false
  known : s.tlbOpen s.msrDs s.pid = false
  maps : ∀ j, j < n → ∃ i, s.tlbHits s.msrDs s.pid (ea + BitVec.ofNat 32 j) = [(i, p)]
  allowed : (p.page ea).allows s.user k = true
  answers : ∀ j, j < n → s.busErr ((p.page ea).ra + BitVec.ofNat 32 j) = false
  isRam : ∀ j, j < n → s.onDevice ((p.page ea).ra + BitVec.ofNat 32 j) = false
  noErrs : s.buf.storeErrs = []

/-! The Parallel Signature Unit (64_external_debug_psu.md R2281). -/

/-- The beats of an access at an address whose bytes, as they lie in memory, are `b`: one, or two where it crosses an aligned
doubleword (20_memory.md R215). -/
def busBeats (ea : Word) (b : List Byte) : List (Word × List Byte) :=
  let r := 8 - ea.toNat % 8
  if b.length ≤ r then [(ea, b)] else [(ea, b.take r), (ea + BitVec.ofNat 32 r, b.drop r)]

/-- The beats of the accesses to `n` consecutive words of memory, aligned. -/
def wordBeats (m : Memory) (ra ea : Word) (n : Nat) : List (Word × List Byte) :=
  (List.range n).map fun k => (ea + BitVec.ofNat 32 (4 * k), m.bytes (ra + BitVec.ofNat 32 (4 * k)) 4)

/-- Word `h` (0 the more significant) of the byte lanes of a beat: its bytes at their places, zeros in the inactive lanes. -/
def laneWord (ea : Word) (b : List Byte) (h : Nat) : Word :=
  BitVec.ofNat 32 <| bytesNat <| (List.range 4).map fun k =>
    if ea.toNat % 8 ≤ 4 * h + k then b.getD (4 * h + k - ea.toNat % 8) 0#8 else 0#8

/-- A beat accumulated: both signatures step, and the count goes up where PSCR[CNTEN] is set; PSCR and PSSR stay. -/
def psuStep (p : Psu) (q : Word × List Byte) : Psu :=
  { p with
    pshr := Config.psuMisrStep p.pshr (laneWord q.1 q.2 0)
    pslr := Config.psuMisrStep p.pslr (laneWord q.1 q.2 1)
    psctr := if p.pscr.getLsbD 5 then p.psctr + 1#32 else p.psctr }

/-- The unit after the beats of loads, or of stores: accumulated where PSCR[RDEN], or PSCR[WREN], is set. -/
def psuAfter (store : Bool) (beats : List (Word × List Byte)) (p : Psu) : Psu :=
  if p.pscr.getLsbD (if store then 1 else 2) then beats.foldl psuStep p else p

/-! What stays besides memory. -/

/-- The older bytes that an instruction fetch may still read are those of before and those that `P` holds of; so are those that
no `msync` has waited for (20_memory.md R246; 22_cache.md R434). -/
def AheadBytes (P : Host.Cell → Prop) (s t : State) : Prop :=
  ∀ c, (c ∈ t.buf.stale ↔ c ∈ s.buf.stale ∨ P c) ∧ (c ∈ t.buf.unsynced ↔ c ∈ s.buf.unsynced ∨ P c)

/-- So are those that a fill of the instruction cache may still bring in. -/
def OldBytes (P : Host.Cell → Prop) (s t : State) : Prop :=
  AheadBytes P s t ∧ ∀ c, c ∈ t.buf.unpurged ↔ c ∈ s.buf.unpurged ∨ P c

/-- The older bytes that a fill of the instruction cache may still bring in are those of before, but for those of the line of a real
address (22_cache.md R434). -/
def Purged (ra : Word) (s t : State) : Prop :=
  ∀ c, c ∈ t.buf.unpurged ↔ c ∈ s.buf.unpurged ∧ ∀ j, j < 32 → c.1 ≠ (lineBase ra + BitVec.ofNat 32 j).toNat

/-- Memory held the byte and holds it no longer. -/
def Overwritten (s t : State) (c : Host.Cell) : Prop := s.mem.byte c.1 = c.2 ∧ t.mem.byte c.1 ≠ c.2

/-- No system state changed but for memory, the entries of the store buffer, and the Parallel Signature Unit, which accumulates
the beats of the access (64_external_debug_psu.md R2281); a store adds the bytes it changed to those that an instruction fetch may
still read and a fill of the instruction cache still bring in (20_memory.md R246). -/
def SameSystemButMem (store : Bool) (beats : List (Word × List Byte)) (s t : State) : Prop :=
  t.msr = s.msr ∧ t.resv = s.resv ∧ t.ints = s.ints ∧ t.sprg = s.sprg ∧ t.hid = s.hid ∧ t.tmr = s.tmr ∧ t.mmu = s.mmu ∧
    t.cache = s.cache ∧ t.dbg = s.dbg ∧ t.pm = s.pm ∧ t.psu = psuAfter store beats s.psu ∧ t.pwr = s.pwr ∧
    t.pins = s.pins ∧ t.buf.snoops = s.buf.snoops ∧ t.buf.storeErrs = s.buf.storeErrs ∧
    (if store then OldBytes (Overwritten s t) s t
      else t.buf.stale = s.buf.stale ∧ t.buf.unsynced = s.buf.unsynced ∧ t.buf.unpurged = s.buf.unpurged) ∧
    t.sync = s.sync

/-- What a load of an integer instruction leaves: the base register of an update form holds the effective address unless
it is the destination, which is written last (41_base_loadstore.md R702); no byte of memory changed. `b` are the bytes read. -/
def LoadResult (len : Nat) (rt : Gpr) (upd : Option Gpr) (v ea : Word) (b : List Byte) (s t : State) : Prop :=
  t.gprW rt = v ∧ t.gprH rt = s.gprH rt ∧
    (∀ q, q ≠ rt → upd = some q → t.gprW q = ea ∧ t.gprH q = s.gprH q) ∧
    (∀ q, q ≠ rt → upd ≠ some q → t.gprD q = s.gprD q) ∧
    Past len s t ∧ t.cr = s.cr ∧ t.xer = s.xer ∧ SameLinks s t ∧ SameSystemButMem false (busBeats ea b) s t ∧
    ∀ a, t.mem.byte a = s.mem.byte a

/-- The bytes of memory outside `n` bytes from a real address on are as before. -/
def SameMemOutside (ra : Word) (n : Nat) (s t : State) : Prop :=
  ∀ a, (∀ j, j < n → a ≠ (ra + BitVec.ofNat 32 j).toNat) → t.mem.byte a = s.mem.byte a

/-- Elements of `n` bytes are in memory: the values `v` one after the other from the real address `ra` on, each in the byte order
`e`; the base register of an update form holds the effective address; every other byte, the other registers and flags are as
before. -/
def Stored (len n : Nat) (e : Bool) (ra : Word) (v : List Nat) (upd : Option Gpr) (ea : Word) (s t : State) : Prop :=
  (∀ k, k < v.length → t.elem e (ra + BitVec.ofNat 32 (n * k)) n = v.getD k 0) ∧ SameMemOutside ra (n * v.length) s t ∧
    (∀ q, upd = some q → t.gprW q = ea ∧ t.gprH q = s.gprH q) ∧ (∀ q, upd ≠ some q → t.gprD q = s.gprD q) ∧
    Past len s t ∧ t.cr = s.cr ∧ t.xer = s.xer ∧ SameLinks s t

/-- What a store leaves that is one access of such elements. -/
def StoreResult (len n : Nat) (e : Bool) (ra : Word) (v : List Nat) (upd : Option Gpr) (ea : Word) (s t : State) : Prop :=
  Stored len n e ra v upd ea s t ∧ SameSystemButMem true (busBeats ea (t.mem.bytes ra (n * v.length))) s t

/-- What a store of several words leaves, each an access of its own. -/
def StoreMultipleResult (e : Bool) (ra : Word) (v : List Nat) (ea : Word) (s t : State) : Prop :=
  Stored 4 4 e ra v none ea s t ∧ SameSystemButMem true (wordBeats t.mem ra ea v.length) s t

/-- What an SPE load of the bytes `b` leaves: `v` in the whole of `r`; no byte of memory changed. -/
def SpeLoadResult (r : Gpr) (v : DWord) (ea : Word) (b : List Byte) (s t : State) : Prop :=
  t.gprD r = v ∧ SameGprsBut r s t ∧ Past 4 s t ∧ t.cr = s.cr ∧ t.xer = s.xer ∧ SameLinks s t ∧
    SameSystemButMem false (busBeats ea b) s t ∧ ∀ a, t.mem.byte a = s.mem.byte a

/-- The word at a real address in the byte order `e`. -/
def State.wordAt (s : State) (e : Bool) (ra : Word) : Word := BitVec.ofNat 32 (s.elem e ra 4)

/-- What a load of the registers `l`, in ascending words from the real address `ra` on, leaves; `n` words are read, each an access
of its own. -/
def LoadMultipleResult (n : Nat) (e : Bool) (ra ea : Word) (l : List Gpr) (s t : State) : Prop :=
  (∀ k, (h : k < l.length) →
      t.gprW l[k] = s.wordAt e (ra + BitVec.ofNat 32 (4 * k)) ∧ t.gprH l[k] = s.gprH l[k]) ∧
    (∀ q, q ∉ l → t.gprD q = s.gprD q) ∧
    Past 4 s t ∧ t.cr = s.cr ∧ t.xer = s.xer ∧ SameLinks s t ∧ SameSystemButMem false (wordBeats s.mem ra ea n) s t ∧
    ∀ a, t.mem.byte a = s.mem.byte a

/-! Special registers with an effect. -/

/-- What a new value of the time base leaves. Where a bit of it goes from 0 to 1, that is a time-out: of the fixed-interval timer
for the bit that TCR[FPEXT] and TCR[FP] select, which sets FIS (60_exceptions.md R2104); of the watchdog for that of TCR[WPEXT] and
TCR[WP], which sets ENW, or WIS where ENW was set, or, where both were, puts TCR[WRC] in WRS unless it is 00 (R2108); and a time
base event for that of PMGC0[TBSEL] while TBEE is set (62_perfmon_power.md R2331). Nothing else but the pc changes. -/
def TbWritten (new : DWord) (s t : State) : Prop :=
  let rises : Nat → Bool := fun n => !s.tmr.tb.getMsbD n && new.getMsbD n
  let fit := rises (s.tmr.tcr.extractLsb' 13 4 ++ s.tmr.tcr.extractLsb' 24 2).toNat
  let wd := rises (s.tmr.tcr.extractLsb' 17 4 ++ s.tmr.tcr.extractLsb' 30 2).toNat
  let enw := s.tmr.tsr.getLsbD 31
  let wis := s.tmr.tsr.getLsbD 30
  let wrc := s.tmr.tcr.extractLsb' 28 2
  let sel := ([63, 55, 51, 47] : List Nat).getD (s.pm.pmgc0.extractLsb' 11 2).toNat 0
  t.tmr.tb = new ∧ t.tmr.tsr.getLsbD 26 = (s.tmr.tsr.getLsbD 26 || fit) ∧ t.tmr.tsr.getLsbD 31 = (enw || wd) ∧
    t.tmr.tsr.getLsbD 30 = (wis || (wd && enw)) ∧
    t.tmr.tsr.extractLsb' 28 2 =
      (if wd = true ∧ enw = true ∧ wis = true ∧ wrc ≠ 0#2 then wrc else s.tmr.tsr.extractLsb' 28 2) ∧
    t.tmr.tsr.getLsbD 27 = s.tmr.tsr.getLsbD 27 ∧ t.tmr.tsr.extractLsb' 0 26 = s.tmr.tsr.extractLsb' 0 26 ∧
    t.pm.tbEvent = (s.pm.tbEvent || (s.pm.pmgc0.getLsbD 8 && rises sel)) ∧
    OnlyPc 4 { s with tmr := { s.tmr with tb := t.tmr.tb, tsr := t.tmr.tsr }, pm := { s.pm with tbEvent := t.pm.tbEvent } } t

/-- A cache after a write of `v` to L1CSR0 or L1CSR1: with CINV every line is invalid, with its tag error mark gone (the model's,
log entry 46), and the replacement pointer at way 0; with CLFC every line is unlocked; nothing else of a line changes, and with
neither the cache is the same (22_cache.md R431, R432). -/
def FlashDone (v : Word) (side : Side) (s t : State) : Prop :=
  let cinv := v.getLsbD 1
  let clfc := v.getLsbD 8
  let c := s.cacheOf side
  let d := t.cacheOf side
  (cinv = false → clfc = false → d = c) ∧ d.rp = (if cinv then 0#2 else c.rp) ∧
    (cinv = true → ∀ k w, (d.line k w).valid = false) ∧ (clfc = true → ∀ k w, (d.line k w).lock = 0#4) ∧
    (sparseWf CacheLine.zero 0 c.lines = true → ∀ k w, d.line k w =
      { c.line k w with
        valid := (c.line k w).valid && !cinv
        tagErr := if cinv then 0#6 else (c.line k w).tagErr
        lock := if clfc then 0#4 else (c.line k w).lock })

/-! Numbers and masks of the integer instructions. -/

/-- An exact integer that is no signed word: the overflow of an integer instruction. -/
def noFit (x : Int) : Bool := decide (x < -2 ^ 31 ∨ 2 ^ 31 ≤ x)

/-- A carry as a number. -/
def one (c : Bool) : Int := if c then 1 else 0

/-- Bit `i` (0 the most significant) is under the mask from `mb` to `me`, which wraps round when `mb` is past `me`
(40_base_integer.md R601). -/
def underMask (mb me : BitVec 5) (i : Nat) : Bool :=
  if mb.toNat ≤ me.toNat then decide (mb.toNat ≤ i ∧ i ≤ me.toNat) else decide (i ≤ me.toNat ∨ mb.toNat ≤ i)

/-- `v` is `w` rotated left by `n`, bit by bit. -/
def Rotated (w : Word) (n : Nat) (v : Word) : Prop := ∀ i, i < 32 → v.getMsbD i = w.getMsbD ((i + n) % 32)

/-- `n` is the number of leading zeros of `w`. -/
def LeadingZeros (w : Word) (n : Nat) : Prop :=
  n ≤ 32 ∧ (∀ i, i < n → w.getMsbD i = false) ∧ (n < 32 → w.getMsbD n = true)

/-! More of what an instruction leaves. -/

/-- Only CR changed (and the pc): each bit is the one given. -/
def CrAfter (len : Nat) (bit : CrBit → Bool) (s t : State) : Prop :=
  (∀ n, crBit t.cr n = bit n) ∧ SameGprs s t ∧ Past len s t ∧ t.xer = s.xer ∧ SameLinks s t ∧ SameSystem s t

/-- Only CR field `f` changed, to `v` (and the pc). -/
def CrFieldIs (len : Nat) (f : CrField) (v : BitVec 4) (s t : State) : Prop :=
  crField t.cr f = v ∧ SameCrBut f s t ∧ SameGprs s t ∧ Past len s t ∧ t.xer = s.xer ∧ SameLinks s t ∧ SameSystem s t

/-- What a return leaves: the MSR and the pc from a pair of save/restore registers (60_exceptions.md R2015), all else as
before. -/
def ReturnResult (r0 r1 : Word) (s t : State) : Prop :=
  t.msr = r1 &&& 0x0606FB36#32 ∧ t.pc = r0 &&& 0xFFFFFFFE#32 ∧ SameGprs s t ∧ t.cr = s.cr ∧ t.xer = s.xer ∧ SameLinks s t ∧
    SameSystem { s with msr := t.msr } t

/-- Only the MSR changed (and the pc); `owed` are the old values that later instructions may still work with
(93_implementation_defined.md U5). -/
def MsrResult (v : Word) (owed : List (SyncReg × Word)) (s t : State) : Prop :=
  t.msr = v ∧ Past 4 s t ∧ SameGprs s t ∧ t.cr = s.cr ∧ t.xer = s.xer ∧ SameLinks s t ∧
    SameSystem { s with msr := v, sync := { s.sync with old := owed ++ s.sync.old } } t

/-! The memory management unit. -/

/-- A TLB entry holds the fields of MAS1, MAS2 and MAS3 (21_mmu.md R321 to R323). -/
def EntryHolds (e : TlbEntry) (m1 m2 m3 : Word) : Prop :=
  e.v = m1.getLsbD 31 ∧ e.iprot = m1.getLsbD 30 ∧ e.tid = m1.extractLsb' 16 8 ∧ e.ts = m1.getLsbD 12 ∧
    e.size = m1.extractLsb' 7 5 ∧ e.epn = m2.extractLsb' 10 22 ∧ e.vle = m2.getLsbD 5 ∧ e.w = m2.getLsbD 4 ∧
    e.i = m2.getLsbD 3 ∧ e.m = m2.getLsbD 2 ∧ e.g = m2.getLsbD 1 ∧ e.e = m2.getLsbD 0 ∧
    e.rpn = m3.extractLsb' 10 22 ∧ e.u = m3.extractLsb' 6 4 ∧ e.ux = m3.getLsbD 5 ∧ e.sx = m3.getLsbD 4 ∧
    e.uw = m3.getLsbD 3 ∧ e.sw = m3.getLsbD 2 ∧ e.ur = m3.getLsbD 1 ∧ e.sr = m3.getLsbD 0

/-- Only the MMU changed (and the pc); the fields of the MAS registers that the instruction wrote (`mas`) are the same in the
old values that later instructions may still work with (93_implementation_defined.md U5). -/
def OnlyMmu (mas : List (SyncReg × Word)) (s t : State) : Prop :=
  Past 4 s t ∧ SameGprs s t ∧ t.cr = s.cr ∧ t.xer = s.xer ∧ SameLinks s t ∧
    SameSystem ({ s with mmu := t.mmu }.settleMas mas) t

/-! The caches. -/

/-- `n` bytes from a real address on are memory, and none answers with a bus error. -/
def State.ramFrom (s : State) (ra : Word) (n : Nat) : Prop :=
  ∀ j, j < n → s.busErr (ra + BitVec.ofNat 32 j) = false ∧ s.onDevice (ra + BitVec.ofNat 32 j) = false

/-- What waits in the buffers stays, but that entries of the store buffer may drain; the older bytes that an instruction fetch
may still read, or a fill of the instruction cache bring in, are those of before and those that memory held and holds no longer
(20_memory.md R246). -/
def BuffersAfter (s t : State) : Prop :=
  t.buf.snoops = s.buf.snoops ∧ t.buf.storeErrs = s.buf.storeErrs ∧ OldBytes (Overwritten s t) s t

/-- A byte of a valid line that differs from memory. -/
def LineDiffers (s : State) (set : Nat) (l : CacheLine) (c : Host.Cell) : Prop :=
  l.valid = true ∧ s.mem.byte c.1 ≠ c.2 ∧
    ∃ j : Fin 32, c = ((lineAddr set l + BitVec.ofNat 32 j.val).toNat, l.data.get j)

/-- The set of an address holds its line in way `w`, as `l`, and in no other; the cache is on, error checking is off, and
the page of the address allows the access. -/
structure BlockHit (s : State) (side : Side) (ea : Word) (k : AccessKind) (p : TlbEntry) (w : Nat) (l : CacheLine) :
    Prop where
  on : s.cacheOn side = true
  unchecked : s.checkOn side = false
  known : s.tlbOpen s.msrDs s.pid = false
  maps : ∃ i, s.tlbHits s.msrDs s.pid ea = [(i, p)]
  allowed : (p.page ea).allows s.user k = true
  here : ((s.cacheOf side).ways (setOf ea)).filter (fun q => q.2.here (tagOf (p.page ea).ra)) = [(w, l)]

/-- No way of the set of an address holds its line; the cache is on, error checking is off, and the page of the address
allows the access. -/
structure BlockMiss (s : State) (side : Side) (ea : Word) (k : AccessKind) (p : TlbEntry) : Prop where
  on : s.cacheOn side = true
  unchecked : s.checkOn side = false
  known : s.tlbOpen s.msrDs s.pid = false
  maps : ∃ i, s.tlbHits s.msrDs s.pid ea = [(i, p)]
  allowed : (p.page ea).allows s.user k = true
  absent : ((s.cacheOf side).ways (setOf ea)).filter (fun q => q.2.here (tagOf (p.page ea).ra)) = []

/-- Only way `w` of the set of an address in a cache changed, to `l` (and the pc). -/
def LineResult (side : Side) (ea : Word) (w : Nat) (l : CacheLine) (s t : State) : Prop :=
  Past 4 s t ∧ t.cacheOf side = (s.cacheOf side).put (setOf ea) w l ∧ SameGprs s t ∧ t.cr = s.cr ∧ t.xer = s.xer ∧
    SameLinks s t ∧ SameSystem { s with cache := t.cache } t ∧ t.cache = (s.setCache side (t.cacheOf side)).cache

/-- A way is enabled for fills (22_cache.md R411): WID or WDD of the way is clear. -/
def State.wayOn (s : State) (side : Side) (w : Nat) : Prop :=
  s.cache.l1csr0.getLsbD ((match side with | .instr => 31 | .data => 27) - w) = false

/-- A fill may take a way of the set of an address: the way is enabled, and its line not locked (22_cache.md R424). -/
def State.wayFree (s : State) (side : Side) (ea : Word) (w : Nat) : Prop :=
  s.wayOn side w ∧ ((s.cacheOf side).line (setOf ea) w).lock = 0#4

/-- The way that a fill takes: the first it may take from the replacement pointer on (22_cache.md R424). -/
def State.victimIs (s : State) (side : Side) (ea : Word) (w : Nat) : Prop :=
  let way : Nat → Nat := fun j => ((s.cacheOf side).rp.toNat + j) % 4
  ∃ k, k < 4 ∧ w = way k ∧ s.wayFree side ea w ∧ ∀ j, j < k → ¬s.wayFree side ea (way j)

/-- The line in a way of the set of an address, which a fill displaces, is written to memory first: it is valid and modified
(22_cache.md R424). -/
def State.pushes (s : State) (side : Side) (ea : Word) (w : Nat) : Bool :=
  let l := (s.cacheOf side).line (setOf ea) w
  side == .data && l.valid && l.dirty != 0#3

/-- A fill may displace that line: where it is written to memory, its bytes can be. -/
def State.mayDisplace (s : State) (side : Side) (ea : Word) (w : Nat) : Prop :=
  s.mem.wf = true ∧ (s.pushes side ea w = true → s.ramFrom (lineAddr (setOf ea) ((s.cacheOf side).line (setOf ea) w)) 32)

/-- The state with a line in a way of the set of an address, the one before it written to memory where it was modified, and the
replacement pointer past that way (22_cache.md R424). -/
def State.withLine (s : State) (side : Side) (ea : Word) (w : Nat) (l : CacheLine) : State :=
  let old := (s.cacheOf side).line (setOf ea) w
  let c := { (s.cacheOf side).put (setOf ea) w l with rp := BitVec.ofNat 2 (w + 1) }
  { s.setCache side c with
    mem := if s.pushes side ea w then s.mem.putBytes (lineAddr (setOf ea) old) old.data.toList else s.mem }

/-- The error marks that new bytes of a line get: wrong ones where L1CSR0 or L1CSR1 injects errors (DCEI, ICEI), else right
ones (23_cache_errors_coherency.md R469). -/
def State.newMarks (s : State) (side : Side) : Vector Byte 4 :=
  Vector.replicate 4 <|
    if (s.l1csr side).getLsbD 15 then (match side with | .instr => 0xC0#8 | .data => 0xFF#8) else 0#8

/-- The line of memory that holds a real address, as a fill puts it in a cache: valid, clean and unlocked (22_cache.md
R423). -/
def State.filledLine (s : State) (side : Side) (ra : Word) : CacheLine :=
  { tag := ra.extractLsb' 10 22, valid := true, lock := 0#4, dirty := 0#3
    data := Vector.ofFn fun j => s.mem.byte ((lineBase ra).toNat + j.val)
    tagErr := 0#6, dataErr := s.newMarks side }

/-- That line can be read: memory answers, and a fill of the instruction cache may bring in no older byte of it. -/
def State.mayFill (s : State) (side : Side) (ra : Word) : Prop :=
  s.ramFrom (lineBase ra) 32 ∧
    (side = .instr → ∀ j, j < 32 → cellsAt s.buf.unpurged (lineBase ra + BitVec.ofNat 32 j) = [])

/-- The error mark of byte `j` of a data cache line (23_cache_errors_coherency.md R469). -/
def CacheLine.byteErr (l : CacheLine) (j : Nat) : Bool := (l.dataErr.toList.getD (j / 8) 0#8).getMsbD (j % 8)

/-- `l'` is the line `l` with elements of `n` bytes, of values `v`, stored from the address `ea` on in the byte order `e`: their
bytes have the error mark `err`, and the line the dirty bits `dirty`. -/
def LineStored (l : CacheLine) (ea : Word) (n : Nat) (e : Bool) (v : List Nat) (dirty : BitVec 3) (err : Bool)
    (l' : CacheLine) : Prop :=
  l'.tag = l.tag ∧ l'.valid = l.valid ∧ l'.lock = l.lock ∧ l'.tagErr = l.tagErr ∧ l'.dirty = dirty ∧
    (∀ k, k < v.length → bytesNat (endian e ((l'.data.toList.drop (ea.toNat % 32 + n * k)).take n)) = v.getD k 0) ∧
    ∀ j : Fin 32, if ea.toNat % 32 ≤ j.val ∧ j.val < ea.toNat % 32 + n * v.length then l'.byteErr j.val = err
      else l'.data.get j = l.data.get j ∧ l'.byteErr j.val = l.byteErr j.val

/-- What a store into the line `l`, present in way `w`, leaves: the line with the bytes, modified, and memory as before; or, in
writethrough mode (`wt`), the line no more modified than it was, and memory with the bytes. The Parallel Signature Unit sees the
bytes that the line has then. -/
def CachedStoreResult (len n : Nat) (e : Bool) (ra : Word) (v : List Nat) (upd : Option Gpr) (ea : Word) (w : Nat)
    (l : CacheLine) (wt : Bool) (s t : State) : Prop :=
  (∃ l', t.cacheOf .data = (s.cacheOf .data).put (setOf ea) w l' ∧
      LineStored l ea n e v (if wt then l.dirty else 7#3) (s.cache.l1csr0.getLsbD 15) l' ∧
      SameSystemButMem true (busBeats ea ((l'.data.toList.drop (ea.toNat % 32)).take (n * v.length)))
        { s with cache := { s.cache with dcache := t.cache.dcache } } t) ∧
    (if wt then
      (∀ k, k < v.length → t.elem e (ra + BitVec.ofNat 32 (n * k)) n = v.getD k 0) ∧ SameMemOutside ra (n * v.length) s t
    else ∀ a, t.mem.byte a = s.mem.byte a) ∧
    (∀ q, upd = some q → t.gprW q = ea ∧ t.gprH q = s.gprH q) ∧ (∀ q, upd ≠ some q → t.gprD q = s.gprD q) ∧
    Past len s t ∧ t.cr = s.cr ∧ t.xer = s.xer ∧ SameLinks s t

/-- A load of `n` bytes at an address, with the data cache on: it reads the bytes `b` and leaves the cache and memory as in
`u`. Its line is present; or it is filled first; or, where the page inhibits caching or no way is free, the bytes come from
memory (22_cache.md R420, R421, R424). -/
inductive DataRead (s : State) (ea : Word) (n : Nat) (p : TlbEntry) : List Byte → State → Prop where
  | hit (w : Nat) (l : CacheLine) : BlockHit s .data ea .load p w l →
    DataRead s ea n p ((l.data.toList.drop (ea.toNat % 32)).take n) s
  | fill (w : Nat) : BlockMiss s .data ea .load p → p.i = false → s.victimIs .data ea w → s.mayDisplace .data ea w →
    s.mayFill .data (p.page ea).ra →
    DataRead s ea n p (s.mem.bytes (p.page ea).ra n) (s.withLine .data ea w (s.filledLine .data (p.page ea).ra))
  | bus : BlockMiss s .data ea .load p → p.i = true ∨ (∀ w, w < 4 → ¬s.wayFree .data ea w) →
    s.ramFrom (p.page ea).ra n → s.buf.storeErrs = [] → DataRead s ea n p (s.mem.bytes (p.page ea).ra n) s

/-- A store to an address writes memory too: the cache is in writethrough mode, or its page asks for that (22_cache.md R422). -/
def State.storesThrough (s : State) (p : TlbEntry) (wt : Bool) : Prop :=
  s.cache.l1csr0.getLsbD 20 = false ∨ p.w = true ↔ wt = true

/-- `n` bytes of memory can be stored to. -/
def State.mayStore (s : State) (ra : Word) (n : Nat) : Prop := s.mem.wf = true ∧ s.ramFrom ra n ∧ s.buf.storeErrs = []

/-- A store that misses allocates a line (`yes`), or does not: DCWA is 10, or 01 and the store does not write memory too, and
the page neither inhibits caching nor is guarded (22_cache.md R422). What the reserved DCWA 11 does is left open. -/
def State.allocates (s : State) (p : TlbEntry) (wt yes : Bool) : Prop :=
  let dcwa := s.cache.l1csr0.extractLsb' 18 2
  if yes then p.i = false ∧ p.g = false ∧ (dcwa = 2#2 ∨ dcwa = 1#2 ∧ wt = false)
  else p.i = true ∨ p.g = true ∨ dcwa = 0#2 ∨ dcwa = 1#2 ∧ wt = true

/-- A store of `n` bytes at an address, with the data cache on, changes the line `l` in way `w` of the cache of `u`: its line
is present; or it is filled first (22_cache.md R420, R422, R424). -/
inductive DataWrite (s : State) (ea : Word) (n : Nat) (p : TlbEntry) (wt : Bool) : Nat → CacheLine → State → Prop where
  | hit (w : Nat) (l : CacheLine) : BlockHit s .data ea .store p w l → s.storesThrough p wt →
    (wt = true → s.mayStore (p.page ea).ra n) → DataWrite s ea n p wt w l s
  | fill (w : Nat) : BlockMiss s .data ea .store p → s.storesThrough p wt → s.allocates p wt true → s.victimIs .data ea w →
    s.mayDisplace .data ea w → s.mayFill .data (p.page ea).ra → (wt = true → s.mayStore (p.page ea).ra n) →
    DataWrite s ea n p wt w (s.filledLine .data (p.page ea).ra)
      (s.withLine .data ea w (s.filledLine .data (p.page ea).ra))

/-- A store of `n` bytes at an address, with the data cache on, writes memory alone: its line is not present, and it does not
allocate one, or no way is free (22_cache.md R422, R424). -/
structure BusWrite (s : State) (ea : Word) (n : Nat) (p : TlbEntry) (wt : Bool) : Prop where
  miss : BlockMiss s .data ea .store p
  mode : s.storesThrough p wt
  alone : s.allocates p wt false ∨ s.allocates p wt true ∧ ∀ w, w < 4 → ¬s.wayFree .data ea w
  answers : s.mayStore (p.page ea).ra n

/-! The floating-point unit. -/

/-- SPEFSCR after an instruction with the outcomes `oh` (high) and `ol` (low): the status bits replaced, the sticky bits
added to, nothing else (45_efpu_scalar.md R1110; 46_efpu_vector.md R1201). -/
def FpStatus (oh ol : FpOut) (s t : State) : Prop :=
  (∀ n b, (n, b) ∈ [(29, oh.g), (28, oh.x), (27, oh.inv), (26, oh.dbz), (25, oh.unf), (24, oh.ovf), (13, ol.g), (12, ol.x),
      (11, ol.inv), (10, ol.dbz), (9, ol.unf), (8, ol.ovf)] → t.spefscr.getLsbD n = b) ∧
    (∀ n b, (n, b) ∈ [(21, oh.inexact || ol.inexact), (20, oh.inv || ol.inv), (19, oh.dbz || ol.dbz),
      (18, oh.unf || ol.unf), (17, oh.ovf || ol.ovf)] → t.spefscr.getLsbD n = (s.spefscr.getLsbD n || b)) ∧
    ∀ n, n ∈ [31, 30, 23, 22, 16, 15, 14, 7, 6, 5, 4, 3, 2, 1, 0] → t.spefscr.getLsbD n = s.spefscr.getLsbD n

/-- No floating-point exception is enabled: SPEFSCR[FINXE], [FINVE], [FDBZE], [FUNFE], [FOVFE]. -/
def State.fpQuiet (s : State) : Prop := s.spefscr &&& 0x7C#32 = 0#32

/-- Nothing but the pc, SPEFSCR and what a floating-point instruction writes by itself changed. -/
def FpRest (s t : State) : Prop :=
  Past 4 s t ∧ t.xer = s.xer ∧ t.lr = s.lr ∧ t.ctr = s.ctr ∧ t.acc = s.acc ∧ SameSystem s t

/-- What a scalar floating-point instruction leaves: the result in the low word of `r`. -/
def FpScalarResult (r : Gpr) (o : FpOut) (s t : State) : Prop :=
  t.gprW r = o.result ∧ t.gprH r = s.gprH r ∧ SameGprsBut r s t ∧ t.cr = s.cr ∧ FpStatus FpOut.none o s t ∧ FpRest s t

/-- What a vector floating-point instruction leaves: a result in each word of `r`. -/
def FpVectorResult (r : Gpr) (oh ol : FpOut) (s t : State) : Prop :=
  t.gprH r = oh.result ∧ t.gprW r = ol.result ∧ SameGprsBut r s t ∧ t.cr = s.cr ∧ FpStatus oh ol s t ∧ FpRest s t

/-- An outcome of either element calls for the floating-point Data interrupt, and SPEFSCR enables it (45_efpu_scalar.md R1110;
46_efpu_vector.md R1201). -/
def State.fpTraps (s : State) (oh ol : FpOut) : Bool :=
  ((oh.inv || ol.inv) && s.spefscr.getLsbD 5) || ((oh.dbz || ol.dbz) && s.spefscr.getLsbD 4) ||
    ((oh.unf || ol.unf) && s.spefscr.getLsbD 3) || ((oh.ovf || ol.ovf) && s.spefscr.getLsbD 2)

/-- SPEFSCR when the Data interrupt is taken: the guard and sticky bits cleared, FINXS as it was, and the rest as without the
interrupt. -/
def FpDataStatus (oh ol : FpOut) (s t : State) : Prop :=
  (∀ n b, (n, b) ∈ [(29, false), (28, false), (27, oh.inv), (26, oh.dbz), (25, oh.unf), (24, oh.ovf), (13, false),
      (12, false), (11, ol.inv), (10, ol.dbz), (9, ol.unf), (8, ol.ovf)] → t.spefscr.getLsbD n = b) ∧
    (∀ n b, (n, b) ∈ [(20, oh.inv || ol.inv), (19, oh.dbz || ol.dbz), (18, oh.unf || ol.unf), (17, oh.ovf || ol.ovf)] →
      t.spefscr.getLsbD n = (s.spefscr.getLsbD n || b)) ∧
    ∀ n, n ∈ [31, 30, 23, 22, 21, 16, 15, 14, 7, 6, 5, 4, 3, 2, 1, 0] → t.spefscr.getLsbD n = s.spefscr.getLsbD n

/-- Where the outcomes call for it, the instruction takes the floating-point Data interrupt (60_exceptions.md R2065). -/
def FpDataTaken (i : Instr) (oh ol : FpOut) (s : State) : Prop :=
  s.fpTraps oh ol = true → Runs i s fun t =>
    TakesNonCritical .fpData s.pc (0x80#32 ||| (if s.cur.vle then 0x20#32 else 0#32)) { s with spefscr := t.spefscr } t ∧
      t.ints.dear = s.ints.dear ∧ t.mmu = s.mmu ∧ FpDataStatus oh ol s t

/-- What the Round interrupt finds in a word of the destination: the truncated number of an element that is not exact, where the
spec defines one, else the result (45_efpu_scalar.md R1112). -/
def FpDelivered (o : FpOut) (v : Word) : Prop :=
  (o.inexact = true → ∀ w, o.trunc = some w → v = w) ∧ (o.inexact = false → v = o.result)

/-- Where an outcome is not exact, SPEFSCR[FINXE] is set and no Data interrupt is taken, the instruction takes the
floating-point Round interrupt, with `written` of its destination (60_exceptions.md R2066). -/
def FpRoundTaken (i : Instr) (oh ol : FpOut) (written : State → Prop) (s : State) : Prop :=
  s.fpTraps oh ol = false → s.spefscr.getLsbD 6 = true → (oh.inexact || ol.inexact) = true → Runs i s fun t =>
    TakesNonCritical .fpRound (s.pc + 4#32) (0x80#32 ||| (if s.cur.vle then 0x20#32 else 0#32))
      { s with spefscr := t.spefscr, gpr := t.gpr } t ∧
    t.ints.dear = s.ints.dear ∧ t.mmu = s.mmu ∧ written t ∧ FpStatus oh ol s t

/-! Floating-point numbers as real numbers, without the functions of the model (45_efpu_scalar.md R1105 to R1109). -/

/-- The biased exponent and the fraction of an element. -/
def fpE (v : Word) : Nat := (v.extractLsb' 23 8).toNat
def fpF (v : Word) : Nat := (v.extractLsb' 0 23).toNat
/-- A normalized number. -/
def fpNorm (v : Word) : Prop := 1 ≤ fpE v ∧ fpE v ≤ 254
/-- An infinity, a NaN or a denormalized number. -/
def fpSpecial (v : Word) : Bool := decide (fpE v = 255 ∨ fpE v = 0 ∧ fpF v ≠ 0)
/-- A NaN. -/
def fpNan (v : Word) : Bool := decide (fpE v = 255 ∧ fpF v ≠ 0)
/-- The value of a normalized number. -/
noncomputable def fpValue (v : Word) : ℝ :=
  (if v.msb then -1 else 1) * (2 ^ 23 + fpF v) * (2 : ℝ) ^ ((fpE v : ℤ) - 150)
/-- The word is a normalized number of value `x`. -/
def fpIs (v : Word) (x : ℝ) : Prop := fpNorm v ∧ fpValue v = x
/-- The value of a normalized half-precision number (R1106). -/
noncomputable def halfValue (h : BitVec 16) : ℝ :=
  (if h.msb then -1 else 1) * (2 ^ 10 + (h.extractLsb' 0 10).toNat) * (2 : ℝ) ^ (((h.extractLsb' 10 5).toNat : ℤ) - 25)
/-- The low half of the word is a normalized half-precision number of value `x`, its high half is zero. -/
def halfIs (v : Word) (x : ℝ) : Prop :=
  v.extractLsb' 16 16 = 0#16 ∧ 1 ≤ (v.extractLsb' 10 5).toNat ∧ (v.extractLsb' 10 5).toNat ≤ 30 ∧
    halfValue (v.extractLsb' 0 16) = x

/-- `t` steps of width `u` are `r` rounded: 0 to the nearest, a tie to an even `t`; 1 toward zero; 2 toward plus infinity; 3
toward minus infinity. -/
def RoundedTo (m : BitVec 2) (r u : ℝ) (t : ℤ) : Prop :=
  match m.toNat with
  | 0 => 2 * |r - t * u| ≤ u ∧ (2 * |r - t * u| = u → Even t)
  | 1 => 0 ≤ r * t ∧ |t * u| ≤ |r| ∧ |r| < |t * u| + u
  | 2 => r ≤ t * u ∧ t * u < r + u
  | _ => t * u ≤ r ∧ r < t * u + u

/-- The guard and sticky bits of what truncation to steps of width `u` discards. -/
def Discards (x u : ℝ) (o : FpOut) : Prop := (o.g = true ↔ u ≤ 2 * |x|) ∧ (o.x = true ↔ x ≠ 0 ∧ 2 * |x| ≠ u)

/-- The outcome of rounding the real number `r`, not zero, to `p` digits, in a format whose normalized numbers are `fits`, from
`lo` to below `hi` in magnitude: the rounded number, with guard, sticky and the truncated number, or, past the range, the
largest number `top` with the sign `sign` of `r`, or, below it, the zero `small`. -/
def FpRounds (p : ℕ) (lo hi : ℝ) (fits : Word → ℝ → Prop) (m : BitVec 2) (r : ℝ) (top sign small : Word) (o : FpOut) : Prop :=
  o.inv = false ∧ o.dbz = false ∧ ∃ e t t0 : ℤ, (2 : ℝ) ^ e ≤ |r| ∧ |r| < 2 ^ (e + 1) ∧
    let u : ℝ := 2 ^ (e - (p - 1))
    RoundedTo m r u t ∧ RoundedTo 1#2 r u t0 ∧ (o.ovf = true ↔ hi ≤ |t * u|) ∧ (o.unf = true ↔ |t * u| < lo) ∧
    (lo ≤ |t * u| → |t * u| < hi → fits o.result (t * u) ∧ Discards (r - t0 * u) u o ∧
      (lo ≤ |r| → ∃ w, o.trunc = some w ∧ fits w (t0 * u))) ∧
    (hi ≤ |t * u| → o.g = false ∧ o.x = false ∧ o.result = (if r < 0 then sign ||| top else top) ∧ o.trunc = some o.result) ∧
    (|t * u| < lo → o.g = false ∧ o.x = false ∧ o.result = small ∧ o.trunc = some small)

/-- That in single precision. -/
def FpSingle (m : BitVec 2) (r : ℝ) (small : Word) (o : FpOut) : Prop :=
  FpRounds 24 (2 ^ (-126 : ℤ)) (2 ^ 128) fpIs m r 0x7F7FFFFF#32 0x80000000#32 small o

/-- The outcome of rounding the real number `r` to an integer of 32 bits. -/
def FpInteger (m : BitVec 2) (r : ℝ) (o : FpOut) : Prop :=
  o.inv = false ∧ o.dbz = false ∧ o.ovf = false ∧ o.unf = false ∧ ∃ t t0 : ℤ, RoundedTo m r 1 t ∧ RoundedTo 1#2 r 1 t0 ∧
    Discards (r - t0) 1 o ∧ o.result = BitVec.ofInt 32 t ∧ o.trunc = some (BitVec.ofInt 32 t0)

/-! Numbers of the SPE instructions. -/

/-- An exact integer as a signed number of `w` bits, saturated (48_spe_multiply_halfword.md R1484). -/
def clampSigned (w : Nat) (x : Int) : BitVec w := BitVec.ofInt w (max (-2 ^ (w - 1)) (min (2 ^ (w - 1) - 1) x))

/-- An exact integer that is no signed number of `w` bits. -/
def noFitSigned (w : Nat) (x : Int) : Bool := decide (x < -2 ^ (w - 1) ∨ 2 ^ (w - 1) ≤ x)

/-- An exact integer as an unsigned word, saturated. -/
def clampWord (x : Int) : Word := BitVec.ofInt 32 (max 0 (min (2 ^ 32 - 1) x))

/-- An exact integer that is no unsigned word. -/
def noFitWord (x : Int) : Bool := decide (x < 0 ∨ 2 ^ 32 ≤ x)

/-- A saturating fractional product of numbers of `w` bits: -1 times -1 gives the largest number (48_spe_multiply_halfword.md
R1485). -/
def fracProduct {w : Nat} (x y : BitVec w) : Int := min (2 ^ (2 * w - 1) - 1) (2 * (x.toInt * y.toInt))

/-- That product saturates. -/
def fracOverflows {w : Nat} (x y : BitVec w) : Bool := decide (2 ^ (2 * w - 1) ≤ 2 * (x.toInt * y.toInt))

/-! Immediates and registers by number. -/

/-- A word that is the SCI8 immediate of its fields: one byte of it is UI8, the other three are all F (44_vle.md R1022). -/
def IsSci8 (f : Bool) (scl : BitVec 2) (ui8 : BitVec 8) (v : Word) : Prop :=
  ∀ j, j < 4 → v.extractLsb' (8 * j) 8 = if j = scl.toNat then ui8 else if f then 0xFF#8 else 0#8

/-- The SPR numbers `mfspr` may name (10_state.md R113). -/
def readableSprs : List Nat :=
  [1, 8, 9, 22, 26, 27, 48, 54, 58, 59, 61, 62, 63, 256] ++ [260, 261, 262, 263, 268, 269] ++
    [272, 273, 274, 275, 276, 277, 278, 279, 286, 287, 304, 308, 309, 310, 312, 313, 314, 315, 316, 317, 318, 319] ++
    [336, 340, 400, 401, 402, 403, 404, 405, 406, 407, 408, 409, 410, 411, 412, 413, 414, 415] ++
    [512, 515, 516, 528, 529, 530, 531, 561, 562, 563, 564, 565, 566, 567, 568, 569, 570, 571, 572, 573, 574, 575, 576] ++
    [603, 604, 605, 624, 625, 626, 627, 628, 630, 688, 689, 959, 975, 976, 1008, 1009, 1010, 1011, 1012, 1013, 1015] ++
    [1016, 1023]

/-- The SPR numbers `mtspr` may name (10_state.md R113). -/
def writableSprs : List Nat :=
  [1, 8, 9, 22, 26, 27, 48, 54, 58, 59, 61, 62, 63, 256] ++
    [272, 273, 274, 275, 276, 277, 278, 279, 284, 285, 286, 304, 308, 309, 310, 312, 313, 314, 315, 316, 317, 318, 319] ++
    [336, 340, 400, 401, 402, 403, 404, 405, 406, 407, 408, 409, 410, 411, 412, 413, 414, 415] ++
    [512, 528, 529, 530, 531, 561, 562, 563, 564, 565, 566, 567, 568, 570, 571, 572, 573, 574, 575, 576] ++
    [603, 604, 605, 624, 625, 626, 627, 628, 630, 959, 975, 976, 1008, 1009, 1010, 1011, 1012, 1013, 1016]

/-- The PMR numbers `mfpmr` may name (62_perfmon_power.md R2301). -/
def readablePmrs : List Nat :=
  [0, 1, 2, 3, 16, 17, 18, 19, 128, 129, 130, 131, 144, 145, 146, 147, 256, 257, 258, 259, 272, 273, 274, 275, 384, 400]

/-- The PMR numbers `mtpmr` may name: the supervisor ones (62_perfmon_power.md R2301). -/
def writablePmrs : List Nat := [16, 17, 18, 19, 144, 145, 146, 147, 272, 273, 274, 275, 400]

/-! Steps. -/

/-- Nothing from outside and no work left over from before comes in the next step: no input arrives, the core is not halted
or stopped, no reset is asked for, no debug session is on or has just been left and no value-compare window open, the performance
monitor is idle, and nothing waits in the buffers or for a context synchronizing instruction. -/
structure State.Idle (s : State) : Prop where
  noInput : s.env = []
  running : s.pwr.halted = false ∧ s.pwr.stopped = false ∧ s.pins.halt = false
  noSession : s.dbg.halted = false
  noExit : s.dbg.exiting = false
  noWindow : s.dbg.dvcPend = none
  noPerf : s.pm.quiet = true
  noReset : s.resetAsked = false
  noWork : s.settled

/-- Nothing but an instruction or an interrupt can come next: idle, and no debug mode is on. -/
structure State.Undebugged (s : State) : Prop extends s.Idle where
  noDebug : s.dbg.dbcr0.getLsbD 31 = false ∧ s.dbg.dbcr0.getLsbD 30 = false

/-- Nothing but an instruction or a maskable interrupt of the first class can come next: no machine check, Critical Input or
Watchdog interrupt is pending either. -/
structure State.Steady (s : State) : Prop extends s.Undebugged where
  noNmi : s.ints.nmiPend = false
  noCheck : s.ints.mcsr &&& 0xF611E03C#32 = 0#32 ∨ s.msr.getLsbD 12 = false
  noCritical : (s.pins.critint = false ∧ (s.tmr.tsr.getLsbD 30 = false ∨ s.tmr.tcr.getLsbD 27 = false)) ∨
    s.msr.getLsbD 17 = false

/-- Nothing at all comes before the instruction at the pc: no External Input, Fixed-Interval Timer or Decrementer interrupt
is pending, and the core does not wait. -/
structure State.Calm (s : State) : Prop extends s.Steady where
  noMasked : (s.pins.extint = false ∧ (s.tmr.tsr.getLsbD 26 = false ∨ s.tmr.tcr.getLsbD 23 = false) ∧
    (s.tmr.tsr.getLsbD 27 = false ∨ s.tmr.tcr.getLsbD 26 = false)) ∨ s.msr.getLsbD 15 = false
  awake : s.pwr.waiting = false

/-- A fetch of `n` bytes that nothing stands in the way of: the instruction cache is off, every byte hits TLB entry `p` and
no other, the page allows it, a VLE page is big-endian, every byte is memory, none answers with a bus error, and no byte is one
that a store has changed and a context synchronizing instruction has not followed (20_memory.md R246). -/
structure PlainFetch (s : State) (n : Nat) (p : TlbEntry) : Prop where
  cacheOff : s.cacheOn .instr = false
  known : s.tlbOpen s.msrIs s.pid = false
  maps : ∀ j, j < n → ∃ i, s.tlbHits s.msrIs s.pid (s.pc + BitVec.ofNat 32 j) = [(i, p)]
  allowed : (p.page s.pc).allows s.user .fetch = true
  order : p.vle = true → p.e = false
  answers : ∀ j, j < n → s.busErr ((p.page s.pc).ra + BitVec.ofNat 32 j) = false
  isRam : ∀ j, j < n → s.onDevice ((p.page s.pc).ra + BitVec.ofNat 32 j) = false
  fresh : ∀ j, j < n → s.buf.olds ((p.page s.pc).ra + BitVec.ofNat 32 j) = []

/-- The `n` instruction bytes at the pc, in the order the decoder takes them: a little-endian Book E page holds them
reversed (92_eei_decisions.md D57). -/
def State.codeBytes (s : State) (n : Nat) (p : TlbEntry) : List Byte := endian p.e (s.mem.bytes (p.page s.pc).ra n)

/-- The state a fetched instruction begins in: the events of the step cleared, the handler's first fetch done, the
instruction's word and page kind noted. -/
def State.fetched (s : State) (vle : Bool) (ir : Word) : State :=
  { s with
    ev := Ev.none
    ints := { s.ints with handlerFetch := false }
    cur := { vle := vle, ir := ir } }

/-- The state after a step that left `t`: the same but for the watchpoints signalled; after a context synchronizing event, which
is an instruction of that kind (`csi`) or an interrupt, nothing is unsynchronized (10_state.md R115), and only the older bytes that
no `msync` has waited for can be fetched (22_cache.md R434). -/
def AfterStep (csi : Bool) (t u : State) : Prop :=
  if csi || !t.ev.ints.isEmpty then u = { t.refetched with ev := u.ev, sync := Sync.none }
  else u = { t with ev := u.ev, sync := { t.sync with new := [] } }

end Sys2Proof.Machine
end

