-- ==== Sys2Proof/Certificates/Slice0/Obligations.lean ====
section
/-! DEFINITION. The statements about this model, for the provers. Each says what instructions or the machine do, in terms of
the numbers and bits of the manual; the vocabulary is in Safety.lean. -/

open Sys2Proof Sys2Proof.Machine

/-- What reset leaves, where the spec gives the value. After reset the pc is the reset vector of the strap p_rstbase,
MSR, XER, SPEFSCR, ESR and MCSR are zero, the reservation is clear, HID0, HID1, BUCSR, TCR, TSR, PID0, the L1 control
registers, the debug control registers and the performance monitor registers are zero, DBSR has only the
most-recent-reset field, PIR holds the core number, and TLB entry 0 is the one valid entry: 4 KB at the reset page,
all six permissions, cache-inhibited, protected. It holds of every strapping of the pins. (R2401, R2402, R2403, R342.) -/
def Obligations.ResetValues : Prop :=
  ∀ p : Pins, let s := State.resetWith p
    s.pc = p.rstbase ++ 0#2 ∧ s.msr = 0#32 ∧ s.xer = 0#32 ∧ s.spefscr = 0#32 ∧ s.ints.esr = 0#32 ∧ s.ints.mcsr = 0#32 ∧
    s.resv = false ∧ s.hid.hid0 = 0#32 ∧ s.hid.hid1 = 0#32 ∧ s.hid.bucsr = 0#32 ∧ s.hid.pir = p.cpuid.zeroExtend 32 ∧
    s.tmr.tcr = 0#32 ∧ s.tmr.tsr = 0#32 ∧ s.mmu.pid0 = 0#32 ∧ s.cache.l1csr0 = 0#32 ∧ s.cache.l1csr1 = 0#32 ∧
    s.cache.l1finv0 = 0#32 ∧ s.cache.l1finv1 = 0#32 ∧ s.cache.hdbcr0 = 0#32 ∧ s.dbg.dbcr0 = 0#32 ∧ s.dbg.dbcr1 = 0#32 ∧
    s.dbg.dbcr2 = 0#32 ∧ s.dbg.dbcr3 = 0#32 ∧ s.dbg.dbcr4 = 0#32 ∧ s.dbg.dbcr5 = 0#32 ∧ s.dbg.dbcr6 = 0#32 ∧
    s.dbg.dbsr = 0x10000000#32 ∧ s.psu.pscr = 0#32 ∧ s.pm.pmgc0 = 0#32 ∧
    (∀ n : Fin 4, s.pm.pmlca.get n = 0#32 ∧ s.pm.pmlcb.get n = 0#32 ∧ s.pm.pmc.get n = 0#32) ∧
    (∀ n : Fin 32, n ≠ 0 → (s.mmu.tlb.get n).v = false) ∧
    (let e := s.mmu.tlb.get 0
     e.v = true ∧ e.iprot = true ∧ e.ts = false ∧ e.tid = 0#8 ∧ e.size = 2#5 ∧ e.epn = p.rstbase.extractLsb' 8 22 ∧
     e.rpn = p.rstbase.extractLsb' 8 22 ∧ e.i = true ∧ e.w = false ∧ e.m = false ∧ e.g = false ∧ e.e = p.rstEndmode ∧
     e.vle = p.rstVlemode ∧ e.ux = true ∧ e.sx = true ∧ e.uw = true ∧ e.sw = true ∧ e.ur = true ∧ e.sr = true)

/-- The state after reset is well formed. After reset, memory has its canonical form and the reserved bits of MSR, XER
and SPEFSCR and the lowest bit of the pc are zero. (That memory lists nothing then, so that every byte reads 0, is the
choice of this model, log entry 10.) (20_memory.md, 10_state.md.) -/
def Obligations.ResetInvariant : Prop :=
  State.reset.mem.wf = true ∧ State.reset.regsWf

/-- Every step keeps the canonical form of memory. For every state whose memory is in canonical form (addresses
strictly rising, no byte listed that equals what an unlisted one reads as), a step that answers a next state leaves it
so. The canonical form is the choice of this model (log entry 10); the byte-addressed memory it represents is that of
20_memory.md R201. (20_memory.md.) -/
def Obligations.StepKeepsMemoryForm : Prop :=
  ∀ s t : State, s.mem.wf = true → step s = .next t → t.mem.wf = true

/-- Every step keeps the reserved register bits zero and the pc even. For every state in which the reserved bits of
MSR, XER and SPEFSCR are zero and the pc is a multiple of 2, a step that answers a next state leaves them so: no
instruction, interrupt, return, input or reset sets a bit that the registers do not implement, or an odd pc. (R62,
R64, R56, R57, R1400.) -/
def Obligations.StepKeepsRegisters : Prop :=
  ∀ s t : State, s.regsWf → step s = .next t → t.regsWf

/-- Decoding the encoding of a well-formed instruction gives it back. For every well-formed instruction and every kind
of page (Book E or VLE) that the instruction may stand on, the decoder reads the bytes of its encoding as that
instruction, and leaves exactly the bytes after it. No operand bit of any of the 528 rows is dropped or mixed with
another. (30_encoding.md, 44_vle.md, R503, R1020, R1021.) -/
def Obligations.EncodeDecode : Prop :=
  ∀ (i : Instr) (vle : Bool) (rest : List Byte), i.wellFormed = true → (pageKind i = none ∨ pageKind i = some vle) →
    decode vle ((encode i).bytes ++ rest) = .ok (i, rest)

/-- Words of the spec decode to the instructions they are examples of. The example words of the spec (addi r3,r0,-1;
addo. r3,r4,r5 on both kinds of page; cmpi 1,0,r4,0; rlwinm r3,r4,8,24,31; lbz r3,3(r4); bl -8; beq +8; crand 2,6,10),
written out as bytes, decode to those instructions with those operands. (R610, R616, R641, R670, R710, R802, R803,
R811.) -/
def Obligations.DecodeWords : Prop :=
  decode false [0x38#8, 0x60#8, 0xFF#8, 0xFF#8] = .ok (.addi 3#5 0#5 0xFFFF#16, []) ∧
    decode false [0x7C#8, 0x64#8, 0x2E#8, 0x15#8] = .ok (.add 3#5 4#5 5#5 true true, []) ∧
    decode false [0x2C#8, 0x84#8, 0x00#8, 0x00#8] = .ok (.cmpi 1#3 4#5 0#16, []) ∧
    decode false [0x54#8, 0x83#8, 0x46#8, 0x3E#8] = .ok (.rlwinm 3#5 4#5 8#5 24#5 31#5 false, []) ∧
    decode false [0x88#8, 0x64#8, 0x00#8, 0x03#8] = .ok (.lbz 3#5 3#16 4#5, []) ∧
    decode false [0x4B#8, 0xFF#8, 0xFF#8, 0xF9#8] = .ok (.b 0xFFFFFE#24 false true, []) ∧
    decode false [0x41#8, 0x82#8, 0x00#8, 0x08#8] = .ok (.bc 12#5 2#5 2#14 false false, []) ∧
    decode false [0x4C#8, 0x46#8, 0x52#8, 0x02#8] = .ok (.crand 2#5 6#5 10#5, []) ∧
    decode true [0x7C#8, 0x64#8, 0x2E#8, 0x15#8] = .ok (.add 3#5 4#5 5#5 true true, [])

/-- A step runs the instruction that stands at the pc. In a state in which no input, interrupt, debug or counter activity comes
first, where the bytes at the pc can be fetched from memory through one TLB entry and decode to an instruction of 2 or 4 bytes
(2 bytes only if no longer one begins so), a step is exec of that instruction on the fetched state: where exec answers a next
state that left the performance monitor as it was, the step answers that state, but for the record of watchpoints, for what it
owes a context synchronizing instruction (nothing after one, or after an interrupt; else what exec left), and for the older
bytes that a fetch may still read, of which such an event leaves those that no msync has waited for (R434); where exec faults,
the step faults. That no fetched byte is one a store has changed without such an event after it is part of the premise (R246;
log entry 32). (R2011, R501, R1020, 92_eei_decisions.md.) -/
def Obligations.StepRunsDecoded : Prop :=
  ∀ (s : State) (p : TlbEntry) (n : Nat) (i : Instr), s.Calm → PlainFetch s n p →
    (p.vle = true ∧ n = 2 ∧ vleLong (BitVec.ofNat 16 (bytesNat (s.codeBytes 2 p))) = false ∨
      p.vle = true ∧ n = 4 ∧ vleLong (BitVec.ofNat 16 (bytesNat (s.codeBytes 2 p))) = true ∨
      p.vle = false ∧ n = 4 ∧ s.pc.getLsbD 1 = false) →
    decode p.vle (s.codeBytes n p) = .ok (i, []) →
    let s' := s.fetched p.vle (bytesWord (s.codeBytes n p) <<< (32 - 8 * n))
    (∀ t, exec i s' = .next t → t.pm = s.pm → ∃ u, step s = .next u ∧ AfterStep (contextSyncs i) t u) ∧
    (∀ f, exec i s' = .fault f → step s = .fault f)

/-- A word that is no instruction takes an Illegal Instruction exception. In the same states as StepRunsDecoded, a word of a
Book E page, or a halfword or a word of a VLE page, that the decoder refuses takes a Program interrupt with ESR[PIL], and
ESR[VLEMI] on a VLE page: SRR0 holds the address of that word and SRR1 the MSR; registers, system state and memory stay (of the
older bytes that a fetch may still read those that no msync has waited for are left). Of the words of primary opcode 4 with an
extended opcode of 0x2E0 to 0x2FF, the EFPU's double-precision operations may, while MSR[SPE] is 0, take the SPE/EFPU
Unavailable interrupt instead (R1156); which words of that range are such operations the spec leaves open (91_not_in_source.md
N21), and the model with it (log entry 63). (R2054, R520, R1028, R1099, R1156, R2799.) -/
def Obligations.StepIllegal : Prop :=
  ∀ (s : State) (p : TlbEntry) (n : Nat) (r : Reject), s.Calm → PlainFetch s n p →
    (p.vle = true ∧ n = 2 ∧ vleLong (BitVec.ofNat 16 (bytesNat (s.codeBytes 2 p))) = false ∨
      p.vle = true ∧ n = 4 ∧ vleLong (BitVec.ofNat 16 (bytesNat (s.codeBytes 2 p))) = true ∨
      p.vle = false ∧ n = 4 ∧ s.pc.getLsbD 1 = false) →
    decode p.vle (s.codeBytes n p) = .error r →
    let w := bytesWord (s.codeBytes n p) <<< (32 - 8 * n)
    let vlemi : Word := if p.vle then 0x20#32 else 0#32
    let takes : IntType → Word → State → Prop := fun ty esr t =>
      TakesNonCritical ty s.pc (esr ||| vlemi) s.refetched t ∧ t.ints.dear = s.ints.dear ∧ t.mmu = s.mmu
    ∃ t, step s = .next t ∧ (takes .program 0x08000000#32 t ∨
      s.msr.getLsbD 25 = false ∧ w.extractLsb' 26 6 = 4#6 ∧ w.extractLsb' 5 6 = 0x17#6 ∧ takes .speUnavailable 0x80#32 t)

/-- The adding instructions of Book E: sum, carry, overflow, CR0, frame. addi, addis, addic, addic., add, addc, adde,
addme, addze, each for every operand and every OE and Rc: the low word of the destination is the sum (RA = 0 reads as
zero in addi and addis alone), CA is the carry out of the exact unsigned sum, OV (and SO with it) says that the exact
signed sum does not fit a word, CR0 is recorded from the result and the new SO; every other register, flag, the high
word of the destination, all system state and every byte of memory stay. (R610, R611, R612, R613, R616, R617, R618,
R619, R620, R59.) -/
def Obligations.Additions : Prop :=
  ∀ (s : State) (rt ra rb : Gpr) (si : BitVec 16) (oe rc : Bool),
    let a := s.gprW ra
    let b := s.gprW rb
    let i := si.signExtend 32
    let c := s.xer.getLsbD 29
    Runs (.addi rt ra si) s (IntResult 4 rt ((if ra = 0#5 then 0#32 else s.gprW ra) + i) none none false s) ∧
    Runs (.addis rt ra si) s (IntResult 4 rt ((if ra = 0#5 then 0#32 else s.gprW ra) + (si ++ 0#16)) none none false s) ∧
    Runs (.addic rt ra si) s (IntResult 4 rt (a + i) (some (decide (2 ^ 32 ≤ a.toNat + i.toNat))) none false s) ∧
    Runs (.addicDot rt ra si) s (IntResult 4 rt (a + i) (some (decide (2 ^ 32 ≤ a.toNat + i.toNat))) none true s) ∧
    Runs (.add rt ra rb oe rc) s (IntResult 4 rt (a + b) none (if oe then some (noFit (a.toInt + b.toInt)) else none) rc s) ∧
    Runs (.addc rt ra rb oe rc) s (IntResult 4 rt (a + b) (some (decide (2 ^ 32 ≤ a.toNat + b.toNat))) (if oe then some (noFit (a.toInt + b.toInt)) else none) rc s) ∧
    Runs (.adde rt ra rb oe rc) s (IntResult 4 rt (a + b + BitVec.ofInt 32 (one c)) (some (decide (2 ^ 32 ≤ a.toNat + b.toNat + one c))) (if oe then some (noFit (a.toInt + b.toInt + one c)) else none) rc s) ∧
    Runs (.addme rt ra oe rc) s (IntResult 4 rt (a - 1#32 + BitVec.ofInt 32 (one c)) (some (decide (a ≠ 0#32 ∨ c = true))) (if oe then some (noFit (a.toInt - 1 + one c)) else none) rc s) ∧
    Runs (.addze rt ra oe rc) s (IntResult 4 rt (a + BitVec.ofInt 32 (one c)) (some (decide (a = 0xFFFFFFFF#32 ∧ c = true))) (if oe then some (noFit (a.toInt + one c)) else none) rc s)

/-- The subtracting instructions of Book E: difference, carry, overflow, CR0, frame. subfic, subf, subfc, subfe,
subfme, subfze, neg, each for every operand and every OE and Rc: the low word of the destination is the difference, CA
says that no borrow occurs, OV (and SO with it) that the exact signed difference does not fit a word, CR0 is recorded
from the result and the new SO; all else stays. (R614, R621, R622, R623, R624, R625, R626, R59.) -/
def Obligations.Subtractions : Prop :=
  ∀ (s : State) (rt ra rb : Gpr) (si : BitVec 16) (oe rc : Bool),
    let a := s.gprW ra
    let b := s.gprW rb
    let i := si.signExtend 32
    let c := s.xer.getLsbD 29
    Runs (.subfic rt ra si) s (IntResult 4 rt (i - a) (some (decide (a.toNat ≤ i.toNat))) none false s) ∧
    Runs (.subf rt ra rb oe rc) s (IntResult 4 rt (b - a) none (if oe then some (noFit (b.toInt - a.toInt)) else none) rc s) ∧
    Runs (.subfc rt ra rb oe rc) s (IntResult 4 rt (b - a) (some (decide (a.toNat ≤ b.toNat))) (if oe then some (noFit (b.toInt - a.toInt)) else none) rc s) ∧
    Runs (.subfe rt ra rb oe rc) s (IntResult 4 rt (b - a - 1#32 + BitVec.ofInt 32 (one c)) (some (decide (a.toNat + 1 ≤ b.toNat + one c))) (if oe then some (noFit (b.toInt - a.toInt - 1 + one c)) else none) rc s) ∧
    Runs (.subfme rt ra oe rc) s (IntResult 4 rt (0xFFFFFFFE#32 - a + BitVec.ofInt 32 (one c)) (some (decide (a ≠ 0xFFFFFFFF#32 ∨ c = true))) (if oe then some (noFit (-a.toInt - 2 + one c)) else none) rc s) ∧
    Runs (.subfze rt ra oe rc) s (IntResult 4 rt (0xFFFFFFFF#32 - a + BitVec.ofInt 32 (one c)) (some (decide (a = 0#32 ∧ c = true))) (if oe then some (noFit (-a.toInt - 1 + one c)) else none) rc s) ∧
    Runs (.neg rt ra oe rc) s (IntResult 4 rt (0#32 - a) none (if oe then some (noFit (-a.toInt)) else none) rc s)

/-- The multiplying and dividing instructions of Book E: product, quotient, the open cases, overflow, CR0, frame. mulli, mullw, mulhw,
mulhwu for every operand and every OE and Rc: the low or the high word of the exact signed or unsigned product; OV (and
SO) of mullw say that the signed product does not fit a word. divw and divwu: where the divisor is not zero (and, signed,
the quotient is not 2^31), the result is the quotient truncated toward zero and an OE form clears OV. Otherwise the
instruction completes too: the spec leaves the result and LT, GT, EQ open, and the statement says nothing of them; an OE
form sets OV and SO, CR0[SO] is the new SO. CR0 is recorded from the result; all else stays. (R615, R627, R628, R629, R630,
R631.) -/
def Obligations.MultiplyDivide : Prop :=
  ∀ (s : State) (rt ra rb : Gpr) (si : BitVec 16) (oe rc : Bool),
    let a := s.gprW ra
    let b := s.gprW rb
    Runs (.mulli rt ra si) s (IntResult 4 rt (BitVec.ofInt 32 (a.toInt * si.toInt)) none none false s) ∧
    Runs (.mullw rt ra rb oe rc) s (IntResult 4 rt (BitVec.ofInt 32 (a.toInt * b.toInt)) none (if oe then some (noFit (a.toInt * b.toInt)) else none) rc s) ∧
    Runs (.mulhw rt ra rb rc) s (IntResult 4 rt (BitVec.ofInt 32 (a.toInt * b.toInt / 2 ^ 32)) none none rc s) ∧
    Runs (.mulhwu rt ra rb rc) s (IntResult 4 rt (BitVec.ofNat 32 (a.toNat * b.toNat / 2 ^ 32)) none none rc s) ∧
    (b ≠ 0#32 → ¬(a = 0x80000000#32 ∧ b = 0xFFFFFFFF#32) →
      Runs (.divw rt ra rb oe rc) s (IntResult 4 rt (BitVec.ofInt 32 (a.toInt.tdiv b.toInt)) none (if oe then some (false) else none) rc s)) ∧
    (b ≠ 0#32 → Runs (.divwu rt ra rb oe rc) s (IntResult 4 rt (BitVec.ofNat 32 (a.toNat / b.toNat)) none (if oe then some (false) else none) rc s)) ∧
    (b = 0#32 ∨ a = 0x80000000#32 ∧ b = 0xFFFFFFFF#32 →
      Runs (.divw rt ra rb oe rc) s fun t => t.gprH rt = s.gprH rt ∧ SameGprsBut rt s t ∧ Past 4 s t ∧ XerAfter none (if oe then some true else none) s t ∧
        SameCrBut 0#3 s t ∧ (rc = true → (crField t.cr 0#3).getLsbD 0 = t.xer.getLsbD 31) ∧ (rc = false → t.cr = s.cr) ∧
        SameLinks s t ∧ SameSystem s t) ∧
    (b = 0#32 →
      Runs (.divwu rt ra rb oe rc) s fun t => t.gprH rt = s.gprH rt ∧ SameGprsBut rt s t ∧ Past 4 s t ∧ XerAfter none (if oe then some true else none) s t ∧
        SameCrBut 0#3 s t ∧ (rc = true → (crField t.cr 0#3).getLsbD 0 = t.xer.getLsbD 31) ∧ (rc = false → t.cr = s.cr) ∧
        SameLinks s t ∧ SameSystem s t)

/-- The logical instructions of Book E: result, CR0, frame. andi., andis., ori, oris, xori, xoris, and, andc, or, orc,
xor, nand, nor, eqv, extsb, extsh, cntlzw for every operand and every Rc: the result in the low word of RA, CR0
recorded in the record forms; cntlzw is the number of leading zeros; all else stays. (R651, R652, R653, R654, R655,
R656, R657, R658, R660, R665, R666, R667.) -/
def Obligations.Logical : Prop :=
  ∀ (s : State) (ra rs rb : Gpr) (ui : BitVec 16) (rc : Bool),
    let x := s.gprW rs
    let y := s.gprW rb
    Runs (.andiDot ra rs ui) s (IntResult 4 ra (x &&& ui.zeroExtend 32) none none true s) ∧
    Runs (.andisDot ra rs ui) s (IntResult 4 ra (x &&& (ui ++ 0#16)) none none true s) ∧
    Runs (.ori ra rs ui) s (IntResult 4 ra (x ||| ui.zeroExtend 32) none none false s) ∧
    Runs (.oris ra rs ui) s (IntResult 4 ra (x ||| (ui ++ 0#16)) none none false s) ∧
    Runs (.xori ra rs ui) s (IntResult 4 ra (x ^^^ ui.zeroExtend 32) none none false s) ∧
    Runs (.xoris ra rs ui) s (IntResult 4 ra (x ^^^ (ui ++ 0#16)) none none false s) ∧
    Runs (.and ra rs rb rc) s (IntResult 4 ra (x &&& y) none none rc s) ∧
    Runs (.andc ra rs rb rc) s (IntResult 4 ra (x &&& ~~~y) none none rc s) ∧
    Runs (.or ra rs rb rc) s (IntResult 4 ra (x ||| y) none none rc s) ∧
    Runs (.orc ra rs rb rc) s (IntResult 4 ra (x ||| ~~~y) none none rc s) ∧
    Runs (.xor ra rs rb rc) s (IntResult 4 ra (x ^^^ y) none none rc s) ∧
    Runs (.nand ra rs rb rc) s (IntResult 4 ra (~~~(x &&& y)) none none rc s) ∧
    Runs (.nor ra rs rb rc) s (IntResult 4 ra (~~~(x ||| y)) none none rc s) ∧
    Runs (.eqv ra rs rb rc) s (IntResult 4 ra (~~~(x ^^^ y)) none none rc s) ∧
    Runs (.extsb ra rs rc) s (IntResult 4 ra ((x.extractLsb' 0 8).signExtend 32) none none rc s) ∧
    Runs (.extsh ra rs rc) s (IntResult 4 ra ((x.extractLsb' 0 16).signExtend 32) none none rc s) ∧
    (∃ n, LeadingZeros x n ∧ Runs (.cntlzw ra rs rc) s (IntResult 4 ra (BitVec.ofNat 32 n) none none rc s))

/-- The rotates and shifts of Book E: result bit by bit or as a number, carry, CR0, frame. rlwinm, rlwimi, rlwnm: bit
j of the result is bit j + n (modulo 32) of the source where the mask from MB to ME, which may wrap, covers j, and
otherwise 0 (rlwimi: the bit of RA). slw, srw, sraw with the amount modulo 64, srawi: the exact product or quotient by
the power of two, rounded down; sraw and srawi set CA exactly if the number is negative and a 1 was shifted out.
Record forms write CR0; all else stays. (R670, R671, R672, R673, R674, R675, R676, R601.) -/
def Obligations.RotatesShifts : Prop :=
  ∀ (s : State) (ra rs rb : Gpr) (sh mb me : BitVec 5) (rc : Bool),
    let x := s.gprW rs
    let n := (s.gprW rb).toNat % 64
    (∃ v, (∀ j, j < 32 → v.getMsbD j = if underMask mb me j then x.getMsbD ((j + sh.toNat) % 32) else false) ∧
      Runs (.rlwinm ra rs sh mb me rc) s (IntResult 4 ra v none none rc s)) ∧
    (∃ v, (∀ j, j < 32 → v.getMsbD j = if underMask mb me j then x.getMsbD ((j + sh.toNat) % 32) else (s.gprW ra).getMsbD j) ∧
      Runs (.rlwimi ra rs sh mb me rc) s (IntResult 4 ra v none none rc s)) ∧
    (∃ v, (∀ j, j < 32 → v.getMsbD j = if underMask mb me j then x.getMsbD ((j + (s.gprW rb).toNat % 32) % 32) else false) ∧
      Runs (.rlwnm ra rs rb mb me rc) s (IntResult 4 ra v none none rc s)) ∧
    Runs (.slw ra rs rb rc) s (IntResult 4 ra (BitVec.ofNat 32 (x.toNat * 2 ^ n)) none none rc s) ∧
    Runs (.srw ra rs rb rc) s (IntResult 4 ra (BitVec.ofNat 32 (x.toNat / 2 ^ n)) none none rc s) ∧
    Runs (.sraw ra rs rb rc) s (IntResult 4 ra (BitVec.ofInt 32 (x.toInt / 2 ^ n)) (some (decide (x.toInt < 0 ∧ x.toNat % 2 ^ n ≠ 0))) none rc s) ∧
    Runs (.srawi ra rs sh rc) s (IntResult 4 ra (BitVec.ofInt 32 (x.toInt / 2 ^ sh.toNat)) (some (decide (x.toInt < 0 ∧ x.toNat % 2 ^ sh.toNat ≠ 0))) none rc s)

/-- The compares of Book E and VLE: order of words, halfwords and immediates in CR, frame. cmpi, cmp, cmpli, cmpl, se_cmp,
se_cmpl, se_cmph, se_cmphl, se_cmpli, se_cmpi, se_btsti, e_cmpi, e_cmpli, e_cmp16i, e_cmpl16i, e_cmph16i, e_cmphl16i,
e_cmph, e_cmphl for every operand: the CR field holds the order of the operands, signed or unsigned, and XER[SO]
(se_btsti: GT if the bit is 1, EQ if it is 0); the halfword forms look at the low halfwords alone; no other CR field,
register, system state or byte of memory changes. The SCI8 immediate is given byte by byte. (R641 to R644 of
40_base_integer.md; R1057 to R1060, R1068, R1070, R1076, R2720, R2721, R2732, R2733, R2743 of 44_vle.md.) -/
def Obligations.Compares : Prop :=
  ∀ (s : State) (rx ry : Gpr) (f : CrField) (crf : BitVec 2) (fill : Bool) (scl : BitVec 2) (ui8 : BitVec 8) (i : BitVec 16)
    (oimm : BitVec 6) (ui5 : BitVec 5),
    let x := s.gprW rx
    let y := s.gprW ry
    let hx := x.extractLsb' 0 16
    let hy := y.extractLsb' 0 16
    let so := s.xer.getLsbD 31
    Runs (.seCmp rx ry) s (CrResult 2 0#3 (decide (x.toInt < y.toInt)) (decide (y.toInt < x.toInt)) (decide (x = y)) so s) ∧
    Runs (.seCmpl rx ry) s (CrResult 2 0#3 (decide (x.toNat < y.toNat)) (decide (y.toNat < x.toNat)) (decide (x = y)) so s) ∧
    Runs (.seCmph rx ry) s (CrResult 2 0#3 (decide (hx.toInt < hy.toInt)) (decide (hy.toInt < hx.toInt)) (decide (hx = hy)) so s) ∧
    Runs (.seCmphl rx ry) s (CrResult 2 0#3 (decide (hx.toNat < hy.toNat)) (decide (hy.toNat < hx.toNat)) (decide (hx = hy)) so s) ∧
    Runs (.seCmpli rx oimm) s (CrResult 2 0#3 (decide (x.toNat < (oimm.zeroExtend 32).toNat)) (decide ((oimm.zeroExtend 32).toNat < x.toNat)) (decide (x = (oimm.zeroExtend 32))) so s) ∧
    Runs (.seCmpi rx ui5) s (CrResult 2 0#3 (decide (x.toInt < (ui5.zeroExtend 32).toInt)) (decide ((ui5.zeroExtend 32).toInt < x.toInt)) (decide (x = (ui5.zeroExtend 32))) so s) ∧
    Runs (.seBtsti rx ui5) s (CrResult 2 0#3 false (x.getMsbD ui5.toNat) (!x.getMsbD ui5.toNat) so s) ∧
    (∀ v, IsSci8 fill scl ui8 v →
      Runs (.eCmpi crf rx fill scl ui8) s (CrResult 4 (crf.zeroExtend 3) (decide (x.toInt < v.toInt)) (decide (v.toInt < x.toInt)) (decide (x = v)) so s) ∧
      Runs (.eCmpli crf rx fill scl ui8) s (CrResult 4 (crf.zeroExtend 3) (decide (x.toNat < v.toNat)) (decide (v.toNat < x.toNat)) (decide (x = v)) so s)) ∧
    Runs (.eCmp16i rx i) s (CrResult 4 0#3 (decide (x.toInt < (i.signExtend 32).toInt)) (decide ((i.signExtend 32).toInt < x.toInt)) (decide (x = (i.signExtend 32))) so s) ∧
    Runs (.eCmpl16i rx i) s (CrResult 4 0#3 (decide (x.toNat < (i.zeroExtend 32).toNat)) (decide ((i.zeroExtend 32).toNat < x.toNat)) (decide (x = (i.zeroExtend 32))) so s) ∧
    Runs (.eCmph16i rx i) s (CrResult 4 0#3 (decide (hx.toInt < i.toInt)) (decide (i.toInt < hx.toInt)) (decide (hx = i)) so s) ∧
    Runs (.eCmphl16i rx i) s (CrResult 4 0#3 (decide (hx.toNat < i.toNat)) (decide (i.toNat < hx.toNat)) (decide (hx = i)) so s) ∧
    Runs (.eCmph f rx ry) s (CrResult 4 f (decide (hx.toInt < hy.toInt)) (decide (hy.toInt < hx.toInt)) (decide (hx = hy)) so s) ∧
    Runs (.eCmphl f rx ry) s (CrResult 4 f (decide (hx.toNat < hy.toNat)) (decide (hy.toNat < hx.toNat)) (decide (hx = hy)) so s) ∧
    Runs (.cmpi f rx i) s (CrResult 4 f (decide (x.toInt < (i.signExtend 32).toInt)) (decide ((i.signExtend 32).toInt < x.toInt)) (decide (x = (i.signExtend 32))) so s) ∧
    Runs (.cmp f rx ry) s (CrResult 4 f (decide (x.toInt < y.toInt)) (decide (y.toInt < x.toInt)) (decide (x = y)) so s) ∧
    Runs (.cmpli f rx i) s (CrResult 4 f (decide (x.toNat < (i.zeroExtend 32).toNat)) (decide ((i.zeroExtend 32).toNat < x.toNat)) (decide (x = (i.zeroExtend 32))) so s) ∧
    Runs (.cmpl f rx ry) s (CrResult 4 f (decide (x.toNat < y.toNat)) (decide (y.toNat < x.toNat)) (decide (x = y)) so s)

/-- The arithmetic instructions of VLE: result, carry, CR0, frame. se_add, se_sub, se_subf, se_mullw, se_neg, se_addi,
se_subi (both forms), e_add16i, e_addi, e_addic, e_subfic, e_mulli, e_add2i., e_add2is, e_mull2i for every operand:
the result in the low word of the destination, CA where the instruction writes it, CR0 in the record forms; all else
stays. (R1053, R1054, R1055, R1056, R1067, R1069, R2707, R2717, R2718, R2719, R2722, R2727.) -/
def Obligations.VleArithmetic : Prop :=
  ∀ (s : State) (rx ry : Gpr) (fill : Bool) (scl : BitVec 2) (ui8 : BitVec 8) (i : BitVec 16) (oimm : BitVec 6) (rc : Bool),
    let x := s.gprW rx
    let y := s.gprW ry
    Runs (.seAdd rx ry) s (IntResult 2 rx (x + y) none none false s) ∧
    Runs (.seSub rx ry) s (IntResult 2 rx (x - y) none none false s) ∧
    Runs (.seSubf rx ry) s (IntResult 2 rx (y - x) none none false s) ∧
    Runs (.seMullw rx ry) s (IntResult 2 rx (BitVec.ofInt 32 (x.toInt * y.toInt)) none none false s) ∧
    Runs (.seNeg rx) s (IntResult 2 rx (0#32 - x) none none false s) ∧
    Runs (.seAddi rx oimm) s (IntResult 2 rx (x + oimm.zeroExtend 32) none none false s) ∧
    Runs (.seSubi rx oimm rc) s (IntResult 2 rx (x - oimm.zeroExtend 32) none none rc s) ∧
    Runs (.eAdd16i rx ry i) s (IntResult 4 rx (y + i.signExtend 32) none none false s) ∧
    (∀ v, IsSci8 fill scl ui8 v →
      Runs (.eAddi rx ry fill scl ui8 rc) s (IntResult 4 rx (y + v) none none rc s) ∧
      Runs (.eAddic rx ry fill scl ui8 rc) s (IntResult 4 rx (y + v) (some (decide (2 ^ 32 ≤ y.toNat + v.toNat))) none rc s) ∧
      Runs (.eSubfic rx ry fill scl ui8 rc) s (IntResult 4 rx (v - y) (some (decide (y.toNat ≤ v.toNat))) none rc s) ∧
      Runs (.eMulli rx ry fill scl ui8) s (IntResult 4 rx (BitVec.ofInt 32 (y.toInt * v.toInt)) none none false s)) ∧
    Runs (.eAdd2iDot rx i) s (IntResult 4 rx (x + i.signExtend 32) none none true s) ∧
    Runs (.eAdd2is rx i) s (IntResult 4 rx (x + (i ++ 0#16)) none none false s) ∧
    Runs (.eMull2i rx i) s (IntResult 4 rx (BitVec.ofInt 32 (x.toInt * i.toInt)) none none false s)

/-- The logical instructions of VLE: result, CR0, frame. se_or, se_andc, se_and (both forms), se_not, se_andi,
se_bclri, se_bgeni, se_bseti, se_bmaski, se_extzb, se_extsb, se_extzh, se_extsh, e_andi, e_ori, e_xori, e_or2i,
e_or2is, e_and2i., e_and2is. for every operand: the result in the low word of the destination, CR0 in the record
forms; all else stays. A bit immediate n names the bit n places below the most significant one. (R1064, R1066, R1071,
R1072, R1073, R1074, R1075, R2723, R2724, R2725, R2734, R2735.) -/
def Obligations.VleLogic : Prop :=
  ∀ (s : State) (rx ry : Gpr) (fill : Bool) (scl : BitVec 2) (ui8 : BitVec 8) (i : BitVec 16) (ui5 : BitVec 5) (rc : Bool),
    let x := s.gprW rx
    let y := s.gprW ry
    Runs (.seOr rx ry) s (IntResult 2 rx (x ||| y) none none false s) ∧
    Runs (.seAndc rx ry) s (IntResult 2 rx (x &&& ~~~y) none none false s) ∧
    Runs (.seAnd rx ry rc) s (IntResult 2 rx (x &&& y) none none rc s) ∧
    Runs (.seNot rx) s (IntResult 2 rx (~~~x) none none false s) ∧
    Runs (.seAndi rx ui5) s (IntResult 2 rx (x &&& ui5.zeroExtend 32) none none false s) ∧
    Runs (.seBclri rx ui5) s (IntResult 2 rx (x &&& ~~~BitVec.twoPow 32 (31 - ui5.toNat)) none none false s) ∧
    Runs (.seBgeni rx ui5) s (IntResult 2 rx (BitVec.twoPow 32 (31 - ui5.toNat)) none none false s) ∧
    Runs (.seBseti rx ui5) s (IntResult 2 rx (x ||| BitVec.twoPow 32 (31 - ui5.toNat)) none none false s) ∧
    Runs (.seBmaski rx ui5) s (IntResult 2 rx (BitVec.ofNat 32 (2 ^ (if ui5 = 0#5 then 32 else ui5.toNat) - 1)) none none false s) ∧
    Runs (.seExtzb rx) s (IntResult 2 rx ((x.extractLsb' 0 8).zeroExtend 32) none none false s) ∧
    Runs (.seExtsb rx) s (IntResult 2 rx ((x.extractLsb' 0 8).signExtend 32) none none false s) ∧
    Runs (.seExtzh rx) s (IntResult 2 rx ((x.extractLsb' 0 16).zeroExtend 32) none none false s) ∧
    Runs (.seExtsh rx) s (IntResult 2 rx ((x.extractLsb' 0 16).signExtend 32) none none false s) ∧
    (∀ v, IsSci8 fill scl ui8 v →
      Runs (.eAndi rx ry fill scl ui8 rc) s (IntResult 4 rx (y &&& v) none none rc s) ∧
      Runs (.eOri rx ry fill scl ui8 rc) s (IntResult 4 rx (y ||| v) none none rc s) ∧
      Runs (.eXori rx ry fill scl ui8 rc) s (IntResult 4 rx (y ^^^ v) none none rc s)) ∧
    Runs (.eOr2i rx i) s (IntResult 4 rx (x ||| i.zeroExtend 32) none none false s) ∧
    Runs (.eOr2is rx i) s (IntResult 4 rx (x ||| (i ++ 0#16)) none none false s) ∧
    Runs (.eAnd2iDot rx i) s (IntResult 4 rx (x &&& i.zeroExtend 32) none none true s) ∧
    Runs (.eAnd2isDot rx i) s (IntResult 4 rx (x &&& (i ++ 0#16)) none none true s)

/-- The moves, immediate loads, rotates and shifts of VLE: result, carry, CR0, frame. se_mr, se_mtar, se_mfar,
se_mflr, se_mfctr, se_mtlr, se_mtctr, se_li, e_li, e_lis, se_srw, se_slw, se_sraw, se_srwi, se_slwi, se_srawi, e_rlw,
e_rlwi, e_slwi, e_srwi, e_rlwimi, e_rlwinm for every operand: the result as a number or bit by bit, CA of the
algebraic right shifts, CR0 in the record forms; se_mtlr and se_mtctr change LR or CTR alone; all else stays. (R1042,
R1043, R1044, R1045, R1050, R1062, R1078, R1080, R2726, R2739, R2740, R2755.) -/
def Obligations.VleMovesShifts : Prop :=
  ∀ (s : State) (rx ry rb : Gpr) (ui7 : BitVec 7) (li20 : BitVec 20) (ui : BitVec 16) (sh mb me : BitVec 5) (rc : Bool),
    let d := s.gprW rx
    let x := s.gprW ry
    let n := (s.gprW ry).toNat % 64
    Runs (.seMr rx ry) s (IntResult 2 rx x none none false s) ∧
    Runs (.seMtar rx ry) s (IntResult 2 rx x none none false s) ∧
    Runs (.seMfar rx ry) s (IntResult 2 rx x none none false s) ∧
    Runs (.seMflr rx) s (IntResult 2 rx s.lr none none false s) ∧
    Runs (.seMfctr rx) s (IntResult 2 rx s.ctr none none false s) ∧
    (Runs (.seMtlr rx) s fun t => Past 2 s t ∧ SameGprs s t ∧ t.cr = s.cr ∧ t.xer = s.xer ∧ t.lr = d ∧ t.ctr = s.ctr ∧ t.acc = s.acc ∧ t.spefscr = s.spefscr ∧ SameSystem s t) ∧
    (Runs (.seMtctr rx) s fun t => Past 2 s t ∧ SameGprs s t ∧ t.cr = s.cr ∧ t.xer = s.xer ∧ t.ctr = d ∧ t.lr = s.lr ∧ t.acc = s.acc ∧ t.spefscr = s.spefscr ∧ SameSystem s t) ∧
    Runs (.seLi rx ui7) s (IntResult 2 rx (ui7.zeroExtend 32) none none false s) ∧
    Runs (.eLi rx li20) s (IntResult 4 rx (li20.signExtend 32) none none false s) ∧
    Runs (.eLis rx ui) s (IntResult 4 rx (ui ++ 0#16) none none false s) ∧
    Runs (.seSrw rx ry) s (IntResult 2 rx (BitVec.ofNat 32 (d.toNat / 2 ^ n)) none none false s) ∧
    Runs (.seSlw rx ry) s (IntResult 2 rx (BitVec.ofNat 32 (d.toNat * 2 ^ n)) none none false s) ∧
    Runs (.seSraw rx ry) s (IntResult 2 rx (BitVec.ofInt 32 (d.toInt / 2 ^ n)) (some (decide (d.toInt < 0 ∧ d.toNat % 2 ^ n ≠ 0))) none false s) ∧
    Runs (.seSrwi rx sh) s (IntResult 2 rx (BitVec.ofNat 32 (d.toNat / 2 ^ sh.toNat)) none none false s) ∧
    Runs (.seSlwi rx sh) s (IntResult 2 rx (BitVec.ofNat 32 (d.toNat * 2 ^ sh.toNat)) none none false s) ∧
    Runs (.seSrawi rx sh) s (IntResult 2 rx (BitVec.ofInt 32 (d.toInt / 2 ^ sh.toNat)) (some (decide (d.toInt < 0 ∧ d.toNat % 2 ^ sh.toNat ≠ 0))) none false s) ∧
    (∃ v, (∀ j, j < 32 → v.getMsbD j = x.getMsbD ((j + (s.gprW rb).toNat % 32) % 32)) ∧
      Runs (.eRlw rx ry rb rc) s (IntResult 4 rx v none none rc s)) ∧
    (∃ v, (∀ j, j < 32 → v.getMsbD j = x.getMsbD ((j + sh.toNat) % 32)) ∧
      Runs (.eRlwi rx ry sh rc) s (IntResult 4 rx v none none rc s)) ∧
    Runs (.eSlwi rx ry sh rc) s (IntResult 4 rx (BitVec.ofNat 32 (x.toNat * 2 ^ sh.toNat)) none none rc s) ∧
    Runs (.eSrwi rx ry sh rc) s (IntResult 4 rx (BitVec.ofNat 32 (x.toNat / 2 ^ sh.toNat)) none none rc s) ∧
    (∃ v, (∀ j, j < 32 → v.getMsbD j = if underMask mb me j then x.getMsbD ((j + sh.toNat) % 32) else d.getMsbD j) ∧
      Runs (.eRlwimi rx ry sh mb me) s (IntResult 4 rx v none none false s)) ∧
    (∃ v, (∀ j, j < 32 → v.getMsbD j = if underMask mb me j then x.getMsbD ((j + sh.toNat) % 32) else false) ∧
      Runs (.eRlwinm rx ry sh mb me) s (IntResult 4 rx v none none false s))

/-- The instructions on CR of Book E and VLE, and isel: result, frame. crand, crandc, creqv, crnand, crnor, cror, crorc,
crxor and their e_ forms for every operand: the destination bit is the operation on the two source bits as they were
before. mcrf, e_mcrf copy a field; mcrxr moves SO, OV, CA and a 0 to the field and clears them in XER; mfcr copies CR;
mtcrf writes the fields its mask selects, bit 0 the most significant; isel selects RA (zero where RA is 0) or RB by a
CR bit. The other bits of CR, every register, all system state and every byte of memory stay. (R810 to R822 of
42_base_branch_cr_system.md; R901 of 43_apu_misc.md; R2745, R2746, R2748, R2751, R2753 of 44_vle.md.) -/
def Obligations.CrInstructions : Prop :=
  ∀ (s : State) (bt ba bb : CrBit) (f g : CrField) (rt ra rb : Gpr) (fxm : BitVec 8) (n : CrBit),
    let x := crBit s.cr ba
    let y := crBit s.cr bb
    Runs (.crand bt ba bb) s (CrAfter 4 (fun n => if n = bt then x && y else crBit s.cr n) s) ∧
    Runs (.eCrand bt ba bb) s (CrAfter 4 (fun n => if n = bt then x && y else crBit s.cr n) s) ∧
    Runs (.crandc bt ba bb) s (CrAfter 4 (fun n => if n = bt then x && !y else crBit s.cr n) s) ∧
    Runs (.eCrandc bt ba bb) s (CrAfter 4 (fun n => if n = bt then x && !y else crBit s.cr n) s) ∧
    Runs (.creqv bt ba bb) s (CrAfter 4 (fun n => if n = bt then x == y else crBit s.cr n) s) ∧
    Runs (.eCreqv bt ba bb) s (CrAfter 4 (fun n => if n = bt then x == y else crBit s.cr n) s) ∧
    Runs (.crnand bt ba bb) s (CrAfter 4 (fun n => if n = bt then !(x && y) else crBit s.cr n) s) ∧
    Runs (.eCrnand bt ba bb) s (CrAfter 4 (fun n => if n = bt then !(x && y) else crBit s.cr n) s) ∧
    Runs (.crnor bt ba bb) s (CrAfter 4 (fun n => if n = bt then !(x || y) else crBit s.cr n) s) ∧
    Runs (.eCrnor bt ba bb) s (CrAfter 4 (fun n => if n = bt then !(x || y) else crBit s.cr n) s) ∧
    Runs (.cror bt ba bb) s (CrAfter 4 (fun n => if n = bt then x || y else crBit s.cr n) s) ∧
    Runs (.eCror bt ba bb) s (CrAfter 4 (fun n => if n = bt then x || y else crBit s.cr n) s) ∧
    Runs (.crorc bt ba bb) s (CrAfter 4 (fun n => if n = bt then x || !y else crBit s.cr n) s) ∧
    Runs (.eCrorc bt ba bb) s (CrAfter 4 (fun n => if n = bt then x || !y else crBit s.cr n) s) ∧
    Runs (.crxor bt ba bb) s (CrAfter 4 (fun n => if n = bt then x != y else crBit s.cr n) s) ∧
    Runs (.eCrxor bt ba bb) s (CrAfter 4 (fun n => if n = bt then x != y else crBit s.cr n) s) ∧
    Runs (.mcrf f g) s (CrFieldIs 4 f (crField s.cr g) s) ∧
    Runs (.eMcrf f g) s (CrFieldIs 4 f (crField s.cr g) s) ∧
    (Runs (.mcrxr f) s fun t => crField t.cr f = s.xer.extractLsb' 28 4 ∧ SameCrBut f s t ∧ t.xer = s.xer &&& 0x0FFFFFFF#32 ∧
      SameGprs s t ∧ Past 4 s t ∧ SameLinks s t ∧ SameSystem s t) ∧
    Runs (.mfcr rt) s (IntResult 4 rt s.cr none none false s) ∧
    Runs (.mtcrf fxm ra) s (CrAfter 4 (fun k => if fxm.getMsbD (k.toNat / 4) then crBit (s.gprW ra) k else crBit s.cr k) s) ∧
    Runs (.isel rt ra rb n) s (IntResult 4 rt (if crBit s.cr n then (if ra = 0#5 then 0#32 else s.gprW ra) else s.gprW rb) none none false s)

/-- The branches of Book E and VLE: condition, target, link, count, frame. b, bc, bclr, bcctr in all their forms: a branch
under BO decrements CTR unless BO[2] is set, and is taken exactly if BO[2] or CTR (after the decrement) is nonzero xor
BO[3], and BO[0] or the CR bit equals BO[1]. se_b, se_bc, se_blr, se_bctr, e_b, e_bc in all their forms: e_bc with BO32
2 and 3 decrements CTR and is taken if it is then nonzero or zero; otherwise the CR bit decides. The target is relative
or absolute, or bits 0 to 30 of LR or CTR as they were before; LR is written in the link forms, taken or not, with the
address after the branch; nothing else changes. (R800, R801, R802, R803, R804, R805, R1033, R1034, R1087, R1088, R2741,
R2742.) -/
def Obligations.Branches : Prop :=
  ∀ (s : State) (li : BitVec 24) (bo : BitVec 5) (bi : CrBit) (bd : BitVec 14) (aa lk : Bool) (bd8 : BitVec 8)
    (bo16 : Bool) (bi16 : BitVec 2) (bd24 : BitVec 24) (bi32 : BitVec 4) (bd15 : BitVec 15),
    let ctr := if bo.getMsbD 2 then s.ctr else s.ctr - 1#32
    let taken := (bo.getMsbD 2 || ((ctr != 0#32) != bo.getMsbD 3)) && (bo.getMsbD 0 || (crBit s.cr bi == bo.getMsbD 1))
    Runs (.b li aa lk) s (BranchResult 4 lk true ((if aa then 0#32 else s.pc) + (li ++ 0#2).signExtend 32) s.ctr s) ∧
    Runs (.bc bo bi bd aa lk) s (BranchResult 4 lk taken ((if aa then 0#32 else s.pc) + (bd ++ 0#2).signExtend 32) ctr s) ∧
    Runs (.bclr bo bi lk) s (BranchResult 4 lk taken (s.lr &&& 0xFFFFFFFE#32) ctr s) ∧
    Runs (.bcctr bo bi lk) s (BranchResult 4 lk taken (s.ctr &&& 0xFFFFFFFE#32) ctr s) ∧
    Runs (.seB bd8 lk) s (BranchResult 2 lk true (s.pc + (bd8 ++ 0#1).signExtend 32) s.ctr s) ∧
    Runs (.seBc bo16 bi16 bd8) s (BranchResult 2 false (s.cr.getMsbD bi16.toNat == bo16) (s.pc + (bd8 ++ 0#1).signExtend 32) s.ctr s) ∧
    Runs (.seBlr lk) s (BranchResult 2 lk true (s.lr &&& 0xFFFFFFFE#32) s.ctr s) ∧
    Runs (.seBctr lk) s (BranchResult 2 lk true (s.ctr &&& 0xFFFFFFFE#32) s.ctr s) ∧
    Runs (.eB bd24 lk) s (BranchResult 4 lk true (s.pc + (bd24 ++ 0#1).signExtend 32) s.ctr s) ∧
    Runs (.eBc 0#2 bi32 bd15 lk) s (BranchResult 4 lk (!s.cr.getMsbD bi32.toNat) (s.pc + (bd15 ++ 0#1).signExtend 32) s.ctr s) ∧
    Runs (.eBc 1#2 bi32 bd15 lk) s (BranchResult 4 lk (s.cr.getMsbD bi32.toNat) (s.pc + (bd15 ++ 0#1).signExtend 32) s.ctr s) ∧
    Runs (.eBc 2#2 bi32 bd15 lk) s (BranchResult 4 lk (decide (s.ctr ≠ 1#32)) (s.pc + (bd15 ++ 0#1).signExtend 32) (s.ctr - 1#32) s) ∧
    Runs (.eBc 3#2 bi32 bd15 lk) s (BranchResult 4 lk (decide (s.ctr = 1#32)) (s.pc + (bd15 ++ 0#1).signExtend 32) (s.ctr - 1#32) s)

/-- The trap instructions: nothing but the pc, or a Trap exception. tw and twi for every operand: if none of the
conditions that the five TO bits select (less, greater, equal, less unsigned, greater unsigned) holds, only the pc
changes; if one does, a Program interrupt with ESR[PTR] is taken, with the address of the instruction in SRR0 and the
MSR in SRR1. (A trap debug event enabled in DBCR0 is the step's matter.) (R830, R831, R832, R2055.) -/
def Obligations.Traps : Prop :=
  ∀ (s : State) (tm : BitVec 5) (ra rb : Gpr) (i : BitVec 16),
    let cond : Word → Word → Bool := fun a b =>
      (tm.getMsbD 0 && decide (a.toInt < b.toInt)) || (tm.getMsbD 1 && decide (b.toInt < a.toInt)) || (tm.getMsbD 2 && decide (a = b)) ||
        (tm.getMsbD 3 && decide (a.toNat < b.toNat)) || (tm.getMsbD 4 && decide (b.toNat < a.toNat))
    let a := s.gprW ra
    (cond a (s.gprW rb) = false → Runs (.tw tm ra rb) s (OnlyPc 4 s)) ∧
    (cond a (s.gprW rb) = true → Runs (.tw tm ra rb) s (TakesProgram 0x02000000#32 s)) ∧
    (cond a (i.signExtend 32) = false → Runs (.twi tm ra i) s (OnlyPc 4 s)) ∧
    (cond a (i.signExtend 32) = true → Runs (.twi tm ra i) s (TakesProgram 0x02000000#32 s))

/-- sc and se_sc take the System Call interrupt. sc and se_sc take a System Call interrupt: SRR0 holds the address of
the next instruction (pc + 4 for sc, pc + 2 for se_sc), SRR1 the MSR, the MSR keeps CE, ME, DE and RI alone, ESR is
VLEMI alone, MCSR and DEAR are unchanged, the pc is IVPR[0:15] || IVOR8[16:27] || 0b0000; registers and memory stay.
(R2057.) -/
def Obligations.SystemCalls : Prop :=
  ∀ s : State,
    (Runs .sc s fun t => TakesNonCritical .systemCall (s.pc + 4#32) (if s.cur.vle then 0x20#32 else 0#32) s t ∧ t.ints.dear = s.ints.dear ∧ t.mmu = s.mmu ∧
      t.pc = (s.ints.ivpr &&& 0xFFFF0000#32) ||| (s.ints.ivor.get 8 &&& 0x0000FFF0#32)) ∧
    (Runs .seSc s fun t => TakesNonCritical .systemCall (s.pc + 2#32) (if s.cur.vle then 0x20#32 else 0#32) s t ∧ t.ints.dear = s.ints.dear ∧ t.mmu = s.mmu ∧
      t.pc = (s.ints.ivpr &&& 0xFFFF0000#32) ||| (s.ints.ivor.get 8 &&& 0x0000FFF0#32))

/-- Returning from an interrupt. rfi, rfci, rfmci, and rfdi while HID0[DAPUEN] is 1, and their se_ forms: in
supervisor mode the MSR becomes xSRR1 & 0x0606FB36 and the pc xSRR0[0:30] || 0b0, and nothing else changes (the
reservation stays); in user mode they take a Privileged Instruction exception. rfdi and se_rfdi are illegal in both
modes while HID0[DAPUEN] is 0. (R2015.) -/
def Obligations.Returns : Prop :=
  ∀ s : State,
    let user := s.msr.getLsbD 14
    let dapuen := s.hid.hid0.getLsbD 8
    (user = false → Runs .rfi s (ReturnResult s.ints.srr0 s.ints.srr1 s)) ∧
    (user = false → Runs .seRfi s (ReturnResult s.ints.srr0 s.ints.srr1 s)) ∧
    (user = false → Runs .rfci s (ReturnResult s.ints.csrr0 s.ints.csrr1 s)) ∧
    (user = false → Runs .seRfci s (ReturnResult s.ints.csrr0 s.ints.csrr1 s)) ∧
    (user = false → Runs .rfmci s (ReturnResult s.ints.mcsrr0 s.ints.mcsrr1 s)) ∧
    (user = false → Runs .seRfmci s (ReturnResult s.ints.mcsrr0 s.ints.mcsrr1 s)) ∧
    (user = true → Runs .rfi s (TakesProgram 0x04000000#32 s)) ∧
    (user = true → Runs .seRfi s (TakesProgram 0x04000000#32 s)) ∧
    (user = true → Runs .rfci s (TakesProgram 0x04000000#32 s)) ∧
    (user = true → Runs .seRfci s (TakesProgram 0x04000000#32 s)) ∧
    (user = true → Runs .rfmci s (TakesProgram 0x04000000#32 s)) ∧
    (user = true → Runs .seRfmci s (TakesProgram 0x04000000#32 s)) ∧
    (dapuen = true → user = false → Runs .rfdi s (ReturnResult s.ints.dsrr0 s.ints.dsrr1 s)) ∧
    (dapuen = true → user = true → Runs .rfdi s (TakesProgram 0x04000000#32 s)) ∧
    (dapuen = false → Runs .rfdi s (TakesProgram 0x08000000#32 s)) ∧
    (dapuen = true → user = false → Runs .seRfdi s (ReturnResult s.ints.dsrr0 s.ints.dsrr1 s)) ∧
    (dapuen = true → user = true → Runs .seRfdi s (TakesProgram 0x04000000#32 s)) ∧
    (dapuen = false → Runs .seRfdi s (TakesProgram 0x08000000#32 s))

/-- Privileged instructions in user mode. In user mode the privileged instructions (other than the returns) take a
Program interrupt with ESR[PPR] and do nothing else: the moves of the MSR, the TLB instructions, dcbi, the volatile
context moves of the save/restore registers, mfpmr, mtpmr, mfspr and mtspr with a privileged number, even an undefined
one, mfdcr and mtdcr with an implemented number. (R2053, R935.) -/
def Obligations.PrivilegedInUser : Prop :=
  ∀ (s : State) (r q : Gpr) (b : Bool) (d : BitVec 8) (n : BitVec 10), s.msr.getLsbD 14 = true →
    (∀ i ∈ [(.mfmsr r : Instr), .mtmsr r, .wrtee r, .wrteei b, .tlbre, .tlbwe, .tlbsx r q, .tlbivax r q, .tlbsync, .dcbi r q, .eLmvsrrw d r, .eLmvcsrrw d r, .eLmvdsrrw d r, .eLmvmcsrrw d r, .eStmvsrrw d r, .eStmvcsrrw d r, .eStmvdsrrw d r, .eStmvmcsrrw d r], Runs i s (TakesProgram 0x04000000#32 s)) ∧
    (n.getLsbD 4 = true →
      ∀ i ∈ [(.mfspr r n : Instr), .mtspr n r, .mfpmr r n, .mtpmr n r], Runs i s (TakesProgram 0x04000000#32 s)) ∧
    (272 ≤ n.toNat ∧ n.toNat ≤ 278 ∨ s.pins.dcrnCdacntl = some n ∨ s.pins.dcrnCdadata = some n →
      Runs (.mfdcr r n) s (TakesProgram 0x04000000#32 s) ∧ Runs (.mtdcr n r) s (TakesProgram 0x04000000#32 s))

/-- Forms that take an Illegal Instruction exception. se_illegal; mbar with MO above 2; dnh, e_dnh, se_dnh while the debugger
has not enabled them, or jd_en_once is negated; mfspr and mtspr of a number that is no register they may use, mfpmr and mtpmr
likewise (a user-mode reference to a privileged number is privileged first); mfdcr and mtdcr of a number that is not
implemented: each takes a Program interrupt with ESR[PIL] and does nothing else. (R2054, R112, R113, R906, R912, R1030, R2263,
R2302.) -/
def Obligations.IllegalForms : Prop :=
  ∀ (s : State) (r : Gpr) (n : BitVec 10) (k : BitVec 5),
    Runs .seIllegal s (TakesProgram 0x08000000#32 s) ∧
    (2 < k.toNat → Runs (.mbar k) s (TakesProgram 0x08000000#32 s)) ∧
    (s.dbg.edbcr0.getLsbD 30 = false ∨ s.pins.enOnce = false →
      Runs (.dnh k n) s (TakesProgram 0x08000000#32 s) ∧ Runs (.eDnh k n) s (TakesProgram 0x08000000#32 s) ∧ Runs .seDnh s (TakesProgram 0x08000000#32 s)) ∧
    (n.toNat ∉ readableSprs → n.getLsbD 4 = false ∨ s.msr.getLsbD 14 = false → Runs (.mfspr r n) s (TakesProgram 0x08000000#32 s)) ∧
    (n.toNat ∉ writableSprs → n.getLsbD 4 = false ∨ s.msr.getLsbD 14 = false → Runs (.mtspr n r) s (TakesProgram 0x08000000#32 s)) ∧
    (n.toNat ∉ readablePmrs → n.getLsbD 4 = false ∨ s.msr.getLsbD 14 = false → Runs (.mfpmr r n) s (TakesProgram 0x08000000#32 s)) ∧
    (n.toNat ∉ writablePmrs → n.getLsbD 4 = false ∨ s.msr.getLsbD 14 = false → Runs (.mtpmr n r) s (TakesProgram 0x08000000#32 s)) ∧
    (¬(272 ≤ n.toNat ∧ n.toNat ≤ 278) → s.pins.dcrnCdacntl ≠ some n → s.pins.dcrnCdadata ≠ some n →
      Runs (.mfdcr r n) s (TakesProgram 0x08000000#32 s) ∧ Runs (.mtdcr n r) s (TakesProgram 0x08000000#32 s))

/-- The moves of the MSR in supervisor mode. In supervisor mode mfmsr copies the MSR to the low word of a register,
mtmsr writes the implemented bits of the MSR and leaves the others zero, wrtee and wrteei replace MSR[EE] alone; all
else stays. After mtmsr the model also notes the old MSR, which later instructions may work with until a context
synchronizing event (U5, log entry 16). (R847, R848, R849, R852, R64.) -/
def Obligations.MsrInstructions : Prop :=
  ∀ (s : State) (r : Gpr) (b : Bool), s.msr.getLsbD 14 = false →
    Runs (.mfmsr r) s (IntResult 4 r s.msr none none false s) ∧
    Runs (.mtmsr r) s (MsrResult (s.gprW r &&& 0x0606FB36#32) [(.msr, s.msr)] s) ∧
    Runs (.wrtee r) s (MsrResult ((s.msr &&& ~~~0x8000#32) ||| (s.gprW r &&& 0x8000#32)) [] s) ∧
    Runs (.wrteei b) s (MsrResult ((s.msr &&& ~~~0x8000#32) ||| (if b then 0x8000#32 else 0#32)) [] s)

/-- mfspr reads the register of its number. For every SPR number that mfspr may name, where the mode allows it and no
debug register belongs to an external debugger: the low word of the destination becomes the value of that register
(the fixed value for a read-only configuration register; HID1 with the reservation in ATS; MMUCSR0 and DDAM read 0); for ESR,
while the bits that read as any value are 0; for DEVENT every bit but DEVNT, which may read as any value; for DVC1 and
DVC2 all 64 bits. Nothing else changes. (R110, R111, R113, R850, R2218,
R2234, R2583, R71.) -/
def Obligations.MfsprReads : Prop :=
  ∀ (s : State) (rt : Gpr) (n : BitVec 10), (n.getLsbD 4 = false ∨ s.msr.getLsbD 14 = false) → s.dbg.dbcr0.getLsbD 31 = false →
    (∀ p ∈ ([(1, s.xer), (8, s.lr), (9, s.ctr),
       (22, s.tmr.dec), (26, s.ints.srr0), (27, s.ints.srr1),
       (48, s.mmu.pid0), (54, s.tmr.decar), (58, s.ints.csrr0),
       (59, s.ints.csrr1), (61, s.ints.dear), (63, s.ints.ivpr),
       (256, s.sprg.usprg0), (260, s.sprg.sprg.get 4), (261, s.sprg.sprg.get 5),
       (262, s.sprg.sprg.get 6), (263, s.sprg.sprg.get 7), (268, s.tmr.tb.extractLsb' 0 32),
       (269, s.tmr.tb.extractLsb' 32 32), (272, s.sprg.sprg.get 0), (273, s.sprg.sprg.get 1)] ++
      [(274, s.sprg.sprg.get 2), (275, s.sprg.sprg.get 3), (276, s.sprg.sprg.get 4),
       (277, s.sprg.sprg.get 5), (278, s.sprg.sprg.get 6), (279, s.sprg.sprg.get 7),
       (286, s.hid.pir), (287, 0x8169#16 ++ s.pins.pvrin), (304, s.dbg.dbsr),
       (308, s.dbg.dbcr0), (309, s.dbg.dbcr1), (310, s.dbg.dbcr2),
       (312, s.dbg.iac.get 0), (313, s.dbg.iac.get 1), (314, s.dbg.iac.get 2),
       (315, s.dbg.iac.get 3), (316, s.dbg.dac1), (317, s.dbg.dac2),
       (336, s.tmr.tsr), (340, s.tmr.tcr), (400, s.ints.ivor.get 0)] ++
      [(401, s.ints.ivor.get 1), (402, s.ints.ivor.get 2), (403, s.ints.ivor.get 3),
       (404, s.ints.ivor.get 4), (405, s.ints.ivor.get 5), (406, s.ints.ivor.get 6),
       (407, s.ints.ivor.get 7), (408, s.ints.ivor.get 8), (409, s.ints.ivor.get 9),
       (410, s.ints.ivor.get 10), (411, s.ints.ivor.get 11), (412, s.ints.ivor.get 12),
       (413, s.ints.ivor.get 13), (414, s.ints.ivor.get 14), (415, s.ints.ivor.get 15),
       (512, s.spefscr), (515, 0x28581810#32), (516, 0x08581810#32),
       (528, s.ints.ivor.get 16), (529, s.ints.ivor.get 17), (530, s.ints.ivor.get 18)] ++
      [(531, s.ints.ivor.get 19), (561, s.dbg.dbcr3), (562, s.dbg.dbcnt),
       (563, s.dbg.dbcr4), (564, s.dbg.dbcr5), (565, s.dbg.iac.get 4),
       (566, s.dbg.iac.get 5), (567, s.dbg.iac.get 6), (568, s.dbg.iac.get 7),
       (569, s.dbg.dberc0), (570, s.ints.mcsrr0), (571, s.ints.mcsrr1),
       (572, s.ints.mcsr), (573, s.ints.mcar), (574, s.ints.dsrr0),
       (575, s.ints.dsrr1), (576, 0#32), (603, s.dbg.dbcr6),
       (604, s.sprg.sprg.get 8), (605, s.sprg.sprg.get 9), (624, s.mmu.mas0)] ++
      [(625, s.mmu.mas1), (626, s.mmu.mas2), (627, s.mmu.mas3),
       (628, s.mmu.mas4), (630, s.mmu.mas6), (688, 0#32),
       (689, 0x200BE020#32), (959, s.cache.l1finv1), (976, s.cache.hdbcr0),
       (1008, s.hid.hid0), (1009, s.hid.hid1 ||| (if s.resv then 0x80#32 else 0#32)), (1010, s.cache.l1csr0),
       (1011, s.cache.l1csr1), (1012, 0#32), (1013, s.hid.bucsr),
       (1015, 0x004009C4#32), (1016, s.cache.l1finv0), (1023, s.pins.sysvers)] : List (Nat × Word)),
      n.toNat = p.1 → Runs (.mfspr rt n) s (IntResult 4 rt p.2 none none false s)) ∧
    (n = 62#10 → s.ints.esr &&& 0x000D0000#32 = 0#32 →
      Runs (.mfspr rt n) s (IntResult 4 rt s.ints.esr none none false s)) ∧
    (n = 975#10 → ∃ v, (∀ k, 8 ≤ k → v.getLsbD k = s.dbg.devent.getLsbD k) ∧
      Runs (.mfspr rt n) s (IntResult 4 rt v none none false s)) ∧
    (∀ p ∈ [(318, s.dbg.dvc1), (319, s.dbg.dvc2)], n.toNat = p.1 →
      Runs (.mfspr rt n) s fun t => t.gprD rt = p.2 ∧ SameGprsBut rt s t ∧ Past 4 s t ∧ t.cr = s.cr ∧ t.xer = s.xer ∧
        SameLinks s t ∧ SameSystem s t)

/-- mtspr writes the implemented bits of the register of its number, and nothing else. For every SPR number that mtspr may name,
where the mode allows it and no debug register belongs to an external debugger: the register takes the implemented bits of the
source (DVC1 and DVC2 all 64 bits; DBSR, TSR and MCSR are cleared where it has a 1), and nothing else changes. ESR holds AP, PUO
and PIE as written (D2; what then reads there is open, log entry 23). TCR keeps WRC once that is not 0. The time base takes the
new half; a bit that goes from 0 to 1 is a time-out of the timers that watch it (R2104, R2108, after Book E), which sets only
TSR[FIS], ENW, WIS or WRS, and that of PMGC0[TBSEL] a time base event while TBEE is set (R2331). L1CSR0 and L1CSR1 take their
writable bits, invalidate every line of their cache and move its replacement pointer to way 0 with CINV, and unlock every line
with CLFC; else lines (of a canonical cache) and pointer stay. L1CSR0 also empties the store buffer and reports its bus errors:
MCSR[BUS_WRERR], the first in MCAR unless one is there. L1FINV0 and L1FINV1 with CCMD 00 drop and unlock the line of the set and
way given, L1FINV0 with 01 writes it to memory if valid and modified and leaves it clean, with 10 drops it after that (error
checking off, memory that answers, a canonical cache), and with 11 both set the replacement pointer; L1FINV1 with 01 or 10 does
as with 00 or only takes its bits (U40, log entry 30). MMUCSR0 changes nothing, or with TLB1_FI only makes the unprotected TLB
entries invalid. The model also notes the old value of a register that asks for a context synchronizing instruction (U5, log
entry 16; DBCNT while a count is enabled in a debug mode), and clears DBSR in the newest value noted for this step too. That a
dropped line loses its tag error mark is log entry 46; bytes that memory lost, and those of dropped instruction lines that
differ from it, join the older ones a fetch may read; a fill brings in none of such a line, with CINV none (R246, R434, log
entry 32). (R110, R111, R113, R851, R341, R415, R416, R431, R432, R433, R62, R78.) -/
def Obligations.MtsprWrites : Prop :=
  ∀ (s : State) (rs : Gpr) (n : BitVec 10), (n.getLsbD 4 = false ∨ s.msr.getLsbD 14 = false) → s.dbg.dbcr0.getLsbD 31 = false →
    let v := s.gprW rs
    let way := (v.extractLsb' 24 2).toNat
    let set := (v.extractLsb' 5 7).toNat
    let owe : SyncReg → Word → State → State := fun q old t => { t with sync := { t.sync with old := (q, old) :: t.sync.old } }
    let line := s.cache.dcache.line set way
    let pushed := line.valid && line.dirty != 0#3
    let ra : Word := (line.tag ++ 0#10) ||| (BitVec.ofNat 32 (set % 32) <<< 5)
    let iline := s.cache.icache.line set way
    let dropped : State → Prop := fun t => OnlyPc 4 { s with
      cache := { s.cache with
        icache := s.cache.icache.put set way { iline with valid := false, tagErr := 0#6, lock := 0#4, dirty := 0#3 }
        l1finv1 := v &&& 0x03000FE3#32 }
      buf := { s.buf with stale := t.buf.stale, unsynced := t.buf.unsynced, unpurged := t.buf.unpurged } } t ∧
      AheadBytes (LineDiffers s set iline) s t ∧
      if iline.valid then Purged (lineAddr set iline) s t else t.buf.unpurged = s.buf.unpurged
    (∀ p ∈ ([(8, { s with lr := v }), (9, { s with ctr := v }),
       (1, { s with xer := v &&& 0xE000007F#32 }), (22, { s with tmr := { s.tmr with dec := v } }),
       (26, { s with ints := { s.ints with srr0 := v } }), (27, { s with ints := { s.ints with srr1 := v } }),
       (48, owe .pid0 s.mmu.pid0 { s with mmu := { s.mmu with pid0 := v &&& 0xFF#32 } }), (54, { s with tmr := { s.tmr with decar := v } }),
       (58, { s with ints := { s.ints with csrr0 := v } }), (59, { s with ints := { s.ints with csrr1 := v } }),
       (61, { s with ints := { s.ints with dear := v } }), (62, { s with ints := { s.ints with esr := v &&& 0x0FBF00A2#32 } }),
       (63, { s with ints := { s.ints with ivpr := v &&& 0xFFFF0000#32 } }), (256, { s with sprg := { s.sprg with usprg0 := v } }),
       (272, { s with sprg := { s.sprg with sprg := s.sprg.sprg.set 0 v } }), (273, { s with sprg := { s.sprg with sprg := s.sprg.sprg.set 1 v } }),
       (274, { s with sprg := { s.sprg with sprg := s.sprg.sprg.set 2 v } }), (275, { s with sprg := { s.sprg with sprg := s.sprg.sprg.set 3 v } }),
       (276, { s with sprg := { s.sprg with sprg := s.sprg.sprg.set 4 v } }), (277, { s with sprg := { s.sprg with sprg := s.sprg.sprg.set 5 v } }),
       (278, { s with sprg := { s.sprg with sprg := s.sprg.sprg.set 6 v } })] ++
      [(279, { s with sprg := { s.sprg with sprg := s.sprg.sprg.set 7 v } }), (286, { s with hid := { s.hid with pir := v } }),
       (304, owe .dbsr s.dbg.dbsr { s with
         dbg := { s.dbg with dbsr := s.dbg.dbsr &&& ~~~v }
         sync := { s.sync with new := s.sync.new.map fun q => if q.1 == .dbsr then (q.1, q.2 &&& ~~~v) else q } }),
       (308, owe (.dbcr 0) s.dbg.dbcr0 { s with dbg := { s.dbg with dbcr0 := (s.dbg.dbcr0 &&& 0x8000001E#32) ||| (v &&& 0x7FFFFFE1#32) } }),
       (309, owe (.dbcr 1) s.dbg.dbcr1 { s with dbg := { s.dbg with dbcr1 := (s.dbg.dbcr1 &&& 0x003F003F#32) ||| (v &&& 0xFFC0FFC0#32) } }), (310, owe (.dbcr 2) s.dbg.dbcr2 { s with dbg := { s.dbg with dbcr2 := v } }),
       (312, { s with dbg := { s.dbg with iac := s.dbg.iac.set 0 v } }), (313, { s with dbg := { s.dbg with iac := s.dbg.iac.set 1 v } }),
       (314, { s with dbg := { s.dbg with iac := s.dbg.iac.set 2 v } }), (315, { s with dbg := { s.dbg with iac := s.dbg.iac.set 3 v } }),
       (316, { s with dbg := { s.dbg with dac1 := v } }), (317, { s with dbg := { s.dbg with dac2 := v } }),
       (318, { s with dbg := { s.dbg with dvc1 := s.gprD rs } }), (319, { s with dbg := { s.dbg with dvc2 := s.gprD rs } }),
       (336, { s with tmr := { s.tmr with tsr := s.tmr.tsr &&& ~~~v } }), (400, { s with ints := { s.ints with ivor := s.ints.ivor.set 0 (v &&& 0xFFF0#32) } }),
       (401, { s with ints := { s.ints with ivor := s.ints.ivor.set 1 (v &&& 0xFFF0#32) } }), (402, { s with ints := { s.ints with ivor := s.ints.ivor.set 2 (v &&& 0xFFF0#32) } }),
       (403, { s with ints := { s.ints with ivor := s.ints.ivor.set 3 (v &&& 0xFFF0#32) } }), (404, { s with ints := { s.ints with ivor := s.ints.ivor.set 4 (v &&& 0xFFF0#32) } }),
       (405, { s with ints := { s.ints with ivor := s.ints.ivor.set 5 (v &&& 0xFFF0#32) } })] ++
      [(406, { s with ints := { s.ints with ivor := s.ints.ivor.set 6 (v &&& 0xFFF0#32) } }), (407, { s with ints := { s.ints with ivor := s.ints.ivor.set 7 (v &&& 0xFFF0#32) } }),
       (408, { s with ints := { s.ints with ivor := s.ints.ivor.set 8 (v &&& 0xFFF0#32) } }), (409, { s with ints := { s.ints with ivor := s.ints.ivor.set 9 (v &&& 0xFFF0#32) } }),
       (410, { s with ints := { s.ints with ivor := s.ints.ivor.set 10 (v &&& 0xFFF0#32) } }), (411, { s with ints := { s.ints with ivor := s.ints.ivor.set 11 (v &&& 0xFFF0#32) } }),
       (412, { s with ints := { s.ints with ivor := s.ints.ivor.set 12 (v &&& 0xFFF0#32) } }), (413, { s with ints := { s.ints with ivor := s.ints.ivor.set 13 (v &&& 0xFFF0#32) } }),
       (414, { s with ints := { s.ints with ivor := s.ints.ivor.set 14 (v &&& 0xFFF0#32) } }), (415, { s with ints := { s.ints with ivor := s.ints.ivor.set 15 (v &&& 0xFFF0#32) } }),
       (512, owe .spefscr s.spefscr { s with spefscr := v &&& 0xFF3EFF7F#32 }), (528, { s with ints := { s.ints with ivor := s.ints.ivor.set 16 (v &&& 0xFFF0#32) } }),
       (529, { s with ints := { s.ints with ivor := s.ints.ivor.set 17 (v &&& 0xFFF0#32) } }), (530, { s with ints := { s.ints with ivor := s.ints.ivor.set 18 (v &&& 0xFFF0#32) } }),
       (531, { s with ints := { s.ints with ivor := s.ints.ivor.set 19 (v &&& 0xFFF0#32) } }), (561, owe (.dbcr 3) s.dbg.dbcr3 { s with dbg := { s.dbg with dbcr3 := v } }),
       (562, (if s.dbg.dbcr0.getLsbD 30 && s.dbg.dbcr3 &&& 0xFFFFFF00#32 != 0#32 then owe .dbcnt s.dbg.dbcnt else id)
         { s with dbg := { s.dbg with dbcnt := v } }),
       (563, owe (.dbcr 4) s.dbg.dbcr4 { s with dbg := { s.dbg with dbcr4 := (s.dbg.dbcr4 &&& 0xAFFF00FF#32) ||| (v &&& 0x5000FF00#32) } }),
       (564, owe (.dbcr 5) s.dbg.dbcr5 { s with dbg := { s.dbg with dbcr5 := (s.dbg.dbcr5 &&& 0x003F003F#32) ||| (v &&& 0xFFC0FFC0#32) } }), (565, { s with dbg := { s.dbg with iac := s.dbg.iac.set 4 v } }),
       (566, { s with dbg := { s.dbg with iac := s.dbg.iac.set 5 v } })] ++
      [(567, { s with dbg := { s.dbg with iac := s.dbg.iac.set 6 v } }), (568, { s with dbg := { s.dbg with iac := s.dbg.iac.set 7 v } }),
       (570, { s with ints := { s.ints with mcsrr0 := v } }), (571, { s with ints := { s.ints with mcsrr1 := v } }),
       (572, { s with ints := { s.ints with mcsr := s.ints.mcsr &&& ~~~v } }), (573, { s with ints := { s.ints with mcar := v } }),
       (574, { s with ints := { s.ints with dsrr0 := v } }), (575, { s with ints := { s.ints with dsrr1 := v } }),
       (576, { s with dbg := { s.dbg with ddam := v } }), (603, owe (.dbcr 6) s.dbg.dbcr6 { s with dbg := { s.dbg with dbcr6 := v } }),
       (604, { s with sprg := { s.sprg with sprg := s.sprg.sprg.set 8 v } }), (605, { s with sprg := { s.sprg with sprg := s.sprg.sprg.set 9 v } }),
       (624, owe .mas0 s.mmu.mas0 { s with mmu := { s.mmu with mas0 := v &&& 0x301F001F#32 } }), (625, owe .mas1 s.mmu.mas1 { s with mmu := { s.mmu with mas1 := v &&& 0xC0FF1F80#32 } }),
       (626, owe .mas2 s.mmu.mas2 { s with mmu := { s.mmu with mas2 := v &&& 0xFFFFFC3F#32 } }), (627, owe .mas3 s.mmu.mas3 { s with mmu := { s.mmu with mas3 := v } }),
       (628, owe .mas4 s.mmu.mas4 { s with mmu := { s.mmu with mas4 := v &&& 0x30030FBF#32 } }), (630, owe .mas6 s.mmu.mas6 { s with mmu := { s.mmu with mas6 := v &&& 0x00FF0001#32 } }),
       (975, { s with dbg := { s.dbg with devent := (s.dbg.devent &&& 0x00FFFF00#32) ||| (v &&& 0xFF0000FF#32) } }), (976, { s with cache := { s.cache with hdbcr0 := v &&& 0x6D#32 } }),
       (1008, owe .hid0 s.hid.hid0 { s with hid := { s.hid with hid0 := v &&& 0x80E37F01#32 } })] ++
      [(1009, owe .hid1 s.hid.hid1 { s with hid := { s.hid with hid1 := v &&& 0xFF00#32 } }), (1013, owe .bucsr s.hid.bucsr { s with hid := { s.hid with bucsr := v &&& 0x37#32 } })] : List (Nat × State)),
      n.toNat = p.1 → Runs (.mtspr n rs) s (OnlyPc 4 p.2)) ∧
    (n = 340#10 → Runs (.mtspr n rs) s (OnlyPc 4 { s with tmr := { s.tmr with tcr :=
      if s.tmr.tcr &&& 0x30000000#32 = 0#32 then v &&& 0xFFDFE000#32
      else (s.tmr.tcr &&& 0x30000000#32) ||| (v &&& 0xCFDFE000#32) } })) ∧
    (n = 284#10 → Runs (.mtspr n rs) s (TbWritten (s.tmr.tb.extractLsb' 32 32 ++ v) s)) ∧
    (n = 285#10 → Runs (.mtspr n rs) s (TbWritten (v ++ s.tmr.tb.extractLsb' 0 32) s)) ∧
    (n = 1010#10 → Runs (.mtspr n rs) s fun t =>
      OnlyPc 4 (owe .l1csr0 s.cache.l1csr0
        { s with
          ints := t.ints
          cache := { s.cache with dcache := t.cache.dcache, l1csr0 := v &&& 0xFF1DBEED#32 }
          buf := { s.buf with storeErrs := [], entries := [] } }) t ∧
      StoreErrsReported s t ∧ FlashDone v .data s t) ∧
    (n = 1011#10 → Runs (.mtspr n rs) s fun t =>
      OnlyPc 4 (owe .l1csr1 s.cache.l1csr1
        { s with
          cache := { s.cache with icache := t.cache.icache, l1csr1 := v &&& 0x0001B6E5#32 }
          buf := { s.buf with stale := t.buf.stale, unsynced := t.buf.unsynced, unpurged := t.buf.unpurged } }) t ∧
      FlashDone v .instr s t ∧ (v.getLsbD 1 = false → t.buf = s.buf) ∧ (v.getLsbD 1 = true → t.buf.unpurged = []) ∧
      (v.getLsbD 1 = true → sparseWf CacheLine.zero 0 s.cache.icache.lines = true →
        AheadBytes (fun c => ∃ k w, w < 4 ∧ LineDiffers s k (s.cache.icache.line k w) c) s t)) ∧
    (n = 1016#10 → v.extractLsb' 0 2 = 0#2 → Runs (.mtspr n rs) s (OnlyPc 4 { s with cache := { s.cache with
      dcache := s.cache.dcache.put set way { line with valid := false, tagErr := 0#6, lock := 0#4 }, l1finv0 := v &&& 0x03000FE3#32 } })) ∧
    (n = 1016#10 → v.extractLsb' 0 2 = 1#2 ∨ v.extractLsb' 0 2 = 2#2 → s.cache.l1csr0.getLsbD 16 = false →
      sparseWf CacheLine.zero 0 s.cache.dcache.lines = true →
      s.mem.wf = true → (pushed = true → s.ramFrom ra 32) → Runs (.mtspr n rs) s fun t =>
      OnlyPc 4 { s with
        cache := { s.cache with dcache := t.cache.dcache, l1finv0 := v &&& 0x03000FE3#32 }
        mem := if pushed then s.mem.putBytes ra line.data.toList else s.mem
        buf := t.buf } t ∧
      BuffersAfter s t ∧ (pushed = false → t.buf = s.buf) ∧
      t.cache.dcache.rp = s.cache.dcache.rp ∧
      ∀ c w, c < 128 → w < 4 → t.cache.dcache.line c w =
        if c = set ∧ w = way then
          (if v.extractLsb' 0 2 = 2#2 then { line with valid := false, tagErr := 0#6, lock := 0#4, dirty := 0#3 }
            else if pushed then { line with dirty := 0#3 } else line)
        else s.cache.dcache.line c w) ∧
    (n = 1016#10 → v.extractLsb' 0 2 = 3#2 → Runs (.mtspr n rs) s (OnlyPc 4 { s with cache := { s.cache with
      dcache := { s.cache.dcache with rp := BitVec.ofNat 2 way }, l1finv0 := v &&& 0x03000FE3#32 } })) ∧
    (n = 959#10 → v.extractLsb' 0 2 = 0#2 → Runs (.mtspr n rs) s dropped) ∧
    (n = 959#10 → v.extractLsb' 0 2 = 1#2 ∨ v.extractLsb' 0 2 = 2#2 → Runs (.mtspr n rs) s fun t => dropped t ∨
      OnlyPc 4 { s with cache := { s.cache with l1finv1 := v &&& 0x03000FE3#32 } } t) ∧
    (n = 959#10 → v.extractLsb' 0 2 = 3#2 → Runs (.mtspr n rs) s (OnlyPc 4 { s with cache := { s.cache with
      icache := { s.cache.icache with rp := BitVec.ofNat 2 way }, l1finv1 := v &&& 0x03000FE3#32 } })) ∧
    (n = 1012#10 → v.getLsbD 1 = false → Runs (.mtspr n rs) s (OnlyPc 4 s)) ∧
    (n = 1012#10 → v.getLsbD 1 = true → Runs (.mtspr n rs) s fun t => OnlyMmu [] s t ∧
      t.mmu = { s.mmu with tlb := t.mmu.tlb } ∧ ∀ k : Fin 32,
      t.mmu.tlb.get k = { s.mmu.tlb.get k with v := (s.mmu.tlb.get k).v && (s.mmu.tlb.get k).iprot })

/-- The device control registers and the performance monitor registers. In supervisor mode mfdcr and mtdcr read and
write the Parallel Signature Unit registers (PSCR keeps its implemented bits and, with INIT, clears the signatures and
the count; PSSR is cleared where the source has a 1; PSUHR and PSULR read 0, and a write of one accumulates the source
into its signature, PSULR counting too where PSCR[CNTEN] is set) and the cache debug access registers by their strapped
numbers: CDADATA; CDACNTL, which with GO = 01 reads or writes the tag or a data word of the line it selects, with GO read
back as 00, and else only takes its implemented bits (GO = 1x too: the model's choice, log entry 30). mfpmr reads a
performance monitor register by its user number in both modes and by its supervisor number in supervisor mode, and mtpmr
writes the implemented bits by the supervisor number; a change of PMGC0[TBSEL] while TBEE is set may be taken for a time
base event (R2320, log entry 59). All else stays. A write of PSCR also notes the old value, under which later accesses may be
accumulated until a context synchronizing instruction (R2284, U5); that INIT and every other write take effect at once, and
that mfdcr misses no accumulation, is the model's choice (log entry 61). (R475, R476, R477, R912, R913, R2280, R2282, R2283, R2301, R2310, R2311,
R2320.) -/
def Obligations.DcrAndPmr : Prop :=
  ∀ (s : State) (r : Gpr) (n : BitVec 10) (k : Fin 4),
    let v := s.gprW r
    let user := s.msr.getLsbD 14
    let pmlcbBits : Word := if k.val < 2 then 0x777BE73F#32 else 0x777BE000#32
    let strapped := ¬(272 ≤ n.toNat ∧ n.toNat ≤ 278)
    let side : Side := if v.getLsbD 3 then .instr else .data
    let way := (v.extractLsb' 28 2).toNat
    let set := (v.extractLsb' 19 7).toNat
    let word := (v.extractLsb' 16 3).toNat
    let line := (s.cacheOf side).line set way
    let old : List Byte := (line.data.toList.drop (4 * word)).take 4
    (user = false → ∀ p ∈ ([(272, s.psu.pscr), (273, s.psu.pssr), (274, s.psu.pshr), (275, s.psu.pslr), (276, s.psu.psctr), (277, 0#32), (278, 0#32)] : List (Nat × Word)),
      n.toNat = p.1 → Runs (.mfdcr r n) s (IntResult 4 r p.2 none none false s)) ∧
    (user = false → n = 272#10 → Runs (.mtdcr n r) s (OnlyPc 4 { s with
      sync := { s.sync with old := (.pscr, s.psu.pscr) :: s.sync.old }
      psu := if v.getLsbD 0 then { s.psu with pscr := v &&& 0x26#32, pshr := 0#32, pslr := 0#32, psctr := 0#32 }
        else { s.psu with pscr := v &&& 0x26#32 } })) ∧
    (user = false → ∀ p ∈ ([(273, { s.psu with pssr := s.psu.pssr &&& ~~~v }), (274, { s.psu with pshr := v }),
        (275, { s.psu with pslr := v }), (276, { s.psu with psctr := v }),
        (277, { s.psu with pshr := Config.psuMisrStep s.psu.pshr v }),
        (278, { s.psu with
          pslr := Config.psuMisrStep s.psu.pslr v
          psctr := if s.psu.pscr.getLsbD 5 then s.psu.psctr + 1#32 else s.psu.psctr })] : List (Nat × Psu)),
      n.toNat = p.1 → Runs (.mtdcr n r) s (OnlyPc 4 { s with psu := p.2 })) ∧
    (user = false → strapped → s.pins.dcrnCdacntl = some n →
      Runs (.mfdcr r n) s (IntResult 4 r s.cache.cdacntl none none false s) ∧
      (v.extractLsb' 0 2 ≠ 1#2 → Runs (.mtdcr n r) s (OnlyPc 4 { s with cache := { s.cache with cdacntl := v &&& 0xB3FFFF0F#32 } })) ∧
      (v.extractLsb' 0 2 = 1#2 → v.getLsbD 2 = true → s.buf.storeErrs = [] → Runs (.mtdcr n r) s fun t =>
        OnlyPc 4 { s with
          cache := { s.cache with cdacntl := t.cache.cdacntl, cdadata := t.cache.cdadata }
          buf := { s.buf with entries := [] } } t ∧
        t.cache.cdacntl &&& 0xFFFF00FF#32 = v &&& 0xB3FF000C#32 ∧
        (v.getLsbD 31 = true → t.cache.cdadata.extractLsb' 10 22 = line.tag ∧ t.cache.cdadata.getLsbD 9 = false ∧
          t.cache.cdadata.getLsbD 8 = line.valid ∧ t.cache.cdadata.extractLsb' 4 4 = line.lock ∧
          t.cache.cdadata.extractLsb' 1 3 = line.dirty ∧ t.cache.cdadata.getLsbD 0 = false) ∧
        (v.getLsbD 31 = false → t.cache.cdadata.toNat = bytesNat old)) ∧
      (v.extractLsb' 0 2 = 1#2 → v.getLsbD 2 = false → s.buf.storeErrs = [] → ∃ l',
        Runs (.mtdcr n r) s (OnlyPc 4 { s with
          cache := { (s.setCache side ((s.cacheOf side).put set way l')).cache with cdacntl := v &&& 0xB3FFFF0C#32 }
          buf := { s.buf with entries := [] } }) ∧
        (v.getLsbD 31 = true → l'.tag = s.cache.cdadata.extractLsb' 10 22 ∧ l'.valid = s.cache.cdadata.getLsbD 8 ∧
          l'.lock = s.cache.cdadata.extractLsb' 4 4 ∧
          l'.dirty = (if v.getLsbD 3 then 0#3 else s.cache.cdadata.extractLsb' 1 3) ∧ l'.data = line.data ∧
          l'.dataErr = line.dataErr) ∧
        (v.getLsbD 31 = false → l'.tag = line.tag ∧ l'.valid = line.valid ∧ l'.lock = line.lock ∧ l'.dirty = line.dirty ∧
          l'.tagErr = line.tagErr ∧ ∀ j : Fin 32, l'.data.get j =
            if j.val / 4 = word then (wordBytes s.cache.cdadata).getD (j.val % 4) 0#8 else line.data.get j))) ∧
    (user = false → strapped → s.pins.dcrnCdadata = some n → s.pins.dcrnCdacntl ≠ some n →
      Runs (.mfdcr r n) s (IntResult 4 r s.cache.cdadata none none false s) ∧
      Runs (.mtdcr n r) s (OnlyPc 4 { s with cache := { s.cache with cdadata := v } })) ∧
    (∀ p ∈ ([(k.val, s.pm.pmc.get k), (k.val + 128, s.pm.pmlca.get k), (k.val + 256, s.pm.pmlcb.get k), (384, s.pm.pmgc0)] : List (Nat × Word)),
      n.toNat = p.1 → Runs (.mfpmr r n) s (IntResult 4 r p.2 none none false s)) ∧
    (user = false → ∀ p ∈ ([(k.val + 16, s.pm.pmc.get k), (k.val + 144, s.pm.pmlca.get k), (k.val + 272, s.pm.pmlcb.get k),
        (400, s.pm.pmgc0)] : List (Nat × Word)),
      n.toNat = p.1 → Runs (.mfpmr r n) s (IntResult 4 r p.2 none none false s)) ∧
    (user = false → ∀ p ∈ ([(k.val + 16, { s.pm with pmc := s.pm.pmc.set k.val v k.isLt }),
        (k.val + 144, { s.pm with pmlca := s.pm.pmlca.set k.val (v &&& 0xFCFF7000#32) k.isLt }),
        (k.val + 272, { s.pm with pmlcb := s.pm.pmlcb.set k.val (v &&& pmlcbBits) k.isLt })] : List (Nat × PerfMon)),
      n.toNat = p.1 → Runs (.mtpmr n r) s (OnlyPc 4 { s with pm := p.2 })) ∧
    (user = false → n = 400#10 → Runs (.mtpmr n r) s fun t =>
      OnlyPc 4 { s with pm := { s.pm with pmgc0 := v &&& 0xE0001900#32, tbEvent := t.pm.tbEvent } } t ∧
      (s.pm.pmgc0.getLsbD 8 = false ∨ v &&& 0x1800#32 = s.pm.pmgc0 &&& 0x1800#32 → t.pm.tbEvent = s.pm.tbEvent) ∧
      (s.pm.tbEvent = true → t.pm.tbEvent = true))

/-- The synchronising instructions and the cache hints only go on. isync, se_isync, icbt, dcbt, dcbtst, dcba, and in supervisor
mode tlbsync, change nothing but the pc, for every operand, in a machine that runs its instructions one at a time; so do msync
and mbar with MO up to 2, but that they empty the store buffer: the bus errors it holds are reported in MCSR[BUS_WRERR], the
first in MCAR unless an address is logged there already (that such errors may wait in the buffer is U83, log entry 32); and
after msync no older byte is left for a fetch that follows a context synchronizing event, while mbar leaves those as they were
(R434; that msync alone counts is the model's choice, log entry 32). That icbt, dcbt and dcbtst leave the caches as they were,
also with HID0[NOPTI] = 0, is the model's choice (DESIGN CHOICE, log entry 31): R441, R446 and R447 call them a no-op and leave
open that a line becomes present under R405. (R430, R845, R1031, R905, R906, R442, R334, R2038.) -/
def Obligations.NoEffect : Prop :=
  ∀ (s : State) (k : BitVec 5) (ct : BitVec 4) (r q : Gpr),
    (∀ i ∈ [(.isync : Instr), .icbt ct r q, .dcbt ct r q, .dcbtst ct r q, .dcba r q], Runs i s (OnlyPc 4 s)) ∧
    Runs .seIsync s (OnlyPc 2 s) ∧ (s.msr.getLsbD 14 = false → Runs .tlbsync s (OnlyPc 4 s)) ∧
    Runs .msync s (StoresDrained true s) ∧ (k.toNat ≤ 2 → Runs (.mbar k) s (StoresDrained false s))

/-- wait and debugger notify halt. wait empties the store buffer, as mbar does, makes the core wait after it, and changes
nothing else but the pc. Where the debugger has enabled the debugger-notify-halt instructions and jd_en_once is asserted, dnh,
e_dnh and se_dnh halt the core with the pc at themselves, or, where that event is masked, go on; the external debug status
records them while external debug mode is on (with VLES for the VLE forms). (R907, R903, R1039, R2351, R2758, R2263.) -/
def Obligations.WaitAndHalt : Prop :=
  ∀ (s : State) (k : BitVec 5) (n : BitVec 10),
    Runs .wait s (StoresDrained false { s with pwr := { s.pwr with waiting := true } }) ∧
    (s.dbg.edbcr0.getLsbD 30 = true → s.pins.enOnce = true → ∀ p ∈ ([(.dnh k n, 4, 0x20000000#32), (.eDnh k n, 4, 0x20000010#32), (.seDnh, 2, 0x20000010#32)] :
        List (Instr × Nat × Word)),
      let rec0 := if s.dbg.dbcr0.getLsbD 31 then s.dbg.edbsr0 ||| p.2.2 else s.dbg.edbsr0
      (s.dbg.edbsrmsk0.getLsbD 29 = true → Runs p.1 s (OnlyPc p.2.1 { s with dbg := { s.dbg with edbsr0 := rec0 } })) ∧
      (s.dbg.edbsrmsk0.getLsbD 29 = false →
        Runs p.1 s (OnlyPc 0 { s with dbg := { s.dbg with edbsr0 := rec0, halted := true } })))

/-- The loads of Book E from memory: value, byte order, update, frame. lbz, lhz, lha, lwz in the D and X forms with and without
update, lhbrx, lwbrx, for every operand, where the bytes can be read through one TLB entry with the data cache off, at any
alignment: the bytes at the real address form the value, the most significant first or, on a little-endian page, last (the
byte-reversed forms the other way round), extended with zeros or the sign; an update form writes the effective address to RA
(even GPR0), and the destination wins if it is RA; every other register, flag, system state and every byte of memory stay, but
that the Parallel Signature Unit, where PSCR[RDEN] is set, accumulates each beat of the access: one within a doubleword, two
across (R2281, D52). (R710, R711, R712, R714, R715, R716, R726, R727, R732, R740, R741, R210.) -/
def Obligations.Loads : Prop :=
  ∀ (s : State) (rt ra rb : Gpr) (d : BitVec 16) (p : TlbEntry),
    let ed := (if ra = 0#5 then 0#32 else s.gprW ra) + d.signExtend 32
    let ex := (if ra = 0#5 then 0#32 else s.gprW ra) + s.gprW rb
    (PlainAccess s ed 1 .load p →
      Runs (.lbz rt d ra) s (LoadResult 4 rt none (BitVec.ofNat 32 (s.elem p.e (p.page ed).ra 1)) ed (s.mem.bytes (p.page ed).ra 1) s) ∧
      Runs (.lbzu rt d ra) s (LoadResult 4 rt (some ra) (BitVec.ofNat 32 (s.elem p.e (p.page ed).ra 1)) ed (s.mem.bytes (p.page ed).ra 1) s)) ∧
    (PlainAccess s ed 2 .load p →
      Runs (.lhz rt d ra) s (LoadResult 4 rt none (BitVec.ofNat 32 (s.elem p.e (p.page ed).ra 2)) ed (s.mem.bytes (p.page ed).ra 2) s) ∧
      Runs (.lhzu rt d ra) s (LoadResult 4 rt (some ra) (BitVec.ofNat 32 (s.elem p.e (p.page ed).ra 2)) ed (s.mem.bytes (p.page ed).ra 2) s) ∧
      Runs (.lha rt d ra) s (LoadResult 4 rt none ((BitVec.ofNat 16 (s.elem p.e (p.page ed).ra 2)).signExtend 32) ed (s.mem.bytes (p.page ed).ra 2) s) ∧
      Runs (.lhau rt d ra) s (LoadResult 4 rt (some ra) ((BitVec.ofNat 16 (s.elem p.e (p.page ed).ra 2)).signExtend 32) ed (s.mem.bytes (p.page ed).ra 2) s)) ∧
    (PlainAccess s ed 4 .load p →
      Runs (.lwz rt d ra) s (LoadResult 4 rt none (BitVec.ofNat 32 (s.elem p.e (p.page ed).ra 4)) ed (s.mem.bytes (p.page ed).ra 4) s) ∧
      Runs (.lwzu rt d ra) s (LoadResult 4 rt (some ra) (BitVec.ofNat 32 (s.elem p.e (p.page ed).ra 4)) ed (s.mem.bytes (p.page ed).ra 4) s)) ∧
    (PlainAccess s ex 1 .load p →
      Runs (.lbzx rt ra rb) s (LoadResult 4 rt none (BitVec.ofNat 32 (s.elem p.e (p.page ex).ra 1)) ex (s.mem.bytes (p.page ex).ra 1) s) ∧
      Runs (.lbzux rt ra rb) s (LoadResult 4 rt (some ra) (BitVec.ofNat 32 (s.elem p.e (p.page ex).ra 1)) ex (s.mem.bytes (p.page ex).ra 1) s)) ∧
    (PlainAccess s ex 2 .load p →
      Runs (.lhzx rt ra rb) s (LoadResult 4 rt none (BitVec.ofNat 32 (s.elem p.e (p.page ex).ra 2)) ex (s.mem.bytes (p.page ex).ra 2) s) ∧
      Runs (.lhzux rt ra rb) s (LoadResult 4 rt (some ra) (BitVec.ofNat 32 (s.elem p.e (p.page ex).ra 2)) ex (s.mem.bytes (p.page ex).ra 2) s) ∧
      Runs (.lhax rt ra rb) s (LoadResult 4 rt none ((BitVec.ofNat 16 (s.elem p.e (p.page ex).ra 2)).signExtend 32) ex (s.mem.bytes (p.page ex).ra 2) s) ∧
      Runs (.lhaux rt ra rb) s (LoadResult 4 rt (some ra) ((BitVec.ofNat 16 (s.elem p.e (p.page ex).ra 2)).signExtend 32) ex (s.mem.bytes (p.page ex).ra 2) s) ∧
      Runs (.lhbrx rt ra rb) s (LoadResult 4 rt none (BitVec.ofNat 32 (s.elem (!p.e) (p.page ex).ra 2)) ex (s.mem.bytes (p.page ex).ra 2) s)) ∧
    (PlainAccess s ex 4 .load p →
      Runs (.lwzx rt ra rb) s (LoadResult 4 rt none (BitVec.ofNat 32 (s.elem p.e (p.page ex).ra 4)) ex (s.mem.bytes (p.page ex).ra 4) s) ∧
      Runs (.lwzux rt ra rb) s (LoadResult 4 rt (some ra) (BitVec.ofNat 32 (s.elem p.e (p.page ex).ra 4)) ex (s.mem.bytes (p.page ex).ra 4) s) ∧
      Runs (.lwbrx rt ra rb) s (LoadResult 4 rt none (BitVec.ofNat 32 (s.elem (!p.e) (p.page ex).ra 4)) ex (s.mem.bytes (p.page ex).ra 4) s))

/-- The loads of VLE from memory: value, update, frame. se_lbz, se_lhz, se_lwz (an offset scaled by the size, the base
register always read), e_lbz, e_lhz, e_lha, e_lwz, e_lbzu, e_lhzu, e_lhau, e_lwzu, for every operand, as Loads says.
(R1081, R1083, R1085, R2700, R2702, R2703, R2705, R2708, R2709, R2710, R2711.) -/
def Obligations.VleLoads : Prop :=
  ∀ (s : State) (rt ra : Gpr) (d : BitVec 16) (d8 : BitVec 8) (sd4 : BitVec 4) (p : TlbEntry),
    let ed := (if ra = 0#5 then 0#32 else s.gprW ra) + d.signExtend 32
    let e8 := (if ra = 0#5 then 0#32 else s.gprW ra) + d8.signExtend 32
    let e1 := s.gprW ra + sd4.zeroExtend 32
    let e2 := s.gprW ra + BitVec.ofNat 32 (2 * sd4.toNat)
    let e4 := s.gprW ra + BitVec.ofNat 32 (4 * sd4.toNat)
    (PlainAccess s e1 1 .load p →
      Runs (.seLbz rt sd4 ra) s (LoadResult 2 rt none (BitVec.ofNat 32 (s.elem p.e (p.page e1).ra 1)) e1 (s.mem.bytes (p.page e1).ra 1) s)) ∧
    (PlainAccess s e2 2 .load p →
      Runs (.seLhz rt sd4 ra) s (LoadResult 2 rt none (BitVec.ofNat 32 (s.elem p.e (p.page e2).ra 2)) e2 (s.mem.bytes (p.page e2).ra 2) s)) ∧
    (PlainAccess s e4 4 .load p →
      Runs (.seLwz rt sd4 ra) s (LoadResult 2 rt none (BitVec.ofNat 32 (s.elem p.e (p.page e4).ra 4)) e4 (s.mem.bytes (p.page e4).ra 4) s)) ∧
    (PlainAccess s ed 1 .load p →
      Runs (.eLbz rt d ra) s (LoadResult 4 rt none (BitVec.ofNat 32 (s.elem p.e (p.page ed).ra 1)) ed (s.mem.bytes (p.page ed).ra 1) s)) ∧
    (PlainAccess s ed 2 .load p →
      Runs (.eLhz rt d ra) s (LoadResult 4 rt none (BitVec.ofNat 32 (s.elem p.e (p.page ed).ra 2)) ed (s.mem.bytes (p.page ed).ra 2) s) ∧
      Runs (.eLha rt d ra) s (LoadResult 4 rt none ((BitVec.ofNat 16 (s.elem p.e (p.page ed).ra 2)).signExtend 32) ed (s.mem.bytes (p.page ed).ra 2) s)) ∧
    (PlainAccess s ed 4 .load p →
      Runs (.eLwz rt d ra) s (LoadResult 4 rt none (BitVec.ofNat 32 (s.elem p.e (p.page ed).ra 4)) ed (s.mem.bytes (p.page ed).ra 4) s)) ∧
    (PlainAccess s e8 1 .load p →
      Runs (.eLbzu rt d8 ra) s (LoadResult 4 rt (some ra) (BitVec.ofNat 32 (s.elem p.e (p.page e8).ra 1)) e8 (s.mem.bytes (p.page e8).ra 1) s)) ∧
    (PlainAccess s e8 2 .load p →
      Runs (.eLhzu rt d8 ra) s (LoadResult 4 rt (some ra) (BitVec.ofNat 32 (s.elem p.e (p.page e8).ra 2)) e8 (s.mem.bytes (p.page e8).ra 2) s) ∧
      Runs (.eLhau rt d8 ra) s (LoadResult 4 rt (some ra) ((BitVec.ofNat 16 (s.elem p.e (p.page e8).ra 2)).signExtend 32) e8 (s.mem.bytes (p.page e8).ra 2) s)) ∧
    (PlainAccess s e8 4 .load p →
      Runs (.eLwzu rt d8 ra) s (LoadResult 4 rt (some ra) (BitVec.ofNat 32 (s.elem p.e (p.page e8).ra 4)) e8 (s.mem.bytes (p.page e8).ra 4) s))

/-- The stores of Book E to memory: bytes stored, byte order, update, frame. stb, sth, stw in the D and X forms with and without
update, sthbrx, stwbrx, for every operand, where the bytes can be written through one TLB entry with the data cache off, at any
alignment: the low byte, halfword or word of RS stands at the real address in the byte order of the page (the byte-reversed
forms the other way round); every byte outside is as before; an update form writes the effective address to RA (even GPR0) after
RS is read; all else stays, but that the Parallel Signature Unit, where PSCR[WREN] is set, accumulates each beat of the access,
and that the bytes of memory which changed join the older ones that an instruction fetch may still read (R2281, D52; R246, log
entry 32). (R720, R721, R722, R723, R724, R725, R734, R736, R738, R742, R743, R210.) -/
def Obligations.Stores : Prop :=
  ∀ (s : State) (rs ra rb : Gpr) (d : BitVec 16) (p : TlbEntry), s.mem.wf = true →
    let ed := (if ra = 0#5 then 0#32 else s.gprW ra) + d.signExtend 32
    let ex := (if ra = 0#5 then 0#32 else s.gprW ra) + s.gprW rb
    (PlainAccess s ed 1 .store p →
      Runs (.stb rs d ra) s (StoreResult 4 1 p.e (p.page ed).ra [(s.gprW rs).toNat % 256] none ed s) ∧
      Runs (.stbu rs d ra) s (StoreResult 4 1 p.e (p.page ed).ra [(s.gprW rs).toNat % 256] (some ra) ed s)) ∧
    (PlainAccess s ed 2 .store p →
      Runs (.sth rs d ra) s (StoreResult 4 2 p.e (p.page ed).ra [(s.gprW rs).toNat % 65536] none ed s) ∧
      Runs (.sthu rs d ra) s (StoreResult 4 2 p.e (p.page ed).ra [(s.gprW rs).toNat % 65536] (some ra) ed s)) ∧
    (PlainAccess s ed 4 .store p →
      Runs (.stw rs d ra) s (StoreResult 4 4 p.e (p.page ed).ra [(s.gprW rs).toNat % 4294967296] none ed s) ∧
      Runs (.stwu rs d ra) s (StoreResult 4 4 p.e (p.page ed).ra [(s.gprW rs).toNat % 4294967296] (some ra) ed s)) ∧
    (PlainAccess s ex 1 .store p →
      Runs (.stbx rs ra rb) s (StoreResult 4 1 p.e (p.page ex).ra [(s.gprW rs).toNat % 256] none ex s) ∧
      Runs (.stbux rs ra rb) s (StoreResult 4 1 p.e (p.page ex).ra [(s.gprW rs).toNat % 256] (some ra) ex s)) ∧
    (PlainAccess s ex 2 .store p →
      Runs (.sthx rs ra rb) s (StoreResult 4 2 p.e (p.page ex).ra [(s.gprW rs).toNat % 65536] none ex s) ∧
      Runs (.sthux rs ra rb) s (StoreResult 4 2 p.e (p.page ex).ra [(s.gprW rs).toNat % 65536] (some ra) ex s) ∧
      Runs (.sthbrx rs ra rb) s (StoreResult 4 2 (!p.e) (p.page ex).ra [(s.gprW rs).toNat % 65536] none ex s)) ∧
    (PlainAccess s ex 4 .store p →
      Runs (.stwx rs ra rb) s (StoreResult 4 4 p.e (p.page ex).ra [(s.gprW rs).toNat % 4294967296] none ex s) ∧
      Runs (.stwux rs ra rb) s (StoreResult 4 4 p.e (p.page ex).ra [(s.gprW rs).toNat % 4294967296] (some ra) ex s) ∧
      Runs (.stwbrx rs ra rb) s (StoreResult 4 4 (!p.e) (p.page ex).ra [(s.gprW rs).toNat % 4294967296] none ex s))

/-- The stores of VLE to memory: bytes stored, update, frame. se_stb, se_sth, se_stw, e_stb, e_sth, e_stw, e_stbu,
e_sthu, e_stwu, for every operand, as Stores says. (R1082, R1084, R1086, R2701, R2704, R2706, R2712, R2713, R2714.) -/
def Obligations.VleStores : Prop :=
  ∀ (s : State) (rs ra : Gpr) (d : BitVec 16) (d8 : BitVec 8) (sd4 : BitVec 4) (p : TlbEntry), s.mem.wf = true →
    let ed := (if ra = 0#5 then 0#32 else s.gprW ra) + d.signExtend 32
    let e8 := (if ra = 0#5 then 0#32 else s.gprW ra) + d8.signExtend 32
    let e1 := s.gprW ra + sd4.zeroExtend 32
    let e2 := s.gprW ra + BitVec.ofNat 32 (2 * sd4.toNat)
    let e4 := s.gprW ra + BitVec.ofNat 32 (4 * sd4.toNat)
    (PlainAccess s e1 1 .store p →
      Runs (.seStb rs sd4 ra) s (StoreResult 2 1 p.e (p.page e1).ra [(s.gprW rs).toNat % 256] none e1 s)) ∧
    (PlainAccess s e2 2 .store p →
      Runs (.seSth rs sd4 ra) s (StoreResult 2 2 p.e (p.page e2).ra [(s.gprW rs).toNat % 65536] none e2 s)) ∧
    (PlainAccess s e4 4 .store p →
      Runs (.seStw rs sd4 ra) s (StoreResult 2 4 p.e (p.page e4).ra [(s.gprW rs).toNat % 4294967296] none e4 s)) ∧
    (PlainAccess s ed 1 .store p →
      Runs (.eStb rs d ra) s (StoreResult 4 1 p.e (p.page ed).ra [(s.gprW rs).toNat % 256] none ed s)) ∧
    (PlainAccess s ed 2 .store p →
      Runs (.eSth rs d ra) s (StoreResult 4 2 p.e (p.page ed).ra [(s.gprW rs).toNat % 65536] none ed s)) ∧
    (PlainAccess s ed 4 .store p →
      Runs (.eStw rs d ra) s (StoreResult 4 4 p.e (p.page ed).ra [(s.gprW rs).toNat % 4294967296] none ed s)) ∧
    (PlainAccess s e8 1 .store p →
      Runs (.eStbu rs d8 ra) s (StoreResult 4 1 p.e (p.page e8).ra [(s.gprW rs).toNat % 256] (some ra) e8 s)) ∧
    (PlainAccess s e8 2 .store p →
      Runs (.eSthu rs d8 ra) s (StoreResult 4 2 p.e (p.page e8).ra [(s.gprW rs).toNat % 65536] (some ra) e8 s)) ∧
    (PlainAccess s e8 4 .store p →
      Runs (.eStwu rs d8 ra) s (StoreResult 4 4 p.e (p.page e8).ra [(s.gprW rs).toNat % 4294967296] (some ra) e8 s))

/-- The loads and stores of multiple registers. lmw, stmw, e_lmw, e_stmw, for every operand whose effective address is a
multiple of 4, where the words can be reached through one TLB entry with the data cache off: the registers from the one named to
GPR31 are loaded from, or stored to, ascending words; nothing else changes, but for the Parallel Signature Unit and the older
bytes that a fetch may still read, as in Loads and Stores, each word being a beat (that is the model's choice, log entry 66).
(R750, R751, R752, R2715, R2716.) -/
def Obligations.Multiples : Prop :=
  ∀ (s : State) (r ra : Gpr) (d : BitVec 16) (d8 : BitVec 8) (p : TlbEntry) (l : List Gpr),
    (l.length = 32 - r.toNat ∧ ∀ k, (h : k < l.length) → (l[k]).toNat = r.toNat + k) →
    let ed := (if ra = 0#5 then 0#32 else s.gprW ra) + d.signExtend 32
    let e8 := (if ra = 0#5 then 0#32 else s.gprW ra) + d8.signExtend 32
    (ed.toNat % 4 = 0 → PlainAccess s ed (4 * l.length) .load p →
      Runs (.lmw r d ra) s (LoadMultipleResult l.length p.e (p.page ed).ra ed l s)) ∧
    (e8.toNat % 4 = 0 → PlainAccess s e8 (4 * l.length) .load p →
      Runs (.eLmw r d8 ra) s (LoadMultipleResult l.length p.e (p.page e8).ra e8 l s)) ∧
    (ed.toNat % 4 = 0 → s.mem.wf = true → PlainAccess s ed (4 * l.length) .store p →
      Runs (.stmw r d ra) s (StoreMultipleResult p.e (p.page ed).ra (l.map fun q => (s.gprW q).toNat) ed s)) ∧
    (e8.toNat % 4 = 0 → s.mem.wf = true → PlainAccess s e8 (4 * l.length) .store p →
      Runs (.eStmw r d8 ra) s (StoreMultipleResult p.e (p.page e8).ra (l.map fun q => (s.gprW q).toNat) e8 s))

/-- The volatile context loads and stores. e_lmvgprw, e_stmvgprw (GPR0, GPR3 to GPR12), e_lmvsprw, e_stmvsprw (CR, LR, CTR,
XER), and in supervisor mode e_lmvsrrw, e_lmvcsrrw, e_lmvdsrrw, e_lmvmcsrrw and the storing forms (a pair of save/restore
registers), for every operand whose effective address is a multiple of 4, where the words can be reached through one TLB entry
with the data cache off: the registers are loaded from, or stored to, ascending words, XER in its implemented bits; nothing else
changes, but for the Parallel Signature Unit and the older bytes that a fetch may still read, as in Multiples (log entry 66).
(R930, R931, R932, R933, R934, R936, R937, R938, R939, R940, R941, R942.) -/
def Obligations.VolatileContext : Prop :=
  ∀ (s : State) (ra : Gpr) (d8 : BitVec 8) (p : TlbEntry),
    let ea := (if ra = 0#5 then 0#32 else s.gprW ra) + d8.signExtend 32
    let user := s.msr.getLsbD 14
    let gprs : List Gpr := [0#5, 3#5, 4#5, 5#5, 6#5, 7#5, 8#5, 9#5, 10#5, 11#5, 12#5]
    ea.toNat % 4 = 0 →
    (PlainAccess s ea 44 .load p → Runs (.eLmvgprw d8 ra) s (LoadMultipleResult 11 p.e (p.page ea).ra ea gprs s)) ∧
    (PlainAccess s ea 44 .store p → s.mem.wf = true → Runs (.eStmvgprw d8 ra) s
      (StoreMultipleResult p.e (p.page ea).ra (gprs.map fun q => (s.gprW q).toNat) ea s)) ∧
    (PlainAccess s ea 16 .load p → Runs (.eLmvsprw d8 ra) s (LoadMultipleResult 4 p.e (p.page ea).ra ea []
      { s with cr := s.wordAt p.e ((p.page ea).ra + 0#32), lr := s.wordAt p.e ((p.page ea).ra + 4#32), ctr := s.wordAt p.e ((p.page ea).ra + 8#32), xer := s.wordAt p.e ((p.page ea).ra + 12#32) &&& 0xE000007F#32 })) ∧
    (PlainAccess s ea 16 .store p → s.mem.wf = true → Runs (.eStmvsprw d8 ra) s
      (StoreMultipleResult p.e (p.page ea).ra [s.cr.toNat, s.lr.toNat, s.ctr.toNat, s.xer.toNat] ea s)) ∧
    (user = false → PlainAccess s ea 8 .load p → Runs (.eLmvsrrw d8 ra) s (LoadMultipleResult 2 p.e (p.page ea).ra ea []
      { s with ints := { s.ints with srr0 := s.wordAt p.e ((p.page ea).ra + 0#32), srr1 := s.wordAt p.e ((p.page ea).ra + 4#32) } })) ∧
    (user = false → PlainAccess s ea 8 .load p → Runs (.eLmvcsrrw d8 ra) s (LoadMultipleResult 2 p.e (p.page ea).ra ea []
      { s with ints := { s.ints with csrr0 := s.wordAt p.e ((p.page ea).ra + 0#32), csrr1 := s.wordAt p.e ((p.page ea).ra + 4#32) } })) ∧
    (user = false → PlainAccess s ea 8 .load p → Runs (.eLmvdsrrw d8 ra) s (LoadMultipleResult 2 p.e (p.page ea).ra ea []
      { s with ints := { s.ints with dsrr0 := s.wordAt p.e ((p.page ea).ra + 0#32), dsrr1 := s.wordAt p.e ((p.page ea).ra + 4#32) } })) ∧
    (user = false → PlainAccess s ea 8 .load p → Runs (.eLmvmcsrrw d8 ra) s (LoadMultipleResult 2 p.e (p.page ea).ra ea []
      { s with ints := { s.ints with mcsrr0 := s.wordAt p.e ((p.page ea).ra + 0#32), mcsrr1 := s.wordAt p.e ((p.page ea).ra + 4#32) } })) ∧
    (user = false → PlainAccess s ea 8 .store p → s.mem.wf = true → Runs (.eStmvsrrw d8 ra) s
      (StoreMultipleResult p.e (p.page ea).ra [s.ints.srr0.toNat, s.ints.srr1.toNat] ea s)) ∧
    (user = false → PlainAccess s ea 8 .store p → s.mem.wf = true → Runs (.eStmvcsrrw d8 ra) s
      (StoreMultipleResult p.e (p.page ea).ra [s.ints.csrr0.toNat, s.ints.csrr1.toNat] ea s)) ∧
    (user = false → PlainAccess s ea 8 .store p → s.mem.wf = true → Runs (.eStmvdsrrw d8 ra) s
      (StoreMultipleResult p.e (p.page ea).ra [s.ints.dsrr0.toNat, s.ints.dsrr1.toNat] ea s)) ∧
    (user = false → PlainAccess s ea 8 .store p → s.mem.wf = true → Runs (.eStmvmcsrrw d8 ra) s
      (StoreMultipleResult p.e (p.page ea).ra [s.ints.mcsrr0.toNat, s.ints.mcsrr1.toNat] ea s))

/-- Load and reserve, store conditional. lbarx, lharx, lwarx at an aligned effective address load the value and set the
reservation. stbcx., sthcx., stwcx. without a reservation change CR0 alone, to 0, 0, 0, SO, at any address; with one, at an
aligned address that can be written, and with no external failure signalled, they store, clear the reservation, and set CR0 to
0, 0, 1, SO. All else stays, but for the Parallel Signature Unit and the older bytes that a fetch may still read, as in Loads
and Stores. (R242, R919, R920, R921, R922, R923, R924, R925.) -/
def Obligations.Reservations : Prop :=
  ∀ (s : State) (r ra rb : Gpr) (p : TlbEntry),
    let ea := (if ra = 0#5 then 0#32 else s.gprW ra) + s.gprW rb
    let so := s.xer.getLsbD 31
    let done := { s with resv := false, cr := (s.cr &&& 0x0FFFFFFF#32) ||| 0x20000000#32 ||| (if so then 0x10000000#32 else 0#32) }
    (ea.toNat % 1 = 0 → PlainAccess s ea 1 .load p →
      Runs (.lbarx r ra rb) s (LoadResult 4 r none (BitVec.ofNat 32 (s.elem p.e (p.page ea).ra 1)) ea (s.mem.bytes (p.page ea).ra 1) { s with resv := true })) ∧
    (ea.toNat % 2 = 0 → PlainAccess s ea 2 .load p →
      Runs (.lharx r ra rb) s (LoadResult 4 r none (BitVec.ofNat 32 (s.elem p.e (p.page ea).ra 2)) ea (s.mem.bytes (p.page ea).ra 2) { s with resv := true })) ∧
    (ea.toNat % 4 = 0 → PlainAccess s ea 4 .load p →
      Runs (.lwarx r ra rb) s (LoadResult 4 r none (BitVec.ofNat 32 (s.elem p.e (p.page ea).ra 4)) ea (s.mem.bytes (p.page ea).ra 4) { s with resv := true })) ∧
    (s.resv = false → Runs (.stbcxDot r ra rb) s (CrResult 4 0#3 false false false so s)) ∧
    (s.resv = false → Runs (.sthcxDot r ra rb) s (CrResult 4 0#3 false false false so s)) ∧
    (s.resv = false → Runs (.stwcxDot r ra rb) s (CrResult 4 0#3 false false false so s)) ∧
    (s.resv = true → s.pins.xfail = false → s.mem.wf = true → ea.toNat % 1 = 0 → PlainAccess s ea 1 .store p →
      Runs (.stbcxDot r ra rb) s
        (StoreResult 4 1 p.e (p.page ea).ra [(s.gprW r).toNat % 256] none ea done)) ∧
    (s.resv = true → s.pins.xfail = false → s.mem.wf = true → ea.toNat % 2 = 0 → PlainAccess s ea 2 .store p →
      Runs (.sthcxDot r ra rb) s
        (StoreResult 4 2 p.e (p.page ea).ra [(s.gprW r).toNat % 65536] none ea done)) ∧
    (s.resv = true → s.pins.xfail = false → s.mem.wf = true → ea.toNat % 4 = 0 → PlainAccess s ea 4 .store p →
      Runs (.stwcxDot r ra rb) s
        (StoreResult 4 4 p.e (p.page ea).ra [(s.gprW r).toNat % 4294967296] none ea done))

/-- The TLB instructions in supervisor mode. tlbwe writes the entry that MAS0[ESEL] selects from MAS1, MAS2 and MAS3,
and no other; tlbre then reads them back: it forms MAS1, MAS2 and MAS3 of that entry; tlbsx reports the one entry that
matches an address under the PID and space of MAS6 (its number in MAS0, its fields in MAS1 to MAS3), or, where none
does, loads the defaults of MAS4, the address, and the PID and space searched, with MAS1[V] clear, and the number MAS0[NV];
tlbivax with bit 29 of the address set invalidates every unprotected entry, and otherwise those
whose page holds the address; the protected ones stay. Nothing but the MMU changes; the
fields of the MAS registers that tlbre and tlbsx write are the same in the values that an unsynchronized mtspr of such a
register left in doubt (log entry 16). (R330, R331, R332, R333, R320,
R321, R322, R323.) -/
def Obligations.TlbInstructions : Prop :=
  ∀ (s : State) (ra rb : Gpr), s.msr.getLsbD 14 = false →
    let n : Fin 32 := (s.mmu.mas0.extractLsb' 16 5).toFin
    let ea := (if ra = 0#5 then 0#32 else s.gprW ra) + s.gprW rb
    let pid := s.mmu.mas6.extractLsb' 16 8
    let space := s.mmu.mas6.getLsbD 0
    (Runs .tlbwe s fun t => OnlyMmu [] s t ∧ EntryHolds (t.mmu.tlb.get n) s.mmu.mas1 s.mmu.mas2 s.mmu.mas3 ∧
      t.mmu = { s.mmu with tlb := t.mmu.tlb } ∧ ∀ k, k ≠ n → t.mmu.tlb.get k = s.mmu.tlb.get k) ∧
    (Runs .tlbre s fun t => OnlyMmu readFields s t ∧ EntryHolds (s.mmu.tlb.get n) t.mmu.mas1 t.mmu.mas2 t.mmu.mas3 ∧
      t.mmu.mas1 &&& 0x3F00E07F#32 = 0#32 ∧ t.mmu.mas2 &&& 0x3C0#32 = 0#32 ∧
      t.mmu = { s.mmu with mas1 := t.mmu.mas1, mas2 := t.mmu.mas2, mas3 := t.mmu.mas3 }) ∧
    (∀ (k : Nat) (e : TlbEntry), s.tlbOpen space pid = false → s.tlbHits space pid ea = [(k, e)] →
      Runs (.tlbsx ra rb) s fun t => OnlyMmu searchFields s t ∧ (t.mmu.mas0.extractLsb' 16 5).toNat = k % 32 ∧
        t.mmu.mas0.extractLsb' 28 2 = 1#2 ∧ t.mmu.mas0.extractLsb' 0 5 = s.mmu.mas0.extractLsb' 0 5 ∧
        EntryHolds e t.mmu.mas1 t.mmu.mas2 t.mmu.mas3 ∧
        t.mmu = { s.mmu with mas0 := t.mmu.mas0, mas1 := t.mmu.mas1, mas2 := t.mmu.mas2, mas3 := t.mmu.mas3 }) ∧
    (s.tlbOpen space pid = false → s.tlbHits space pid ea = [] →
      Runs (.tlbsx ra rb) s fun t => OnlyMmu searchFields s t ∧
        t.mmu = { s.mmu with mas0 := t.mmu.mas0, mas1 := t.mmu.mas1, mas2 := t.mmu.mas2, mas3 := 0#32 } ∧
        t.mmu.mas0.extractLsb' 28 2 = s.mmu.mas4.extractLsb' 28 2 ∧
        t.mmu.mas0.extractLsb' 16 5 = s.mmu.mas0.extractLsb' 0 5 ∧
        t.mmu.mas0.extractLsb' 0 5 = s.mmu.mas0.extractLsb' 0 5 ∧ t.mmu.mas0 &&& 0xCFE0FFE0#32 = 0#32 ∧
        t.mmu.mas1.extractLsb' 30 2 = 0#2 ∧ t.mmu.mas1.extractLsb' 16 8 = pid ∧ t.mmu.mas1.getLsbD 12 = space ∧
        t.mmu.mas1.extractLsb' 7 5 = s.mmu.mas4.extractLsb' 7 5 ∧ t.mmu.mas1 &&& 0x3F00E07F#32 = 0#32 ∧
        t.mmu.mas2.extractLsb' 10 22 = ea.extractLsb' 10 22 ∧ t.mmu.mas2.extractLsb' 6 4 = 0#4 ∧
        t.mmu.mas2.extractLsb' 0 6 = s.mmu.mas4.extractLsb' 0 6) ∧
    (ea.getLsbD 2 = true → Runs (.tlbivax ra rb) s fun t => OnlyMmu [] s t ∧ t.mmu = { s.mmu with tlb := t.mmu.tlb } ∧
      ∀ k : Fin 32, t.mmu.tlb.get k = { s.mmu.tlb.get k with v := (s.mmu.tlb.get k).v && (s.mmu.tlb.get k).iprot }) ∧
    (ea.getLsbD 2 = false → (∀ k, (s.mmu.tlb.get k).sizeOk = true) → Runs (.tlbivax ra rb) s fun t => OnlyMmu [] s t ∧
      t.mmu = { s.mmu with tlb := t.mmu.tlb } ∧ ∀ k : Fin 32, t.mmu.tlb.get k =
        { s.mmu.tlb.get k with v := (s.mmu.tlb.get k).v && ((s.mmu.tlb.get k).iprot || !(s.mmu.tlb.get k).epnMatch ea) })

/-- The cache block instructions. With error checking off and the access allowed, and the line of the address present in one
way: icbi and, in supervisor mode, dcbi drop the line (a modified one is lost); dcbf and dcbst write a modified line to memory,
then dcbf drops it and dcbst leaves it clean; dcbz, with the cache in copyback mode, makes its 32 bytes zero and the line
modified; dcbtls, dcbtstls, icbtls lock it and dcblc, icblc unlock it, with CT 0, in supervisor mode or with MSR[UCLE]. With the
line in no way: dcbz establishes it as zeros, modified, and the touch-and-lock instructions fill it from memory and lock it, in
the first way from the replacement pointer on that is enabled and not locked; the line displaced is written to memory if
modified, and the pointer moves past that way; with no such way, or on a page that inhibits caching, dcbz takes an Alignment
interrupt; the touch-and-lock instructions only set CUL of L1CSR0 or L1CSR1 on such a page or where no way is enabled, and CLO
where all enabled ways are locked, with CLOA set filling and locking one of these after that (which one, and where the pointer
then stands, the statement leaves open: N67, log entry 48); the other instructions do nothing. With the cache off, or CT not 0,
the touch-and-lock instructions only set CUL, and the others do nothing. Nothing else changes; to the older bytes that an
instruction fetch may still read come those of memory that changed, and those of a line that icbi drops which differ from
memory; after icbi a fill brings in none of that line (R246, R434, log entry 32). That icbi and dcbi do nothing with their cache
off, not even translate, is DEDUCED from R455 against the order of R440's pseudocode (log entry 47): the model's choice. That a
dropped line loses its tag error mark is the model's representation of an invalid line (log entry 46), no rule of the spec.
(R424, R440, R443, R444, R445, R448, R449, R450, R451, R452, R453, R455.) -/
def Obligations.CacheBlocks : Prop :=
  ∀ (s : State) (ct : BitVec 4) (ra rb : Gpr) (p : TlbEntry) (w : Nat) (l : CacheLine),
    let ea := (if ra = 0#5 then 0#32 else s.gprW ra) + s.gprW rb
    let user := s.msr.getLsbD 14
    let mayLock := user = false ∨ s.msr.getLsbD 26 = true
    let gone : CacheLine := { l with valid := false, tagErr := 0#6, lock := 0#4, dirty := 0#3 }
    let copyback := s.cache.l1csr0.getLsbD 20 = true ∧ p.w = false
    let base := lineBase (p.page ea).ra
    let pushed := { s with mem := s.mem.putBytes base l.data.toList }
    let zeros : CacheLine → CacheLine := fun k =>
      { k with data := Vector.replicate 32 0#8, dirty := 7#3, dataErr := s.newMarks .data }
    let csr : Side → Word → State := fun side bits => match side with
      | .data => { s with cache := { s.cache with l1csr0 := s.cache.l1csr0 ||| bits } }
      | .instr => { s with cache := { s.cache with l1csr1 := s.cache.l1csr1 ||| bits } }
    let misaligned : State → Prop := fun t =>
      TakesNonCritical .alignment s.pc (0x00800000#32 ||| (if s.cur.vle then 0x20#32 else 0#32)) s t ∧ t.ints.dear = ea ∧ t.mmu = s.mmu
    let touches : List (Instr × Side × AccessKind) :=
      [(.dcbtls ct ra rb, .data, .load), (.dcbtstls ct ra rb, .data, .load), (.icbtls ct ra rb, .instr, .either)]
    let unlocks : List (Instr × Side × AccessKind) := [(.dcblc ct ra rb, .data, .load), (.icblc ct ra rb, .instr, .either)]
    (BlockHit s .instr ea .load p w l → Runs (.icbi ra rb) s fun t =>
      LineResult .instr ea w gone
          { s with buf := { s.buf with stale := t.buf.stale, unsynced := t.buf.unsynced, unpurged := t.buf.unpurged } } t ∧
        AheadBytes (LineDiffers s (setOf ea) l) s t ∧ Purged (p.page ea).ra s t) ∧
    (user = false → BlockHit s .data ea .store p w l → Runs (.dcbi ra rb) s (LineResult .data ea w gone s)) ∧
    (BlockHit s .data ea .load p w l → l.dirty = 0#3 →
      Runs (.dcbf ra rb) s (LineResult .data ea w gone s) ∧ Runs (.dcbst ra rb) s (LineResult .data ea w l s)) ∧
    (BlockHit s .data ea .load p w l → l.dirty ≠ 0#3 → s.mem.wf = true → s.ramFrom base 32 →
      (Runs (.dcbf ra rb) s fun t => LineResult .data ea w gone { pushed with buf := t.buf } t ∧ BuffersAfter s t) ∧
      Runs (.dcbst ra rb) s fun t => LineResult .data ea w { l with dirty := 0#3 } { pushed with buf := t.buf } t ∧ BuffersAfter s t) ∧
    (BlockHit s .data ea .store p w l → copyback → Runs (.dcbz ra rb) s (LineResult .data ea w (zeros l) s)) ∧
    (ct = 0#4 → mayLock → ∀ q ∈ touches, BlockHit s q.2.1 ea q.2.2 p w l → Runs q.1 s (LineResult q.2.1 ea w { l with lock := 15#4 } s)) ∧
    (ct = 0#4 → mayLock → ∀ q ∈ unlocks, BlockHit s q.2.1 ea q.2.2 p w l → Runs q.1 s (LineResult q.2.1 ea w { l with lock := 0#4 } s)) ∧
    (BlockMiss s .instr ea .load p → Runs (.icbi ra rb) s fun t =>
      OnlyPc 4 { s with buf := { s.buf with unpurged := t.buf.unpurged } } t ∧ Purged (p.page ea).ra s t) ∧
    (user = false → BlockMiss s .data ea .store p → Runs (.dcbi ra rb) s (OnlyPc 4 s)) ∧
    (BlockMiss s .data ea .load p → Runs (.dcbf ra rb) s (OnlyPc 4 s) ∧ Runs (.dcbst ra rb) s (OnlyPc 4 s)) ∧
    (ct = 0#4 → mayLock → ∀ q ∈ unlocks, BlockMiss s q.2.1 ea q.2.2 p → Runs q.1 s (OnlyPc 4 s)) ∧
    (BlockMiss s .data ea .store p → copyback →
      (p.i = false → s.victimIs .data ea w → s.mayDisplace .data ea w → Runs (.dcbz ra rb) s fun t =>
        OnlyPc 4 { s.withLine .data ea w (zeros (s.filledLine .data (p.page ea).ra)) with buf := t.buf } t ∧ BuffersAfter s t) ∧
      (p.i = true ∨ (∀ k, k < 4 → ¬s.wayFree .data ea k) → Runs (.dcbz ra rb) s misaligned)) ∧
    (BlockMiss s .data ea .store p → ¬copyback → Runs (.dcbz ra rb) s misaligned) ∧
    (ct = 0#4 → mayLock → ∀ q ∈ touches, BlockMiss s q.2.1 ea q.2.2 p →
      let filled := s.filledLine q.2.1 (p.page ea).ra
      (p.i = false → s.victimIs q.2.1 ea w → s.mayDisplace q.2.1 ea w → s.mayFill q.2.1 (p.page ea).ra → Runs q.1 s fun t =>
        LineResult q.2.1 ea w { filled with lock := 15#4 } { s.withLine q.2.1 ea w filled with buf := t.buf } t ∧
          BuffersAfter s t) ∧
      (p.i = true ∨ (∀ k, k < 4 → ¬s.wayOn q.2.1 k) → Runs q.1 s (OnlyPc 4 (csr q.2.1 0x400#32))) ∧
      (p.i = false → (∃ k, k < 4 ∧ s.wayOn q.2.1 k) → (∀ k, k < 4 → ¬s.wayFree q.2.1 ea k) →
        ((s.l1csr q.2.1).getLsbD 7 = false → Runs q.1 s (OnlyPc 4 (csr q.2.1 0x200#32))) ∧
        ((s.l1csr q.2.1).getLsbD 7 = true → (∀ k, k < 4 → s.wayOn q.2.1 k → s.mayDisplace q.2.1 ea k) →
          s.mayFill q.2.1 (p.page ea).ra → Runs q.1 s fun t => ∃ k, k < 4 ∧ s.wayOn q.2.1 k ∧ BuffersAfter s t ∧
            let u := (csr q.2.1 0x200#32).withLine q.2.1 ea k filled
            LineResult q.2.1 ea k { filled with lock := 15#4 }
              { u.setCache q.2.1 { u.cacheOf q.2.1 with rp := (t.cacheOf q.2.1).rp } with buf := t.buf } t))) ∧
    (ct ≠ 0#4 ∨ s.cache.l1csr0.getLsbD 0 = false →
      (∀ i ∈ [(.dcbtls ct ra rb : Instr), .dcbtstls ct ra rb], Runs i s (OnlyPc 4 (csr .data 0x400#32))) ∧
      Runs (.dcblc ct ra rb) s (OnlyPc 4 s)) ∧
    (ct ≠ 0#4 ∨ s.cache.l1csr1.getLsbD 0 = false →
      Runs (.icbtls ct ra rb) s (OnlyPc 4 (csr .instr 0x400#32)) ∧ Runs (.icblc ct ra rb) s (OnlyPc 4 s)) ∧
    (s.cache.l1csr0.getLsbD 0 = false → Runs (.dcbf ra rb) s (OnlyPc 4 s) ∧ Runs (.dcbst ra rb) s (OnlyPc 4 s) ∧
      (user = false → Runs (.dcbi ra rb) s (OnlyPc 4 s))) ∧
    (s.cache.l1csr1.getLsbD 0 = false → Runs (.icbi ra rb) s (OnlyPc 4 s))

/-- Loads and stores with the data cache on. With error checking off and the access inside one doubleword, every load and store
of one value of Book E and VLE, and every SPE load and store. Where the line of the address is present in one way, it does as it
does in memory (Loads, VleLoads, Stores, VleStores, SpeLoads, SpeStores) with the bytes of the line: a store in copyback mode
makes the line modified, and memory stays; in writethrough mode the line keeps its modified state and memory takes the bytes
too; of the line only the bytes stored change, and the error marks of those bytes: they are set where L1CSR0[DCEI] injects
errors, and cleared elsewhere. Where the line is in no way, a load on a page that allows caching, and a store that DCWA makes
allocate on a page that also is not guarded, first fill it from memory, clean and unlocked, in the first way from the
replacement pointer on that is enabled and not locked; the line displaced is written to memory if modified, and the pointer
moves past that way. Otherwise, or with no such way, the access is one of memory alone. Nothing else of the cache changes; the
Parallel Signature Unit accumulates the beat as in Loads and Stores. (R402, R420, R421, R422, R423, R424, R210, R469.) -/
def Obligations.CachedAccesses : Prop :=
  ∀ (s : State) (r ra rb : Gpr) (d : BitVec 16) (d8 : BitVec 8) (sd4 : BitVec 4) (ui : BitVec 5) (p : TlbEntry),
    let base := if ra = 0#5 then 0#32 else s.gprW ra
    let ed := base + d.signExtend 32
    let ex := base + s.gprW rb
    let e8 := base + d8.signExtend 32
    let es : Nat → Word := fun n => s.gprW ra + BitVec.ofNat 32 (n * sd4.toNat)
    let eu : Nat → Word := fun n => base + BitVec.ofNat 32 (n * ui.toNat)
    let elem : Bool → List Byte → Nat → Nat → Nat := fun e b k n => bytesNat (endian e ((b.drop k).take n))
    let zero : Nat → Bool → List Byte → Word := fun n rev b => BitVec.ofNat 32 (elem (Bool.xor p.e rev) b 0 n)
    let alg : List Byte → Word := fun b => (BitVec.ofNat 16 (elem p.e b 0 2)).signExtend 32
    let half : List Byte → Nat → Half := fun b k => BitVec.ofNat 16 (elem p.e b (2 * k) 2)
    let word : List Byte → Nat → Word := fun b k => BitVec.ofNat 32 (elem p.e b (4 * k) 4)
    let load : Nat → (List Byte → Word) → List (Instr × Nat × Option Gpr × Word) → Prop := fun n v is => ∀ q ∈ is, ∀ b u,
      DataRead s q.2.2.2 n p b u → q.2.2.2.toNat % 8 + n ≤ 8 → Runs q.1 s fun t =>
        LoadResult q.2.1 r q.2.2.1 (v b) q.2.2.2 b { u with buf := t.buf } t ∧ BuffersAfter s t
    let speLoad : SpeForm → Nat → (List Byte → DWord) → List (Instr × Word) → Prop := fun f n v is => ∀ q ∈ is, ∀ b u,
      DataRead s q.2 n p b u → q.2.toNat % 8 + n ≤ 8 → s.msr.getLsbD 25 = true →
        q.2.toNat % s.pins.speBoundary f n = 0 → Runs q.1 s fun t =>
          SpeLoadResult r (v b) q.2 b { u with buf := t.buf } t ∧ BuffersAfter s t
    let store : Nat → List Nat → Bool → List (Instr × Nat × Option Gpr × Word) → Prop := fun n v rev is => ∀ q ∈ is, ∀ wt,
      let ea := q.2.2.2
      ea.toNat % 8 + n ≤ 8 →
        (∀ w l u, DataWrite s ea n p wt w l u →
          Runs q.1 s fun t => CachedStoreResult q.2.1 n (Bool.xor p.e rev) (p.page ea).ra v q.2.2.1 ea w l wt
            { u with buf := t.buf } t ∧ BuffersAfter s t) ∧
        (BusWrite s ea n p wt → Runs q.1 s (StoreResult q.2.1 n (Bool.xor p.e rev) (p.page ea).ra v q.2.2.1 ea s))
    let speStore : SpeForm → Nat → List Nat → List (Instr × Word) → Prop := fun f n v is => ∀ q ∈ is, ∀ wt,
      q.2.toNat % 8 + n * v.length ≤ 8 → s.msr.getLsbD 25 = true → q.2.toNat % s.pins.speBoundary f (n * v.length) = 0 →
        (∀ w l u, DataWrite s q.2 (n * v.length) p wt w l u →
          Runs q.1 s fun t => CachedStoreResult 4 n p.e (p.page q.2).ra v none q.2 w l wt { u with buf := t.buf } t ∧
            BuffersAfter s t) ∧
        (BusWrite s q.2 (n * v.length) p wt → Runs q.1 s (StoreResult 4 n p.e (p.page q.2).ra v none q.2 s))
    let h : Nat → Nat := fun k => ((s.gprD r).extractLsb' (48 - 16 * k) 16).toNat
    load 1 (zero 1 false) [(.lbz r d ra, 4, none, ed), (.lbzu r d ra, 4, some ra, ed), (.lbzx r ra rb, 4, none, ex),
      (.lbzux r ra rb, 4, some ra, ex), (.eLbz r d ra, 4, none, ed), (.eLbzu r d8 ra, 4, some ra, e8), (.seLbz r sd4 ra, 2, none, es 1)] ∧
    load 2 (zero 2 false) [(.lhz r d ra, 4, none, ed), (.lhzu r d ra, 4, some ra, ed), (.lhzx r ra rb, 4, none, ex),
      (.lhzux r ra rb, 4, some ra, ex), (.eLhz r d ra, 4, none, ed), (.eLhzu r d8 ra, 4, some ra, e8), (.seLhz r sd4 ra, 2, none, es 2)] ∧
    load 2 alg [(.lha r d ra, 4, none, ed), (.lhau r d ra, 4, some ra, ed), (.lhax r ra rb, 4, none, ex),
      (.lhaux r ra rb, 4, some ra, ex), (.eLha r d ra, 4, none, ed), (.eLhau r d8 ra, 4, some ra, e8)] ∧
    load 4 (zero 4 false) [(.lwz r d ra, 4, none, ed), (.lwzu r d ra, 4, some ra, ed), (.lwzx r ra rb, 4, none, ex),
      (.lwzux r ra rb, 4, some ra, ex), (.eLwz r d ra, 4, none, ed), (.eLwzu r d8 ra, 4, some ra, e8), (.seLwz r sd4 ra, 2, none, es 4)] ∧
    load 2 (zero 2 true) [(.lhbrx r ra rb, 4, none, ex)] ∧ load 4 (zero 4 true) [(.lwbrx r ra rb, 4, none, ex)] ∧
    store 1 [(s.gprW r).toNat % 256] false [(.stb r d ra, 4, none, ed), (.stbu r d ra, 4, some ra, ed), (.stbx r ra rb, 4, none, ex),
      (.stbux r ra rb, 4, some ra, ex), (.eStb r d ra, 4, none, ed), (.eStbu r d8 ra, 4, some ra, e8), (.seStb r sd4 ra, 2, none, es 1)] ∧
    store 2 [(s.gprW r).toNat % 65536] false [(.sth r d ra, 4, none, ed), (.sthu r d ra, 4, some ra, ed), (.sthx r ra rb, 4, none, ex),
      (.sthux r ra rb, 4, some ra, ex), (.eSth r d ra, 4, none, ed), (.eSthu r d8 ra, 4, some ra, e8), (.seSth r sd4 ra, 2, none, es 2)] ∧
    store 4 [(s.gprW r).toNat] false [(.stw r d ra, 4, none, ed), (.stwu r d ra, 4, some ra, ed), (.stwx r ra rb, 4, none, ex),
      (.stwux r ra rb, 4, some ra, ex), (.eStw r d ra, 4, none, ed), (.eStwu r d8 ra, 4, some ra, e8), (.seStw r sd4 ra, 2, none, es 4)] ∧
    store 2 [(s.gprW r).toNat % 65536] true [(.sthbrx r ra rb, 4, none, ex)] ∧ store 4 [(s.gprW r).toNat] true [(.stwbrx r ra rb, 4, none, ex)] ∧
    speLoad .evlhhesplat 2 (fun b => half b 0 ++ 0#16 ++ half b 0 ++ 0#16) [(.evlhhesplatx r ra rb, ex), (.evlhhesplat r ui ra, eu 2)] ∧
    speLoad .evlhhousplat 2 (fun b => 0#16 ++ half b 0 ++ 0#16 ++ half b 0) [(.evlhhousplatx r ra rb, ex), (.evlhhousplat r ui ra, eu 2)] ∧
    speLoad .evlhhossplat 2 (fun b => (half b 0).signExtend 32 ++ (half b 0).signExtend 32) [(.evlhhossplatx r ra rb, ex), (.evlhhossplat r ui ra, eu 2)] ∧
    speLoad .evlwhe 4 (fun b => half b 0 ++ 0#16 ++ half b 1 ++ 0#16) [(.evlwhex r ra rb, ex), (.evlwhe r ui ra, eu 4)] ∧
    speLoad .evlwhou 4 (fun b => 0#16 ++ half b 0 ++ 0#16 ++ half b 1) [(.evlwhoux r ra rb, ex), (.evlwhou r ui ra, eu 4)] ∧
    speLoad .evlwhos 4 (fun b => (half b 0).signExtend 32 ++ (half b 1).signExtend 32) [(.evlwhosx r ra rb, ex), (.evlwhos r ui ra, eu 4)] ∧
    speLoad .evlwwsplat 4 (fun b => word b 0 ++ word b 0) [(.evlwwsplatx r ra rb, ex), (.evlwwsplat r ui ra, eu 4)] ∧
    speLoad .evlwhsplat 4 (fun b => half b 0 ++ half b 0 ++ half b 1 ++ half b 1) [(.evlwhsplatx r ra rb, ex), (.evlwhsplat r ui ra, eu 4)] ∧
    speLoad .evldd 8 (fun b => BitVec.ofNat 64 (elem p.e b 0 8)) [(.evlddx r ra rb, ex), (.evldd r ui ra, eu 8)] ∧
    speLoad .evldw 8 (fun b => word b 0 ++ word b 1) [(.evldwx r ra rb, ex), (.evldw r ui ra, eu 8)] ∧
    speLoad .evldh 8 (fun b => half b 0 ++ half b 1 ++ half b 2 ++ half b 3) [(.evldhx r ra rb, ex), (.evldh r ui ra, eu 8)] ∧
    speStore .evstwhe 2 [h 0, h 2] [(.evstwhex r ra rb, ex), (.evstwhe r ui ra, eu 4)] ∧
    speStore .evstwho 2 [h 1, h 3] [(.evstwhox r ra rb, ex), (.evstwho r ui ra, eu 4)] ∧
    speStore .evstwwe 4 [(s.gprH r).toNat] [(.evstwwex r ra rb, ex), (.evstwwe r ui ra, eu 4)] ∧
    speStore .evstwwo 4 [(s.gprW r).toNat] [(.evstwwox r ra rb, ex), (.evstwwo r ui ra, eu 4)] ∧
    speStore .evstdd 8 [(s.gprD r).toNat] [(.evstddx r ra rb, ex), (.evstdd r ui ra, eu 8)] ∧
    speStore .evstdw 4 [(s.gprH r).toNat, (s.gprW r).toNat] [(.evstdwx r ra rb, ex), (.evstdw r ui ra, eu 8)] ∧
    speStore .evstdh 2 [h 0, h 1, h 2, h 3] [(.evstdhx r ra rb, ex), (.evstdh r ui ra, eu 8)]

/-- Data TLB Error and Data Storage interrupts of the data accesses. For every load and store of Book E, VLE and SPE: the
forms of one value, the multiple and volatile context forms and the reservation forms at an aligned address (with a
reservation for the store conditionals), the SPE forms available and aligned, and the cache block instructions with their
cache on: if no TLB entry matches the effective address, a Data TLB Error interrupt is taken, with the address in DEAR,
ESR[ST] for a store, ESR[SPE] for an SPE form, and the MAS registers prepared for the miss; if one entry matches and its page
does not allow the access in this mode (the access inside one doubleword), a Data Storage interrupt is taken, with the address
in DEAR and the same bits of ESR. A cache lock instruction in user mode without MSR[UCLE] takes a Data Storage interrupt with
ESR[DLK] or ESR[ILK] alone once its address is translated, whatever the page allows, and DEAR stays. No register, no TLB
entry and no byte of memory changes. (R2044, R2062, R340, R307, R217.) -/
def Obligations.StorageInterrupts : Prop :=
  ∀ (s : State) (r ra rb : Gpr) (d : BitVec 16) (d8 : BitVec 8) (sd4 : BitVec 4) (ui : BitVec 5) (k : Nat) (p : TlbEntry),
    s.tlbOpen s.msrDs s.pid = false →
    let base := if ra = 0#5 then 0#32 else s.gprW ra
    let ed := base + d.signExtend 32
    let ex := base + s.gprW rb
    let e8 := base + d8.signExtend 32
    let es : Nat → Word := fun n => s.gprW ra + BitVec.ofNat 32 (n * sd4.toNat)
    let eu : Nat → Word := fun n => base + BitVec.ofNat 32 (n * ui.toNat)
    let vlemi : Word := if s.cur.vle then 0x20#32 else 0#32
    let user := s.msr.getLsbD 14
    let on : Nat → Word → Prop := fun n ea => ea.toNat % n = 0
    let sup : Prop := user = false ∧ on 4 e8
    let resv : Nat → Prop := fun n => s.resv = true ∧ on n ex
    let spe : SpeForm → Nat → Word → Prop := fun f n ea => s.msr.getLsbD 25 = true ∧ on (s.pins.speBoundary f n) ea
    let dOn : Prop := s.cache.l1csr0.getLsbD 0 = true
    let iOn : Prop := s.cache.l1csr1.getLsbD 0 = true
    let mayLock : Prop := user = false ∨ s.msr.getLsbD 26 = true
    let missed : Word → Word → State → Prop := fun bits ea t => TakesNonCritical .dataTlb s.pc (bits ||| vlemi) s t ∧
      t.ints.dear = ea ∧ t.mmu.tlb = s.mmu.tlb ∧ t.mmu.mas1.getLsbD 31 = true ∧
      t.mmu.mas2.extractLsb' 10 22 = ea.extractLsb' 10 22 ∧ t.mmu.mas3 = 0#32
    let stops : AccessKind → Word → List (Prop × Instr × Word × Nat) → Prop := fun a bits is => ∀ q ∈ is, q.1 →
      (s.tlbHits s.msrDs s.pid q.2.2.1 = [] → Runs q.2.1 s (missed bits q.2.2.1)) ∧
      (s.tlbHits s.msrDs s.pid q.2.2.1 = [(k, p)] → (p.page q.2.2.1).allows s.user a = false → q.2.2.1.toNat % 8 + q.2.2.2 ≤ 8 →
        Runs q.2.1 s fun t => TakesNonCritical .dataStorage s.pc (bits ||| vlemi) s t ∧ t.ints.dear = q.2.2.1 ∧ t.mmu = s.mmu)
    let locks : Word → List (Prop × Instr) → Prop := fun bits is => ∀ q ∈ is, q.1 → user = true → s.msr.getLsbD 26 = false →
      (s.tlbHits s.msrDs s.pid ex = [] → Runs q.2 s (missed 0#32 ex)) ∧
      (s.tlbHits s.msrDs s.pid ex = [(k, p)] →
        Runs q.2 s fun t => TakesNonCritical .dataStorage s.pc (bits ||| vlemi) s t ∧ t.ints.dear = s.ints.dear ∧ t.mmu = s.mmu)
    stops .load 0#32 [(True, .lbz r d ra, ed, 1), (True, .lbzu r d ra, ed, 1), (True, .lhz r d ra, ed, 2), (True, .lhzu r d ra, ed, 2),
      (True, .lha r d ra, ed, 2), (True, .lhau r d ra, ed, 2), (True, .lwz r d ra, ed, 4), (True, .lwzu r d ra, ed, 4),
      (True, .eLbz r d ra, ed, 1), (True, .eLhz r d ra, ed, 2), (True, .eLha r d ra, ed, 2), (True, .eLwz r d ra, ed, 4),
      (True, .lbzx r ra rb, ex, 1), (True, .lbzux r ra rb, ex, 1), (True, .lhzx r ra rb, ex, 2), (True, .lhzux r ra rb, ex, 2),
      (True, .lhax r ra rb, ex, 2), (True, .lhaux r ra rb, ex, 2), (True, .lwzx r ra rb, ex, 4), (True, .lwzux r ra rb, ex, 4),
      (True, .lhbrx r ra rb, ex, 2), (True, .lwbrx r ra rb, ex, 4), (True, .eLbzu r d8 ra, e8, 1), (True, .eLhzu r d8 ra, e8, 2),
      (True, .eLhau r d8 ra, e8, 2), (True, .eLwzu r d8 ra, e8, 4), (True, .seLbz r sd4 ra, es 1, 1),
      (True, .seLhz r sd4 ra, es 2, 2), (True, .seLwz r sd4 ra, es 4, 4)] ∧
    stops .store 0x00800000#32 [(True, .stb r d ra, ed, 1), (True, .stbu r d ra, ed, 1), (True, .sth r d ra, ed, 2), (True, .sthu r d ra, ed, 2),
      (True, .stw r d ra, ed, 4), (True, .stwu r d ra, ed, 4), (True, .eStb r d ra, ed, 1), (True, .eSth r d ra, ed, 2),
      (True, .eStw r d ra, ed, 4), (True, .stbx r ra rb, ex, 1), (True, .stbux r ra rb, ex, 1), (True, .sthx r ra rb, ex, 2),
      (True, .sthux r ra rb, ex, 2), (True, .stwx r ra rb, ex, 4), (True, .stwux r ra rb, ex, 4), (True, .sthbrx r ra rb, ex, 2),
      (True, .stwbrx r ra rb, ex, 4), (True, .eStbu r d8 ra, e8, 1), (True, .eSthu r d8 ra, e8, 2), (True, .eStwu r d8 ra, e8, 4),
      (True, .seStb r sd4 ra, es 1, 1), (True, .seSth r sd4 ra, es 2, 2), (True, .seStw r sd4 ra, es 4, 4)] ∧
    stops .load 0#32 [(on 4 ed, .lmw r d ra, ed, 4), (on 4 e8, .eLmw r d8 ra, e8, 4), (on 4 e8, .eLmvgprw d8 ra, e8, 4),
      (on 4 e8, .eLmvsprw d8 ra, e8, 4), (sup, .eLmvsrrw d8 ra, e8, 4), (sup, .eLmvcsrrw d8 ra, e8, 4),
      (sup, .eLmvdsrrw d8 ra, e8, 4), (sup, .eLmvmcsrrw d8 ra, e8, 4), (True, .lbarx r ra rb, ex, 1),
      (on 2 ex, .lharx r ra rb, ex, 2), (on 4 ex, .lwarx r ra rb, ex, 4), (dOn, .dcbf ra rb, ex, 1), (dOn, .dcbst ra rb, ex, 1),
      (iOn, .icbi ra rb, ex, 1)] ∧
    stops .store 0x00800000#32 [(on 4 ed, .stmw r d ra, ed, 4), (on 4 e8, .eStmw r d8 ra, e8, 4), (on 4 e8, .eStmvgprw d8 ra, e8, 4),
      (on 4 e8, .eStmvsprw d8 ra, e8, 4), (sup, .eStmvsrrw d8 ra, e8, 4), (sup, .eStmvcsrrw d8 ra, e8, 4),
      (sup, .eStmvdsrrw d8 ra, e8, 4), (sup, .eStmvmcsrrw d8 ra, e8, 4), (resv 1, .stbcxDot r ra rb, ex, 1),
      (resv 2, .sthcxDot r ra rb, ex, 2), (resv 4, .stwcxDot r ra rb, ex, 4), (dOn, .dcbz ra rb, ex, 1),
      (dOn ∧ user = false, .dcbi ra rb, ex, 1)] ∧
    stops .load 0x80#32 [
      (spe .evlhhesplat 2 ex, .evlhhesplatx r ra rb, ex, 2), (spe .evlhhesplat 2 (eu 2), .evlhhesplat r ui ra, (eu 2), 2),
      (spe .evlhhousplat 2 ex, .evlhhousplatx r ra rb, ex, 2), (spe .evlhhousplat 2 (eu 2), .evlhhousplat r ui ra, (eu 2), 2),
      (spe .evlhhossplat 2 ex, .evlhhossplatx r ra rb, ex, 2), (spe .evlhhossplat 2 (eu 2), .evlhhossplat r ui ra, (eu 2), 2),
      (spe .evlwhe 4 ex, .evlwhex r ra rb, ex, 4), (spe .evlwhe 4 (eu 4), .evlwhe r ui ra, (eu 4), 4),
      (spe .evlwhou 4 ex, .evlwhoux r ra rb, ex, 4), (spe .evlwhou 4 (eu 4), .evlwhou r ui ra, (eu 4), 4),
      (spe .evlwhos 4 ex, .evlwhosx r ra rb, ex, 4), (spe .evlwhos 4 (eu 4), .evlwhos r ui ra, (eu 4), 4),
      (spe .evlwwsplat 4 ex, .evlwwsplatx r ra rb, ex, 4), (spe .evlwwsplat 4 (eu 4), .evlwwsplat r ui ra, (eu 4), 4),
      (spe .evlwhsplat 4 ex, .evlwhsplatx r ra rb, ex, 4), (spe .evlwhsplat 4 (eu 4), .evlwhsplat r ui ra, (eu 4), 4),
      (spe .evldd 8 ex, .evlddx r ra rb, ex, 8), (spe .evldd 8 (eu 8), .evldd r ui ra, (eu 8), 8),
      (spe .evldw 8 ex, .evldwx r ra rb, ex, 8), (spe .evldw 8 (eu 8), .evldw r ui ra, (eu 8), 8),
      (spe .evldh 8 ex, .evldhx r ra rb, ex, 8), (spe .evldh 8 (eu 8), .evldh r ui ra, (eu 8), 8)] ∧
    stops .store 0x00800080#32 [
      (spe .evstwhe 4 ex, .evstwhex r ra rb, ex, 4), (spe .evstwhe 4 (eu 4), .evstwhe r ui ra, (eu 4), 4),
      (spe .evstwho 4 ex, .evstwhox r ra rb, ex, 4), (spe .evstwho 4 (eu 4), .evstwho r ui ra, (eu 4), 4),
      (spe .evstwwe 4 ex, .evstwwex r ra rb, ex, 4), (spe .evstwwe 4 (eu 4), .evstwwe r ui ra, (eu 4), 4),
      (spe .evstwwo 4 ex, .evstwwox r ra rb, ex, 4), (spe .evstwwo 4 (eu 4), .evstwwo r ui ra, (eu 4), 4),
      (spe .evstdd 8 ex, .evstddx r ra rb, ex, 8), (spe .evstdd 8 (eu 8), .evstdd r ui ra, (eu 8), 8),
      (spe .evstdw 8 ex, .evstdwx r ra rb, ex, 8), (spe .evstdw 8 (eu 8), .evstdw r ui ra, (eu 8), 8),
      (spe .evstdh 8 ex, .evstdhx r ra rb, ex, 8), (spe .evstdh 8 (eu 8), .evstdh r ui ra, (eu 8), 8)] ∧
    stops .load 0#32 [(dOn ∧ mayLock, .dcbtls 0#4 ra rb, ex, 1), (dOn ∧ mayLock, .dcbtstls 0#4 ra rb, ex, 1),
      (dOn ∧ mayLock, .dcblc 0#4 ra rb, ex, 1)] ∧
    stops .either 0#32 [(iOn ∧ mayLock, .icbtls 0#4 ra rb, ex, 1), (iOn ∧ mayLock, .icblc 0#4 ra rb, ex, 1)] ∧
    locks 0x00200000#32 [(dOn, .dcbtls 0#4 ra rb), (dOn, .dcbtstls 0#4 ra rb), (dOn, .dcblc 0#4 ra rb)] ∧
    locks 0x00100000#32 [(iOn, .icbtls 0#4 ra rb), (iOn, .icblc 0#4 ra rb)]

/-- Alignment interrupts. The multiple and volatile context loads and stores at an address that is no multiple of 4, lharx,
lwarx and, with a reservation, sthcx., stwcx. at a misaligned address, the SPE loads and stores at an address that is no
multiple of their boundary, and dcbz with the data cache off take an Alignment interrupt, with the effective address in DEAR
and ESR[ST] and ESR[SPE] as the form says, and change nothing else. The boundary of an SPE form is the parameter SPE_ALIGN
(D20, log entry 53), by default its whole size. (R2050, R216, R448, R750, R919, R1601.) -/
def Obligations.AlignmentInterrupts : Prop :=
  ∀ (s : State) (r ra rb : Gpr) (d : BitVec 16) (d8 : BitVec 8) (ui : BitVec 5),
    let base := if ra = 0#5 then 0#32 else s.gprW ra
    let ed := base + d.signExtend 32
    let ex := base + s.gprW rb
    let e8 := base + d8.signExtend 32
    let eu : Nat → Word := fun n => base + BitVec.ofNat 32 (n * ui.toNat)
    let vlemi : Word := if s.cur.vle then 0x20#32 else 0#32
    let off : Nat → Word → Prop := fun n ea => ea.toNat % n ≠ 0
    let sup : Prop := s.msr.getLsbD 14 = false ∧ off 4 e8
    let resv : Nat → Prop := fun n => s.resv = true ∧ off n ex
    let spe : SpeForm → Nat → Word → Prop := fun f n ea => s.msr.getLsbD 25 = true ∧ off (s.pins.speBoundary f n) ea
    let stops : Word → List (Prop × Instr × Word) → Prop := fun bits is => ∀ q ∈ is, q.1 →
      Runs q.2.1 s fun t => TakesNonCritical .alignment s.pc (bits ||| vlemi) s t ∧ t.ints.dear = q.2.2 ∧ t.mmu = s.mmu
    stops 0#32 [(off 4 ed, .lmw r d ra, ed), (off 4 e8, .eLmw r d8 ra, e8), (off 4 e8, .eLmvgprw d8 ra, e8),
      (off 4 e8, .eLmvsprw d8 ra, e8), (sup, .eLmvsrrw d8 ra, e8), (sup, .eLmvcsrrw d8 ra, e8), (sup, .eLmvdsrrw d8 ra, e8),
      (sup, .eLmvmcsrrw d8 ra, e8), (off 2 ex, .lharx r ra rb, ex), (off 4 ex, .lwarx r ra rb, ex)] ∧
    stops 0x00800000#32 [(off 4 ed, .stmw r d ra, ed), (off 4 e8, .eStmw r d8 ra, e8), (off 4 e8, .eStmvgprw d8 ra, e8),
      (off 4 e8, .eStmvsprw d8 ra, e8), (sup, .eStmvsrrw d8 ra, e8), (sup, .eStmvcsrrw d8 ra, e8), (sup, .eStmvdsrrw d8 ra, e8),
      (sup, .eStmvmcsrrw d8 ra, e8), (resv 2, .sthcxDot r ra rb, ex), (resv 4, .stwcxDot r ra rb, ex),
      (s.cache.l1csr0.getLsbD 0 = false, .dcbz ra rb, ex)] ∧
    stops 0x80#32 [
      (spe .evlhhesplat 2 ex, .evlhhesplatx r ra rb, ex), (spe .evlhhesplat 2 (eu 2), .evlhhesplat r ui ra, (eu 2)),
      (spe .evlhhousplat 2 ex, .evlhhousplatx r ra rb, ex), (spe .evlhhousplat 2 (eu 2), .evlhhousplat r ui ra, (eu 2)),
      (spe .evlhhossplat 2 ex, .evlhhossplatx r ra rb, ex), (spe .evlhhossplat 2 (eu 2), .evlhhossplat r ui ra, (eu 2)),
      (spe .evlwhe 4 ex, .evlwhex r ra rb, ex), (spe .evlwhe 4 (eu 4), .evlwhe r ui ra, (eu 4)),
      (spe .evlwhou 4 ex, .evlwhoux r ra rb, ex), (spe .evlwhou 4 (eu 4), .evlwhou r ui ra, (eu 4)),
      (spe .evlwhos 4 ex, .evlwhosx r ra rb, ex), (spe .evlwhos 4 (eu 4), .evlwhos r ui ra, (eu 4)),
      (spe .evlwwsplat 4 ex, .evlwwsplatx r ra rb, ex), (spe .evlwwsplat 4 (eu 4), .evlwwsplat r ui ra, (eu 4)),
      (spe .evlwhsplat 4 ex, .evlwhsplatx r ra rb, ex), (spe .evlwhsplat 4 (eu 4), .evlwhsplat r ui ra, (eu 4)),
      (spe .evldd 8 ex, .evlddx r ra rb, ex), (spe .evldd 8 (eu 8), .evldd r ui ra, (eu 8)),
      (spe .evldw 8 ex, .evldwx r ra rb, ex), (spe .evldw 8 (eu 8), .evldw r ui ra, (eu 8)),
      (spe .evldh 8 ex, .evldhx r ra rb, ex), (spe .evldh 8 (eu 8), .evldh r ui ra, (eu 8))] ∧
    stops 0x00800080#32 [
      (spe .evstwhe 4 ex, .evstwhex r ra rb, ex), (spe .evstwhe 4 (eu 4), .evstwhe r ui ra, (eu 4)),
      (spe .evstwho 4 ex, .evstwhox r ra rb, ex), (spe .evstwho 4 (eu 4), .evstwho r ui ra, (eu 4)),
      (spe .evstwwe 4 ex, .evstwwex r ra rb, ex), (spe .evstwwe 4 (eu 4), .evstwwe r ui ra, (eu 4)),
      (spe .evstwwo 4 ex, .evstwwox r ra rb, ex), (spe .evstwwo 4 (eu 4), .evstwwo r ui ra, (eu 4)),
      (spe .evstdd 8 ex, .evstddx r ra rb, ex), (spe .evstdd 8 (eu 8), .evstdd r ui ra, (eu 8)),
      (spe .evstdw 8 ex, .evstdwx r ra rb, ex), (spe .evstdw 8 (eu 8), .evstdw r ui ra, (eu 8)),
      (spe .evstdh 8 ex, .evstdhx r ra rb, ex), (spe .evstdh 8 (eu 8), .evstdh r ui ra, (eu 8))]

/-- SPE and vector floating-point instructions while MSR[SPE] is 0. While MSR[SPE] is 0, every SPE APU instruction but
brinc and every vector floating-point instruction takes the SPE/EFPU APU Unavailable interrupt: SRR0 holds its
address, SRR1 the MSR, ESR has SPE and VLEMI alone, MCSR and DEAR are unchanged, the pc is IVPR[0:15] || IVOR32[16:27]
|| 0b0000, and nothing of the instruction is done. (The scalar floating-point instructions and brinc complete whatever
MSR[SPE] is: EfpuScalar, EfpuCompares, SpeSimple.) (R2064.) -/
def Obligations.SpeUnavailable : Prop :=
  ∀ (s : State) (r q q2 : Gpr) (f : CrField) (ui : BitVec 5), s.msr.getLsbD 25 = false →
    let gone : Instr → Prop := fun i => Runs i s fun t => TakesNonCritical .speUnavailable s.pc (0x80#32 ||| (if s.cur.vle then 0x20#32 else 0#32)) s t ∧
      t.ints.dear = s.ints.dear ∧ t.mmu = s.mmu ∧ t.pc = (s.ints.ivpr &&& 0xFFFF0000#32) ||| (s.ints.ivor.get 16 &&& 0x0000FFF0#32)
    (∀ i ∈ ([.evfsabs r q, .evfsnabs r q, .evfsneg r q, .evfsadd r q q2, .evfssub r q q2,
        .evfsaddsub r q q2, .evfssubadd r q q2, .evfsaddx r q q2, .evfssubx r q q2, .evfsaddsubx r q q2,
        .evfssubaddx r q q2, .evfssum r q q2, .evfsdiff r q q2, .evfssumdiff r q q2, .evfsdiffsum r q q2,
        .evfsmul r q q2, .evfsmule r q q2, .evfsmulo r q q2, .evfsmulx r q q2, .evfsdiv r q q2,
        .evfssqrt r q, .evfsmadd r q q2, .evfsmsub r q q2, .evfsnmadd r q q2] : List Instr), gone i) ∧
    (∀ i ∈ ([.evfsnmsub r q q2, .evfsmax r q q2, .evfsmin r q q2, .evfscmpgt f q q2, .evfscmplt f q q2,
        .evfscmpeq f q q2, .evfststgt f q q2, .evfststlt f q q2, .evfststeq f q q2, .evfscfsi r q,
        .evfscfui r q, .evfscfsf r q, .evfscfuf r q, .evfsctsi r q, .evfsctsiz r q,
        .evfsctui r q, .evfsctuiz r q, .evfsctsf r q, .evfsctuf r q, .evfscfh r q,
        .evfscth r q, .evabs r q, .evaddiw r q ui, .evaddw r q q2] : List Instr), gone i) ∧
    (∀ i ∈ ([.evand r q q2, .evandc r q q2, .evcmpeq f q q2, .evcmpgts f q q2, .evcmpgtu f q q2,
        .evcmplts f q q2, .evcmpltu f q q2, .evcntlsw r q, .evcntlzw r q, .evdivws r q q2,
        .evdivwu r q q2, .eveqv r q q2, .evextsb r q, .evextsh r q, .evmergehi r q q2,
        .evmergehilo r q q2, .evmergelo r q q2, .evmergelohi r q q2, .evnand r q q2, .evneg r q,
        .evnor r q q2, .evor r q q2, .evorc r q q2, .evrlw r q q2] : List Instr), gone i) ∧
    (∀ i ∈ ([.evrlwi r q ui, .evrndw r q, .evsel r q q2 f, .evslw r q q2, .evslwi r q ui,
        .evsplatfi r ui, .evsplati r ui, .evsrwis r q ui, .evsrwiu r q ui, .evsrws r q q2,
        .evsrwu r q q2, .evsubfw r q q2, .evsubifw r ui q, .evxor r q q2, .evmra r q,
        .evmhegsmfaa r q q2, .evmhegsmfan r q q2, .evmhegsmiaa r q q2, .evmhegsmian r q q2, .evmhegumiaa r q q2,
        .evmhegumian r q q2, .evmhesmf r q q2, .evmhesmfa r q q2, .evmhesmi r q q2] : List Instr), gone i) ∧
    (∀ i ∈ ([.evmhesmia r q q2, .evmhessf r q q2, .evmhessfa r q q2, .evmheumi r q q2, .evmheumia r q q2,
        .evmhesmfaaw r q q2, .evmhesmfanw r q q2, .evmhesmiaaw r q q2, .evmhesmianw r q q2, .evmhessfaaw r q q2,
        .evmhessfanw r q q2, .evmhessiaaw r q q2, .evmhessianw r q q2, .evmheumiaaw r q q2, .evmheumianw r q q2,
        .evmheusiaaw r q q2, .evmheusianw r q q2, .evmhogsmfaa r q q2, .evmhogsmfan r q q2, .evmhogsmiaa r q q2,
        .evmhogsmian r q q2, .evmhogumiaa r q q2, .evmhogumian r q q2, .evmhosmf r q q2] : List Instr), gone i) ∧
    (∀ i ∈ ([.evmhosmfa r q q2, .evmhosmi r q q2, .evmhosmia r q q2, .evmhossf r q q2, .evmhossfa r q q2,
        .evmhoumi r q q2, .evmhoumia r q q2, .evmhosmfaaw r q q2, .evmhosmfanw r q q2, .evmhosmiaaw r q q2,
        .evmhosmianw r q q2, .evmhossfaaw r q q2, .evmhossfanw r q q2, .evmhossiaaw r q q2, .evmhossianw r q q2,
        .evmhoumiaaw r q q2, .evmhoumianw r q q2, .evmhousiaaw r q q2, .evmhousianw r q q2, .evmwhsmf r q q2,
        .evmwhsmfa r q q2, .evmwhsmi r q q2, .evmwhsmia r q q2, .evmwhssf r q q2] : List Instr), gone i) ∧
    (∀ i ∈ ([.evmwhssfa r q q2, .evmwhumi r q q2, .evmwhumia r q q2, .evmwlumi r q q2, .evmwlumia r q q2,
        .evmwlsmiaaw r q q2, .evmwlsmianw r q q2, .evmwlssiaaw r q q2, .evmwlssianw r q q2, .evmwlumiaaw r q q2,
        .evmwlumianw r q q2, .evmwlusiaaw r q q2, .evmwlusianw r q q2, .evmwsmf r q q2, .evmwsmfa r q q2,
        .evmwsmfaa r q q2, .evmwsmfan r q q2, .evmwsmi r q q2, .evmwsmia r q q2, .evmwsmiaa r q q2,
        .evmwsmian r q q2, .evmwssf r q q2, .evmwssfa r q q2, .evmwssfaa r q q2] : List Instr), gone i) ∧
    (∀ i ∈ ([.evmwssfan r q q2, .evmwumi r q q2, .evmwumia r q q2, .evmwumiaa r q q2, .evmwumian r q q2,
        .evaddsmiaaw r q, .evaddssiaaw r q, .evaddumiaaw r q, .evaddusiaaw r q, .evsubfsmiaaw r q,
        .evsubfssiaaw r q, .evsubfumiaaw r q, .evsubfusiaaw r q, .evldd r ui q, .evlddx r q q2,
        .evldw r ui q, .evldwx r q q2, .evldh r ui q, .evldhx r q q2, .evlhhesplat r ui q,
        .evlhhesplatx r q q2, .evlhhousplat r ui q, .evlhhousplatx r q q2, .evlhhossplat r ui q] : List Instr), gone i) ∧
    (∀ i ∈ ([.evlhhossplatx r q q2, .evlwhe r ui q, .evlwhex r q q2, .evlwhou r ui q, .evlwhoux r q q2,
        .evlwhos r ui q, .evlwhosx r q q2, .evlwwsplat r ui q, .evlwwsplatx r q q2, .evlwhsplat r ui q,
        .evlwhsplatx r q q2, .evstdd r ui q, .evstddx r q q2, .evstdw r ui q, .evstdwx r q q2,
        .evstdh r ui q, .evstdhx r q q2, .evstwhe r ui q, .evstwhex r q q2, .evstwho r ui q,
        .evstwhox r q q2, .evstwwe r ui q, .evstwwex r q q2, .evstwwo r ui q] : List Instr), gone i) ∧
    (∀ i ∈ ([.evstwwox r q q2] : List Instr), gone i)

/-- The simple SPE instructions: both elements, overflow bits, accumulator, frame. evabs, evneg, evadd(i)w,
evsub(i)fw, the logical and merge instructions, evextsb, evextsh, evrndw, evsel, the splats, shifts, rotates, counts,
divides and evmra, with MSR[SPE] set, for every operand: the 64-bit result (evdivws and evdivwu saturate and report a
division without a quotient in OVH and OV, which are replaced, and in the sticky SOVH and SOV); evmra writes the
accumulator too. brinc, whatever MSR[SPE] is, increments the low halfword in bit-reversed order under the mask in RB.
All else stays. (R1410, R1411, R1413, R1421, R1422, R1423, R1424, R1437, R1440, R1441, R1447, R1453.) -/
def Obligations.SpeSimple : Prop :=
  ∀ (s : State) (rd ra rb : Gpr) (ui : BitVec 5) (f : CrField),
    let ah := s.gprH ra
    let al := s.gprW ra
    let bh := s.gprH rb
    let bl := s.gprW rb
    Runs (.brinc rd ra rb) s (IntResult 4 rd (al.extractLsb' 16 16 ++
      (BitVec.reverse (1#16 + BitVec.reverse (al.extractLsb' 0 16 ||| ~~~bl.extractLsb' 0 16)) &&& bl.extractLsb' 0 16)) none none false s) ∧
    (s.msr.getLsbD 25 = true →
    Runs (.evabs rd ra) s (SpeResult rd (BitVec.ofInt 32 |ah.toInt| ++ BitVec.ofInt 32 |al.toInt|) false none s) ∧
    Runs (.evneg rd ra) s (SpeResult rd ((0#32 - ah) ++ (0#32 - al)) false none s) ∧
    Runs (.evaddiw rd rb ui) s (SpeResult rd ((bh + ui.zeroExtend 32) ++ (bl + ui.zeroExtend 32)) false none s) ∧
    Runs (.evsubifw rd ui rb) s (SpeResult rd ((bh - ui.zeroExtend 32) ++ (bl - ui.zeroExtend 32)) false none s) ∧
    Runs (.evaddw rd ra rb) s (SpeResult rd ((ah + bh) ++ (al + bl)) false none s) ∧
    Runs (.evsubfw rd ra rb) s (SpeResult rd ((bh - ah) ++ (bl - al)) false none s) ∧
    Runs (.evand rd ra rb) s (SpeResult rd (s.gprD ra &&& s.gprD rb) false none s) ∧
    Runs (.evandc rd ra rb) s (SpeResult rd (s.gprD ra &&& ~~~s.gprD rb) false none s) ∧
    Runs (.eveqv rd ra rb) s (SpeResult rd (~~~(s.gprD ra ^^^ s.gprD rb)) false none s) ∧
    Runs (.evnand rd ra rb) s (SpeResult rd (~~~(s.gprD ra &&& s.gprD rb)) false none s) ∧
    Runs (.evnor rd ra rb) s (SpeResult rd (~~~(s.gprD ra ||| s.gprD rb)) false none s) ∧
    Runs (.evor rd ra rb) s (SpeResult rd (s.gprD ra ||| s.gprD rb) false none s) ∧
    Runs (.evorc rd ra rb) s (SpeResult rd (s.gprD ra ||| ~~~s.gprD rb) false none s) ∧
    Runs (.evxor rd ra rb) s (SpeResult rd (s.gprD ra ^^^ s.gprD rb) false none s) ∧
    Runs (.evmergehi rd ra rb) s (SpeResult rd (ah ++ bh) false none s) ∧
    Runs (.evmergehilo rd ra rb) s (SpeResult rd (ah ++ bl) false none s) ∧
    Runs (.evmergelo rd ra rb) s (SpeResult rd (al ++ bl) false none s) ∧
    Runs (.evmergelohi rd ra rb) s (SpeResult rd (al ++ bh) false none s) ∧
    Runs (.evextsb rd ra) s (SpeResult rd ((ah.extractLsb' 0 8).signExtend 32 ++ (al.extractLsb' 0 8).signExtend 32) false none s) ∧
    Runs (.evextsh rd ra) s (SpeResult rd ((ah.extractLsb' 0 16).signExtend 32 ++ (al.extractLsb' 0 16).signExtend 32) false none s) ∧
    Runs (.evrndw rd ra) s (SpeResult rd (((ah + 0x8000#32) &&& 0xFFFF0000#32) ++ ((al + 0x8000#32) &&& 0xFFFF0000#32)) false none s) ∧
    Runs (.evsel rd ra rb f) s (SpeResult rd ((if (crField s.cr f).getLsbD 3 then ah else bh) ++ (if (crField s.cr f).getLsbD 2 then al else bl)) false none s) ∧
    Runs (.evsplatfi rd ui) s (SpeResult rd ((ui ++ 0#27) ++ (ui ++ 0#27)) false none s) ∧
    Runs (.evsplati rd ui) s (SpeResult rd (ui.signExtend 32 ++ ui.signExtend 32) false none s) ∧
    Runs (.evslw rd ra rb) s (SpeResult rd (BitVec.ofNat 32 (ah.toNat * 2 ^ (bh.toNat % 64)) ++ BitVec.ofNat 32 (al.toNat * 2 ^ (bl.toNat % 64))) false none s) ∧
    Runs (.evslwi rd ra ui) s (SpeResult rd (BitVec.ofNat 32 (ah.toNat * 2 ^ ui.toNat) ++ BitVec.ofNat 32 (al.toNat * 2 ^ ui.toNat)) false none s) ∧
    Runs (.evsrws rd ra rb) s (SpeResult rd (BitVec.ofInt 32 (ah.toInt / 2 ^ (bh.toNat % 64)) ++ BitVec.ofInt 32 (al.toInt / 2 ^ (bl.toNat % 64))) false none s) ∧
    Runs (.evsrwis rd ra ui) s (SpeResult rd (BitVec.ofInt 32 (ah.toInt / 2 ^ ui.toNat) ++ BitVec.ofInt 32 (al.toInt / 2 ^ ui.toNat)) false none s) ∧
    Runs (.evsrwu rd ra rb) s (SpeResult rd (BitVec.ofNat 32 (ah.toNat / 2 ^ (bh.toNat % 64)) ++ BitVec.ofNat 32 (al.toNat / 2 ^ (bl.toNat % 64))) false none s) ∧
    Runs (.evsrwiu rd ra ui) s (SpeResult rd (BitVec.ofNat 32 (ah.toNat / 2 ^ ui.toNat) ++ BitVec.ofNat 32 (al.toNat / 2 ^ ui.toNat)) false none s) ∧
    (∃ vh vl, Rotated ah (bh.toNat % 32) vh ∧ Rotated al (bl.toNat % 32) vl ∧
      Runs (.evrlw rd ra rb) s (SpeResult rd (vh ++ vl) false none s)) ∧
    (∃ vh vl, Rotated ah (ui.toNat) vh ∧ Rotated al (ui.toNat) vl ∧
      Runs (.evrlwi rd ra ui) s (SpeResult rd (vh ++ vl) false none s)) ∧
    (∃ m n, LeadingZeros ah m ∧ LeadingZeros al n ∧
      Runs (.evcntlzw rd ra) s (SpeResult rd (BitVec.ofNat 32 m ++ BitVec.ofNat 32 n) false none s)) ∧
    (∃ m n, LeadingZeros (if ah.toInt < 0 then ~~~ah else ah) m ∧ LeadingZeros (if al.toInt < 0 then ~~~al else al) n ∧
      Runs (.evcntlsw rd ra) s (SpeResult rd (BitVec.ofNat 32 m ++ BitVec.ofNat 32 n) false none s)) ∧
    Runs (.evdivws rd ra rb) s (SpeResult rd ((if bh = 0#32 then (if ah.toInt < 0 then 0x80000000#32 else 0x7FFFFFFF#32)
      else if ah = 0x80000000#32 ∧ bh = 0xFFFFFFFF#32 then 0x7FFFFFFF#32 else BitVec.ofInt 32 (ah.toInt.tdiv bh.toInt)) ++
      (if bl = 0#32 then (if al.toInt < 0 then 0x80000000#32 else 0x7FFFFFFF#32)
      else if al = 0x80000000#32 ∧ bl = 0xFFFFFFFF#32 then 0x7FFFFFFF#32 else BitVec.ofInt 32 (al.toInt.tdiv bl.toInt))) false (some (decide (bh = 0#32 ∨ ah = 0x80000000#32 ∧ bh = 0xFFFFFFFF#32), decide (bl = 0#32 ∨ al = 0x80000000#32 ∧ bl = 0xFFFFFFFF#32))) s) ∧
    Runs (.evdivwu rd ra rb) s (SpeResult rd ((if bh = 0#32 then 0xFFFFFFFF#32 else BitVec.ofNat 32 (ah.toNat / bh.toNat)) ++
      (if bl = 0#32 then 0xFFFFFFFF#32 else BitVec.ofNat 32 (al.toNat / bl.toNat))) false (some (decide (bh = 0#32), decide (bl = 0#32))) s) ∧
    Runs (.evmra rd ra) s (SpeResult rd (s.gprD ra) true none s))

/-- The modulo and guarded multiplies of halfwords: products, accumulation, frame. The modulo and guarded forms of
evmhe and evmho, with MSR[SPE] set, for every operand: the exact products of the even or odd halfwords of both
elements, signed, unsigned, or signed and doubled (fractional), modulo 2^32, alone, also to the accumulator, or added
to or subtracted from the words of the accumulator; the guarded forms add the one product of the low element to the
whole accumulator modulo 2^64. SPEFSCR and all else stay. (R1482, R1486, R1500, R1506, R1508, R1512, R1514, R1523,
R1526, R1538, R1540, R1549.) -/
def Obligations.SpeHalf : Prop :=
  ∀ (s : State) (rd ra rb : Gpr), s.msr.getLsbD 25 = true →
    let e1 : Gpr → BitVec 16 := fun q => (s.gprD q).extractLsb' 48 16
    let o1 : Gpr → BitVec 16 := fun q => (s.gprD q).extractLsb' 32 16
    let e2 : Gpr → BitVec 16 := fun q => (s.gprD q).extractLsb' 16 16
    let o2 : Gpr → BitVec 16 := fun q => (s.gprD q).extractLsb' 0 16
    let ch := s.acc.extractLsb' 32 32
    let cl := s.acc.extractLsb' 0 32
    Runs (.evmhesmf rd ra rb) s (SpeResult rd (BitVec.ofInt 32 (2 * ((e1 ra).toInt * (e1 rb).toInt)) ++ BitVec.ofInt 32 (2 * ((e2 ra).toInt * (e2 rb).toInt))) false none s) ∧
    Runs (.evmhesmfa rd ra rb) s (SpeResult rd (BitVec.ofInt 32 (2 * ((e1 ra).toInt * (e1 rb).toInt)) ++ BitVec.ofInt 32 (2 * ((e2 ra).toInt * (e2 rb).toInt))) true none s) ∧
    Runs (.evmhesmfaaw rd ra rb) s (SpeResult rd ((ch + BitVec.ofInt 32 (2 * ((e1 ra).toInt * (e1 rb).toInt))) ++ (cl + BitVec.ofInt 32 (2 * ((e2 ra).toInt * (e2 rb).toInt)))) true none s) ∧
    Runs (.evmhesmfanw rd ra rb) s (SpeResult rd ((ch - BitVec.ofInt 32 (2 * ((e1 ra).toInt * (e1 rb).toInt))) ++ (cl - BitVec.ofInt 32 (2 * ((e2 ra).toInt * (e2 rb).toInt)))) true none s) ∧
    Runs (.evmhesmi rd ra rb) s (SpeResult rd (BitVec.ofInt 32 ((e1 ra).toInt * (e1 rb).toInt) ++ BitVec.ofInt 32 ((e2 ra).toInt * (e2 rb).toInt)) false none s) ∧
    Runs (.evmhesmia rd ra rb) s (SpeResult rd (BitVec.ofInt 32 ((e1 ra).toInt * (e1 rb).toInt) ++ BitVec.ofInt 32 ((e2 ra).toInt * (e2 rb).toInt)) true none s) ∧
    Runs (.evmhesmiaaw rd ra rb) s (SpeResult rd ((ch + BitVec.ofInt 32 ((e1 ra).toInt * (e1 rb).toInt)) ++ (cl + BitVec.ofInt 32 ((e2 ra).toInt * (e2 rb).toInt))) true none s) ∧
    Runs (.evmhesmianw rd ra rb) s (SpeResult rd ((ch - BitVec.ofInt 32 ((e1 ra).toInt * (e1 rb).toInt)) ++ (cl - BitVec.ofInt 32 ((e2 ra).toInt * (e2 rb).toInt))) true none s) ∧
    Runs (.evmheumi rd ra rb) s (SpeResult rd (BitVec.ofNat 32 ((e1 ra).toNat * (e1 rb).toNat) ++ BitVec.ofNat 32 ((e2 ra).toNat * (e2 rb).toNat)) false none s) ∧
    Runs (.evmheumia rd ra rb) s (SpeResult rd (BitVec.ofNat 32 ((e1 ra).toNat * (e1 rb).toNat) ++ BitVec.ofNat 32 ((e2 ra).toNat * (e2 rb).toNat)) true none s) ∧
    Runs (.evmheumiaaw rd ra rb) s (SpeResult rd ((ch + BitVec.ofNat 32 ((e1 ra).toNat * (e1 rb).toNat)) ++ (cl + BitVec.ofNat 32 ((e2 ra).toNat * (e2 rb).toNat))) true none s) ∧
    Runs (.evmheumianw rd ra rb) s (SpeResult rd ((ch - BitVec.ofNat 32 ((e1 ra).toNat * (e1 rb).toNat)) ++ (cl - BitVec.ofNat 32 ((e2 ra).toNat * (e2 rb).toNat))) true none s) ∧
    Runs (.evmhegsmfaa rd ra rb) s (SpeResult rd (s.acc + BitVec.ofInt 64 (2 * ((e2 ra).toInt * (e2 rb).toInt))) true none s) ∧
    Runs (.evmhegsmfan rd ra rb) s (SpeResult rd (s.acc - BitVec.ofInt 64 (2 * ((e2 ra).toInt * (e2 rb).toInt))) true none s) ∧
    Runs (.evmhegsmiaa rd ra rb) s (SpeResult rd (s.acc + BitVec.ofInt 64 ((e2 ra).toInt * (e2 rb).toInt)) true none s) ∧
    Runs (.evmhegsmian rd ra rb) s (SpeResult rd (s.acc - BitVec.ofInt 64 ((e2 ra).toInt * (e2 rb).toInt)) true none s) ∧
    Runs (.evmhegumiaa rd ra rb) s (SpeResult rd (s.acc + BitVec.ofNat 64 ((e2 ra).toNat * (e2 rb).toNat)) true none s) ∧
    Runs (.evmhegumian rd ra rb) s (SpeResult rd (s.acc - BitVec.ofNat 64 ((e2 ra).toNat * (e2 rb).toNat)) true none s) ∧
    Runs (.evmhosmf rd ra rb) s (SpeResult rd (BitVec.ofInt 32 (2 * ((o1 ra).toInt * (o1 rb).toInt)) ++ BitVec.ofInt 32 (2 * ((o2 ra).toInt * (o2 rb).toInt))) false none s) ∧
    Runs (.evmhosmfa rd ra rb) s (SpeResult rd (BitVec.ofInt 32 (2 * ((o1 ra).toInt * (o1 rb).toInt)) ++ BitVec.ofInt 32 (2 * ((o2 ra).toInt * (o2 rb).toInt))) true none s) ∧
    Runs (.evmhosmfaaw rd ra rb) s (SpeResult rd ((ch + BitVec.ofInt 32 (2 * ((o1 ra).toInt * (o1 rb).toInt))) ++ (cl + BitVec.ofInt 32 (2 * ((o2 ra).toInt * (o2 rb).toInt)))) true none s) ∧
    Runs (.evmhosmfanw rd ra rb) s (SpeResult rd ((ch - BitVec.ofInt 32 (2 * ((o1 ra).toInt * (o1 rb).toInt))) ++ (cl - BitVec.ofInt 32 (2 * ((o2 ra).toInt * (o2 rb).toInt)))) true none s) ∧
    Runs (.evmhosmi rd ra rb) s (SpeResult rd (BitVec.ofInt 32 ((o1 ra).toInt * (o1 rb).toInt) ++ BitVec.ofInt 32 ((o2 ra).toInt * (o2 rb).toInt)) false none s) ∧
    Runs (.evmhosmia rd ra rb) s (SpeResult rd (BitVec.ofInt 32 ((o1 ra).toInt * (o1 rb).toInt) ++ BitVec.ofInt 32 ((o2 ra).toInt * (o2 rb).toInt)) true none s) ∧
    Runs (.evmhosmiaaw rd ra rb) s (SpeResult rd ((ch + BitVec.ofInt 32 ((o1 ra).toInt * (o1 rb).toInt)) ++ (cl + BitVec.ofInt 32 ((o2 ra).toInt * (o2 rb).toInt))) true none s) ∧
    Runs (.evmhosmianw rd ra rb) s (SpeResult rd ((ch - BitVec.ofInt 32 ((o1 ra).toInt * (o1 rb).toInt)) ++ (cl - BitVec.ofInt 32 ((o2 ra).toInt * (o2 rb).toInt))) true none s) ∧
    Runs (.evmhoumi rd ra rb) s (SpeResult rd (BitVec.ofNat 32 ((o1 ra).toNat * (o1 rb).toNat) ++ BitVec.ofNat 32 ((o2 ra).toNat * (o2 rb).toNat)) false none s) ∧
    Runs (.evmhoumia rd ra rb) s (SpeResult rd (BitVec.ofNat 32 ((o1 ra).toNat * (o1 rb).toNat) ++ BitVec.ofNat 32 ((o2 ra).toNat * (o2 rb).toNat)) true none s) ∧
    Runs (.evmhoumiaaw rd ra rb) s (SpeResult rd ((ch + BitVec.ofNat 32 ((o1 ra).toNat * (o1 rb).toNat)) ++ (cl + BitVec.ofNat 32 ((o2 ra).toNat * (o2 rb).toNat))) true none s) ∧
    Runs (.evmhoumianw rd ra rb) s (SpeResult rd ((ch - BitVec.ofNat 32 ((o1 ra).toNat * (o1 rb).toNat)) ++ (cl - BitVec.ofNat 32 ((o2 ra).toNat * (o2 rb).toNat))) true none s) ∧
    Runs (.evmhogsmfaa rd ra rb) s (SpeResult rd (s.acc + BitVec.ofInt 64 (2 * ((o2 ra).toInt * (o2 rb).toInt))) true none s) ∧
    Runs (.evmhogsmfan rd ra rb) s (SpeResult rd (s.acc - BitVec.ofInt 64 (2 * ((o2 ra).toInt * (o2 rb).toInt))) true none s) ∧
    Runs (.evmhogsmiaa rd ra rb) s (SpeResult rd (s.acc + BitVec.ofInt 64 ((o2 ra).toInt * (o2 rb).toInt)) true none s) ∧
    Runs (.evmhogsmian rd ra rb) s (SpeResult rd (s.acc - BitVec.ofInt 64 ((o2 ra).toInt * (o2 rb).toInt)) true none s) ∧
    Runs (.evmhogumiaa rd ra rb) s (SpeResult rd (s.acc + BitVec.ofNat 64 ((o2 ra).toNat * (o2 rb).toNat)) true none s) ∧
    Runs (.evmhogumian rd ra rb) s (SpeResult rd (s.acc - BitVec.ofNat 64 ((o2 ra).toNat * (o2 rb).toNat)) true none s)

/-- The saturating multiplies of halfwords: results, overflow bits, frame. evmhessf, evmhossf and the saturating
accumulating forms, with MSR[SPE] set, for every operand: a fractional product of -1 and -1 gives the largest number;
an exact sum or difference with a word of the accumulator that is out of range gives the nearest number of the range,
signed or unsigned; OVH and OV say which elements saturated, SOVH and SOV collect them; all else stays. (R1484, R1486,
R1510, R1518, R1520, R1524, R1525, R1536, R1544, R1546, R1550, R1551.) -/
def Obligations.SpeHalfSaturate : Prop :=
  ∀ (s : State) (rd ra rb : Gpr), s.msr.getLsbD 25 = true →
    let e1 : Gpr → BitVec 16 := fun q => (s.gprD q).extractLsb' 48 16
    let o1 : Gpr → BitVec 16 := fun q => (s.gprD q).extractLsb' 32 16
    let e2 : Gpr → BitVec 16 := fun q => (s.gprD q).extractLsb' 16 16
    let o2 : Gpr → BitVec 16 := fun q => (s.gprD q).extractLsb' 0 16
    let ch := s.acc.extractLsb' 32 32
    let cl := s.acc.extractLsb' 0 32
    Runs (.evmhessf rd ra rb) s (SpeResult rd (BitVec.ofInt 32 (fracProduct (e1 ra) (e1 rb)) ++ BitVec.ofInt 32 (fracProduct (e2 ra) (e2 rb))) false (some (fracOverflows (e1 ra) (e1 rb), fracOverflows (e2 ra) (e2 rb))) s) ∧
    Runs (.evmhessfa rd ra rb) s (SpeResult rd (BitVec.ofInt 32 (fracProduct (e1 ra) (e1 rb)) ++ BitVec.ofInt 32 (fracProduct (e2 ra) (e2 rb))) true (some (fracOverflows (e1 ra) (e1 rb), fracOverflows (e2 ra) (e2 rb))) s) ∧
    Runs (.evmhessfaaw rd ra rb) s (SpeResult rd (clampSigned 32 (ch.toInt + fracProduct (e1 ra) (e1 rb)) ++ clampSigned 32 (cl.toInt + fracProduct (e2 ra) (e2 rb))) true (some (fracOverflows (e1 ra) (e1 rb) || noFitSigned 32 (ch.toInt + fracProduct (e1 ra) (e1 rb)), fracOverflows (e2 ra) (e2 rb) || noFitSigned 32 (cl.toInt + fracProduct (e2 ra) (e2 rb)))) s) ∧
    Runs (.evmhessiaaw rd ra rb) s (SpeResult rd (clampSigned 32 (ch.toInt + ((e1 ra).toInt * (e1 rb).toInt)) ++ clampSigned 32 (cl.toInt + ((e2 ra).toInt * (e2 rb).toInt))) true (some (noFitSigned 32 (ch.toInt + ((e1 ra).toInt * (e1 rb).toInt)), noFitSigned 32 (cl.toInt + ((e2 ra).toInt * (e2 rb).toInt)))) s) ∧
    Runs (.evmheusiaaw rd ra rb) s (SpeResult rd (clampWord ((ch.toNat : Int) + ((e1 ra).toNat * (e1 rb).toNat)) ++ clampWord ((cl.toNat : Int) + ((e2 ra).toNat * (e2 rb).toNat))) true (some (noFitWord ((ch.toNat : Int) + ((e1 ra).toNat * (e1 rb).toNat)), noFitWord ((cl.toNat : Int) + ((e2 ra).toNat * (e2 rb).toNat)))) s) ∧
    Runs (.evmhessfanw rd ra rb) s (SpeResult rd (clampSigned 32 (ch.toInt - fracProduct (e1 ra) (e1 rb)) ++ clampSigned 32 (cl.toInt - fracProduct (e2 ra) (e2 rb))) true (some (fracOverflows (e1 ra) (e1 rb) || noFitSigned 32 (ch.toInt - fracProduct (e1 ra) (e1 rb)), fracOverflows (e2 ra) (e2 rb) || noFitSigned 32 (cl.toInt - fracProduct (e2 ra) (e2 rb)))) s) ∧
    Runs (.evmhessianw rd ra rb) s (SpeResult rd (clampSigned 32 (ch.toInt - ((e1 ra).toInt * (e1 rb).toInt)) ++ clampSigned 32 (cl.toInt - ((e2 ra).toInt * (e2 rb).toInt))) true (some (noFitSigned 32 (ch.toInt - ((e1 ra).toInt * (e1 rb).toInt)), noFitSigned 32 (cl.toInt - ((e2 ra).toInt * (e2 rb).toInt)))) s) ∧
    Runs (.evmheusianw rd ra rb) s (SpeResult rd (clampWord ((ch.toNat : Int) - ((e1 ra).toNat * (e1 rb).toNat)) ++ clampWord ((cl.toNat : Int) - ((e2 ra).toNat * (e2 rb).toNat))) true (some (noFitWord ((ch.toNat : Int) - ((e1 ra).toNat * (e1 rb).toNat)), noFitWord ((cl.toNat : Int) - ((e2 ra).toNat * (e2 rb).toNat)))) s) ∧
    Runs (.evmhossf rd ra rb) s (SpeResult rd (BitVec.ofInt 32 (fracProduct (o1 ra) (o1 rb)) ++ BitVec.ofInt 32 (fracProduct (o2 ra) (o2 rb))) false (some (fracOverflows (o1 ra) (o1 rb), fracOverflows (o2 ra) (o2 rb))) s) ∧
    Runs (.evmhossfa rd ra rb) s (SpeResult rd (BitVec.ofInt 32 (fracProduct (o1 ra) (o1 rb)) ++ BitVec.ofInt 32 (fracProduct (o2 ra) (o2 rb))) true (some (fracOverflows (o1 ra) (o1 rb), fracOverflows (o2 ra) (o2 rb))) s) ∧
    Runs (.evmhossfaaw rd ra rb) s (SpeResult rd (clampSigned 32 (ch.toInt + fracProduct (o1 ra) (o1 rb)) ++ clampSigned 32 (cl.toInt + fracProduct (o2 ra) (o2 rb))) true (some (fracOverflows (o1 ra) (o1 rb) || noFitSigned 32 (ch.toInt + fracProduct (o1 ra) (o1 rb)), fracOverflows (o2 ra) (o2 rb) || noFitSigned 32 (cl.toInt + fracProduct (o2 ra) (o2 rb)))) s) ∧
    Runs (.evmhossiaaw rd ra rb) s (SpeResult rd (clampSigned 32 (ch.toInt + ((o1 ra).toInt * (o1 rb).toInt)) ++ clampSigned 32 (cl.toInt + ((o2 ra).toInt * (o2 rb).toInt))) true (some (noFitSigned 32 (ch.toInt + ((o1 ra).toInt * (o1 rb).toInt)), noFitSigned 32 (cl.toInt + ((o2 ra).toInt * (o2 rb).toInt)))) s) ∧
    Runs (.evmhousiaaw rd ra rb) s (SpeResult rd (clampWord ((ch.toNat : Int) + ((o1 ra).toNat * (o1 rb).toNat)) ++ clampWord ((cl.toNat : Int) + ((o2 ra).toNat * (o2 rb).toNat))) true (some (noFitWord ((ch.toNat : Int) + ((o1 ra).toNat * (o1 rb).toNat)), noFitWord ((cl.toNat : Int) + ((o2 ra).toNat * (o2 rb).toNat)))) s) ∧
    Runs (.evmhossfanw rd ra rb) s (SpeResult rd (clampSigned 32 (ch.toInt - fracProduct (o1 ra) (o1 rb)) ++ clampSigned 32 (cl.toInt - fracProduct (o2 ra) (o2 rb))) true (some (fracOverflows (o1 ra) (o1 rb) || noFitSigned 32 (ch.toInt - fracProduct (o1 ra) (o1 rb)), fracOverflows (o2 ra) (o2 rb) || noFitSigned 32 (cl.toInt - fracProduct (o2 ra) (o2 rb)))) s) ∧
    Runs (.evmhossianw rd ra rb) s (SpeResult rd (clampSigned 32 (ch.toInt - ((o1 ra).toInt * (o1 rb).toInt)) ++ clampSigned 32 (cl.toInt - ((o2 ra).toInt * (o2 rb).toInt))) true (some (noFitSigned 32 (ch.toInt - ((o1 ra).toInt * (o1 rb).toInt)), noFitSigned 32 (cl.toInt - ((o2 ra).toInt * (o2 rb).toInt)))) s) ∧
    Runs (.evmhousianw rd ra rb) s (SpeResult rd (clampWord ((ch.toNat : Int) - ((o1 ra).toNat * (o1 rb).toNat)) ++ clampWord ((cl.toNat : Int) - ((o2 ra).toNat * (o2 rb).toNat))) true (some (noFitWord ((ch.toNat : Int) - ((o1 ra).toNat * (o1 rb).toNat)), noFitWord ((cl.toNat : Int) - ((o2 ra).toNat * (o2 rb).toNat)))) s)

/-- The multiplies of words and the accumulator additions: results, overflow bits, frame. The evmwh, evmwl and evmw
forms and evadd, evsubf to the accumulator words, with MSR[SPE] set, for every operand: the high or low word of the
two exact products, or the whole product of the low elements, alone, also to the accumulator, or added to or
subtracted from it; modulo, or saturated to the nearest number of the range, with OVH and OV saying which elements
saturated (OVH is 0 in the 64-bit forms) and SOVH and SOV collecting them; all else stays. (R1485, R1486, R1552,
R1556, R1558, R1562, R1564, R1569, R1573, R1580, R1588, R1593.) -/
def Obligations.SpeWord : Prop :=
  ∀ (s : State) (rd ra rb : Gpr), s.msr.getLsbD 25 = true →
    let ah := s.gprH ra
    let al := s.gprW ra
    let bh := s.gprH rb
    let bl := s.gprW rb
    let ch := s.acc.extractLsb' 32 32
    let cl := s.acc.extractLsb' 0 32
    Runs (.evmwhsmf rd ra rb) s (SpeResult rd (BitVec.ofInt 32 (2 * (ah.toInt * bh.toInt) / 2 ^ 32) ++ BitVec.ofInt 32 (2 * (al.toInt * bl.toInt) / 2 ^ 32)) false none s) ∧
    Runs (.evmwhsmfa rd ra rb) s (SpeResult rd (BitVec.ofInt 32 (2 * (ah.toInt * bh.toInt) / 2 ^ 32) ++ BitVec.ofInt 32 (2 * (al.toInt * bl.toInt) / 2 ^ 32)) true none s) ∧
    Runs (.evmwhsmi rd ra rb) s (SpeResult rd (BitVec.ofInt 32 ((ah.toInt * bh.toInt) / 2 ^ 32) ++ BitVec.ofInt 32 ((al.toInt * bl.toInt) / 2 ^ 32)) false none s) ∧
    Runs (.evmwhsmia rd ra rb) s (SpeResult rd (BitVec.ofInt 32 ((ah.toInt * bh.toInt) / 2 ^ 32) ++ BitVec.ofInt 32 ((al.toInt * bl.toInt) / 2 ^ 32)) true none s) ∧
    Runs (.evmwhumi rd ra rb) s (SpeResult rd (BitVec.ofNat 32 ((ah.toNat * bh.toNat) / 2 ^ 32) ++ BitVec.ofNat 32 ((al.toNat * bl.toNat) / 2 ^ 32)) false none s) ∧
    Runs (.evmwhumia rd ra rb) s (SpeResult rd (BitVec.ofNat 32 ((ah.toNat * bh.toNat) / 2 ^ 32) ++ BitVec.ofNat 32 ((al.toNat * bl.toNat) / 2 ^ 32)) true none s) ∧
    Runs (.evmwlumi rd ra rb) s (SpeResult rd (BitVec.ofNat 32 (ah.toNat * bh.toNat) ++ BitVec.ofNat 32 (al.toNat * bl.toNat)) false none s) ∧
    Runs (.evmwlumia rd ra rb) s (SpeResult rd (BitVec.ofNat 32 (ah.toNat * bh.toNat) ++ BitVec.ofNat 32 (al.toNat * bl.toNat)) true none s) ∧
    Runs (.evmwlsmiaaw rd ra rb) s (SpeResult rd ((ch + BitVec.ofInt 32 (ah.toInt * bh.toInt)) ++ (cl + BitVec.ofInt 32 (al.toInt * bl.toInt))) true none s) ∧
    Runs (.evmwlumiaaw rd ra rb) s (SpeResult rd ((ch + BitVec.ofNat 32 (ah.toNat * bh.toNat)) ++ (cl + BitVec.ofNat 32 (al.toNat * bl.toNat))) true none s) ∧
    Runs (.evaddsmiaaw rd ra) s (SpeResult rd ((ch + ah) ++ (cl + al)) true none s) ∧
    Runs (.evaddumiaaw rd ra) s (SpeResult rd ((ch + ah) ++ (cl + al)) true none s) ∧
    Runs (.evmwlsmianw rd ra rb) s (SpeResult rd ((ch - BitVec.ofInt 32 (ah.toInt * bh.toInt)) ++ (cl - BitVec.ofInt 32 (al.toInt * bl.toInt))) true none s) ∧
    Runs (.evmwlumianw rd ra rb) s (SpeResult rd ((ch - BitVec.ofNat 32 (ah.toNat * bh.toNat)) ++ (cl - BitVec.ofNat 32 (al.toNat * bl.toNat))) true none s) ∧
    Runs (.evsubfsmiaaw rd ra) s (SpeResult rd ((ch - ah) ++ (cl - al)) true none s) ∧
    Runs (.evsubfumiaaw rd ra) s (SpeResult rd ((ch - ah) ++ (cl - al)) true none s) ∧
    Runs (.evmwsmf rd ra rb) s (SpeResult rd (BitVec.ofInt 64 (2 * (al.toInt * bl.toInt))) false none s) ∧
    Runs (.evmwsmfa rd ra rb) s (SpeResult rd (BitVec.ofInt 64 (2 * (al.toInt * bl.toInt))) true none s) ∧
    Runs (.evmwsmfaa rd ra rb) s (SpeResult rd (s.acc + BitVec.ofInt 64 (2 * (al.toInt * bl.toInt))) true none s) ∧
    Runs (.evmwsmfan rd ra rb) s (SpeResult rd (s.acc - BitVec.ofInt 64 (2 * (al.toInt * bl.toInt))) true none s) ∧
    Runs (.evmwsmi rd ra rb) s (SpeResult rd (BitVec.ofInt 64 (al.toInt * bl.toInt)) false none s) ∧
    Runs (.evmwsmia rd ra rb) s (SpeResult rd (BitVec.ofInt 64 (al.toInt * bl.toInt)) true none s) ∧
    Runs (.evmwsmiaa rd ra rb) s (SpeResult rd (s.acc + BitVec.ofInt 64 (al.toInt * bl.toInt)) true none s) ∧
    Runs (.evmwsmian rd ra rb) s (SpeResult rd (s.acc - BitVec.ofInt 64 (al.toInt * bl.toInt)) true none s) ∧
    Runs (.evmwumi rd ra rb) s (SpeResult rd (BitVec.ofNat 64 (al.toNat * bl.toNat)) false none s) ∧
    Runs (.evmwumia rd ra rb) s (SpeResult rd (BitVec.ofNat 64 (al.toNat * bl.toNat)) true none s) ∧
    Runs (.evmwumiaa rd ra rb) s (SpeResult rd (s.acc + BitVec.ofNat 64 (al.toNat * bl.toNat)) true none s) ∧
    Runs (.evmwumian rd ra rb) s (SpeResult rd (s.acc - BitVec.ofNat 64 (al.toNat * bl.toNat)) true none s) ∧
    Runs (.evmwhssf rd ra rb) s (SpeResult rd (BitVec.ofInt 32 (fracProduct ah bh / 2 ^ 32) ++ BitVec.ofInt 32 (fracProduct al bl / 2 ^ 32)) false (some (fracOverflows ah bh, fracOverflows al bl)) s) ∧
    Runs (.evmwhssfa rd ra rb) s (SpeResult rd (BitVec.ofInt 32 (fracProduct ah bh / 2 ^ 32) ++ BitVec.ofInt 32 (fracProduct al bl / 2 ^ 32)) true (some (fracOverflows ah bh, fracOverflows al bl)) s) ∧
    Runs (.evmwlssiaaw rd ra rb) s (SpeResult rd (clampSigned 32 (ch.toInt + (BitVec.ofInt 32 (ah.toInt * bh.toInt)).toInt) ++ clampSigned 32 (cl.toInt + (BitVec.ofInt 32 (al.toInt * bl.toInt)).toInt)) true (some (noFitSigned 32 (ch.toInt + (BitVec.ofInt 32 (ah.toInt * bh.toInt)).toInt), noFitSigned 32 (cl.toInt + (BitVec.ofInt 32 (al.toInt * bl.toInt)).toInt))) s) ∧
    Runs (.evmwlusiaaw rd ra rb) s (SpeResult rd (clampWord ((ch.toNat : Int) + (BitVec.ofNat 32 (ah.toNat * bh.toNat)).toNat) ++ clampWord ((cl.toNat : Int) + (BitVec.ofNat 32 (al.toNat * bl.toNat)).toNat)) true (some (noFitWord ((ch.toNat : Int) + (BitVec.ofNat 32 (ah.toNat * bh.toNat)).toNat), noFitWord ((cl.toNat : Int) + (BitVec.ofNat 32 (al.toNat * bl.toNat)).toNat))) s) ∧
    Runs (.evaddssiaaw rd ra) s (SpeResult rd (clampSigned 32 (ch.toInt + ah.toInt) ++ clampSigned 32 (cl.toInt + al.toInt)) true (some (noFitSigned 32 (ch.toInt + ah.toInt), noFitSigned 32 (cl.toInt + al.toInt))) s) ∧
    Runs (.evaddusiaaw rd ra) s (SpeResult rd (clampWord ((ch.toNat : Int) + ah.toNat) ++ clampWord ((cl.toNat : Int) + al.toNat)) true (some (noFitWord ((ch.toNat : Int) + ah.toNat), noFitWord ((cl.toNat : Int) + al.toNat))) s) ∧
    Runs (.evmwlssianw rd ra rb) s (SpeResult rd (clampSigned 32 (ch.toInt - (BitVec.ofInt 32 (ah.toInt * bh.toInt)).toInt) ++ clampSigned 32 (cl.toInt - (BitVec.ofInt 32 (al.toInt * bl.toInt)).toInt)) true (some (noFitSigned 32 (ch.toInt - (BitVec.ofInt 32 (ah.toInt * bh.toInt)).toInt), noFitSigned 32 (cl.toInt - (BitVec.ofInt 32 (al.toInt * bl.toInt)).toInt))) s) ∧
    Runs (.evmwlusianw rd ra rb) s (SpeResult rd (clampWord ((ch.toNat : Int) - (BitVec.ofNat 32 (ah.toNat * bh.toNat)).toNat) ++ clampWord ((cl.toNat : Int) - (BitVec.ofNat 32 (al.toNat * bl.toNat)).toNat)) true (some (noFitWord ((ch.toNat : Int) - (BitVec.ofNat 32 (ah.toNat * bh.toNat)).toNat), noFitWord ((cl.toNat : Int) - (BitVec.ofNat 32 (al.toNat * bl.toNat)).toNat))) s) ∧
    Runs (.evsubfssiaaw rd ra) s (SpeResult rd (clampSigned 32 (ch.toInt - ah.toInt) ++ clampSigned 32 (cl.toInt - al.toInt)) true (some (noFitSigned 32 (ch.toInt - ah.toInt), noFitSigned 32 (cl.toInt - al.toInt))) s) ∧
    Runs (.evsubfusiaaw rd ra) s (SpeResult rd (clampWord ((ch.toNat : Int) - ah.toNat) ++ clampWord ((cl.toNat : Int) - al.toNat)) true (some (noFitWord ((ch.toNat : Int) - ah.toNat), noFitWord ((cl.toNat : Int) - al.toNat))) s) ∧
    Runs (.evmwssf rd ra rb) s (SpeResult rd (BitVec.ofInt 64 (fracProduct al bl)) false (some (false, fracOverflows al bl)) s) ∧
    Runs (.evmwssfa rd ra rb) s (SpeResult rd (BitVec.ofInt 64 (fracProduct al bl)) true (some (false, fracOverflows al bl)) s) ∧
    Runs (.evmwssfaa rd ra rb) s (SpeResult rd (clampSigned 64 (s.acc.toInt + fracProduct al bl)) true (some (false, fracOverflows al bl || noFitSigned 64 (s.acc.toInt + fracProduct al bl))) s) ∧
    Runs (.evmwssfan rd ra rb) s (SpeResult rd (clampSigned 64 (s.acc.toInt - fracProduct al bl)) true (some (false, fracOverflows al bl || noFitSigned 64 (s.acc.toInt - fracProduct al bl))) s)

/-- The SPE loads: elements, byte order, extension, frame. Every SPE load, D form (an offset scaled by the size) and X form,
with MSR[SPE] set, for every operand whose effective address is a multiple of the boundary of its form (SPE_ALIGN, D20, log
entry 53; by default the size), where the bytes can be read through one TLB entry with the data cache off: the doubleword, words
or halfwords at the real address, each most significant byte first or, on a little-endian page, last, in their places of the
whole destination, with zeros or the sign in the places the form leaves empty; nothing else changes, but for the Parallel
Signature Unit as in Loads. (R1601, R1605, R1610, R1612, R1614, R1616, R1618, R1620, R1622, R1626, R1628, R1630.) -/
def Obligations.SpeLoads : Prop :=
  ∀ (s : State) (rd ra rb : Gpr) (ui : BitVec 5) (p : TlbEntry), s.msr.getLsbD 25 = true →
    let base := if ra = 0#5 then 0#32 else s.gprW ra
    let ex := base + s.gprW rb
    let eu : Nat → Word := fun n => base + BitVec.ofNat 32 (n * ui.toNat)
    let half : Word → Nat → Half := fun ea k => BitVec.ofNat 16 (s.elem p.e ((p.page ea).ra + BitVec.ofNat 32 (2 * k)) 2)
    let word : Word → Nat → Word := fun ea k => BitVec.ofNat 32 (s.elem p.e ((p.page ea).ra + BitVec.ofNat 32 (4 * k)) 4)
    let load : SpeForm → Nat → (Word → DWord) → List (Instr × Word) → Prop := fun f n v is => ∀ q ∈ is,
      q.2.toNat % s.pins.speBoundary f n = 0 → PlainAccess s q.2 n .load p → Runs q.1 s
        (SpeLoadResult rd (v q.2) q.2 (s.mem.bytes (p.page q.2).ra n) s)
    load .evlhhesplat 2 (fun ea => half ea 0 ++ 0#16 ++ half ea 0 ++ 0#16) [(.evlhhesplatx rd ra rb, ex), (.evlhhesplat rd ui ra, eu 2)] ∧
    load .evlhhousplat 2 (fun ea => 0#16 ++ half ea 0 ++ 0#16 ++ half ea 0) [(.evlhhousplatx rd ra rb, ex), (.evlhhousplat rd ui ra, eu 2)] ∧
    load .evlhhossplat 2 (fun ea => (half ea 0).signExtend 32 ++ (half ea 0).signExtend 32)
      [(.evlhhossplatx rd ra rb, ex), (.evlhhossplat rd ui ra, eu 2)] ∧
    load .evlwhe 4 (fun ea => half ea 0 ++ 0#16 ++ half ea 1 ++ 0#16) [(.evlwhex rd ra rb, ex), (.evlwhe rd ui ra, eu 4)] ∧
    load .evlwhou 4 (fun ea => 0#16 ++ half ea 0 ++ 0#16 ++ half ea 1) [(.evlwhoux rd ra rb, ex), (.evlwhou rd ui ra, eu 4)] ∧
    load .evlwhos 4 (fun ea => (half ea 0).signExtend 32 ++ (half ea 1).signExtend 32) [(.evlwhosx rd ra rb, ex), (.evlwhos rd ui ra, eu 4)] ∧
    load .evlwwsplat 4 (fun ea => word ea 0 ++ word ea 0) [(.evlwwsplatx rd ra rb, ex), (.evlwwsplat rd ui ra, eu 4)] ∧
    load .evlwhsplat 4 (fun ea => half ea 0 ++ half ea 0 ++ half ea 1 ++ half ea 1) [(.evlwhsplatx rd ra rb, ex), (.evlwhsplat rd ui ra, eu 4)] ∧
    load .evldd 8 (fun ea => BitVec.ofNat 64 (s.elem p.e (p.page ea).ra 8)) [(.evlddx rd ra rb, ex), (.evldd rd ui ra, eu 8)] ∧
    load .evldw 8 (fun ea => word ea 0 ++ word ea 1) [(.evldwx rd ra rb, ex), (.evldw rd ui ra, eu 8)] ∧
    load .evldh 8 (fun ea => half ea 0 ++ half ea 1 ++ half ea 2 ++ half ea 3) [(.evldhx rd ra rb, ex), (.evldh rd ui ra, eu 8)]

/-- The SPE stores: elements, byte order, bytes stored, frame. Every SPE store, D form (an offset scaled by the size) and X
form, with MSR[SPE] set, for every operand whose effective address is a multiple of the boundary of its form (SPE_ALIGN, D20,
log entry 53; by default the size), where the bytes can be written through one TLB entry with the data cache off: the
doubleword, words or halfwords of the source stand at the real address, each in the byte order of the page; every byte outside,
every register and all else is as before, but for the Parallel Signature Unit and the older bytes that a fetch may still read,
as in Stores. (R1601, R1605, R1632, R1634, R1636, R1638, R1640, R1642, R1644.) -/
def Obligations.SpeStores : Prop :=
  ∀ (s : State) (rs ra rb : Gpr) (ui : BitVec 5) (p : TlbEntry), s.msr.getLsbD 25 = true → s.mem.wf = true →
    let base := if ra = 0#5 then 0#32 else s.gprW ra
    let ex := base + s.gprW rb
    let eu : Nat → Word := fun n => base + BitVec.ofNat 32 (n * ui.toNat)
    let h : Nat → Nat := fun k => ((s.gprD rs).extractLsb' (48 - 16 * k) 16).toNat
    let store : SpeForm → Nat → List Nat → List (Instr × Word) → Prop := fun f n v is => ∀ q ∈ is,
      q.2.toNat % s.pins.speBoundary f (n * v.length) = 0 → PlainAccess s q.2 (n * v.length) .store p →
        Runs q.1 s (StoreResult 4 n p.e (p.page q.2).ra v none q.2 s)
    store .evstwhe 2 [h 0, h 2] [(.evstwhex rs ra rb, ex), (.evstwhe rs ui ra, eu 4)] ∧
    store .evstwho 2 [h 1, h 3] [(.evstwhox rs ra rb, ex), (.evstwho rs ui ra, eu 4)] ∧
    store .evstwwe 4 [(s.gprH rs).toNat] [(.evstwwex rs ra rb, ex), (.evstwwe rs ui ra, eu 4)] ∧
    store .evstwwo 4 [(s.gprW rs).toNat] [(.evstwwox rs ra rb, ex), (.evstwwo rs ui ra, eu 4)] ∧
    store .evstdd 8 [(s.gprD rs).toNat] [(.evstddx rs ra rb, ex), (.evstdd rs ui ra, eu 8)] ∧
    store .evstdw 4 [(s.gprH rs).toNat, (s.gprW rs).toNat] [(.evstdwx rs ra rb, ex), (.evstdw rs ui ra, eu 8)] ∧
    store .evstdh 2 [h 0, h 1, h 2, h 3] [(.evstdhx rs ra rb, ex), (.evstdh rs ui ra, eu 8)]

/-- The scalar floating-point instructions with no exception enabled. efsabs, efsnabs, efsneg, efsadd, efssub, efsmul,
efsdiv, the multiply-adds, efssqrt, efsmax, efsmin and the conversions, whatever MSR[SPE] is, for every operand, with
no floating-point exception enabled: the result of the operation (in the rounding mode of SPEFSCR[FRMC], or toward
zero in the z forms) in the low word of the destination, the high word kept; the low status bits of SPEFSCR replaced,
the high ones cleared, the sticky bits added to; all else stays. (R1110, R1124, R1125, R1126, R1127, R1129, R1130,
R1131, R1135, R1136, R1144, R1154.) -/
def Obligations.EfpuScalar : Prop :=
  ∀ (s : State) (rd ra rb : Gpr), s.fpQuiet →
    let a := s.gprW ra
    let b := s.gprW rb
    let d := s.gprW rd
    let m := s.frmc
    Runs (.efsabs rd ra) s (FpScalarResult rd (FpOut.plain (fSpecial a) (a &&& 0x7FFFFFFF#32)) s) ∧
    Runs (.efsnabs rd ra) s (FpScalarResult rd (FpOut.plain (fSpecial a) (a ||| 0x80000000#32)) s) ∧
    Runs (.efsneg rd ra) s (FpScalarResult rd (FpOut.plain (fSpecial a) (a ^^^ 0x80000000#32)) s) ∧
    Runs (.efsadd rd ra rb) s (FpScalarResult rd (fAdd m a b) s) ∧
    Runs (.efssub rd ra rb) s (FpScalarResult rd (fAdd m a (b ^^^ 0x80000000#32)) s) ∧
    Runs (.efsmul rd ra rb) s (FpScalarResult rd (fMul m a b) s) ∧
    Runs (.efsdiv rd ra rb) s (FpScalarResult rd (fDiv m a b) s) ∧
    Runs (.efsmadd rd ra rb) s (FpScalarResult rd (fMAdd m .madd a b d) s) ∧
    Runs (.efsmsub rd ra rb) s (FpScalarResult rd (fMAdd m .msub a b d) s) ∧
    Runs (.efsnmadd rd ra rb) s (FpScalarResult rd (fMAdd m .nmadd a b d) s) ∧
    Runs (.efsnmsub rd ra rb) s (FpScalarResult rd (fMAdd m .nmsub a b d) s) ∧
    Runs (.efssqrt rd ra) s (FpScalarResult rd (fSqrt m a) s) ∧
    Runs (.efsmax rd ra rb) s (FpScalarResult rd (fMinMax true a b) s) ∧
    Runs (.efsmin rd ra rb) s (FpScalarResult rd (fMinMax false a b) s) ∧
    Runs (.efscfsi rd rb) s (FpScalarResult rd (fCvtFrom m .si b) s) ∧
    Runs (.efscfui rd rb) s (FpScalarResult rd (fCvtFrom m .ui b) s) ∧
    Runs (.efscfsf rd rb) s (FpScalarResult rd (fCvtFrom m .sf b) s) ∧
    Runs (.efscfuf rd rb) s (FpScalarResult rd (fCvtFrom m .uf b) s) ∧
    Runs (.efsctsi rd rb) s (FpScalarResult rd (fCvtTo m .si b) s) ∧
    Runs (.efsctui rd rb) s (FpScalarResult rd (fCvtTo m .ui b) s) ∧
    Runs (.efsctsf rd rb) s (FpScalarResult rd (fCvtTo m .sf b) s) ∧
    Runs (.efsctuf rd rb) s (FpScalarResult rd (fCvtTo m .uf b) s) ∧
    Runs (.efsctsiz rd rb) s (FpScalarResult rd (fCvtTo 1#2 .si b) s) ∧
    Runs (.efsctuiz rd rb) s (FpScalarResult rd (fCvtTo 1#2 .ui b) s) ∧
    Runs (.efscfh rd rb) s (FpScalarResult rd (fFromHalf (b.extractLsb' 0 16)) s) ∧
    Runs (.efscth rd rb) s (FpScalarResult rd (fToHalf m b) s)

/-- The compares and tests of the EFPU and the SPE unit: CR field, status, frame. evcmpeq, evcmpgts, evcmpgtu,
evcmplts, evcmpltu, the vector floating-point compares and tests, with MSR[SPE] set, put the high outcome, the low
one, either and both in the four bits of the CR field; the scalar compares and tests, whatever MSR[SPE] is, put their
outcome in its second bit (the other three bits are not fixed by the spec and free in the model, log entry 19).
Floating-point operands are ordered as sign and magnitude, +0 equal to -0. A floating-point compare, with no exception
enabled, reports operands that are infinite, NaN or denormalized as invalid; a test reports nothing. All else stays.
(R1120, 45_efpu_scalar.md R1138 to R1143, 46_efpu_vector.md R1232 to R1237, R1408, R1416 to R1420.) -/
def Obligations.Comparisons : Prop :=
  ∀ (s : State) (f : CrField) (ra rb : Gpr),
    let ah := s.gprH ra
    let al := s.gprW ra
    let bh := s.gprH rb
    let bl := s.gprW rb
    let num : Word → Int := fun v => if v.getLsbD 31 then -((v.extractLsb' 0 31).toNat : Int) else (v.extractLsb' 0 31).toNat
    let out : Word → Word → FpOut := fun x y => FpOut.plain (fSpecial x || fSpecial y) 0#32
    let mid : Bool → State → Prop := fun c t => (crField t.cr f).getLsbD 2 = c ∧ SameCrBut f s t ∧ SameGprs s t
    let four : Bool → Bool → State → Prop := fun h l t => (crField t.cr f).getLsbD 3 = h ∧ (crField t.cr f).getLsbD 2 = l ∧
      (crField t.cr f).getLsbD 1 = (h || l) ∧ (crField t.cr f).getLsbD 0 = (h && l) ∧ SameCrBut f s t ∧ SameGprs s t
    (s.fpQuiet → Runs (.efscmpgt f ra rb) s (fun t => mid (decide (num bl < num al)) t ∧ FpStatus FpOut.none (out al bl) s t ∧ FpRest s t)) ∧
    Runs (.efststgt f ra rb) s (fun t => mid (decide (num bl < num al)) t ∧ t.spefscr = s.spefscr ∧ FpRest s t) ∧
    (s.fpQuiet → s.msr.getLsbD 25 = true → Runs (.evfscmpgt f ra rb) s (fun t => four (decide (num bh < num ah)) (decide (num bl < num al)) t ∧ FpStatus (out ah bh) (out al bl) s t ∧ FpRest s t)) ∧
    (s.msr.getLsbD 25 = true → Runs (.evfststgt f ra rb) s (fun t => four (decide (num bh < num ah)) (decide (num bl < num al)) t ∧ t.spefscr = s.spefscr ∧ FpRest s t)) ∧
    (s.fpQuiet → Runs (.efscmplt f ra rb) s (fun t => mid (decide (num al < num bl)) t ∧ FpStatus FpOut.none (out al bl) s t ∧ FpRest s t)) ∧
    Runs (.efststlt f ra rb) s (fun t => mid (decide (num al < num bl)) t ∧ t.spefscr = s.spefscr ∧ FpRest s t) ∧
    (s.fpQuiet → s.msr.getLsbD 25 = true → Runs (.evfscmplt f ra rb) s (fun t => four (decide (num ah < num bh)) (decide (num al < num bl)) t ∧ FpStatus (out ah bh) (out al bl) s t ∧ FpRest s t)) ∧
    (s.msr.getLsbD 25 = true → Runs (.evfststlt f ra rb) s (fun t => four (decide (num ah < num bh)) (decide (num al < num bl)) t ∧ t.spefscr = s.spefscr ∧ FpRest s t)) ∧
    (s.fpQuiet → Runs (.efscmpeq f ra rb) s (fun t => mid (decide (num al = num bl)) t ∧ FpStatus FpOut.none (out al bl) s t ∧ FpRest s t)) ∧
    Runs (.efststeq f ra rb) s (fun t => mid (decide (num al = num bl)) t ∧ t.spefscr = s.spefscr ∧ FpRest s t) ∧
    (s.fpQuiet → s.msr.getLsbD 25 = true → Runs (.evfscmpeq f ra rb) s (fun t => four (decide (num ah = num bh)) (decide (num al = num bl)) t ∧ FpStatus (out ah bh) (out al bl) s t ∧ FpRest s t)) ∧
    (s.msr.getLsbD 25 = true → Runs (.evfststeq f ra rb) s (fun t => four (decide (num ah = num bh)) (decide (num al = num bl)) t ∧ t.spefscr = s.spefscr ∧ FpRest s t)) ∧
    (s.msr.getLsbD 25 = true → Runs (.evcmpgts f ra rb) s (fun t => four (decide (bh.toInt < ah.toInt)) (decide (bl.toInt < al.toInt)) t ∧ t.spefscr = s.spefscr ∧ FpRest s t)) ∧
    (s.msr.getLsbD 25 = true → Runs (.evcmplts f ra rb) s (fun t => four (decide (ah.toInt < bh.toInt)) (decide (al.toInt < bl.toInt)) t ∧ t.spefscr = s.spefscr ∧ FpRest s t)) ∧
    (s.msr.getLsbD 25 = true → Runs (.evcmpgtu f ra rb) s (fun t => four (decide (bh.toNat < ah.toNat)) (decide (bl.toNat < al.toNat)) t ∧ t.spefscr = s.spefscr ∧ FpRest s t)) ∧
    (s.msr.getLsbD 25 = true → Runs (.evcmpltu f ra rb) s (fun t => four (decide (ah.toNat < bh.toNat)) (decide (al.toNat < bl.toNat)) t ∧ t.spefscr = s.spefscr ∧ FpRest s t)) ∧
    (s.msr.getLsbD 25 = true → Runs (.evcmpeq f ra rb) s (fun t => four (decide (ah.toNat = bh.toNat)) (decide (al.toNat = bl.toNat)) t ∧ t.spefscr = s.spefscr ∧ FpRest s t))

/-- The vector floating-point instructions with no exception enabled. Every vector floating-point instruction but the
compares and tests, with MSR[SPE] set, for every operand, with no floating-point exception enabled: a result in each
word of the destination, of the elements the form pairs (same, crossed, even, odd, or the two elements of one
register); the status bits of SPEFSCR of both elements replaced, the sticky bits added to; all else stays. (R1201,
R1205, R1208, R1210, R1212, R1216, R1220, R1222, R1226, R1230, R1238, R1242.) -/
def Obligations.EfpuVector : Prop :=
  ∀ (s : State) (rd ra rb : Gpr), s.fpQuiet → s.msr.getLsbD 25 = true →
    let ah := s.gprH ra
    let al := s.gprW ra
    let bh := s.gprH rb
    let bl := s.gprW rb
    let dh := s.gprH rd
    let dl := s.gprW rd
    let m := s.frmc
    Runs (.evfsabs rd ra) s (FpVectorResult rd (FpOut.plain (fSpecial ah) (ah &&& 0x7FFFFFFF#32)) (FpOut.plain (fSpecial al) (al &&& 0x7FFFFFFF#32)) s) ∧
    Runs (.evfsnabs rd ra) s (FpVectorResult rd (FpOut.plain (fSpecial ah) (ah ||| 0x80000000#32)) (FpOut.plain (fSpecial al) (al ||| 0x80000000#32)) s) ∧
    Runs (.evfsneg rd ra) s (FpVectorResult rd (FpOut.plain (fSpecial ah) (ah ^^^ 0x80000000#32)) (FpOut.plain (fSpecial al) (al ^^^ 0x80000000#32)) s) ∧
    Runs (.evfsadd rd ra rb) s (FpVectorResult rd (fAdd m ah bh) (fAdd m al bl) s) ∧
    Runs (.evfssub rd ra rb) s (FpVectorResult rd (fAdd m ah (bh ^^^ 0x80000000#32)) (fAdd m al (bl ^^^ 0x80000000#32)) s) ∧
    Runs (.evfsmul rd ra rb) s (FpVectorResult rd (fMul m ah bh) (fMul m al bl) s) ∧
    Runs (.evfsdiv rd ra rb) s (FpVectorResult rd (fDiv m ah bh) (fDiv m al bl) s) ∧
    Runs (.evfsaddsub rd ra rb) s (FpVectorResult rd (fAdd m ah bh) (fAdd m al (bl ^^^ 0x80000000#32)) s) ∧
    Runs (.evfssubadd rd ra rb) s (FpVectorResult rd (fAdd m ah (bh ^^^ 0x80000000#32)) (fAdd m al bl) s) ∧
    Runs (.evfsaddx rd ra rb) s (FpVectorResult rd (fAdd m al bh) (fAdd m ah bl) s) ∧
    Runs (.evfssubx rd ra rb) s (FpVectorResult rd (fAdd m al (bh ^^^ 0x80000000#32)) (fAdd m ah (bl ^^^ 0x80000000#32)) s) ∧
    Runs (.evfsaddsubx rd ra rb) s (FpVectorResult rd (fAdd m al bh) (fAdd m ah (bl ^^^ 0x80000000#32)) s) ∧
    Runs (.evfssubaddx rd ra rb) s (FpVectorResult rd (fAdd m al (bh ^^^ 0x80000000#32)) (fAdd m ah bl) s) ∧
    Runs (.evfsmulx rd ra rb) s (FpVectorResult rd (fMul m al bh) (fMul m ah bl) s) ∧
    Runs (.evfsmule rd ra rb) s (FpVectorResult rd (fMul m ah bh) (fMul m ah bl) s) ∧
    Runs (.evfsmulo rd ra rb) s (FpVectorResult rd (fMul m al bh) (fMul m al bl) s) ∧
    Runs (.evfssum rd ra rb) s (FpVectorResult rd (fAdd m ah al) (fAdd m bh bl) s) ∧
    Runs (.evfsdiff rd ra rb) s (FpVectorResult rd (fAdd m ah (al ^^^ 0x80000000#32)) (fAdd m bh (bl ^^^ 0x80000000#32)) s) ∧
    Runs (.evfssumdiff rd ra rb) s (FpVectorResult rd (fAdd m ah al) (fAdd m bh (bl ^^^ 0x80000000#32)) s) ∧
    Runs (.evfsdiffsum rd ra rb) s (FpVectorResult rd (fAdd m ah (al ^^^ 0x80000000#32)) (fAdd m bh bl) s) ∧
    Runs (.evfsmadd rd ra rb) s (FpVectorResult rd (fMAdd m .madd ah bh dh) (fMAdd m .madd al bl dl) s) ∧
    Runs (.evfsmsub rd ra rb) s (FpVectorResult rd (fMAdd m .msub ah bh dh) (fMAdd m .msub al bl dl) s) ∧
    Runs (.evfsnmadd rd ra rb) s (FpVectorResult rd (fMAdd m .nmadd ah bh dh) (fMAdd m .nmadd al bl dl) s) ∧
    Runs (.evfsnmsub rd ra rb) s (FpVectorResult rd (fMAdd m .nmsub ah bh dh) (fMAdd m .nmsub al bl dl) s) ∧
    Runs (.evfssqrt rd ra) s (FpVectorResult rd (fSqrt m ah) (fSqrt m al) s) ∧
    Runs (.evfsmax rd ra rb) s (FpVectorResult rd (fMinMax true ah bh) (fMinMax true al bl) s) ∧
    Runs (.evfsmin rd ra rb) s (FpVectorResult rd (fMinMax false ah bh) (fMinMax false al bl) s) ∧
    Runs (.evfscfsi rd rb) s (FpVectorResult rd (fCvtFrom m .si bh) (fCvtFrom m .si bl) s) ∧
    Runs (.evfscfui rd rb) s (FpVectorResult rd (fCvtFrom m .ui bh) (fCvtFrom m .ui bl) s) ∧
    Runs (.evfscfsf rd rb) s (FpVectorResult rd (fCvtFrom m .sf bh) (fCvtFrom m .sf bl) s) ∧
    Runs (.evfscfuf rd rb) s (FpVectorResult rd (fCvtFrom m .uf bh) (fCvtFrom m .uf bl) s) ∧
    Runs (.evfsctsi rd rb) s (FpVectorResult rd (fCvtTo m .si bh) (fCvtTo m .si bl) s) ∧
    Runs (.evfsctui rd rb) s (FpVectorResult rd (fCvtTo m .ui bh) (fCvtTo m .ui bl) s) ∧
    Runs (.evfsctsf rd rb) s (FpVectorResult rd (fCvtTo m .sf bh) (fCvtTo m .sf bl) s) ∧
    Runs (.evfsctuf rd rb) s (FpVectorResult rd (fCvtTo m .uf bh) (fCvtTo m .uf bl) s) ∧
    Runs (.evfsctsiz rd rb) s (FpVectorResult rd (fCvtTo 1#2 .si bh) (fCvtTo 1#2 .si bl) s) ∧
    Runs (.evfsctuiz rd rb) s (FpVectorResult rd (fCvtTo 1#2 .ui bh) (fCvtTo 1#2 .ui bl) s) ∧
    Runs (.evfscfh rd rb) s (FpVectorResult rd (fFromHalf (bh.extractLsb' 0 16)) (fFromHalf (bl.extractLsb' 0 16)) s) ∧
    Runs (.evfscth rd rb) s (FpVectorResult rd (fToHalf m bh) (fToHalf m bl) s)

/-- The floating-point Data and Round interrupts. Every scalar floating-point instruction and, with MSR[SPE] set, every vector
one, for every operand: where an element reports an invalid operand, division by zero, underflow or overflow and SPEFSCR enables
it, the Data interrupt is taken with SRR0 the address of the instruction, no register and no CR field changes, the guard and
sticky bits are cleared, FINXS stays, and the other status and sticky bits of SPEFSCR are set as without the interrupt;
otherwise, where an element is not exact and FINXE is set, the Round interrupt is taken with SRR0 the address of the next
instruction, the destination holds the truncated result of each element that is not exact, where the spec defines one, and the
result of the others, and the status and sticky bits are set. efscth and evfscth leave the high half of each of their words zero
even then. (R2065, R2066, R1110, R1111, R1112, R1155, R1201, R1249.) -/
def Obligations.FpExceptions : Prop :=
  ∀ (s : State) (f : CrField) (rd ra rb : Gpr),
    let ah := s.gprH ra
    let al := s.gprW ra
    let bh := s.gprH rb
    let bl := s.gprW rb
    let dh := s.gprH rd
    let dl := s.gprW rd
    let m := s.frmc
    let one : Instr → FpOut → Prop := fun i o => FpDataTaken i FpOut.none o s ∧ FpRoundTaken i FpOut.none o
      (fun t => t.gprH rd = dh ∧ FpDelivered o (t.gprW rd) ∧ SameGprsBut rd s t) s
    let both : Instr → FpOut → FpOut → Prop := fun i oh ol => FpDataTaken i oh ol s ∧ FpRoundTaken i oh ol
      (fun t => FpDelivered oh (t.gprH rd) ∧ FpDelivered ol (t.gprW rd) ∧ SameGprsBut rd s t) s
    let neg : Word → Word := fun v => v ^^^ 0x80000000#32
    let sum : Word → Word → FpOut := fAdd m
    let dif : Word → Word → FpOut := fun x y => fAdd m x (neg y)
    let unary : (Word → FpOut) → Instr × Instr → Word → Word → Prop := fun g i xh xl => one i.1 (g xl) ∧
      (s.msr.getLsbD 25 = true → both i.2 (g xh) (g xl))
    let binary : (Word → Word → FpOut) → Instr × Instr → Prop := fun g i => one i.1 (g al bl) ∧
      (s.msr.getLsbD 25 = true → both i.2 (g ah bh) (g al bl))
    let madd : MaddKind → Instr × Instr → Prop := fun k i => one i.1 (fMAdd m k al bl dl) ∧
      (s.msr.getLsbD 25 = true → both i.2 (fMAdd m k ah bh dh) (fMAdd m k al bl dl))
    let invalid : Word → Word → FpOut := fun x y => FpOut.plain (fSpecial x || fSpecial y) 0#32
    unary (fun a => FpOut.plain (fSpecial a) (a &&& 0x7FFFFFFF#32)) (.efsabs rd ra, .evfsabs rd ra) ah al ∧
    unary (fun a => FpOut.plain (fSpecial a) (a ||| 0x80000000#32)) (.efsnabs rd ra, .evfsnabs rd ra) ah al ∧
    unary (fun a => FpOut.plain (fSpecial a) (neg a)) (.efsneg rd ra, .evfsneg rd ra) ah al ∧
    unary (fSqrt m) (.efssqrt rd ra, .evfssqrt rd ra) ah al ∧
    binary sum (.efsadd rd ra rb, .evfsadd rd ra rb) ∧ binary dif (.efssub rd ra rb, .evfssub rd ra rb) ∧
    binary (fMul m) (.efsmul rd ra rb, .evfsmul rd ra rb) ∧ binary (fDiv m) (.efsdiv rd ra rb, .evfsdiv rd ra rb) ∧
    binary (fMinMax true) (.efsmax rd ra rb, .evfsmax rd ra rb) ∧ binary (fMinMax false) (.efsmin rd ra rb, .evfsmin rd ra rb) ∧
    madd .madd (.efsmadd rd ra rb, .evfsmadd rd ra rb) ∧ madd .msub (.efsmsub rd ra rb, .evfsmsub rd ra rb) ∧
    madd .nmadd (.efsnmadd rd ra rb, .evfsnmadd rd ra rb) ∧ madd .nmsub (.efsnmsub rd ra rb, .evfsnmsub rd ra rb) ∧
    unary (fCvtFrom m .si) (.efscfsi rd rb, .evfscfsi rd rb) bh bl ∧ unary (fCvtFrom m .ui) (.efscfui rd rb, .evfscfui rd rb) bh bl ∧
    unary (fCvtFrom m .sf) (.efscfsf rd rb, .evfscfsf rd rb) bh bl ∧ unary (fCvtFrom m .uf) (.efscfuf rd rb, .evfscfuf rd rb) bh bl ∧
    unary (fCvtTo m .si) (.efsctsi rd rb, .evfsctsi rd rb) bh bl ∧ unary (fCvtTo m .ui) (.efsctui rd rb, .evfsctui rd rb) bh bl ∧
    unary (fCvtTo m .sf) (.efsctsf rd rb, .evfsctsf rd rb) bh bl ∧ unary (fCvtTo m .uf) (.efsctuf rd rb, .evfsctuf rd rb) bh bl ∧
    unary (fCvtTo 1#2 .si) (.efsctsiz rd rb, .evfsctsiz rd rb) bh bl ∧
    unary (fCvtTo 1#2 .ui) (.efsctuiz rd rb, .evfsctuiz rd rb) bh bl ∧
    unary (fun b => fFromHalf (b.extractLsb' 0 16)) (.efscfh rd rb, .evfscfh rd rb) bh bl ∧
    unary (fToHalf m) (.efscth rd rb, .evfscth rd rb) bh bl ∧
    (s.msr.getLsbD 25 = true →
      both (.evfsaddsub rd ra rb) (sum ah bh) (dif al bl) ∧ both (.evfssubadd rd ra rb) (dif ah bh) (sum al bl) ∧
      both (.evfsaddx rd ra rb) (sum al bh) (sum ah bl) ∧ both (.evfssubx rd ra rb) (dif al bh) (dif ah bl) ∧
      both (.evfsaddsubx rd ra rb) (sum al bh) (dif ah bl) ∧ both (.evfssubaddx rd ra rb) (dif al bh) (sum ah bl) ∧
      both (.evfssum rd ra rb) (sum ah al) (sum bh bl) ∧ both (.evfsdiff rd ra rb) (dif ah al) (dif bh bl) ∧
      both (.evfssumdiff rd ra rb) (sum ah al) (dif bh bl) ∧ both (.evfsdiffsum rd ra rb) (dif ah al) (sum bh bl) ∧
      both (.evfsmulx rd ra rb) (fMul m al bh) (fMul m ah bl) ∧ both (.evfsmule rd ra rb) (fMul m ah bh) (fMul m ah bl) ∧
      both (.evfsmulo rd ra rb) (fMul m al bh) (fMul m al bl)) ∧
    (∀ i ∈ [(.efscmpgt f ra rb : Instr), .efscmplt f ra rb, .efscmpeq f ra rb], FpDataTaken i FpOut.none (invalid al bl) s) ∧
    (s.msr.getLsbD 25 = true → ∀ i ∈ [(.evfscmpgt f ra rb : Instr), .evfscmplt f ra rb, .evfscmpeq f ra rb],
      FpDataTaken i (invalid ah bh) (invalid al bl) s) ∧
    (s.fpTraps FpOut.none (fToHalf m bl) = false → Runs (.efscth rd rb) s fun t => (t.gprW rd).extractLsb' 16 16 = 0#16) ∧
    (s.msr.getLsbD 25 = true → s.fpTraps (fToHalf m bh) (fToHalf m bl) = false → Runs (.evfscth rd rb) s fun t =>
      (t.gprH rd).extractLsb' 16 16 = 0#16 ∧ (t.gprW rd).extractLsb' 16 16 = 0#16)

/-- What the floating-point operations compute, in terms of real numbers. For all operands and every rounding mode: an
operation on normalized numbers gives the exact sum, product, quotient, square root or a * b + d (with the signs of the four
multiply-add kinds, rounded once and negated after) rounded to 24 digits as the mode says, ties to even, with guard and
sticky bits, the truncated number, and overflow and underflow judged after rounding; an exact sum of zero is +0, or -0 toward
minus infinity, and so is an underflow of a sum; operands that are zero, denormalized, infinite or NaN give the default
results; minimum and maximum choose an operand, a NaN never where the other is none. That ties go to even, that a multiply-add
rounds once (D12) and that an exact sum of zero has that sign are the spec's own readings (R1108, R1119, R1115), marked there
as not in its source. (R1105, R1107, R1108, R1109, R1115, R1116, R1117, R1118, R1119, R1121.) -/
def Obligations.FpArithmetic : Prop :=
  ∀ (m : BitVec 2) (a b d : Word),
    let sgn : Word := 0x80000000#32
    let top : Word := 0x7F7FFFFF#32
    let s := (a ^^^ b) &&& sgn
    let z := if m = 3#2 then sgn else 0#32
    let inv := fpSpecial a || fpSpecial b
    ((fpE a = 255 → fAdd m a b = .plain true (a &&& sgn ||| top)) ∧
      (fpE a ≠ 255 → fpE b = 255 → fAdd m a b = .plain true (b &&& sgn ||| top)) ∧
      (fpE a = 0 → fpE b = 0 → fAdd m a b = .plain inv (if s = 0#32 then a &&& sgn else z)) ∧
      (fpNorm a → fpE b = 0 → fAdd m a b = .plain inv a) ∧ (fpE a = 0 → fpNorm b → fAdd m a b = .plain inv b) ∧
      (fpNorm a → fpNorm b → fpValue a + fpValue b = 0 → fAdd m a b = .plain false z) ∧
      (fpNorm a → fpNorm b → fpValue a + fpValue b ≠ 0 → FpSingle m (fpValue a + fpValue b) z (fAdd m a b))) ∧
    ((fpE a = 0 ∨ fpE b = 0 → fMul m a b = .plain inv s) ∧
      (fpE a ≠ 0 → fpE b ≠ 0 → fpE a = 255 ∨ fpE b = 255 → fMul m a b = .plain true (s ||| top)) ∧
      (fpNorm a → fpNorm b → FpSingle m (fpValue a * fpValue b) s (fMul m a b))) ∧
    ((fpE b = 255 → fDiv m a b = .plain true s) ∧
      (fpE b ≠ 255 → fpE a = 255 → fDiv m a b = .plain true (s ||| top)) ∧
      (fpNorm a → fpE b = 0 → fpF b = 0 → fDiv m a b = { FpOut.plain false (s ||| top) with dbz := true }) ∧
      (fpE b = 0 → fpE a = 0 ∨ fpNorm a ∧ fpF b ≠ 0 → fDiv m a b = .plain true (s ||| top)) ∧
      (fpE a = 0 → fpNorm b → fDiv m a b = .plain (fpSpecial a) s) ∧
      (fpNorm a → fpNorm b → FpSingle m (fpValue a / fpValue b) s (fDiv m a b))) ∧
    ((fpE a = 0 → fSqrt m a = .plain (fpSpecial a) (a &&& sgn)) ∧
      (fpE a = 255 → a.msb = false → fSqrt m a = .plain true top) ∧
      (fpE a ≠ 0 → a.msb = true → fSqrt m a = .plain true sgn) ∧
      (fpNorm a → a.msb = false → FpSingle m (Real.sqrt (fpValue a)) z (fSqrt m a))) ∧
    (∀ k ∈ [(MaddKind.madd, false, false), (.msub, false, true), (.nmadd, true, false), (.nmsub, true, true)],
      let c := if k.2.2 then d ^^^ sgn else d
      let o := if k.2.1 then (fMAdd m k.1 a b d).map (· ^^^ sgn) else fMAdd m k.1 a b d
      let inv := inv || fpSpecial d
      let r := fpValue a * fpValue b + (if fpE d = 0 then 0 else fpValue c)
      (fpE a ≠ 0 → fpE b ≠ 0 → fpE a = 255 ∨ fpE b = 255 → o = .plain true (s ||| top)) ∧
      (fpE a = 0 ∨ fpE b = 0 ∨ fpNorm a ∧ fpNorm b → fpE d = 255 → o = .plain true (c &&& sgn ||| top)) ∧
      (fpE a = 0 ∨ fpE b = 0 → fpE d = 0 → o = .plain inv (if s = c &&& sgn then s else z)) ∧
      (fpE a = 0 ∨ fpE b = 0 → fpNorm d → o = .plain inv c) ∧
      (fpNorm a → fpNorm b → fpNorm d ∨ fpE d = 0 ∧ fpF d = 0 → r = 0 → o = .plain false z) ∧
      (fpNorm a → fpNorm b → fpNorm d ∨ fpE d = 0 ∧ fpF d = 0 → r ≠ 0 → FpSingle m r z o) ∧
      (fpNorm a → fpNorm b → fpE d = 0 → fpF d ≠ 0 → ∃ q, FpSingle m r z q ∧ o = .plain true q.result)) ∧
    (∀ big : Bool,
      let key : Word → Int := fun v => if v.msb then -1 - (v.extractLsb' 0 31).toNat else (v.extractLsb' 0 31).toNat
      let t := if fpNan a && !fpNan b then b else if fpNan b && !fpNan a then a
        else if decide (key a < key b) = big then b else a
      fMinMax big a b = .plain inv (if fpE t = 0 then t &&& sgn else if fpE t = 255 then t &&& sgn ||| top else t))

/-- What the floating-point conversions compute, in terms of real numbers. For all operands and every rounding mode: a number
of a 32-bit integer or fraction is the integer, over 2^31 or 2^32 for a fraction, rounded to 24 digits, +0 for zero; an
integer or fraction of a normalized number is its value, times 2^31 or 2^32, rounded to an integer where it lies in the
range, else the nearest end of the range with an invalid operation (a negative one of an unsigned kind gives 0); a zero or a
denormalized number gives 0, a NaN 0 with an invalid operation; half precision widens exactly and narrows by rounding to 11
digits. (R1106, R1108, R1122, R1123, R1154, R1155.) -/
def Obligations.FpConversions : Prop :=
  ∀ (m : BitVec 2) (b : Word) (h : BitVec 16),
    let neg := b.msb
    let x := fpValue b
    (∀ p ∈ [(CvtKind.si, (b.toInt : ℝ)), (.ui, (b.toNat : ℝ)), (.sf, (b.toInt : ℝ) / 2 ^ 31), (.uf, (b.toNat : ℝ) / 2 ^ 32)],
      (b = 0#32 → fCvtFrom m p.1 b = .plain false 0#32) ∧ (b ≠ 0#32 → FpSingle m p.2 0#32 (fCvtFrom m p.1 b))) ∧
    (∀ p ∈ [(CvtKind.si, (1 : ℝ)), (.sf, 2 ^ 31)],
      (fpE b = 0 → fCvtTo m p.1 b = .plain (fpSpecial b) 0#32) ∧
      (fpNorm b → |x * p.2| < 2 ^ 31 → FpInteger m (x * p.2) (fCvtTo m p.1 b)) ∧
      (fpNorm b → x * p.2 = -2 ^ 31 → fCvtTo m p.1 b = .plain false 0x80000000#32) ∧
      (fpNorm b ∧ x * p.2 < -2 ^ 31 ∨ fpE b = 255 ∧ fpF b = 0 ∧ neg = true → fCvtTo m p.1 b = .plain true 0x80000000#32) ∧
      (fpNorm b ∧ 2 ^ 31 ≤ x * p.2 ∨ fpE b = 255 ∧ fpF b = 0 ∧ neg = false → fCvtTo m p.1 b = .plain true 0x7FFFFFFF#32) ∧
      (fpNan b = true → fCvtTo m p.1 b = .plain true 0#32)) ∧
    (∀ p ∈ [(CvtKind.ui, (1 : ℝ)), (.uf, 2 ^ 32)],
      (fpE b = 0 → fCvtTo m p.1 b = .plain (fpSpecial b) 0#32) ∧
      (fpNorm b → neg = true → fCvtTo m p.1 b = .plain false 0#32) ∧
      (fpNorm b → neg = false → x * p.2 < 2 ^ 32 → FpInteger m (x * p.2) (fCvtTo m p.1 b)) ∧
      (fpNorm b ∧ 2 ^ 32 ≤ x * p.2 ∨ fpE b = 255 ∧ fpF b = 0 ∧ neg = false → fCvtTo m p.1 b = .plain true 0xFFFFFFFF#32) ∧
      (fpNan b = true ∨ fpE b = 255 ∧ neg = true → fCvtTo m p.1 b = .plain true 0#32)) ∧
    (let e := (h.extractLsb' 10 5).toNat
     let sign : Word := if h.msb then 0x80000000#32 else 0#32
     (e = 0 → fFromHalf h = .plain (decide (h.extractLsb' 0 10 ≠ 0#10)) sign) ∧
     (e = 31 → fFromHalf h = .plain true (sign ||| 0x7F7FFFFF#32)) ∧
     (e ≠ 0 → e ≠ 31 → ∃ w, fFromHalf h = .plain false w ∧ fpIs w (halfValue h))) ∧
    (let sign : Word := if neg then 0x8000#32 else 0#32
     (fpE b = 0 → fToHalf m b = .plain (fpSpecial b) sign) ∧
     (fpE b = 255 → fToHalf m b = .plain true (sign ||| 0x7BFF#32)) ∧
     (fpNorm b → FpRounds 11 (2 ^ (-14 : ℤ)) (2 ^ 16) halfIs m x 0x7BFF#32 0x8000#32 sign (fToHalf m b)))

/-- External Input, Fixed-Interval Timer and Decrementer interrupts. A step from a state where no input arrives, no debug mode
is on and nothing of higher priority is pending, with MSR[EE] set: with the External Input asserted it takes that interrupt,
SRR0 the pc, at IVOR4 or, where it is not autovectored, at the offset given with it, and clears the reservation if HID0[ICR] is
set; with no External Input and an enabled Fixed-Interval Timer event it takes that one; with neither and an enabled Decrementer
event it takes that one. TSR and everything else stay (of the older bytes that a fetch may still read those that no msync has
waited for are left). That the interrupt comes at this very boundary is the choice of the model within what the spec allows, log
entry 42. (R2011, R2048, R2059, R2060, R2007.) -/
def Obligations.AsynchronousInterrupts : Prop :=
  ∀ s : State, s.Steady → s.msr.getLsbD 15 = true →
    let fit := s.tmr.tsr.getLsbD 26 && s.tmr.tcr.getLsbD 23
    let dec := s.tmr.tsr.getLsbD 27 && s.tmr.tcr.getLsbD 26
    let takes : IntType → State → State → Prop := fun ty b t =>
      TakesNonCritical ty s.pc s.ints.esr b.refetched t ∧ t.ints.dear = s.ints.dear ∧ t.mmu = s.mmu
    let cleared := { s with resv := s.resv && !s.hid.hid0.getLsbD 17 }
    let ivor4 := (s.ints.ivpr &&& 0xFFFF0000#32) ||| (s.ints.ivor.get 4 &&& 0x0000FFF0#32)
    (s.pins.extint = true → s.pins.avec = true → ∃ t, step s = .next t ∧ takes .externalInput cleared t) ∧
    (s.pins.extint = true → s.pins.avec = false → ∃ t, step s = .next t ∧ takes .externalInput cleared { t with pc := ivor4 } ∧
      t.pc = (s.ints.ivpr &&& 0xFFFF0000#32) ||| (s.pins.voffset.zeroExtend 32 &&& 0x0000FFF0#32)) ∧
    (s.pins.extint = false → fit = true → ∃ t, step s = .next t ∧ takes .fixedInterval s t) ∧
    (s.pins.extint = false → fit = false → dec = true → ∃ t, step s = .next t ∧ takes .decrementer s t)

/-- Machine check, Critical Input and Watchdog interrupts. A step from a state where no input arrives and no debug mode is on: a
latched NMI takes a Machine Check interrupt whatever MSR[ME] is, with MCSR[NMI] set, and clears the reservation if HID0[ICR] is
set; with none, a condition of MCSR and MSR[ME] set, that interrupt is taken; with neither, and MSR[CE] set, the Critical Input,
when asserted, takes its interrupt, at IVOR0 or, where it is not autovectored, at the offset given with it, and clears the
reservation if HID0[ICR] is set; with no Critical Input, an enabled Watchdog time-out takes that one. The pc and the MSR go to
the save/restore registers of the class, and MSR keeps what the class keeps, DE with the Debug APU as HID0 says; a machine check
ends what a CIRPT event may have left due (the choice of the model, log entry 56); all else stays (of the older bytes that a
fetch may still read those that no msync has waited for are left). Which bits of MCSR count is D23 (and log entry 60, EXCP_ERR
alone does not), that MCSRR0 holds the pc is D24, and that the interrupt comes at this very boundary is the choice of the model
within what the spec allows, log entry 42. (R2007, R2011, R2012, R2013, R2030, R2032, R2034, R2040, R2061.) -/
def Obligations.UrgentInterrupts : Prop :=
  ∀ s : State, s.Undebugged →
    let hid := s.hid.hid0
    let base := s.ints.ivpr &&& 0xFFFF0000#32
    let vec : Fin 20 → Word := fun n => base ||| (s.ints.ivor.get n &&& 0x0000FFF0#32)
    let mcKeeps : Word := if hid.getLsbD 8 && !hid.getLsbD 9 then 0x200#32 else 0#32
    let critKeeps : Word := if hid.getLsbD 8 && !hid.getLsbD 10 then 0x1202#32 else 0x1002#32
    let goes : State → Prop := fun u => ∃ t, step s = .next t ∧
      t = { u.refetched with ints := { u.ints with handlerFetch := true }, pwr := { s.pwr with waiting := false }, ev := t.ev }
    let check := s.ints.mcsr &&& 0xF611E03C#32 ≠ 0#32 ∧ s.msr.getLsbD 12 = true
    let cleared := s.resv && !hid.getLsbD 17
    let critical : IntRegs := { s.ints with csrr0 := s.pc, csrr1 := s.msr }
    (s.ints.nmiPend = true → goes { s with
      pc := vec 1, msr := s.msr &&& mcKeeps, resv := cleared, dbg := { s.dbg with cirptDue := false }
      ints := { s.ints with mcsrr0 := s.pc, mcsrr1 := s.msr, mcsr := s.ints.mcsr ||| 0x00100000#32, nmiPend := false } }) ∧
    (s.ints.nmiPend = false → check → goes { s with
      pc := vec 1, msr := s.msr &&& mcKeeps, dbg := { s.dbg with cirptDue := false }
      ints := { s.ints with mcsrr0 := s.pc, mcsrr1 := s.msr } }) ∧
    (s.ints.nmiPend = false → ¬check → s.msr.getLsbD 17 = true → s.pins.critint = true → goes { s with
      pc := if s.pins.avec then vec 0 else base ||| (s.pins.voffset.zeroExtend 32 &&& 0x0000FFF0#32)
      msr := s.msr &&& critKeeps, resv := cleared, ints := critical }) ∧
    (s.ints.nmiPend = false → ¬check → s.msr.getLsbD 17 = true → s.pins.critint = false → s.tmr.tsr.getLsbD 30 = true →
      s.tmr.tcr.getLsbD 27 = true → goes { s with pc := vec 12, msr := s.msr &&& critKeeps, ints := critical })

/-- Debug events, the Debug interrupt and debug mode. With no debug counter in use: a Debug exception recorded in DBSR, with
DBCR0[IDM] and MSR[DE] set and no machine check pending, takes the Debug interrupt before anything else, a halt that waits too
included: the pc and the MSR in DSRR0 and DSRR1, or in CSRR0 and CSRR1 without the Debug APU, MSR with what the class keeps, the
pc at IVOR15 (of the older bytes that a fetch may still read those that no msync has waited for are left). In internal debug
mode, with only ICMP enabled, an instruction that completes sets DBSR[ICMP], with VLES for a VLE instruction, and leaves all
else as it does without; with only IAC1 enabled for the address of the pc, the instruction there does not run: DBSR[IAC1] is set
and the Debug interrupt taken. In external debug mode alone, an event of EDBSR0 that EDBSRMSK0 does not mask halts the CPU, with
no machine check pending, and changes nothing else, if jd_en_once is asserted; with it negated an instruction sets no event,
ICMP neither, and the step neither halts nor changes more than the instruction does; a halted CPU does nothing. (61_debug.md
R2200, R2202, R2204, R2206, R2209, R2226; 64_external_debug_psu.md R2252, R2253, R2260; R2012, R2013.) -/
def Obligations.DebugInterrupts : Prop :=
  ∀ s : State,
    let hid := s.hid.hid0
    let keeps : Word := 0x1002#32 ||| (if hid.getLsbD 8 && !hid.getLsbD 11 then 0x20000#32 else 0#32) |||
      (if hid.getLsbD 8 && !hid.getLsbD 12 then 0x8000#32 else 0#32)
    let recorded := s.dbg.dbsr &&& 0xCFFFFFE0#32 ≠ 0#32
    let taken : Word → State → Prop := fun dbsr t => t = { s.refetched with
      pc := (s.ints.ivpr &&& 0xFFFF0000#32) ||| (s.ints.ivor.get 15 &&& 0x0000FFF0#32), msr := s.msr &&& keeps
      ints :=
        if hid.getLsbD 8 then { s.ints with dsrr0 := s.pc, dsrr1 := s.msr, handlerFetch := true }
        else { s.ints with csrr0 := s.pc, csrr1 := s.msr, handlerFetch := true }
      pwr := { s.pwr with waiting := false }, dbg := { s.dbg with dbsr := dbsr, cirptDue := false }, ev := t.ev }
    let icmp : State → Word → Word := fun t v => v ||| 0x08000000#32 ||| (if t.cur.vle then 0x10#32 else 0#32)
    let noCheck := s.ints.nmiPend = false ∧ (s.ints.mcsr &&& 0xF611E03C#32 = 0#32 ∨ s.msr.getLsbD 12 = false)
    let whole : TlbEntry → Nat → Prop := fun p n =>
      p.vle = true ∧ n = 2 ∧ vleLong (BitVec.ofNat 16 (bytesNat (s.codeBytes 2 p))) = false ∨
        p.vle = true ∧ n = 4 ∧ vleLong (BitVec.ofNat 16 (bytesNat (s.codeBytes 2 p))) = true ∨
        p.vle = false ∧ n = 4 ∧ s.pc.getLsbD 1 = false
    let calm := { s with dbg := { s.dbg with dbcr0 := 0#32 } }.Calm ∧ s.dbg.dbcr3 = 0#32 ∧ ¬recorded ∧ s.msr.getLsbD 9 = true
    (s.Idle → s.dbg.dbcr3 = 0#32 → s.dbg.dbcr0.getLsbD 30 = true → s.msr.getLsbD 9 = true → recorded → noCheck →
      ∃ t, step s = .next t ∧ taken s.dbg.dbsr t) ∧
    (∀ (p : TlbEntry) (n : Nat) (i : Instr) (t : State), calm → s.dbg.dbcr0 = 0x48000000#32 → PlainFetch s n p →
      whole p n → decode p.vle (s.codeBytes n p) = .ok (i, []) →
      let f := s.fetched p.vle (bytesWord (s.codeBytes n p) <<< (32 - 8 * n))
      exec i { f with ev := { f.ev with ret := if s.msr.getLsbD 14 then none else returnKind i } } = .next t →
      t.ev.ints = [] → t.dbg = s.dbg → t.pm = s.pm → ∃ u, step s = .next u ∧ AfterStep (contextSyncs i)
        { t with
          dbg := { s.dbg with dbsr := icmp t s.dbg.dbsr }
          sync := { t.sync with old := t.sync.old.map fun q => if q.1 == .dbsr then (q.1, icmp t q.2) else q } } u) ∧
    (∀ (k : Nat) (p : TlbEntry), calm → s.dbg.dbcr0 = 0x40800000#32 → s.dbg.dbcr1 = 0#32 → s.dbg.dbcr6 = 0#32 →
      s.dbg.dbcr2.getLsbD 21 = false → s.dbg.iac.get 0 = s.pc → s.tlbOpen s.msrIs s.pid = false →
      s.tlbHits s.msrIs s.pid s.pc = [(k, p)] → ∃ t, step s = .next t ∧
        taken (s.dbg.dbsr ||| 0x00800000#32 ||| (if p.vle then 0x10#32 else 0#32)) t) ∧
    (s.Idle → s.dbg.dbcr0.getLsbD 31 = true → s.dbg.dbcr0.getLsbD 30 = false → s.pins.enOnce = true → noCheck →
      s.dbg.edbsr0 &&& ~~~s.dbg.edbsrmsk0 &&& 0x6FFF87E0#32 ≠ 0#32 → ∃ t, step s = .next t ∧
        t = { s with dbg := { s.dbg with halted := true }, ev := t.ev }) ∧
    (∀ (p : TlbEntry) (n : Nat) (i : Instr) (t : State), calm → s.dbg.dbcr0 = 0x88000000#32 → s.pins.enOnce = false →
      PlainFetch s n p → whole p n → decode p.vle (s.codeBytes n p) = .ok (i, []) →
      let f := s.fetched p.vle (bytesWord (s.codeBytes n p) <<< (32 - 8 * n))
      exec i f = .next t → t.dbg = s.dbg → t.pm = s.pm → ∃ u, step s = .next u ∧ AfterStep (contextSyncs i) t u) ∧
    (s.dbg.halted = true → s.env = [] → s.settled → s.dbg.dvcPend = none → s.pm.quiet = true → s.resetAsked = false →
      ∃ t, step s = .next t ∧ t = { s with ev := t.ev })

/-- One tick of the time base and the decrementer. A time base clock, with HID0[TBEN] set, the timers neither disabled
by p_tbdisable nor frozen by DBCR0[FT], and no debug session: TB grows by 1 modulo 2^64; DEC is counted down: from 1
it sets TSR[DIS] and becomes DECAR if TCR[ARE] is set, else 0, and 0 stays 0; a bit of TB that TCR selects and that
goes from 0 to 1 sets TSR[FIS]; the bit that TCR selects for the watchdog, going from 0 to 1, sets TSR[ENW], or, where that
is set, TSR[WIS], or, where both are, copies a TCR[WRC] that is not 0 to TSR[WRS]; the bit that PMGC0[TBSEL] selects, going
from 0 to 1 with PMGC0[TBEE] set, latches the time base event; the rest of the state stays, but the step's own record of
edges. With TBEN clear, or p_tbdisable asserted, nothing changes. That DEC counts under TBEN is the spec's decision D27; its
state machines of DEC and the watchdog are marked there as not in its source. (R2100, R2102, R2104, R2108, R2320, R2331.) -/
def Obligations.TimerTick : Prop :=
  ∀ s : State,
    let on := s.hid.hid0.getLsbD 14 && !s.pins.tbdisable
    let t := s.arrive .tick
    let rises : Nat → Bool := fun n => !s.tmr.tb.getMsbD n && (s.tmr.tb + 1#64).getMsbD n
    let fit := rises (s.tmr.tcr.extractLsb' 13 4 ++ s.tmr.tcr.extractLsb' 24 2).toNat
    let wd := rises (s.tmr.tcr.extractLsb' 17 4 ++ s.tmr.tcr.extractLsb' 30 2).toNat
    let enw := s.tmr.tsr.getLsbD 31
    let wis := s.tmr.tsr.getLsbD 30
    let wrc := s.tmr.tcr.extractLsb' 28 2
    let sel := ([63, 55, 51, 47] : List Nat).getD (s.pm.pmgc0.extractLsb' 11 2).toNat 0
    (on = false → t = s) ∧
    (on = true → s.dbg.dbcr0.getLsbD 0 = false → s.dbg.halted = false →
      t.tmr.tb = s.tmr.tb + 1#64 ∧
      (s.tmr.dec = 0#32 → t.tmr.dec = 0#32 ∧ t.tmr.tsr.getLsbD 27 = s.tmr.tsr.getLsbD 27) ∧
      (s.tmr.dec = 1#32 → t.tmr.dec = (if s.tmr.tcr.getLsbD 22 then s.tmr.decar else 0#32) ∧ t.tmr.tsr.getLsbD 27 = true) ∧
      (s.tmr.dec ≠ 0#32 → s.tmr.dec ≠ 1#32 →
        t.tmr.dec.toNat = s.tmr.dec.toNat - 1 ∧ t.tmr.tsr.getLsbD 27 = s.tmr.tsr.getLsbD 27) ∧
      t.tmr.tsr.getLsbD 26 = (s.tmr.tsr.getLsbD 26 || fit) ∧
      t.tmr.tsr.getLsbD 31 = (enw || wd) ∧ t.tmr.tsr.getLsbD 30 = (wis || (wd && enw)) ∧
      t.tmr.tsr.extractLsb' 28 2 = (if wd = true ∧ enw = true ∧ wis = true ∧ wrc ≠ 0#2 then wrc else s.tmr.tsr.extractLsb' 28 2) ∧
      t.tmr.tsr.extractLsb' 0 26 = s.tmr.tsr.extractLsb' 0 26 ∧
      t.pm.tbEvent = (s.pm.tbEvent || (s.pm.pmgc0.getLsbD 8 && rises sel)) ∧
      t = { s with
        tmr := { s.tmr with tb := t.tmr.tb, dec := t.tmr.dec, tsr := t.tmr.tsr }
        pm := { s.pm with tbEvent := t.pm.tbEvent }
        ev := { s.ev with tbEdges := t.ev.tbEdges } })

/-- No instruction in user mode changes the control registers. In user mode (MSR[PR] set), whichever of the 528
instructions runs, with whatever operands, in a state where it answers a next state: HID0, HID1, BUCSR, PIR, the timers,
every TLB entry, PID0, the interrupt vectors, the critical and debug save/restore registers, the supervisor software-use
registers, the performance monitor, PSCR, the cache control registers but for the status bits CUL and CLO, the inputs, and the
debug registers but for DEVENT, DDAM, the status of the external debugger and a halt that it allows are as before, and no MSR
bit that was 0 becomes 1. So user code gains no privilege but through an interrupt handler whose address it cannot choose.
(The cache arrays, the MAS registers, the syndrome registers of the interrupts it may cause, the reservation and the
signatures of the PSU may change.) (R2053, R2012.) -/
def Obligations.UserIsolation : Prop :=
  ∀ (i : Instr) (s t : State), s.msr.getLsbD 14 = true → exec i s = .next t →
    t.hid = s.hid ∧ t.tmr = s.tmr ∧ t.mmu.tlb = s.mmu.tlb ∧ t.mmu.pid0 = s.mmu.pid0 ∧ t.ints.ivpr = s.ints.ivpr ∧
      t.ints.ivor = s.ints.ivor ∧ t.ints.csrr0 = s.ints.csrr0 ∧ t.ints.csrr1 = s.ints.csrr1 ∧ t.ints.dsrr0 = s.ints.dsrr0 ∧
      t.ints.dsrr1 = s.ints.dsrr1 ∧ t.ints.nmiPend = s.ints.nmiPend ∧ t.sprg.sprg = s.sprg.sprg ∧ t.pm = s.pm ∧
      t.psu.pscr = s.psu.pscr ∧ t.pins = s.pins ∧
      t.dbg = { s.dbg with edbsr0 := t.dbg.edbsr0, halted := t.dbg.halted, devent := t.dbg.devent, ddam := t.dbg.ddam } ∧
      (t.dbg.halted = true → s.dbg.halted = true ∨ (s.dbg.edbcr0.getLsbD 30 = true ∧ s.pins.enOnce = true)) ∧
      t.cache.l1csr0 &&& ~~~0x600#32 = s.cache.l1csr0 &&& ~~~0x600#32 ∧
      t.cache.l1csr1 &&& ~~~0x600#32 = s.cache.l1csr1 &&& ~~~0x600#32 ∧
      t.cache = { s.cache with icache := t.cache.icache, dcache := t.cache.dcache, l1csr0 := t.cache.l1csr0, l1csr1 := t.cache.l1csr1 } ∧
      t.msr &&& ~~~s.msr = 0#32
end

