-- ==== Sys2Proof/Laws/State.lean ====
section
/-! SUPPORT. What each named update of the state leaves: one lemma for each field of `State`, so that no proof unfolds a
record update. -/

namespace Sys2Proof.Machine

variable (s : State)

/-! `setGprD`. -/

@[simp] theorem setGprD_pc (r : Gpr) (v : DWord) : (s.setGprD r v).pc = s.pc := rfl
@[simp] theorem setGprD_cr (r : Gpr) (v : DWord) : (s.setGprD r v).cr = s.cr := rfl
@[simp] theorem setGprD_xer (r : Gpr) (v : DWord) : (s.setGprD r v).xer = s.xer := rfl
@[simp] theorem setGprD_lr (r : Gpr) (v : DWord) : (s.setGprD r v).lr = s.lr := rfl
@[simp] theorem setGprD_ctr (r : Gpr) (v : DWord) : (s.setGprD r v).ctr = s.ctr := rfl
@[simp] theorem setGprD_acc (r : Gpr) (v : DWord) : (s.setGprD r v).acc = s.acc := rfl
@[simp] theorem setGprD_spefscr (r : Gpr) (v : DWord) : (s.setGprD r v).spefscr = s.spefscr := rfl
@[simp] theorem setGprD_msr (r : Gpr) (v : DWord) : (s.setGprD r v).msr = s.msr := rfl
@[simp] theorem setGprD_resv (r : Gpr) (v : DWord) : (s.setGprD r v).resv = s.resv := rfl
@[simp] theorem setGprD_ints (r : Gpr) (v : DWord) : (s.setGprD r v).ints = s.ints := rfl
@[simp] theorem setGprD_sprg (r : Gpr) (v : DWord) : (s.setGprD r v).sprg = s.sprg := rfl
@[simp] theorem setGprD_hid (r : Gpr) (v : DWord) : (s.setGprD r v).hid = s.hid := rfl
@[simp] theorem setGprD_tmr (r : Gpr) (v : DWord) : (s.setGprD r v).tmr = s.tmr := rfl
@[simp] theorem setGprD_mmu (r : Gpr) (v : DWord) : (s.setGprD r v).mmu = s.mmu := rfl
@[simp] theorem setGprD_cache (r : Gpr) (v : DWord) : (s.setGprD r v).cache = s.cache := rfl
@[simp] theorem setGprD_dbg (r : Gpr) (v : DWord) : (s.setGprD r v).dbg = s.dbg := rfl
@[simp] theorem setGprD_pm (r : Gpr) (v : DWord) : (s.setGprD r v).pm = s.pm := rfl
@[simp] theorem setGprD_psu (r : Gpr) (v : DWord) : (s.setGprD r v).psu = s.psu := rfl
@[simp] theorem setGprD_pwr (r : Gpr) (v : DWord) : (s.setGprD r v).pwr = s.pwr := rfl
@[simp] theorem setGprD_mem (r : Gpr) (v : DWord) : (s.setGprD r v).mem = s.mem := rfl
@[simp] theorem setGprD_buf (r : Gpr) (v : DWord) : (s.setGprD r v).buf = s.buf := rfl
@[simp] theorem setGprD_sync (r : Gpr) (v : DWord) : (s.setGprD r v).sync = s.sync := rfl
@[simp] theorem setGprD_pins (r : Gpr) (v : DWord) : (s.setGprD r v).pins = s.pins := rfl
@[simp] theorem setGprD_env (r : Gpr) (v : DWord) : (s.setGprD r v).env = s.env := rfl
@[simp] theorem setGprD_free (r : Gpr) (v : DWord) : (s.setGprD r v).free = s.free := rfl
@[simp] theorem setGprD_cur (r : Gpr) (v : DWord) : (s.setGprD r v).cur = s.cur := rfl
@[simp] theorem setGprD_ev (r : Gpr) (v : DWord) : (s.setGprD r v).ev = s.ev := rfl

/-! `setGprW`. -/

@[simp] theorem setGprW_pc (r : Gpr) (v : Word) : (s.setGprW r v).pc = s.pc := rfl
@[simp] theorem setGprW_cr (r : Gpr) (v : Word) : (s.setGprW r v).cr = s.cr := rfl
@[simp] theorem setGprW_xer (r : Gpr) (v : Word) : (s.setGprW r v).xer = s.xer := rfl
@[simp] theorem setGprW_lr (r : Gpr) (v : Word) : (s.setGprW r v).lr = s.lr := rfl
@[simp] theorem setGprW_ctr (r : Gpr) (v : Word) : (s.setGprW r v).ctr = s.ctr := rfl
@[simp] theorem setGprW_acc (r : Gpr) (v : Word) : (s.setGprW r v).acc = s.acc := rfl
@[simp] theorem setGprW_spefscr (r : Gpr) (v : Word) : (s.setGprW r v).spefscr = s.spefscr := rfl
@[simp] theorem setGprW_msr (r : Gpr) (v : Word) : (s.setGprW r v).msr = s.msr := rfl
@[simp] theorem setGprW_resv (r : Gpr) (v : Word) : (s.setGprW r v).resv = s.resv := rfl
@[simp] theorem setGprW_ints (r : Gpr) (v : Word) : (s.setGprW r v).ints = s.ints := rfl
@[simp] theorem setGprW_sprg (r : Gpr) (v : Word) : (s.setGprW r v).sprg = s.sprg := rfl
@[simp] theorem setGprW_hid (r : Gpr) (v : Word) : (s.setGprW r v).hid = s.hid := rfl
@[simp] theorem setGprW_tmr (r : Gpr) (v : Word) : (s.setGprW r v).tmr = s.tmr := rfl
@[simp] theorem setGprW_mmu (r : Gpr) (v : Word) : (s.setGprW r v).mmu = s.mmu := rfl
@[simp] theorem setGprW_cache (r : Gpr) (v : Word) : (s.setGprW r v).cache = s.cache := rfl
@[simp] theorem setGprW_dbg (r : Gpr) (v : Word) : (s.setGprW r v).dbg = s.dbg := rfl
@[simp] theorem setGprW_pm (r : Gpr) (v : Word) : (s.setGprW r v).pm = s.pm := rfl
@[simp] theorem setGprW_psu (r : Gpr) (v : Word) : (s.setGprW r v).psu = s.psu := rfl
@[simp] theorem setGprW_pwr (r : Gpr) (v : Word) : (s.setGprW r v).pwr = s.pwr := rfl
@[simp] theorem setGprW_mem (r : Gpr) (v : Word) : (s.setGprW r v).mem = s.mem := rfl
@[simp] theorem setGprW_buf (r : Gpr) (v : Word) : (s.setGprW r v).buf = s.buf := rfl
@[simp] theorem setGprW_sync (r : Gpr) (v : Word) : (s.setGprW r v).sync = s.sync := rfl
@[simp] theorem setGprW_pins (r : Gpr) (v : Word) : (s.setGprW r v).pins = s.pins := rfl
@[simp] theorem setGprW_env (r : Gpr) (v : Word) : (s.setGprW r v).env = s.env := rfl
@[simp] theorem setGprW_free (r : Gpr) (v : Word) : (s.setGprW r v).free = s.free := rfl
@[simp] theorem setGprW_cur (r : Gpr) (v : Word) : (s.setGprW r v).cur = s.cur := rfl
@[simp] theorem setGprW_ev (r : Gpr) (v : Word) : (s.setGprW r v).ev = s.ev := rfl

/-! `setCrField`. -/

@[simp] theorem setCrField_gpr (n : CrField) (v : BitVec 4) : (s.setCrField n v).gpr = s.gpr := rfl
@[simp] theorem setCrField_pc (n : CrField) (v : BitVec 4) : (s.setCrField n v).pc = s.pc := rfl
@[simp] theorem setCrField_xer (n : CrField) (v : BitVec 4) : (s.setCrField n v).xer = s.xer := rfl
@[simp] theorem setCrField_lr (n : CrField) (v : BitVec 4) : (s.setCrField n v).lr = s.lr := rfl
@[simp] theorem setCrField_ctr (n : CrField) (v : BitVec 4) : (s.setCrField n v).ctr = s.ctr := rfl
@[simp] theorem setCrField_acc (n : CrField) (v : BitVec 4) : (s.setCrField n v).acc = s.acc := rfl
@[simp] theorem setCrField_spefscr (n : CrField) (v : BitVec 4) : (s.setCrField n v).spefscr = s.spefscr := rfl
@[simp] theorem setCrField_msr (n : CrField) (v : BitVec 4) : (s.setCrField n v).msr = s.msr := rfl
@[simp] theorem setCrField_resv (n : CrField) (v : BitVec 4) : (s.setCrField n v).resv = s.resv := rfl
@[simp] theorem setCrField_ints (n : CrField) (v : BitVec 4) : (s.setCrField n v).ints = s.ints := rfl
@[simp] theorem setCrField_sprg (n : CrField) (v : BitVec 4) : (s.setCrField n v).sprg = s.sprg := rfl
@[simp] theorem setCrField_hid (n : CrField) (v : BitVec 4) : (s.setCrField n v).hid = s.hid := rfl
@[simp] theorem setCrField_tmr (n : CrField) (v : BitVec 4) : (s.setCrField n v).tmr = s.tmr := rfl
@[simp] theorem setCrField_mmu (n : CrField) (v : BitVec 4) : (s.setCrField n v).mmu = s.mmu := rfl
@[simp] theorem setCrField_cache (n : CrField) (v : BitVec 4) : (s.setCrField n v).cache = s.cache := rfl
@[simp] theorem setCrField_dbg (n : CrField) (v : BitVec 4) : (s.setCrField n v).dbg = s.dbg := rfl
@[simp] theorem setCrField_pm (n : CrField) (v : BitVec 4) : (s.setCrField n v).pm = s.pm := rfl
@[simp] theorem setCrField_psu (n : CrField) (v : BitVec 4) : (s.setCrField n v).psu = s.psu := rfl
@[simp] theorem setCrField_pwr (n : CrField) (v : BitVec 4) : (s.setCrField n v).pwr = s.pwr := rfl
@[simp] theorem setCrField_mem (n : CrField) (v : BitVec 4) : (s.setCrField n v).mem = s.mem := rfl
@[simp] theorem setCrField_buf (n : CrField) (v : BitVec 4) : (s.setCrField n v).buf = s.buf := rfl
@[simp] theorem setCrField_sync (n : CrField) (v : BitVec 4) : (s.setCrField n v).sync = s.sync := rfl
@[simp] theorem setCrField_pins (n : CrField) (v : BitVec 4) : (s.setCrField n v).pins = s.pins := rfl
@[simp] theorem setCrField_env (n : CrField) (v : BitVec 4) : (s.setCrField n v).env = s.env := rfl
@[simp] theorem setCrField_free (n : CrField) (v : BitVec 4) : (s.setCrField n v).free = s.free := rfl
@[simp] theorem setCrField_cur (n : CrField) (v : BitVec 4) : (s.setCrField n v).cur = s.cur := rfl
@[simp] theorem setCrField_ev (n : CrField) (v : BitVec 4) : (s.setCrField n v).ev = s.ev := rfl

/-! `advance`. -/

@[simp] theorem advance_gpr (n : Nat) : (s.advance n).gpr = s.gpr := rfl
@[simp] theorem advance_cr (n : Nat) : (s.advance n).cr = s.cr := rfl
@[simp] theorem advance_xer (n : Nat) : (s.advance n).xer = s.xer := rfl
@[simp] theorem advance_lr (n : Nat) : (s.advance n).lr = s.lr := rfl
@[simp] theorem advance_ctr (n : Nat) : (s.advance n).ctr = s.ctr := rfl
@[simp] theorem advance_acc (n : Nat) : (s.advance n).acc = s.acc := rfl
@[simp] theorem advance_spefscr (n : Nat) : (s.advance n).spefscr = s.spefscr := rfl
@[simp] theorem advance_msr (n : Nat) : (s.advance n).msr = s.msr := rfl
@[simp] theorem advance_resv (n : Nat) : (s.advance n).resv = s.resv := rfl
@[simp] theorem advance_ints (n : Nat) : (s.advance n).ints = s.ints := rfl
@[simp] theorem advance_sprg (n : Nat) : (s.advance n).sprg = s.sprg := rfl
@[simp] theorem advance_hid (n : Nat) : (s.advance n).hid = s.hid := rfl
@[simp] theorem advance_tmr (n : Nat) : (s.advance n).tmr = s.tmr := rfl
@[simp] theorem advance_mmu (n : Nat) : (s.advance n).mmu = s.mmu := rfl
@[simp] theorem advance_cache (n : Nat) : (s.advance n).cache = s.cache := rfl
@[simp] theorem advance_dbg (n : Nat) : (s.advance n).dbg = s.dbg := rfl
@[simp] theorem advance_pm (n : Nat) : (s.advance n).pm = s.pm := rfl
@[simp] theorem advance_psu (n : Nat) : (s.advance n).psu = s.psu := rfl
@[simp] theorem advance_pwr (n : Nat) : (s.advance n).pwr = s.pwr := rfl
@[simp] theorem advance_mem (n : Nat) : (s.advance n).mem = s.mem := rfl
@[simp] theorem advance_buf (n : Nat) : (s.advance n).buf = s.buf := rfl
@[simp] theorem advance_sync (n : Nat) : (s.advance n).sync = s.sync := rfl
@[simp] theorem advance_pins (n : Nat) : (s.advance n).pins = s.pins := rfl
@[simp] theorem advance_env (n : Nat) : (s.advance n).env = s.env := rfl
@[simp] theorem advance_free (n : Nat) : (s.advance n).free = s.free := rfl
@[simp] theorem advance_cur (n : Nat) : (s.advance n).cur = s.cur := rfl
@[simp] theorem advance_ev (n : Nat) : (s.advance n).ev = s.ev := rfl

/-! `putCa`. -/

@[simp] theorem putCa_gpr (c : Option Bool) : (s.putCa c).gpr = s.gpr := by cases c <;> rfl
@[simp] theorem putCa_pc (c : Option Bool) : (s.putCa c).pc = s.pc := by cases c <;> rfl
@[simp] theorem putCa_cr (c : Option Bool) : (s.putCa c).cr = s.cr := by cases c <;> rfl
@[simp] theorem putCa_lr (c : Option Bool) : (s.putCa c).lr = s.lr := by cases c <;> rfl
@[simp] theorem putCa_ctr (c : Option Bool) : (s.putCa c).ctr = s.ctr := by cases c <;> rfl
@[simp] theorem putCa_acc (c : Option Bool) : (s.putCa c).acc = s.acc := by cases c <;> rfl
@[simp] theorem putCa_spefscr (c : Option Bool) : (s.putCa c).spefscr = s.spefscr := by cases c <;> rfl
@[simp] theorem putCa_msr (c : Option Bool) : (s.putCa c).msr = s.msr := by cases c <;> rfl
@[simp] theorem putCa_resv (c : Option Bool) : (s.putCa c).resv = s.resv := by cases c <;> rfl
@[simp] theorem putCa_ints (c : Option Bool) : (s.putCa c).ints = s.ints := by cases c <;> rfl
@[simp] theorem putCa_sprg (c : Option Bool) : (s.putCa c).sprg = s.sprg := by cases c <;> rfl
@[simp] theorem putCa_hid (c : Option Bool) : (s.putCa c).hid = s.hid := by cases c <;> rfl
@[simp] theorem putCa_tmr (c : Option Bool) : (s.putCa c).tmr = s.tmr := by cases c <;> rfl
@[simp] theorem putCa_mmu (c : Option Bool) : (s.putCa c).mmu = s.mmu := by cases c <;> rfl
@[simp] theorem putCa_cache (c : Option Bool) : (s.putCa c).cache = s.cache := by cases c <;> rfl
@[simp] theorem putCa_dbg (c : Option Bool) : (s.putCa c).dbg = s.dbg := by cases c <;> rfl
@[simp] theorem putCa_pm (c : Option Bool) : (s.putCa c).pm = s.pm := by cases c <;> rfl
@[simp] theorem putCa_psu (c : Option Bool) : (s.putCa c).psu = s.psu := by cases c <;> rfl
@[simp] theorem putCa_pwr (c : Option Bool) : (s.putCa c).pwr = s.pwr := by cases c <;> rfl
@[simp] theorem putCa_mem (c : Option Bool) : (s.putCa c).mem = s.mem := by cases c <;> rfl
@[simp] theorem putCa_buf (c : Option Bool) : (s.putCa c).buf = s.buf := by cases c <;> rfl
@[simp] theorem putCa_sync (c : Option Bool) : (s.putCa c).sync = s.sync := by cases c <;> rfl
@[simp] theorem putCa_pins (c : Option Bool) : (s.putCa c).pins = s.pins := by cases c <;> rfl
@[simp] theorem putCa_env (c : Option Bool) : (s.putCa c).env = s.env := by cases c <;> rfl
@[simp] theorem putCa_free (c : Option Bool) : (s.putCa c).free = s.free := by cases c <;> rfl
@[simp] theorem putCa_cur (c : Option Bool) : (s.putCa c).cur = s.cur := by cases c <;> rfl
@[simp] theorem putCa_ev (c : Option Bool) : (s.putCa c).ev = s.ev := by cases c <;> rfl

/-! `putOv`. -/

@[simp] theorem putOv_gpr (c : Option Bool) : (s.putOv c).gpr = s.gpr := by cases c <;> rfl
@[simp] theorem putOv_pc (c : Option Bool) : (s.putOv c).pc = s.pc := by cases c <;> rfl
@[simp] theorem putOv_cr (c : Option Bool) : (s.putOv c).cr = s.cr := by cases c <;> rfl
@[simp] theorem putOv_lr (c : Option Bool) : (s.putOv c).lr = s.lr := by cases c <;> rfl
@[simp] theorem putOv_ctr (c : Option Bool) : (s.putOv c).ctr = s.ctr := by cases c <;> rfl
@[simp] theorem putOv_acc (c : Option Bool) : (s.putOv c).acc = s.acc := by cases c <;> rfl
@[simp] theorem putOv_spefscr (c : Option Bool) : (s.putOv c).spefscr = s.spefscr := by cases c <;> rfl
@[simp] theorem putOv_msr (c : Option Bool) : (s.putOv c).msr = s.msr := by cases c <;> rfl
@[simp] theorem putOv_resv (c : Option Bool) : (s.putOv c).resv = s.resv := by cases c <;> rfl
@[simp] theorem putOv_ints (c : Option Bool) : (s.putOv c).ints = s.ints := by cases c <;> rfl
@[simp] theorem putOv_sprg (c : Option Bool) : (s.putOv c).sprg = s.sprg := by cases c <;> rfl
@[simp] theorem putOv_hid (c : Option Bool) : (s.putOv c).hid = s.hid := by cases c <;> rfl
@[simp] theorem putOv_tmr (c : Option Bool) : (s.putOv c).tmr = s.tmr := by cases c <;> rfl
@[simp] theorem putOv_mmu (c : Option Bool) : (s.putOv c).mmu = s.mmu := by cases c <;> rfl
@[simp] theorem putOv_cache (c : Option Bool) : (s.putOv c).cache = s.cache := by cases c <;> rfl
@[simp] theorem putOv_dbg (c : Option Bool) : (s.putOv c).dbg = s.dbg := by cases c <;> rfl
@[simp] theorem putOv_pm (c : Option Bool) : (s.putOv c).pm = s.pm := by cases c <;> rfl
@[simp] theorem putOv_psu (c : Option Bool) : (s.putOv c).psu = s.psu := by cases c <;> rfl
@[simp] theorem putOv_pwr (c : Option Bool) : (s.putOv c).pwr = s.pwr := by cases c <;> rfl
@[simp] theorem putOv_mem (c : Option Bool) : (s.putOv c).mem = s.mem := by cases c <;> rfl
@[simp] theorem putOv_buf (c : Option Bool) : (s.putOv c).buf = s.buf := by cases c <;> rfl
@[simp] theorem putOv_sync (c : Option Bool) : (s.putOv c).sync = s.sync := by cases c <;> rfl
@[simp] theorem putOv_pins (c : Option Bool) : (s.putOv c).pins = s.pins := by cases c <;> rfl
@[simp] theorem putOv_env (c : Option Bool) : (s.putOv c).env = s.env := by cases c <;> rfl
@[simp] theorem putOv_free (c : Option Bool) : (s.putOv c).free = s.free := by cases c <;> rfl
@[simp] theorem putOv_cur (c : Option Bool) : (s.putOv c).cur = s.cur := by cases c <;> rfl
@[simp] theorem putOv_ev (c : Option Bool) : (s.putOv c).ev = s.ev := by cases c <;> rfl

/-! `record`. -/

@[simp] theorem record_gpr (r : Word) : (s.record r).gpr = s.gpr := rfl
@[simp] theorem record_pc (r : Word) : (s.record r).pc = s.pc := rfl
@[simp] theorem record_xer (r : Word) : (s.record r).xer = s.xer := rfl
@[simp] theorem record_lr (r : Word) : (s.record r).lr = s.lr := rfl
@[simp] theorem record_ctr (r : Word) : (s.record r).ctr = s.ctr := rfl
@[simp] theorem record_acc (r : Word) : (s.record r).acc = s.acc := rfl
@[simp] theorem record_spefscr (r : Word) : (s.record r).spefscr = s.spefscr := rfl
@[simp] theorem record_msr (r : Word) : (s.record r).msr = s.msr := rfl
@[simp] theorem record_resv (r : Word) : (s.record r).resv = s.resv := rfl
@[simp] theorem record_ints (r : Word) : (s.record r).ints = s.ints := rfl
@[simp] theorem record_sprg (r : Word) : (s.record r).sprg = s.sprg := rfl
@[simp] theorem record_hid (r : Word) : (s.record r).hid = s.hid := rfl
@[simp] theorem record_tmr (r : Word) : (s.record r).tmr = s.tmr := rfl
@[simp] theorem record_mmu (r : Word) : (s.record r).mmu = s.mmu := rfl
@[simp] theorem record_cache (r : Word) : (s.record r).cache = s.cache := rfl
@[simp] theorem record_dbg (r : Word) : (s.record r).dbg = s.dbg := rfl
@[simp] theorem record_pm (r : Word) : (s.record r).pm = s.pm := rfl
@[simp] theorem record_psu (r : Word) : (s.record r).psu = s.psu := rfl
@[simp] theorem record_pwr (r : Word) : (s.record r).pwr = s.pwr := rfl
@[simp] theorem record_mem (r : Word) : (s.record r).mem = s.mem := rfl
@[simp] theorem record_buf (r : Word) : (s.record r).buf = s.buf := rfl
@[simp] theorem record_sync (r : Word) : (s.record r).sync = s.sync := rfl
@[simp] theorem record_pins (r : Word) : (s.record r).pins = s.pins := rfl
@[simp] theorem record_env (r : Word) : (s.record r).env = s.env := rfl
@[simp] theorem record_free (r : Word) : (s.record r).free = s.free := rfl
@[simp] theorem record_cur (r : Word) : (s.record r).cur = s.cur := rfl
@[simp] theorem record_ev (r : Word) : (s.record r).ev = s.ev := rfl

/-! `recordIf`. -/

@[simp] theorem recordIf_gpr (b : Bool) (r : Word) : (s.recordIf b r).gpr = s.gpr := by cases b <;> rfl
@[simp] theorem recordIf_pc (b : Bool) (r : Word) : (s.recordIf b r).pc = s.pc := by cases b <;> rfl
@[simp] theorem recordIf_xer (b : Bool) (r : Word) : (s.recordIf b r).xer = s.xer := by cases b <;> rfl
@[simp] theorem recordIf_lr (b : Bool) (r : Word) : (s.recordIf b r).lr = s.lr := by cases b <;> rfl
@[simp] theorem recordIf_ctr (b : Bool) (r : Word) : (s.recordIf b r).ctr = s.ctr := by cases b <;> rfl
@[simp] theorem recordIf_acc (b : Bool) (r : Word) : (s.recordIf b r).acc = s.acc := by cases b <;> rfl
@[simp] theorem recordIf_spefscr (b : Bool) (r : Word) : (s.recordIf b r).spefscr = s.spefscr := by cases b <;> rfl
@[simp] theorem recordIf_msr (b : Bool) (r : Word) : (s.recordIf b r).msr = s.msr := by cases b <;> rfl
@[simp] theorem recordIf_resv (b : Bool) (r : Word) : (s.recordIf b r).resv = s.resv := by cases b <;> rfl
@[simp] theorem recordIf_ints (b : Bool) (r : Word) : (s.recordIf b r).ints = s.ints := by cases b <;> rfl
@[simp] theorem recordIf_sprg (b : Bool) (r : Word) : (s.recordIf b r).sprg = s.sprg := by cases b <;> rfl
@[simp] theorem recordIf_hid (b : Bool) (r : Word) : (s.recordIf b r).hid = s.hid := by cases b <;> rfl
@[simp] theorem recordIf_tmr (b : Bool) (r : Word) : (s.recordIf b r).tmr = s.tmr := by cases b <;> rfl
@[simp] theorem recordIf_mmu (b : Bool) (r : Word) : (s.recordIf b r).mmu = s.mmu := by cases b <;> rfl
@[simp] theorem recordIf_cache (b : Bool) (r : Word) : (s.recordIf b r).cache = s.cache := by cases b <;> rfl
@[simp] theorem recordIf_dbg (b : Bool) (r : Word) : (s.recordIf b r).dbg = s.dbg := by cases b <;> rfl
@[simp] theorem recordIf_pm (b : Bool) (r : Word) : (s.recordIf b r).pm = s.pm := by cases b <;> rfl
@[simp] theorem recordIf_psu (b : Bool) (r : Word) : (s.recordIf b r).psu = s.psu := by cases b <;> rfl
@[simp] theorem recordIf_pwr (b : Bool) (r : Word) : (s.recordIf b r).pwr = s.pwr := by cases b <;> rfl
@[simp] theorem recordIf_mem (b : Bool) (r : Word) : (s.recordIf b r).mem = s.mem := by cases b <;> rfl
@[simp] theorem recordIf_buf (b : Bool) (r : Word) : (s.recordIf b r).buf = s.buf := by cases b <;> rfl
@[simp] theorem recordIf_sync (b : Bool) (r : Word) : (s.recordIf b r).sync = s.sync := by cases b <;> rfl
@[simp] theorem recordIf_pins (b : Bool) (r : Word) : (s.recordIf b r).pins = s.pins := by cases b <;> rfl
@[simp] theorem recordIf_env (b : Bool) (r : Word) : (s.recordIf b r).env = s.env := by cases b <;> rfl
@[simp] theorem recordIf_free (b : Bool) (r : Word) : (s.recordIf b r).free = s.free := by cases b <;> rfl
@[simp] theorem recordIf_cur (b : Bool) (r : Word) : (s.recordIf b r).cur = s.cur := by cases b <;> rfl
@[simp] theorem recordIf_ev (b : Bool) (r : Word) : (s.recordIf b r).ev = s.ev := by cases b <;> rfl

/-! `result`. -/

@[simp] theorem result_lr (n : Nat) (rt : Gpr) (r : Word) (ca ov : Option Bool) (rc : Bool) : (s.result n rt r ca ov rc).lr = s.lr := by simp [State.result]
@[simp] theorem result_ctr (n : Nat) (rt : Gpr) (r : Word) (ca ov : Option Bool) (rc : Bool) : (s.result n rt r ca ov rc).ctr = s.ctr := by simp [State.result]
@[simp] theorem result_acc (n : Nat) (rt : Gpr) (r : Word) (ca ov : Option Bool) (rc : Bool) : (s.result n rt r ca ov rc).acc = s.acc := by simp [State.result]
@[simp] theorem result_spefscr (n : Nat) (rt : Gpr) (r : Word) (ca ov : Option Bool) (rc : Bool) : (s.result n rt r ca ov rc).spefscr = s.spefscr := by simp [State.result]
@[simp] theorem result_msr (n : Nat) (rt : Gpr) (r : Word) (ca ov : Option Bool) (rc : Bool) : (s.result n rt r ca ov rc).msr = s.msr := by simp [State.result]
@[simp] theorem result_resv (n : Nat) (rt : Gpr) (r : Word) (ca ov : Option Bool) (rc : Bool) : (s.result n rt r ca ov rc).resv = s.resv := by simp [State.result]
@[simp] theorem result_ints (n : Nat) (rt : Gpr) (r : Word) (ca ov : Option Bool) (rc : Bool) : (s.result n rt r ca ov rc).ints = s.ints := by simp [State.result]
@[simp] theorem result_sprg (n : Nat) (rt : Gpr) (r : Word) (ca ov : Option Bool) (rc : Bool) : (s.result n rt r ca ov rc).sprg = s.sprg := by simp [State.result]
@[simp] theorem result_hid (n : Nat) (rt : Gpr) (r : Word) (ca ov : Option Bool) (rc : Bool) : (s.result n rt r ca ov rc).hid = s.hid := by simp [State.result]
@[simp] theorem result_tmr (n : Nat) (rt : Gpr) (r : Word) (ca ov : Option Bool) (rc : Bool) : (s.result n rt r ca ov rc).tmr = s.tmr := by simp [State.result]
@[simp] theorem result_mmu (n : Nat) (rt : Gpr) (r : Word) (ca ov : Option Bool) (rc : Bool) : (s.result n rt r ca ov rc).mmu = s.mmu := by simp [State.result]
@[simp] theorem result_cache (n : Nat) (rt : Gpr) (r : Word) (ca ov : Option Bool) (rc : Bool) : (s.result n rt r ca ov rc).cache = s.cache := by simp [State.result]
@[simp] theorem result_dbg (n : Nat) (rt : Gpr) (r : Word) (ca ov : Option Bool) (rc : Bool) : (s.result n rt r ca ov rc).dbg = s.dbg := by simp [State.result]
@[simp] theorem result_pm (n : Nat) (rt : Gpr) (r : Word) (ca ov : Option Bool) (rc : Bool) : (s.result n rt r ca ov rc).pm = s.pm := by simp [State.result]
@[simp] theorem result_psu (n : Nat) (rt : Gpr) (r : Word) (ca ov : Option Bool) (rc : Bool) : (s.result n rt r ca ov rc).psu = s.psu := by simp [State.result]
@[simp] theorem result_pwr (n : Nat) (rt : Gpr) (r : Word) (ca ov : Option Bool) (rc : Bool) : (s.result n rt r ca ov rc).pwr = s.pwr := by simp [State.result]
@[simp] theorem result_mem (n : Nat) (rt : Gpr) (r : Word) (ca ov : Option Bool) (rc : Bool) : (s.result n rt r ca ov rc).mem = s.mem := by simp [State.result]
@[simp] theorem result_buf (n : Nat) (rt : Gpr) (r : Word) (ca ov : Option Bool) (rc : Bool) : (s.result n rt r ca ov rc).buf = s.buf := by simp [State.result]
@[simp] theorem result_sync (n : Nat) (rt : Gpr) (r : Word) (ca ov : Option Bool) (rc : Bool) : (s.result n rt r ca ov rc).sync = s.sync := by simp [State.result]
@[simp] theorem result_pins (n : Nat) (rt : Gpr) (r : Word) (ca ov : Option Bool) (rc : Bool) : (s.result n rt r ca ov rc).pins = s.pins := by simp [State.result]
@[simp] theorem result_env (n : Nat) (rt : Gpr) (r : Word) (ca ov : Option Bool) (rc : Bool) : (s.result n rt r ca ov rc).env = s.env := by simp [State.result]
@[simp] theorem result_free (n : Nat) (rt : Gpr) (r : Word) (ca ov : Option Bool) (rc : Bool) : (s.result n rt r ca ov rc).free = s.free := by simp [State.result]
@[simp] theorem result_cur (n : Nat) (rt : Gpr) (r : Word) (ca ov : Option Bool) (rc : Bool) : (s.result n rt r ca ov rc).cur = s.cur := by simp [State.result]
@[simp] theorem result_ev (n : Nat) (rt : Gpr) (r : Word) (ca ov : Option Bool) (rc : Bool) : (s.result n rt r ca ov rc).ev = s.ev := by simp [State.result]

/-! `resultCr`. -/

@[simp] theorem resultCr_gpr (n : Nat) (f : CrField) (v : BitVec 4) : (s.resultCr n f v).gpr = s.gpr := rfl
@[simp] theorem resultCr_xer (n : Nat) (f : CrField) (v : BitVec 4) : (s.resultCr n f v).xer = s.xer := rfl
@[simp] theorem resultCr_lr (n : Nat) (f : CrField) (v : BitVec 4) : (s.resultCr n f v).lr = s.lr := rfl
@[simp] theorem resultCr_ctr (n : Nat) (f : CrField) (v : BitVec 4) : (s.resultCr n f v).ctr = s.ctr := rfl
@[simp] theorem resultCr_acc (n : Nat) (f : CrField) (v : BitVec 4) : (s.resultCr n f v).acc = s.acc := rfl
@[simp] theorem resultCr_spefscr (n : Nat) (f : CrField) (v : BitVec 4) : (s.resultCr n f v).spefscr = s.spefscr := rfl
@[simp] theorem resultCr_msr (n : Nat) (f : CrField) (v : BitVec 4) : (s.resultCr n f v).msr = s.msr := rfl
@[simp] theorem resultCr_resv (n : Nat) (f : CrField) (v : BitVec 4) : (s.resultCr n f v).resv = s.resv := rfl
@[simp] theorem resultCr_ints (n : Nat) (f : CrField) (v : BitVec 4) : (s.resultCr n f v).ints = s.ints := rfl
@[simp] theorem resultCr_sprg (n : Nat) (f : CrField) (v : BitVec 4) : (s.resultCr n f v).sprg = s.sprg := rfl
@[simp] theorem resultCr_hid (n : Nat) (f : CrField) (v : BitVec 4) : (s.resultCr n f v).hid = s.hid := rfl
@[simp] theorem resultCr_tmr (n : Nat) (f : CrField) (v : BitVec 4) : (s.resultCr n f v).tmr = s.tmr := rfl
@[simp] theorem resultCr_mmu (n : Nat) (f : CrField) (v : BitVec 4) : (s.resultCr n f v).mmu = s.mmu := rfl
@[simp] theorem resultCr_cache (n : Nat) (f : CrField) (v : BitVec 4) : (s.resultCr n f v).cache = s.cache := rfl
@[simp] theorem resultCr_dbg (n : Nat) (f : CrField) (v : BitVec 4) : (s.resultCr n f v).dbg = s.dbg := rfl
@[simp] theorem resultCr_pm (n : Nat) (f : CrField) (v : BitVec 4) : (s.resultCr n f v).pm = s.pm := rfl
@[simp] theorem resultCr_psu (n : Nat) (f : CrField) (v : BitVec 4) : (s.resultCr n f v).psu = s.psu := rfl
@[simp] theorem resultCr_pwr (n : Nat) (f : CrField) (v : BitVec 4) : (s.resultCr n f v).pwr = s.pwr := rfl
@[simp] theorem resultCr_mem (n : Nat) (f : CrField) (v : BitVec 4) : (s.resultCr n f v).mem = s.mem := rfl
@[simp] theorem resultCr_buf (n : Nat) (f : CrField) (v : BitVec 4) : (s.resultCr n f v).buf = s.buf := rfl
@[simp] theorem resultCr_sync (n : Nat) (f : CrField) (v : BitVec 4) : (s.resultCr n f v).sync = s.sync := rfl
@[simp] theorem resultCr_pins (n : Nat) (f : CrField) (v : BitVec 4) : (s.resultCr n f v).pins = s.pins := rfl
@[simp] theorem resultCr_env (n : Nat) (f : CrField) (v : BitVec 4) : (s.resultCr n f v).env = s.env := rfl
@[simp] theorem resultCr_free (n : Nat) (f : CrField) (v : BitVec 4) : (s.resultCr n f v).free = s.free := rfl
@[simp] theorem resultCr_cur (n : Nat) (f : CrField) (v : BitVec 4) : (s.resultCr n f v).cur = s.cur := rfl
@[simp] theorem resultCr_ev (n : Nat) (f : CrField) (v : BitVec 4) : (s.resultCr n f v).ev = s.ev := rfl

/-! `resultOpen`. -/

@[simp] theorem resultOpen_lr (rt : Gpr) (oe rc : Bool) : (s.resultOpen rt oe rc).lr = s.lr := by cases oe <;> cases rc <;> rfl
@[simp] theorem resultOpen_ctr (rt : Gpr) (oe rc : Bool) : (s.resultOpen rt oe rc).ctr = s.ctr := by cases oe <;> cases rc <;> rfl
@[simp] theorem resultOpen_acc (rt : Gpr) (oe rc : Bool) : (s.resultOpen rt oe rc).acc = s.acc := by cases oe <;> cases rc <;> rfl
@[simp] theorem resultOpen_spefscr (rt : Gpr) (oe rc : Bool) : (s.resultOpen rt oe rc).spefscr = s.spefscr := by cases oe <;> cases rc <;> rfl
@[simp] theorem resultOpen_msr (rt : Gpr) (oe rc : Bool) : (s.resultOpen rt oe rc).msr = s.msr := by cases oe <;> cases rc <;> rfl
@[simp] theorem resultOpen_resv (rt : Gpr) (oe rc : Bool) : (s.resultOpen rt oe rc).resv = s.resv := by cases oe <;> cases rc <;> rfl
@[simp] theorem resultOpen_ints (rt : Gpr) (oe rc : Bool) : (s.resultOpen rt oe rc).ints = s.ints := by cases oe <;> cases rc <;> rfl
@[simp] theorem resultOpen_sprg (rt : Gpr) (oe rc : Bool) : (s.resultOpen rt oe rc).sprg = s.sprg := by cases oe <;> cases rc <;> rfl
@[simp] theorem resultOpen_hid (rt : Gpr) (oe rc : Bool) : (s.resultOpen rt oe rc).hid = s.hid := by cases oe <;> cases rc <;> rfl
@[simp] theorem resultOpen_tmr (rt : Gpr) (oe rc : Bool) : (s.resultOpen rt oe rc).tmr = s.tmr := by cases oe <;> cases rc <;> rfl
@[simp] theorem resultOpen_mmu (rt : Gpr) (oe rc : Bool) : (s.resultOpen rt oe rc).mmu = s.mmu := by cases oe <;> cases rc <;> rfl
@[simp] theorem resultOpen_cache (rt : Gpr) (oe rc : Bool) : (s.resultOpen rt oe rc).cache = s.cache := by cases oe <;> cases rc <;> rfl
@[simp] theorem resultOpen_dbg (rt : Gpr) (oe rc : Bool) : (s.resultOpen rt oe rc).dbg = s.dbg := by cases oe <;> cases rc <;> rfl
@[simp] theorem resultOpen_pm (rt : Gpr) (oe rc : Bool) : (s.resultOpen rt oe rc).pm = s.pm := by cases oe <;> cases rc <;> rfl
@[simp] theorem resultOpen_psu (rt : Gpr) (oe rc : Bool) : (s.resultOpen rt oe rc).psu = s.psu := by cases oe <;> cases rc <;> rfl
@[simp] theorem resultOpen_pwr (rt : Gpr) (oe rc : Bool) : (s.resultOpen rt oe rc).pwr = s.pwr := by cases oe <;> cases rc <;> rfl
@[simp] theorem resultOpen_mem (rt : Gpr) (oe rc : Bool) : (s.resultOpen rt oe rc).mem = s.mem := by cases oe <;> cases rc <;> rfl
@[simp] theorem resultOpen_buf (rt : Gpr) (oe rc : Bool) : (s.resultOpen rt oe rc).buf = s.buf := by cases oe <;> cases rc <;> rfl
@[simp] theorem resultOpen_sync (rt : Gpr) (oe rc : Bool) : (s.resultOpen rt oe rc).sync = s.sync := by cases oe <;> cases rc <;> rfl
@[simp] theorem resultOpen_pins (rt : Gpr) (oe rc : Bool) : (s.resultOpen rt oe rc).pins = s.pins := by cases oe <;> cases rc <;> rfl
@[simp] theorem resultOpen_env (rt : Gpr) (oe rc : Bool) : (s.resultOpen rt oe rc).env = s.env := by cases oe <;> cases rc <;> rfl
@[simp] theorem resultOpen_cur (rt : Gpr) (oe rc : Bool) : (s.resultOpen rt oe rc).cur = s.cur := by cases oe <;> cases rc <;> rfl
@[simp] theorem resultOpen_ev (rt : Gpr) (oe rc : Bool) : (s.resultOpen rt oe rc).ev = s.ev := by cases oe <;> cases rc <;> rfl

/-! `crLogic`. -/

@[simp] theorem crLogic_gpr (a b c : CrBit) (f : Bool → Bool → Bool) : (s.crLogic a b c f).gpr = s.gpr := rfl
@[simp] theorem crLogic_xer (a b c : CrBit) (f : Bool → Bool → Bool) : (s.crLogic a b c f).xer = s.xer := rfl
@[simp] theorem crLogic_lr (a b c : CrBit) (f : Bool → Bool → Bool) : (s.crLogic a b c f).lr = s.lr := rfl
@[simp] theorem crLogic_ctr (a b c : CrBit) (f : Bool → Bool → Bool) : (s.crLogic a b c f).ctr = s.ctr := rfl
@[simp] theorem crLogic_acc (a b c : CrBit) (f : Bool → Bool → Bool) : (s.crLogic a b c f).acc = s.acc := rfl
@[simp] theorem crLogic_spefscr (a b c : CrBit) (f : Bool → Bool → Bool) : (s.crLogic a b c f).spefscr = s.spefscr := rfl
@[simp] theorem crLogic_msr (a b c : CrBit) (f : Bool → Bool → Bool) : (s.crLogic a b c f).msr = s.msr := rfl
@[simp] theorem crLogic_resv (a b c : CrBit) (f : Bool → Bool → Bool) : (s.crLogic a b c f).resv = s.resv := rfl
@[simp] theorem crLogic_ints (a b c : CrBit) (f : Bool → Bool → Bool) : (s.crLogic a b c f).ints = s.ints := rfl
@[simp] theorem crLogic_sprg (a b c : CrBit) (f : Bool → Bool → Bool) : (s.crLogic a b c f).sprg = s.sprg := rfl
@[simp] theorem crLogic_hid (a b c : CrBit) (f : Bool → Bool → Bool) : (s.crLogic a b c f).hid = s.hid := rfl
@[simp] theorem crLogic_tmr (a b c : CrBit) (f : Bool → Bool → Bool) : (s.crLogic a b c f).tmr = s.tmr := rfl
@[simp] theorem crLogic_mmu (a b c : CrBit) (f : Bool → Bool → Bool) : (s.crLogic a b c f).mmu = s.mmu := rfl
@[simp] theorem crLogic_cache (a b c : CrBit) (f : Bool → Bool → Bool) : (s.crLogic a b c f).cache = s.cache := rfl
@[simp] theorem crLogic_dbg (a b c : CrBit) (f : Bool → Bool → Bool) : (s.crLogic a b c f).dbg = s.dbg := rfl
@[simp] theorem crLogic_pm (a b c : CrBit) (f : Bool → Bool → Bool) : (s.crLogic a b c f).pm = s.pm := rfl
@[simp] theorem crLogic_psu (a b c : CrBit) (f : Bool → Bool → Bool) : (s.crLogic a b c f).psu = s.psu := rfl
@[simp] theorem crLogic_pwr (a b c : CrBit) (f : Bool → Bool → Bool) : (s.crLogic a b c f).pwr = s.pwr := rfl
@[simp] theorem crLogic_mem (a b c : CrBit) (f : Bool → Bool → Bool) : (s.crLogic a b c f).mem = s.mem := rfl
@[simp] theorem crLogic_buf (a b c : CrBit) (f : Bool → Bool → Bool) : (s.crLogic a b c f).buf = s.buf := rfl
@[simp] theorem crLogic_sync (a b c : CrBit) (f : Bool → Bool → Bool) : (s.crLogic a b c f).sync = s.sync := rfl
@[simp] theorem crLogic_pins (a b c : CrBit) (f : Bool → Bool → Bool) : (s.crLogic a b c f).pins = s.pins := rfl
@[simp] theorem crLogic_env (a b c : CrBit) (f : Bool → Bool → Bool) : (s.crLogic a b c f).env = s.env := rfl
@[simp] theorem crLogic_free (a b c : CrBit) (f : Bool → Bool → Bool) : (s.crLogic a b c f).free = s.free := rfl
@[simp] theorem crLogic_cur (a b c : CrBit) (f : Bool → Bool → Bool) : (s.crLogic a b c f).cur = s.cur := rfl
@[simp] theorem crLogic_ev (a b c : CrBit) (f : Bool → Bool → Bool) : (s.crLogic a b c f).ev = s.ev := rfl

/-! `setEe`. -/

@[simp] theorem setEe_gpr (b : Bool) : (s.setEe b).gpr = s.gpr := rfl
@[simp] theorem setEe_pc (b : Bool) : (s.setEe b).pc = s.pc := rfl
@[simp] theorem setEe_cr (b : Bool) : (s.setEe b).cr = s.cr := rfl
@[simp] theorem setEe_xer (b : Bool) : (s.setEe b).xer = s.xer := rfl
@[simp] theorem setEe_lr (b : Bool) : (s.setEe b).lr = s.lr := rfl
@[simp] theorem setEe_ctr (b : Bool) : (s.setEe b).ctr = s.ctr := rfl
@[simp] theorem setEe_acc (b : Bool) : (s.setEe b).acc = s.acc := rfl
@[simp] theorem setEe_spefscr (b : Bool) : (s.setEe b).spefscr = s.spefscr := rfl
@[simp] theorem setEe_resv (b : Bool) : (s.setEe b).resv = s.resv := rfl
@[simp] theorem setEe_ints (b : Bool) : (s.setEe b).ints = s.ints := rfl
@[simp] theorem setEe_sprg (b : Bool) : (s.setEe b).sprg = s.sprg := rfl
@[simp] theorem setEe_hid (b : Bool) : (s.setEe b).hid = s.hid := rfl
@[simp] theorem setEe_tmr (b : Bool) : (s.setEe b).tmr = s.tmr := rfl
@[simp] theorem setEe_mmu (b : Bool) : (s.setEe b).mmu = s.mmu := rfl
@[simp] theorem setEe_cache (b : Bool) : (s.setEe b).cache = s.cache := rfl
@[simp] theorem setEe_dbg (b : Bool) : (s.setEe b).dbg = s.dbg := rfl
@[simp] theorem setEe_pm (b : Bool) : (s.setEe b).pm = s.pm := rfl
@[simp] theorem setEe_psu (b : Bool) : (s.setEe b).psu = s.psu := rfl
@[simp] theorem setEe_pwr (b : Bool) : (s.setEe b).pwr = s.pwr := rfl
@[simp] theorem setEe_mem (b : Bool) : (s.setEe b).mem = s.mem := rfl
@[simp] theorem setEe_buf (b : Bool) : (s.setEe b).buf = s.buf := rfl
@[simp] theorem setEe_sync (b : Bool) : (s.setEe b).sync = s.sync := rfl
@[simp] theorem setEe_pins (b : Bool) : (s.setEe b).pins = s.pins := rfl
@[simp] theorem setEe_env (b : Bool) : (s.setEe b).env = s.env := rfl
@[simp] theorem setEe_free (b : Bool) : (s.setEe b).free = s.free := rfl
@[simp] theorem setEe_cur (b : Bool) : (s.setEe b).cur = s.cur := rfl
@[simp] theorem setEe_ev (b : Bool) : (s.setEe b).ev = s.ev := rfl

/-! `branch`. -/

@[simp] theorem branch_gpr (n : Nat) (lk : Bool) (r : Br) : (s.branch n lk r).gpr = s.gpr := rfl
@[simp] theorem branch_cr (n : Nat) (lk : Bool) (r : Br) : (s.branch n lk r).cr = s.cr := rfl
@[simp] theorem branch_xer (n : Nat) (lk : Bool) (r : Br) : (s.branch n lk r).xer = s.xer := rfl
@[simp] theorem branch_acc (n : Nat) (lk : Bool) (r : Br) : (s.branch n lk r).acc = s.acc := rfl
@[simp] theorem branch_spefscr (n : Nat) (lk : Bool) (r : Br) : (s.branch n lk r).spefscr = s.spefscr := rfl
@[simp] theorem branch_msr (n : Nat) (lk : Bool) (r : Br) : (s.branch n lk r).msr = s.msr := rfl
@[simp] theorem branch_resv (n : Nat) (lk : Bool) (r : Br) : (s.branch n lk r).resv = s.resv := rfl
@[simp] theorem branch_ints (n : Nat) (lk : Bool) (r : Br) : (s.branch n lk r).ints = s.ints := rfl
@[simp] theorem branch_sprg (n : Nat) (lk : Bool) (r : Br) : (s.branch n lk r).sprg = s.sprg := rfl
@[simp] theorem branch_hid (n : Nat) (lk : Bool) (r : Br) : (s.branch n lk r).hid = s.hid := rfl
@[simp] theorem branch_tmr (n : Nat) (lk : Bool) (r : Br) : (s.branch n lk r).tmr = s.tmr := rfl
@[simp] theorem branch_mmu (n : Nat) (lk : Bool) (r : Br) : (s.branch n lk r).mmu = s.mmu := rfl
@[simp] theorem branch_cache (n : Nat) (lk : Bool) (r : Br) : (s.branch n lk r).cache = s.cache := rfl
@[simp] theorem branch_dbg (n : Nat) (lk : Bool) (r : Br) : (s.branch n lk r).dbg = s.dbg := rfl
@[simp] theorem branch_pm (n : Nat) (lk : Bool) (r : Br) : (s.branch n lk r).pm = s.pm := rfl
@[simp] theorem branch_psu (n : Nat) (lk : Bool) (r : Br) : (s.branch n lk r).psu = s.psu := rfl
@[simp] theorem branch_pwr (n : Nat) (lk : Bool) (r : Br) : (s.branch n lk r).pwr = s.pwr := rfl
@[simp] theorem branch_mem (n : Nat) (lk : Bool) (r : Br) : (s.branch n lk r).mem = s.mem := rfl
@[simp] theorem branch_buf (n : Nat) (lk : Bool) (r : Br) : (s.branch n lk r).buf = s.buf := rfl
@[simp] theorem branch_sync (n : Nat) (lk : Bool) (r : Br) : (s.branch n lk r).sync = s.sync := rfl
@[simp] theorem branch_pins (n : Nat) (lk : Bool) (r : Br) : (s.branch n lk r).pins = s.pins := rfl
@[simp] theorem branch_env (n : Nat) (lk : Bool) (r : Br) : (s.branch n lk r).env = s.env := rfl
@[simp] theorem branch_free (n : Nat) (lk : Bool) (r : Br) : (s.branch n lk r).free = s.free := rfl
@[simp] theorem branch_cur (n : Nat) (lk : Bool) (r : Br) : (s.branch n lk r).cur = s.cur := rfl
@[simp] theorem branch_ev (n : Nat) (lk : Bool) (r : Br) : (s.branch n lk r).ev = s.ev := rfl

/-! `setBase`. -/

@[simp] theorem setBase_pc (u : Option Gpr) (ea : Word) : (s.setBase u ea).pc = s.pc := by cases u <;> rfl
@[simp] theorem setBase_cr (u : Option Gpr) (ea : Word) : (s.setBase u ea).cr = s.cr := by cases u <;> rfl
@[simp] theorem setBase_xer (u : Option Gpr) (ea : Word) : (s.setBase u ea).xer = s.xer := by cases u <;> rfl
@[simp] theorem setBase_lr (u : Option Gpr) (ea : Word) : (s.setBase u ea).lr = s.lr := by cases u <;> rfl
@[simp] theorem setBase_ctr (u : Option Gpr) (ea : Word) : (s.setBase u ea).ctr = s.ctr := by cases u <;> rfl
@[simp] theorem setBase_acc (u : Option Gpr) (ea : Word) : (s.setBase u ea).acc = s.acc := by cases u <;> rfl
@[simp] theorem setBase_spefscr (u : Option Gpr) (ea : Word) : (s.setBase u ea).spefscr = s.spefscr := by cases u <;> rfl
@[simp] theorem setBase_msr (u : Option Gpr) (ea : Word) : (s.setBase u ea).msr = s.msr := by cases u <;> rfl
@[simp] theorem setBase_resv (u : Option Gpr) (ea : Word) : (s.setBase u ea).resv = s.resv := by cases u <;> rfl
@[simp] theorem setBase_ints (u : Option Gpr) (ea : Word) : (s.setBase u ea).ints = s.ints := by cases u <;> rfl
@[simp] theorem setBase_sprg (u : Option Gpr) (ea : Word) : (s.setBase u ea).sprg = s.sprg := by cases u <;> rfl
@[simp] theorem setBase_hid (u : Option Gpr) (ea : Word) : (s.setBase u ea).hid = s.hid := by cases u <;> rfl
@[simp] theorem setBase_tmr (u : Option Gpr) (ea : Word) : (s.setBase u ea).tmr = s.tmr := by cases u <;> rfl
@[simp] theorem setBase_mmu (u : Option Gpr) (ea : Word) : (s.setBase u ea).mmu = s.mmu := by cases u <;> rfl
@[simp] theorem setBase_cache (u : Option Gpr) (ea : Word) : (s.setBase u ea).cache = s.cache := by cases u <;> rfl
@[simp] theorem setBase_dbg (u : Option Gpr) (ea : Word) : (s.setBase u ea).dbg = s.dbg := by cases u <;> rfl
@[simp] theorem setBase_pm (u : Option Gpr) (ea : Word) : (s.setBase u ea).pm = s.pm := by cases u <;> rfl
@[simp] theorem setBase_psu (u : Option Gpr) (ea : Word) : (s.setBase u ea).psu = s.psu := by cases u <;> rfl
@[simp] theorem setBase_pwr (u : Option Gpr) (ea : Word) : (s.setBase u ea).pwr = s.pwr := by cases u <;> rfl
@[simp] theorem setBase_mem (u : Option Gpr) (ea : Word) : (s.setBase u ea).mem = s.mem := by cases u <;> rfl
@[simp] theorem setBase_buf (u : Option Gpr) (ea : Word) : (s.setBase u ea).buf = s.buf := by cases u <;> rfl
@[simp] theorem setBase_sync (u : Option Gpr) (ea : Word) : (s.setBase u ea).sync = s.sync := by cases u <;> rfl
@[simp] theorem setBase_pins (u : Option Gpr) (ea : Word) : (s.setBase u ea).pins = s.pins := by cases u <;> rfl
@[simp] theorem setBase_env (u : Option Gpr) (ea : Word) : (s.setBase u ea).env = s.env := by cases u <;> rfl
@[simp] theorem setBase_free (u : Option Gpr) (ea : Word) : (s.setBase u ea).free = s.free := by cases u <;> rfl
@[simp] theorem setBase_cur (u : Option Gpr) (ea : Word) : (s.setBase u ea).cur = s.cur := by cases u <;> rfl
@[simp] theorem setBase_ev (u : Option Gpr) (ea : Word) : (s.setBase u ea).ev = s.ev := by cases u <;> rfl

/-! `putAcc`. -/

@[simp] theorem putAcc_gpr (b : Bool) (v : DWord) : (s.putAcc b v).gpr = s.gpr := by cases b <;> rfl
@[simp] theorem putAcc_pc (b : Bool) (v : DWord) : (s.putAcc b v).pc = s.pc := by cases b <;> rfl
@[simp] theorem putAcc_cr (b : Bool) (v : DWord) : (s.putAcc b v).cr = s.cr := by cases b <;> rfl
@[simp] theorem putAcc_xer (b : Bool) (v : DWord) : (s.putAcc b v).xer = s.xer := by cases b <;> rfl
@[simp] theorem putAcc_lr (b : Bool) (v : DWord) : (s.putAcc b v).lr = s.lr := by cases b <;> rfl
@[simp] theorem putAcc_ctr (b : Bool) (v : DWord) : (s.putAcc b v).ctr = s.ctr := by cases b <;> rfl
@[simp] theorem putAcc_spefscr (b : Bool) (v : DWord) : (s.putAcc b v).spefscr = s.spefscr := by cases b <;> rfl
@[simp] theorem putAcc_msr (b : Bool) (v : DWord) : (s.putAcc b v).msr = s.msr := by cases b <;> rfl
@[simp] theorem putAcc_resv (b : Bool) (v : DWord) : (s.putAcc b v).resv = s.resv := by cases b <;> rfl
@[simp] theorem putAcc_ints (b : Bool) (v : DWord) : (s.putAcc b v).ints = s.ints := by cases b <;> rfl
@[simp] theorem putAcc_sprg (b : Bool) (v : DWord) : (s.putAcc b v).sprg = s.sprg := by cases b <;> rfl
@[simp] theorem putAcc_hid (b : Bool) (v : DWord) : (s.putAcc b v).hid = s.hid := by cases b <;> rfl
@[simp] theorem putAcc_tmr (b : Bool) (v : DWord) : (s.putAcc b v).tmr = s.tmr := by cases b <;> rfl
@[simp] theorem putAcc_mmu (b : Bool) (v : DWord) : (s.putAcc b v).mmu = s.mmu := by cases b <;> rfl
@[simp] theorem putAcc_cache (b : Bool) (v : DWord) : (s.putAcc b v).cache = s.cache := by cases b <;> rfl
@[simp] theorem putAcc_dbg (b : Bool) (v : DWord) : (s.putAcc b v).dbg = s.dbg := by cases b <;> rfl
@[simp] theorem putAcc_pm (b : Bool) (v : DWord) : (s.putAcc b v).pm = s.pm := by cases b <;> rfl
@[simp] theorem putAcc_psu (b : Bool) (v : DWord) : (s.putAcc b v).psu = s.psu := by cases b <;> rfl
@[simp] theorem putAcc_pwr (b : Bool) (v : DWord) : (s.putAcc b v).pwr = s.pwr := by cases b <;> rfl
@[simp] theorem putAcc_mem (b : Bool) (v : DWord) : (s.putAcc b v).mem = s.mem := by cases b <;> rfl
@[simp] theorem putAcc_buf (b : Bool) (v : DWord) : (s.putAcc b v).buf = s.buf := by cases b <;> rfl
@[simp] theorem putAcc_sync (b : Bool) (v : DWord) : (s.putAcc b v).sync = s.sync := by cases b <;> rfl
@[simp] theorem putAcc_pins (b : Bool) (v : DWord) : (s.putAcc b v).pins = s.pins := by cases b <;> rfl
@[simp] theorem putAcc_env (b : Bool) (v : DWord) : (s.putAcc b v).env = s.env := by cases b <;> rfl
@[simp] theorem putAcc_free (b : Bool) (v : DWord) : (s.putAcc b v).free = s.free := by cases b <;> rfl
@[simp] theorem putAcc_cur (b : Bool) (v : DWord) : (s.putAcc b v).cur = s.cur := by cases b <;> rfl
@[simp] theorem putAcc_ev (b : Bool) (v : DWord) : (s.putAcc b v).ev = s.ev := by cases b <;> rfl

/-! `speWrite`. -/

@[simp] theorem speWrite_cr (r : Gpr) (v : DWord) (b : Bool) : (s.speWrite r v b).cr = s.cr := by cases b <;> rfl
@[simp] theorem speWrite_xer (r : Gpr) (v : DWord) (b : Bool) : (s.speWrite r v b).xer = s.xer := by cases b <;> rfl
@[simp] theorem speWrite_lr (r : Gpr) (v : DWord) (b : Bool) : (s.speWrite r v b).lr = s.lr := by cases b <;> rfl
@[simp] theorem speWrite_ctr (r : Gpr) (v : DWord) (b : Bool) : (s.speWrite r v b).ctr = s.ctr := by cases b <;> rfl
@[simp] theorem speWrite_spefscr (r : Gpr) (v : DWord) (b : Bool) : (s.speWrite r v b).spefscr = s.spefscr := by cases b <;> rfl
@[simp] theorem speWrite_msr (r : Gpr) (v : DWord) (b : Bool) : (s.speWrite r v b).msr = s.msr := by cases b <;> rfl
@[simp] theorem speWrite_resv (r : Gpr) (v : DWord) (b : Bool) : (s.speWrite r v b).resv = s.resv := by cases b <;> rfl
@[simp] theorem speWrite_ints (r : Gpr) (v : DWord) (b : Bool) : (s.speWrite r v b).ints = s.ints := by cases b <;> rfl
@[simp] theorem speWrite_sprg (r : Gpr) (v : DWord) (b : Bool) : (s.speWrite r v b).sprg = s.sprg := by cases b <;> rfl
@[simp] theorem speWrite_hid (r : Gpr) (v : DWord) (b : Bool) : (s.speWrite r v b).hid = s.hid := by cases b <;> rfl
@[simp] theorem speWrite_tmr (r : Gpr) (v : DWord) (b : Bool) : (s.speWrite r v b).tmr = s.tmr := by cases b <;> rfl
@[simp] theorem speWrite_mmu (r : Gpr) (v : DWord) (b : Bool) : (s.speWrite r v b).mmu = s.mmu := by cases b <;> rfl
@[simp] theorem speWrite_cache (r : Gpr) (v : DWord) (b : Bool) : (s.speWrite r v b).cache = s.cache := by cases b <;> rfl
@[simp] theorem speWrite_dbg (r : Gpr) (v : DWord) (b : Bool) : (s.speWrite r v b).dbg = s.dbg := by cases b <;> rfl
@[simp] theorem speWrite_pm (r : Gpr) (v : DWord) (b : Bool) : (s.speWrite r v b).pm = s.pm := by cases b <;> rfl
@[simp] theorem speWrite_psu (r : Gpr) (v : DWord) (b : Bool) : (s.speWrite r v b).psu = s.psu := by cases b <;> rfl
@[simp] theorem speWrite_pwr (r : Gpr) (v : DWord) (b : Bool) : (s.speWrite r v b).pwr = s.pwr := by cases b <;> rfl
@[simp] theorem speWrite_mem (r : Gpr) (v : DWord) (b : Bool) : (s.speWrite r v b).mem = s.mem := by cases b <;> rfl
@[simp] theorem speWrite_buf (r : Gpr) (v : DWord) (b : Bool) : (s.speWrite r v b).buf = s.buf := by cases b <;> rfl
@[simp] theorem speWrite_sync (r : Gpr) (v : DWord) (b : Bool) : (s.speWrite r v b).sync = s.sync := by cases b <;> rfl
@[simp] theorem speWrite_pins (r : Gpr) (v : DWord) (b : Bool) : (s.speWrite r v b).pins = s.pins := by cases b <;> rfl
@[simp] theorem speWrite_env (r : Gpr) (v : DWord) (b : Bool) : (s.speWrite r v b).env = s.env := by cases b <;> rfl
@[simp] theorem speWrite_free (r : Gpr) (v : DWord) (b : Bool) : (s.speWrite r v b).free = s.free := by cases b <;> rfl
@[simp] theorem speWrite_cur (r : Gpr) (v : DWord) (b : Bool) : (s.speWrite r v b).cur = s.cur := by cases b <;> rfl
@[simp] theorem speWrite_ev (r : Gpr) (v : DWord) (b : Bool) : (s.speWrite r v b).ev = s.ev := by cases b <;> rfl

/-! `fpCr`. -/

@[simp] theorem fpCr_gpr (f : CrField) (c : Bool) : (s.fpCr f c).gpr = s.gpr := rfl
@[simp] theorem fpCr_pc (f : CrField) (c : Bool) : (s.fpCr f c).pc = s.pc := rfl
@[simp] theorem fpCr_xer (f : CrField) (c : Bool) : (s.fpCr f c).xer = s.xer := rfl
@[simp] theorem fpCr_lr (f : CrField) (c : Bool) : (s.fpCr f c).lr = s.lr := rfl
@[simp] theorem fpCr_ctr (f : CrField) (c : Bool) : (s.fpCr f c).ctr = s.ctr := rfl
@[simp] theorem fpCr_acc (f : CrField) (c : Bool) : (s.fpCr f c).acc = s.acc := rfl
@[simp] theorem fpCr_spefscr (f : CrField) (c : Bool) : (s.fpCr f c).spefscr = s.spefscr := rfl
@[simp] theorem fpCr_msr (f : CrField) (c : Bool) : (s.fpCr f c).msr = s.msr := rfl
@[simp] theorem fpCr_resv (f : CrField) (c : Bool) : (s.fpCr f c).resv = s.resv := rfl
@[simp] theorem fpCr_ints (f : CrField) (c : Bool) : (s.fpCr f c).ints = s.ints := rfl
@[simp] theorem fpCr_sprg (f : CrField) (c : Bool) : (s.fpCr f c).sprg = s.sprg := rfl
@[simp] theorem fpCr_hid (f : CrField) (c : Bool) : (s.fpCr f c).hid = s.hid := rfl
@[simp] theorem fpCr_tmr (f : CrField) (c : Bool) : (s.fpCr f c).tmr = s.tmr := rfl
@[simp] theorem fpCr_mmu (f : CrField) (c : Bool) : (s.fpCr f c).mmu = s.mmu := rfl
@[simp] theorem fpCr_cache (f : CrField) (c : Bool) : (s.fpCr f c).cache = s.cache := rfl
@[simp] theorem fpCr_dbg (f : CrField) (c : Bool) : (s.fpCr f c).dbg = s.dbg := rfl
@[simp] theorem fpCr_pm (f : CrField) (c : Bool) : (s.fpCr f c).pm = s.pm := rfl
@[simp] theorem fpCr_psu (f : CrField) (c : Bool) : (s.fpCr f c).psu = s.psu := rfl
@[simp] theorem fpCr_pwr (f : CrField) (c : Bool) : (s.fpCr f c).pwr = s.pwr := rfl
@[simp] theorem fpCr_mem (f : CrField) (c : Bool) : (s.fpCr f c).mem = s.mem := rfl
@[simp] theorem fpCr_buf (f : CrField) (c : Bool) : (s.fpCr f c).buf = s.buf := rfl
@[simp] theorem fpCr_sync (f : CrField) (c : Bool) : (s.fpCr f c).sync = s.sync := rfl
@[simp] theorem fpCr_pins (f : CrField) (c : Bool) : (s.fpCr f c).pins = s.pins := rfl
@[simp] theorem fpCr_env (f : CrField) (c : Bool) : (s.fpCr f c).env = s.env := rfl
@[simp] theorem fpCr_cur (f : CrField) (c : Bool) : (s.fpCr f c).cur = s.cur := rfl
@[simp] theorem fpCr_ev (f : CrField) (c : Bool) : (s.fpCr f c).ev = s.ev := rfl

/-! `setEsr`. -/

@[simp] theorem setEsr_gpr (v : Word) : (s.setEsr v).gpr = s.gpr := rfl
@[simp] theorem setEsr_pc (v : Word) : (s.setEsr v).pc = s.pc := rfl
@[simp] theorem setEsr_cr (v : Word) : (s.setEsr v).cr = s.cr := rfl
@[simp] theorem setEsr_xer (v : Word) : (s.setEsr v).xer = s.xer := rfl
@[simp] theorem setEsr_lr (v : Word) : (s.setEsr v).lr = s.lr := rfl
@[simp] theorem setEsr_ctr (v : Word) : (s.setEsr v).ctr = s.ctr := rfl
@[simp] theorem setEsr_acc (v : Word) : (s.setEsr v).acc = s.acc := rfl
@[simp] theorem setEsr_spefscr (v : Word) : (s.setEsr v).spefscr = s.spefscr := rfl
@[simp] theorem setEsr_msr (v : Word) : (s.setEsr v).msr = s.msr := rfl
@[simp] theorem setEsr_resv (v : Word) : (s.setEsr v).resv = s.resv := rfl
@[simp] theorem setEsr_sprg (v : Word) : (s.setEsr v).sprg = s.sprg := rfl
@[simp] theorem setEsr_hid (v : Word) : (s.setEsr v).hid = s.hid := rfl
@[simp] theorem setEsr_tmr (v : Word) : (s.setEsr v).tmr = s.tmr := rfl
@[simp] theorem setEsr_mmu (v : Word) : (s.setEsr v).mmu = s.mmu := rfl
@[simp] theorem setEsr_cache (v : Word) : (s.setEsr v).cache = s.cache := rfl
@[simp] theorem setEsr_dbg (v : Word) : (s.setEsr v).dbg = s.dbg := rfl
@[simp] theorem setEsr_pm (v : Word) : (s.setEsr v).pm = s.pm := rfl
@[simp] theorem setEsr_psu (v : Word) : (s.setEsr v).psu = s.psu := rfl
@[simp] theorem setEsr_pwr (v : Word) : (s.setEsr v).pwr = s.pwr := rfl
@[simp] theorem setEsr_mem (v : Word) : (s.setEsr v).mem = s.mem := rfl
@[simp] theorem setEsr_buf (v : Word) : (s.setEsr v).buf = s.buf := rfl
@[simp] theorem setEsr_sync (v : Word) : (s.setEsr v).sync = s.sync := rfl
@[simp] theorem setEsr_pins (v : Word) : (s.setEsr v).pins = s.pins := rfl
@[simp] theorem setEsr_env (v : Word) : (s.setEsr v).env = s.env := rfl
@[simp] theorem setEsr_free (v : Word) : (s.setEsr v).free = s.free := rfl
@[simp] theorem setEsr_cur (v : Word) : (s.setEsr v).cur = s.cur := rfl
@[simp] theorem setEsr_ev (v : Word) : (s.setEsr v).ev = s.ev := rfl

/-! `setDear`. -/

@[simp] theorem setDear_gpr (v : Word) : (s.setDear v).gpr = s.gpr := rfl
@[simp] theorem setDear_pc (v : Word) : (s.setDear v).pc = s.pc := rfl
@[simp] theorem setDear_cr (v : Word) : (s.setDear v).cr = s.cr := rfl
@[simp] theorem setDear_xer (v : Word) : (s.setDear v).xer = s.xer := rfl
@[simp] theorem setDear_lr (v : Word) : (s.setDear v).lr = s.lr := rfl
@[simp] theorem setDear_ctr (v : Word) : (s.setDear v).ctr = s.ctr := rfl
@[simp] theorem setDear_acc (v : Word) : (s.setDear v).acc = s.acc := rfl
@[simp] theorem setDear_spefscr (v : Word) : (s.setDear v).spefscr = s.spefscr := rfl
@[simp] theorem setDear_msr (v : Word) : (s.setDear v).msr = s.msr := rfl
@[simp] theorem setDear_resv (v : Word) : (s.setDear v).resv = s.resv := rfl
@[simp] theorem setDear_sprg (v : Word) : (s.setDear v).sprg = s.sprg := rfl
@[simp] theorem setDear_hid (v : Word) : (s.setDear v).hid = s.hid := rfl
@[simp] theorem setDear_tmr (v : Word) : (s.setDear v).tmr = s.tmr := rfl
@[simp] theorem setDear_mmu (v : Word) : (s.setDear v).mmu = s.mmu := rfl
@[simp] theorem setDear_cache (v : Word) : (s.setDear v).cache = s.cache := rfl
@[simp] theorem setDear_dbg (v : Word) : (s.setDear v).dbg = s.dbg := rfl
@[simp] theorem setDear_pm (v : Word) : (s.setDear v).pm = s.pm := rfl
@[simp] theorem setDear_psu (v : Word) : (s.setDear v).psu = s.psu := rfl
@[simp] theorem setDear_pwr (v : Word) : (s.setDear v).pwr = s.pwr := rfl
@[simp] theorem setDear_mem (v : Word) : (s.setDear v).mem = s.mem := rfl
@[simp] theorem setDear_buf (v : Word) : (s.setDear v).buf = s.buf := rfl
@[simp] theorem setDear_sync (v : Word) : (s.setDear v).sync = s.sync := rfl
@[simp] theorem setDear_pins (v : Word) : (s.setDear v).pins = s.pins := rfl
@[simp] theorem setDear_env (v : Word) : (s.setDear v).env = s.env := rfl
@[simp] theorem setDear_free (v : Word) : (s.setDear v).free = s.free := rfl
@[simp] theorem setDear_cur (v : Word) : (s.setDear v).cur = s.cur := rfl
@[simp] theorem setDear_ev (v : Word) : (s.setDear v).ev = s.ev := rfl

/-! `orMcsr`. -/

@[simp] theorem orMcsr_gpr (v : Word) : (s.orMcsr v).gpr = s.gpr := rfl
@[simp] theorem orMcsr_pc (v : Word) : (s.orMcsr v).pc = s.pc := rfl
@[simp] theorem orMcsr_cr (v : Word) : (s.orMcsr v).cr = s.cr := rfl
@[simp] theorem orMcsr_xer (v : Word) : (s.orMcsr v).xer = s.xer := rfl
@[simp] theorem orMcsr_lr (v : Word) : (s.orMcsr v).lr = s.lr := rfl
@[simp] theorem orMcsr_ctr (v : Word) : (s.orMcsr v).ctr = s.ctr := rfl
@[simp] theorem orMcsr_acc (v : Word) : (s.orMcsr v).acc = s.acc := rfl
@[simp] theorem orMcsr_spefscr (v : Word) : (s.orMcsr v).spefscr = s.spefscr := rfl
@[simp] theorem orMcsr_msr (v : Word) : (s.orMcsr v).msr = s.msr := rfl
@[simp] theorem orMcsr_resv (v : Word) : (s.orMcsr v).resv = s.resv := rfl
@[simp] theorem orMcsr_sprg (v : Word) : (s.orMcsr v).sprg = s.sprg := rfl
@[simp] theorem orMcsr_hid (v : Word) : (s.orMcsr v).hid = s.hid := rfl
@[simp] theorem orMcsr_tmr (v : Word) : (s.orMcsr v).tmr = s.tmr := rfl
@[simp] theorem orMcsr_mmu (v : Word) : (s.orMcsr v).mmu = s.mmu := rfl
@[simp] theorem orMcsr_cache (v : Word) : (s.orMcsr v).cache = s.cache := rfl
@[simp] theorem orMcsr_dbg (v : Word) : (s.orMcsr v).dbg = s.dbg := rfl
@[simp] theorem orMcsr_pm (v : Word) : (s.orMcsr v).pm = s.pm := rfl
@[simp] theorem orMcsr_psu (v : Word) : (s.orMcsr v).psu = s.psu := rfl
@[simp] theorem orMcsr_pwr (v : Word) : (s.orMcsr v).pwr = s.pwr := rfl
@[simp] theorem orMcsr_mem (v : Word) : (s.orMcsr v).mem = s.mem := rfl
@[simp] theorem orMcsr_buf (v : Word) : (s.orMcsr v).buf = s.buf := rfl
@[simp] theorem orMcsr_sync (v : Word) : (s.orMcsr v).sync = s.sync := rfl
@[simp] theorem orMcsr_pins (v : Word) : (s.orMcsr v).pins = s.pins := rfl
@[simp] theorem orMcsr_env (v : Word) : (s.orMcsr v).env = s.env := rfl
@[simp] theorem orMcsr_free (v : Word) : (s.orMcsr v).free = s.free := rfl
@[simp] theorem orMcsr_cur (v : Word) : (s.orMcsr v).cur = s.cur := rfl
@[simp] theorem orMcsr_ev (v : Word) : (s.orMcsr v).ev = s.ev := rfl

/-! `logMcar`. -/

@[simp] theorem logMcar_gpr (a : Word) (b : Bool) : (s.logMcar a b).gpr = s.gpr := by unfold State.logMcar; split <;> rfl
@[simp] theorem logMcar_pc (a : Word) (b : Bool) : (s.logMcar a b).pc = s.pc := by unfold State.logMcar; split <;> rfl
@[simp] theorem logMcar_cr (a : Word) (b : Bool) : (s.logMcar a b).cr = s.cr := by unfold State.logMcar; split <;> rfl
@[simp] theorem logMcar_xer (a : Word) (b : Bool) : (s.logMcar a b).xer = s.xer := by unfold State.logMcar; split <;> rfl
@[simp] theorem logMcar_lr (a : Word) (b : Bool) : (s.logMcar a b).lr = s.lr := by unfold State.logMcar; split <;> rfl
@[simp] theorem logMcar_ctr (a : Word) (b : Bool) : (s.logMcar a b).ctr = s.ctr := by unfold State.logMcar; split <;> rfl
@[simp] theorem logMcar_acc (a : Word) (b : Bool) : (s.logMcar a b).acc = s.acc := by unfold State.logMcar; split <;> rfl
@[simp] theorem logMcar_spefscr (a : Word) (b : Bool) : (s.logMcar a b).spefscr = s.spefscr := by unfold State.logMcar; split <;> rfl
@[simp] theorem logMcar_msr (a : Word) (b : Bool) : (s.logMcar a b).msr = s.msr := by unfold State.logMcar; split <;> rfl
@[simp] theorem logMcar_resv (a : Word) (b : Bool) : (s.logMcar a b).resv = s.resv := by unfold State.logMcar; split <;> rfl
@[simp] theorem logMcar_sprg (a : Word) (b : Bool) : (s.logMcar a b).sprg = s.sprg := by unfold State.logMcar; split <;> rfl
@[simp] theorem logMcar_hid (a : Word) (b : Bool) : (s.logMcar a b).hid = s.hid := by unfold State.logMcar; split <;> rfl
@[simp] theorem logMcar_tmr (a : Word) (b : Bool) : (s.logMcar a b).tmr = s.tmr := by unfold State.logMcar; split <;> rfl
@[simp] theorem logMcar_mmu (a : Word) (b : Bool) : (s.logMcar a b).mmu = s.mmu := by unfold State.logMcar; split <;> rfl
@[simp] theorem logMcar_cache (a : Word) (b : Bool) : (s.logMcar a b).cache = s.cache := by unfold State.logMcar; split <;> rfl
@[simp] theorem logMcar_dbg (a : Word) (b : Bool) : (s.logMcar a b).dbg = s.dbg := by unfold State.logMcar; split <;> rfl
@[simp] theorem logMcar_pm (a : Word) (b : Bool) : (s.logMcar a b).pm = s.pm := by unfold State.logMcar; split <;> rfl
@[simp] theorem logMcar_psu (a : Word) (b : Bool) : (s.logMcar a b).psu = s.psu := by unfold State.logMcar; split <;> rfl
@[simp] theorem logMcar_pwr (a : Word) (b : Bool) : (s.logMcar a b).pwr = s.pwr := by unfold State.logMcar; split <;> rfl
@[simp] theorem logMcar_mem (a : Word) (b : Bool) : (s.logMcar a b).mem = s.mem := by unfold State.logMcar; split <;> rfl
@[simp] theorem logMcar_buf (a : Word) (b : Bool) : (s.logMcar a b).buf = s.buf := by unfold State.logMcar; split <;> rfl
@[simp] theorem logMcar_sync (a : Word) (b : Bool) : (s.logMcar a b).sync = s.sync := by unfold State.logMcar; split <;> rfl
@[simp] theorem logMcar_pins (a : Word) (b : Bool) : (s.logMcar a b).pins = s.pins := by unfold State.logMcar; split <;> rfl
@[simp] theorem logMcar_env (a : Word) (b : Bool) : (s.logMcar a b).env = s.env := by unfold State.logMcar; split <;> rfl
@[simp] theorem logMcar_free (a : Word) (b : Bool) : (s.logMcar a b).free = s.free := by unfold State.logMcar; split <;> rfl
@[simp] theorem logMcar_cur (a : Word) (b : Bool) : (s.logMcar a b).cur = s.cur := by unfold State.logMcar; split <;> rfl
@[simp] theorem logMcar_ev (a : Word) (b : Bool) : (s.logMcar a b).ev = s.ev := by unfold State.logMcar; split <;> rfl

/-! `asyncMcheck`. -/

@[simp] theorem asyncMcheck_gpr (v a : Word) (b : Bool) : (s.asyncMcheck v a b).gpr = s.gpr := by simp [State.asyncMcheck]
@[simp] theorem asyncMcheck_pc (v a : Word) (b : Bool) : (s.asyncMcheck v a b).pc = s.pc := by simp [State.asyncMcheck]
@[simp] theorem asyncMcheck_cr (v a : Word) (b : Bool) : (s.asyncMcheck v a b).cr = s.cr := by simp [State.asyncMcheck]
@[simp] theorem asyncMcheck_xer (v a : Word) (b : Bool) : (s.asyncMcheck v a b).xer = s.xer := by simp [State.asyncMcheck]
@[simp] theorem asyncMcheck_lr (v a : Word) (b : Bool) : (s.asyncMcheck v a b).lr = s.lr := by simp [State.asyncMcheck]
@[simp] theorem asyncMcheck_ctr (v a : Word) (b : Bool) : (s.asyncMcheck v a b).ctr = s.ctr := by simp [State.asyncMcheck]
@[simp] theorem asyncMcheck_acc (v a : Word) (b : Bool) : (s.asyncMcheck v a b).acc = s.acc := by simp [State.asyncMcheck]
@[simp] theorem asyncMcheck_spefscr (v a : Word) (b : Bool) : (s.asyncMcheck v a b).spefscr = s.spefscr := by simp [State.asyncMcheck]
@[simp] theorem asyncMcheck_msr (v a : Word) (b : Bool) : (s.asyncMcheck v a b).msr = s.msr := by simp [State.asyncMcheck]
@[simp] theorem asyncMcheck_resv (v a : Word) (b : Bool) : (s.asyncMcheck v a b).resv = s.resv := by simp [State.asyncMcheck]
@[simp] theorem asyncMcheck_sprg (v a : Word) (b : Bool) : (s.asyncMcheck v a b).sprg = s.sprg := by simp [State.asyncMcheck]
@[simp] theorem asyncMcheck_hid (v a : Word) (b : Bool) : (s.asyncMcheck v a b).hid = s.hid := by simp [State.asyncMcheck]
@[simp] theorem asyncMcheck_tmr (v a : Word) (b : Bool) : (s.asyncMcheck v a b).tmr = s.tmr := by simp [State.asyncMcheck]
@[simp] theorem asyncMcheck_mmu (v a : Word) (b : Bool) : (s.asyncMcheck v a b).mmu = s.mmu := by simp [State.asyncMcheck]
@[simp] theorem asyncMcheck_cache (v a : Word) (b : Bool) : (s.asyncMcheck v a b).cache = s.cache := by simp [State.asyncMcheck]
@[simp] theorem asyncMcheck_dbg (v a : Word) (b : Bool) : (s.asyncMcheck v a b).dbg = s.dbg := by simp [State.asyncMcheck]
@[simp] theorem asyncMcheck_pm (v a : Word) (b : Bool) : (s.asyncMcheck v a b).pm = s.pm := by simp [State.asyncMcheck]
@[simp] theorem asyncMcheck_psu (v a : Word) (b : Bool) : (s.asyncMcheck v a b).psu = s.psu := by simp [State.asyncMcheck]
@[simp] theorem asyncMcheck_pwr (v a : Word) (b : Bool) : (s.asyncMcheck v a b).pwr = s.pwr := by simp [State.asyncMcheck]
@[simp] theorem asyncMcheck_mem (v a : Word) (b : Bool) : (s.asyncMcheck v a b).mem = s.mem := by simp [State.asyncMcheck]
@[simp] theorem asyncMcheck_buf (v a : Word) (b : Bool) : (s.asyncMcheck v a b).buf = s.buf := by simp [State.asyncMcheck]
@[simp] theorem asyncMcheck_sync (v a : Word) (b : Bool) : (s.asyncMcheck v a b).sync = s.sync := by simp [State.asyncMcheck]
@[simp] theorem asyncMcheck_pins (v a : Word) (b : Bool) : (s.asyncMcheck v a b).pins = s.pins := by simp [State.asyncMcheck]
@[simp] theorem asyncMcheck_env (v a : Word) (b : Bool) : (s.asyncMcheck v a b).env = s.env := by simp [State.asyncMcheck]
@[simp] theorem asyncMcheck_free (v a : Word) (b : Bool) : (s.asyncMcheck v a b).free = s.free := by simp [State.asyncMcheck]
@[simp] theorem asyncMcheck_cur (v a : Word) (b : Bool) : (s.asyncMcheck v a b).cur = s.cur := by simp [State.asyncMcheck]
@[simp] theorem asyncMcheck_ev (v a : Word) (b : Bool) : (s.asyncMcheck v a b).ev = s.ev := by simp [State.asyncMcheck]

/-! `takeInterrupt`. -/

@[simp] theorem takeInterrupt_gpr (t : IntType) (w : Word) : (takeInterrupt t w s).gpr = s.gpr := rfl
@[simp] theorem takeInterrupt_cr (t : IntType) (w : Word) : (takeInterrupt t w s).cr = s.cr := rfl
@[simp] theorem takeInterrupt_xer (t : IntType) (w : Word) : (takeInterrupt t w s).xer = s.xer := rfl
@[simp] theorem takeInterrupt_lr (t : IntType) (w : Word) : (takeInterrupt t w s).lr = s.lr := rfl
@[simp] theorem takeInterrupt_ctr (t : IntType) (w : Word) : (takeInterrupt t w s).ctr = s.ctr := rfl
@[simp] theorem takeInterrupt_acc (t : IntType) (w : Word) : (takeInterrupt t w s).acc = s.acc := rfl
@[simp] theorem takeInterrupt_spefscr (t : IntType) (w : Word) : (takeInterrupt t w s).spefscr = s.spefscr := rfl
@[simp] theorem takeInterrupt_sprg (t : IntType) (w : Word) : (takeInterrupt t w s).sprg = s.sprg := rfl
@[simp] theorem takeInterrupt_hid (t : IntType) (w : Word) : (takeInterrupt t w s).hid = s.hid := rfl
@[simp] theorem takeInterrupt_tmr (t : IntType) (w : Word) : (takeInterrupt t w s).tmr = s.tmr := rfl
@[simp] theorem takeInterrupt_mmu (t : IntType) (w : Word) : (takeInterrupt t w s).mmu = s.mmu := rfl
@[simp] theorem takeInterrupt_cache (t : IntType) (w : Word) : (takeInterrupt t w s).cache = s.cache := rfl
@[simp] theorem takeInterrupt_dbg (t : IntType) (w : Word) : (takeInterrupt t w s).dbg = s.dbg := rfl
@[simp] theorem takeInterrupt_pm (t : IntType) (w : Word) : (takeInterrupt t w s).pm = s.pm := rfl
@[simp] theorem takeInterrupt_psu (t : IntType) (w : Word) : (takeInterrupt t w s).psu = s.psu := rfl
@[simp] theorem takeInterrupt_mem (t : IntType) (w : Word) : (takeInterrupt t w s).mem = s.mem := rfl
@[simp] theorem takeInterrupt_buf (t : IntType) (w : Word) : (takeInterrupt t w s).buf = s.buf := rfl
@[simp] theorem takeInterrupt_sync (t : IntType) (w : Word) : (takeInterrupt t w s).sync = s.sync := rfl
@[simp] theorem takeInterrupt_pins (t : IntType) (w : Word) : (takeInterrupt t w s).pins = s.pins := rfl
@[simp] theorem takeInterrupt_env (t : IntType) (w : Word) : (takeInterrupt t w s).env = s.env := rfl
@[simp] theorem takeInterrupt_free (t : IntType) (w : Word) : (takeInterrupt t w s).free = s.free := rfl
@[simp] theorem takeInterrupt_cur (t : IntType) (w : Word) : (takeInterrupt t w s).cur = s.cur := rfl

/-! `raiseSync`. -/

@[simp] theorem raiseSync_gpr (t : IntType) (w : Word) : (raiseSync t w s).gpr = s.gpr := rfl
@[simp] theorem raiseSync_cr (t : IntType) (w : Word) : (raiseSync t w s).cr = s.cr := rfl
@[simp] theorem raiseSync_xer (t : IntType) (w : Word) : (raiseSync t w s).xer = s.xer := rfl
@[simp] theorem raiseSync_lr (t : IntType) (w : Word) : (raiseSync t w s).lr = s.lr := rfl
@[simp] theorem raiseSync_ctr (t : IntType) (w : Word) : (raiseSync t w s).ctr = s.ctr := rfl
@[simp] theorem raiseSync_acc (t : IntType) (w : Word) : (raiseSync t w s).acc = s.acc := rfl
@[simp] theorem raiseSync_spefscr (t : IntType) (w : Word) : (raiseSync t w s).spefscr = s.spefscr := rfl
@[simp] theorem raiseSync_sprg (t : IntType) (w : Word) : (raiseSync t w s).sprg = s.sprg := rfl
@[simp] theorem raiseSync_hid (t : IntType) (w : Word) : (raiseSync t w s).hid = s.hid := rfl
@[simp] theorem raiseSync_tmr (t : IntType) (w : Word) : (raiseSync t w s).tmr = s.tmr := rfl
@[simp] theorem raiseSync_mmu (t : IntType) (w : Word) : (raiseSync t w s).mmu = s.mmu := rfl
@[simp] theorem raiseSync_cache (t : IntType) (w : Word) : (raiseSync t w s).cache = s.cache := rfl
@[simp] theorem raiseSync_dbg (t : IntType) (w : Word) : (raiseSync t w s).dbg = s.dbg := rfl
@[simp] theorem raiseSync_pm (t : IntType) (w : Word) : (raiseSync t w s).pm = s.pm := rfl
@[simp] theorem raiseSync_psu (t : IntType) (w : Word) : (raiseSync t w s).psu = s.psu := rfl
@[simp] theorem raiseSync_mem (t : IntType) (w : Word) : (raiseSync t w s).mem = s.mem := rfl
@[simp] theorem raiseSync_buf (t : IntType) (w : Word) : (raiseSync t w s).buf = s.buf := rfl
@[simp] theorem raiseSync_sync (t : IntType) (w : Word) : (raiseSync t w s).sync = s.sync := rfl
@[simp] theorem raiseSync_pins (t : IntType) (w : Word) : (raiseSync t w s).pins = s.pins := rfl
@[simp] theorem raiseSync_env (t : IntType) (w : Word) : (raiseSync t w s).env = s.env := rfl
@[simp] theorem raiseSync_free (t : IntType) (w : Word) : (raiseSync t w s).free = s.free := rfl
@[simp] theorem raiseSync_cur (t : IntType) (w : Word) : (raiseSync t w s).cur = s.cur := rfl

/-! `raiseSystemCall`. -/

@[simp] theorem raiseSystemCall_gpr (n : Nat) : (raiseSystemCall n s).gpr = s.gpr := rfl
@[simp] theorem raiseSystemCall_cr (n : Nat) : (raiseSystemCall n s).cr = s.cr := rfl
@[simp] theorem raiseSystemCall_xer (n : Nat) : (raiseSystemCall n s).xer = s.xer := rfl
@[simp] theorem raiseSystemCall_lr (n : Nat) : (raiseSystemCall n s).lr = s.lr := rfl
@[simp] theorem raiseSystemCall_ctr (n : Nat) : (raiseSystemCall n s).ctr = s.ctr := rfl
@[simp] theorem raiseSystemCall_acc (n : Nat) : (raiseSystemCall n s).acc = s.acc := rfl
@[simp] theorem raiseSystemCall_spefscr (n : Nat) : (raiseSystemCall n s).spefscr = s.spefscr := rfl
@[simp] theorem raiseSystemCall_sprg (n : Nat) : (raiseSystemCall n s).sprg = s.sprg := rfl
@[simp] theorem raiseSystemCall_hid (n : Nat) : (raiseSystemCall n s).hid = s.hid := rfl
@[simp] theorem raiseSystemCall_tmr (n : Nat) : (raiseSystemCall n s).tmr = s.tmr := rfl
@[simp] theorem raiseSystemCall_mmu (n : Nat) : (raiseSystemCall n s).mmu = s.mmu := rfl
@[simp] theorem raiseSystemCall_cache (n : Nat) : (raiseSystemCall n s).cache = s.cache := rfl
@[simp] theorem raiseSystemCall_dbg (n : Nat) : (raiseSystemCall n s).dbg = s.dbg := rfl
@[simp] theorem raiseSystemCall_pm (n : Nat) : (raiseSystemCall n s).pm = s.pm := rfl
@[simp] theorem raiseSystemCall_psu (n : Nat) : (raiseSystemCall n s).psu = s.psu := rfl
@[simp] theorem raiseSystemCall_mem (n : Nat) : (raiseSystemCall n s).mem = s.mem := rfl
@[simp] theorem raiseSystemCall_buf (n : Nat) : (raiseSystemCall n s).buf = s.buf := rfl
@[simp] theorem raiseSystemCall_sync (n : Nat) : (raiseSystemCall n s).sync = s.sync := rfl
@[simp] theorem raiseSystemCall_pins (n : Nat) : (raiseSystemCall n s).pins = s.pins := rfl
@[simp] theorem raiseSystemCall_env (n : Nat) : (raiseSystemCall n s).env = s.env := rfl
@[simp] theorem raiseSystemCall_free (n : Nat) : (raiseSystemCall n s).free = s.free := rfl
@[simp] theorem raiseSystemCall_cur (n : Nat) : (raiseSystemCall n s).cur = s.cur := rfl

/-! `raiseAlignment`. -/

@[simp] theorem raiseAlignment_gpr (a w : Word) : (raiseAlignment a w s).gpr = s.gpr := rfl
@[simp] theorem raiseAlignment_cr (a w : Word) : (raiseAlignment a w s).cr = s.cr := rfl
@[simp] theorem raiseAlignment_xer (a w : Word) : (raiseAlignment a w s).xer = s.xer := rfl
@[simp] theorem raiseAlignment_lr (a w : Word) : (raiseAlignment a w s).lr = s.lr := rfl
@[simp] theorem raiseAlignment_ctr (a w : Word) : (raiseAlignment a w s).ctr = s.ctr := rfl
@[simp] theorem raiseAlignment_acc (a w : Word) : (raiseAlignment a w s).acc = s.acc := rfl
@[simp] theorem raiseAlignment_spefscr (a w : Word) : (raiseAlignment a w s).spefscr = s.spefscr := rfl
@[simp] theorem raiseAlignment_sprg (a w : Word) : (raiseAlignment a w s).sprg = s.sprg := rfl
@[simp] theorem raiseAlignment_hid (a w : Word) : (raiseAlignment a w s).hid = s.hid := rfl
@[simp] theorem raiseAlignment_tmr (a w : Word) : (raiseAlignment a w s).tmr = s.tmr := rfl
@[simp] theorem raiseAlignment_mmu (a w : Word) : (raiseAlignment a w s).mmu = s.mmu := rfl
@[simp] theorem raiseAlignment_cache (a w : Word) : (raiseAlignment a w s).cache = s.cache := rfl
@[simp] theorem raiseAlignment_dbg (a w : Word) : (raiseAlignment a w s).dbg = s.dbg := rfl
@[simp] theorem raiseAlignment_pm (a w : Word) : (raiseAlignment a w s).pm = s.pm := rfl
@[simp] theorem raiseAlignment_psu (a w : Word) : (raiseAlignment a w s).psu = s.psu := rfl
@[simp] theorem raiseAlignment_mem (a w : Word) : (raiseAlignment a w s).mem = s.mem := rfl
@[simp] theorem raiseAlignment_buf (a w : Word) : (raiseAlignment a w s).buf = s.buf := rfl
@[simp] theorem raiseAlignment_sync (a w : Word) : (raiseAlignment a w s).sync = s.sync := rfl
@[simp] theorem raiseAlignment_pins (a w : Word) : (raiseAlignment a w s).pins = s.pins := rfl
@[simp] theorem raiseAlignment_env (a w : Word) : (raiseAlignment a w s).env = s.env := rfl
@[simp] theorem raiseAlignment_free (a w : Word) : (raiseAlignment a w s).free = s.free := rfl
@[simp] theorem raiseAlignment_cur (a w : Word) : (raiseAlignment a w s).cur = s.cur := rfl

/-! `errorReport`. -/

@[simp] theorem errorReport_gpr (w : Word) : (errorReport w s).gpr = s.gpr := rfl
@[simp] theorem errorReport_cr (w : Word) : (errorReport w s).cr = s.cr := rfl
@[simp] theorem errorReport_xer (w : Word) : (errorReport w s).xer = s.xer := rfl
@[simp] theorem errorReport_lr (w : Word) : (errorReport w s).lr = s.lr := rfl
@[simp] theorem errorReport_ctr (w : Word) : (errorReport w s).ctr = s.ctr := rfl
@[simp] theorem errorReport_acc (w : Word) : (errorReport w s).acc = s.acc := rfl
@[simp] theorem errorReport_spefscr (w : Word) : (errorReport w s).spefscr = s.spefscr := rfl
@[simp] theorem errorReport_sprg (w : Word) : (errorReport w s).sprg = s.sprg := rfl
@[simp] theorem errorReport_hid (w : Word) : (errorReport w s).hid = s.hid := rfl
@[simp] theorem errorReport_tmr (w : Word) : (errorReport w s).tmr = s.tmr := rfl
@[simp] theorem errorReport_mmu (w : Word) : (errorReport w s).mmu = s.mmu := rfl
@[simp] theorem errorReport_cache (w : Word) : (errorReport w s).cache = s.cache := rfl
@[simp] theorem errorReport_dbg (w : Word) : (errorReport w s).dbg = s.dbg := rfl
@[simp] theorem errorReport_pm (w : Word) : (errorReport w s).pm = s.pm := rfl
@[simp] theorem errorReport_psu (w : Word) : (errorReport w s).psu = s.psu := rfl
@[simp] theorem errorReport_mem (w : Word) : (errorReport w s).mem = s.mem := rfl
@[simp] theorem errorReport_buf (w : Word) : (errorReport w s).buf = s.buf := rfl
@[simp] theorem errorReport_sync (w : Word) : (errorReport w s).sync = s.sync := rfl
@[simp] theorem errorReport_pins (w : Word) : (errorReport w s).pins = s.pins := rfl
@[simp] theorem errorReport_env (w : Word) : (errorReport w s).env = s.env := rfl
@[simp] theorem errorReport_free (w : Word) : (errorReport w s).free = s.free := rfl
@[simp] theorem errorReport_cur (w : Word) : (errorReport w s).cur = s.cur := rfl

/-! `returnFrom`. -/

@[simp] theorem returnFrom_gpr (a b : Word) : (returnFrom a b s).gpr = s.gpr := rfl
@[simp] theorem returnFrom_cr (a b : Word) : (returnFrom a b s).cr = s.cr := rfl
@[simp] theorem returnFrom_xer (a b : Word) : (returnFrom a b s).xer = s.xer := rfl
@[simp] theorem returnFrom_lr (a b : Word) : (returnFrom a b s).lr = s.lr := rfl
@[simp] theorem returnFrom_ctr (a b : Word) : (returnFrom a b s).ctr = s.ctr := rfl
@[simp] theorem returnFrom_acc (a b : Word) : (returnFrom a b s).acc = s.acc := rfl
@[simp] theorem returnFrom_spefscr (a b : Word) : (returnFrom a b s).spefscr = s.spefscr := rfl
@[simp] theorem returnFrom_resv (a b : Word) : (returnFrom a b s).resv = s.resv := rfl
@[simp] theorem returnFrom_ints (a b : Word) : (returnFrom a b s).ints = s.ints := rfl
@[simp] theorem returnFrom_sprg (a b : Word) : (returnFrom a b s).sprg = s.sprg := rfl
@[simp] theorem returnFrom_hid (a b : Word) : (returnFrom a b s).hid = s.hid := rfl
@[simp] theorem returnFrom_tmr (a b : Word) : (returnFrom a b s).tmr = s.tmr := rfl
@[simp] theorem returnFrom_mmu (a b : Word) : (returnFrom a b s).mmu = s.mmu := rfl
@[simp] theorem returnFrom_cache (a b : Word) : (returnFrom a b s).cache = s.cache := rfl
@[simp] theorem returnFrom_dbg (a b : Word) : (returnFrom a b s).dbg = s.dbg := rfl
@[simp] theorem returnFrom_pm (a b : Word) : (returnFrom a b s).pm = s.pm := rfl
@[simp] theorem returnFrom_psu (a b : Word) : (returnFrom a b s).psu = s.psu := rfl
@[simp] theorem returnFrom_pwr (a b : Word) : (returnFrom a b s).pwr = s.pwr := rfl
@[simp] theorem returnFrom_mem (a b : Word) : (returnFrom a b s).mem = s.mem := rfl
@[simp] theorem returnFrom_buf (a b : Word) : (returnFrom a b s).buf = s.buf := rfl
@[simp] theorem returnFrom_sync (a b : Word) : (returnFrom a b s).sync = s.sync := rfl
@[simp] theorem returnFrom_pins (a b : Word) : (returnFrom a b s).pins = s.pins := rfl
@[simp] theorem returnFrom_env (a b : Word) : (returnFrom a b s).env = s.env := rfl
@[simp] theorem returnFrom_free (a b : Word) : (returnFrom a b s).free = s.free := rfl
@[simp] theorem returnFrom_cur (a b : Word) : (returnFrom a b s).cur = s.cur := rfl
@[simp] theorem returnFrom_ev (a b : Word) : (returnFrom a b s).ev = s.ev := rfl

/-! `markFail`. -/

@[simp] theorem markFail_gpr : s.markFail.gpr = s.gpr := rfl
@[simp] theorem markFail_pc : s.markFail.pc = s.pc := rfl
@[simp] theorem markFail_cr : s.markFail.cr = s.cr := rfl
@[simp] theorem markFail_xer : s.markFail.xer = s.xer := rfl
@[simp] theorem markFail_lr : s.markFail.lr = s.lr := rfl
@[simp] theorem markFail_ctr : s.markFail.ctr = s.ctr := rfl
@[simp] theorem markFail_acc : s.markFail.acc = s.acc := rfl
@[simp] theorem markFail_spefscr : s.markFail.spefscr = s.spefscr := rfl
@[simp] theorem markFail_msr : s.markFail.msr = s.msr := rfl
@[simp] theorem markFail_resv : s.markFail.resv = s.resv := rfl
@[simp] theorem markFail_ints : s.markFail.ints = s.ints := rfl
@[simp] theorem markFail_sprg : s.markFail.sprg = s.sprg := rfl
@[simp] theorem markFail_hid : s.markFail.hid = s.hid := rfl
@[simp] theorem markFail_tmr : s.markFail.tmr = s.tmr := rfl
@[simp] theorem markFail_mmu : s.markFail.mmu = s.mmu := rfl
@[simp] theorem markFail_cache : s.markFail.cache = s.cache := rfl
@[simp] theorem markFail_dbg : s.markFail.dbg = s.dbg := rfl
@[simp] theorem markFail_pm : s.markFail.pm = s.pm := rfl
@[simp] theorem markFail_psu : s.markFail.psu = s.psu := rfl
@[simp] theorem markFail_pwr : s.markFail.pwr = s.pwr := rfl
@[simp] theorem markFail_mem : s.markFail.mem = s.mem := rfl
@[simp] theorem markFail_buf : s.markFail.buf = s.buf := rfl
@[simp] theorem markFail_sync : s.markFail.sync = s.sync := rfl
@[simp] theorem markFail_pins : s.markFail.pins = s.pins := rfl
@[simp] theorem markFail_env : s.markFail.env = s.env := rfl
@[simp] theorem markFail_free : s.markFail.free = s.free := rfl
@[simp] theorem markFail_cur : s.markFail.cur = s.cur := rfl

/-! `logAccess`. -/

@[simp] theorem logAccess_gpr (a : Word) (b : Bool) (n : Nat) : (s.logAccess a b n).gpr = s.gpr := rfl
@[simp] theorem logAccess_pc (a : Word) (b : Bool) (n : Nat) : (s.logAccess a b n).pc = s.pc := rfl
@[simp] theorem logAccess_cr (a : Word) (b : Bool) (n : Nat) : (s.logAccess a b n).cr = s.cr := rfl
@[simp] theorem logAccess_xer (a : Word) (b : Bool) (n : Nat) : (s.logAccess a b n).xer = s.xer := rfl
@[simp] theorem logAccess_lr (a : Word) (b : Bool) (n : Nat) : (s.logAccess a b n).lr = s.lr := rfl
@[simp] theorem logAccess_ctr (a : Word) (b : Bool) (n : Nat) : (s.logAccess a b n).ctr = s.ctr := rfl
@[simp] theorem logAccess_acc (a : Word) (b : Bool) (n : Nat) : (s.logAccess a b n).acc = s.acc := rfl
@[simp] theorem logAccess_spefscr (a : Word) (b : Bool) (n : Nat) : (s.logAccess a b n).spefscr = s.spefscr := rfl
@[simp] theorem logAccess_msr (a : Word) (b : Bool) (n : Nat) : (s.logAccess a b n).msr = s.msr := rfl
@[simp] theorem logAccess_resv (a : Word) (b : Bool) (n : Nat) : (s.logAccess a b n).resv = s.resv := rfl
@[simp] theorem logAccess_ints (a : Word) (b : Bool) (n : Nat) : (s.logAccess a b n).ints = s.ints := rfl
@[simp] theorem logAccess_sprg (a : Word) (b : Bool) (n : Nat) : (s.logAccess a b n).sprg = s.sprg := rfl
@[simp] theorem logAccess_hid (a : Word) (b : Bool) (n : Nat) : (s.logAccess a b n).hid = s.hid := rfl
@[simp] theorem logAccess_tmr (a : Word) (b : Bool) (n : Nat) : (s.logAccess a b n).tmr = s.tmr := rfl
@[simp] theorem logAccess_mmu (a : Word) (b : Bool) (n : Nat) : (s.logAccess a b n).mmu = s.mmu := rfl
@[simp] theorem logAccess_cache (a : Word) (b : Bool) (n : Nat) : (s.logAccess a b n).cache = s.cache := rfl
@[simp] theorem logAccess_dbg (a : Word) (b : Bool) (n : Nat) : (s.logAccess a b n).dbg = s.dbg := rfl
@[simp] theorem logAccess_pm (a : Word) (b : Bool) (n : Nat) : (s.logAccess a b n).pm = s.pm := rfl
@[simp] theorem logAccess_psu (a : Word) (b : Bool) (n : Nat) : (s.logAccess a b n).psu = s.psu := rfl
@[simp] theorem logAccess_pwr (a : Word) (b : Bool) (n : Nat) : (s.logAccess a b n).pwr = s.pwr := rfl
@[simp] theorem logAccess_mem (a : Word) (b : Bool) (n : Nat) : (s.logAccess a b n).mem = s.mem := rfl
@[simp] theorem logAccess_buf (a : Word) (b : Bool) (n : Nat) : (s.logAccess a b n).buf = s.buf := rfl
@[simp] theorem logAccess_sync (a : Word) (b : Bool) (n : Nat) : (s.logAccess a b n).sync = s.sync := rfl
@[simp] theorem logAccess_pins (a : Word) (b : Bool) (n : Nat) : (s.logAccess a b n).pins = s.pins := rfl
@[simp] theorem logAccess_env (a : Word) (b : Bool) (n : Nat) : (s.logAccess a b n).env = s.env := rfl
@[simp] theorem logAccess_free (a : Word) (b : Bool) (n : Nat) : (s.logAccess a b n).free = s.free := rfl
@[simp] theorem logAccess_cur (a : Word) (b : Bool) (n : Nat) : (s.logAccess a b n).cur = s.cur := rfl

/-! `logBytes`. -/

@[simp] theorem logBytes_gpr (l : List Byte) : (s.logBytes l).gpr = s.gpr := by unfold State.logBytes; split <;> rfl
@[simp] theorem logBytes_pc (l : List Byte) : (s.logBytes l).pc = s.pc := by unfold State.logBytes; split <;> rfl
@[simp] theorem logBytes_cr (l : List Byte) : (s.logBytes l).cr = s.cr := by unfold State.logBytes; split <;> rfl
@[simp] theorem logBytes_xer (l : List Byte) : (s.logBytes l).xer = s.xer := by unfold State.logBytes; split <;> rfl
@[simp] theorem logBytes_lr (l : List Byte) : (s.logBytes l).lr = s.lr := by unfold State.logBytes; split <;> rfl
@[simp] theorem logBytes_ctr (l : List Byte) : (s.logBytes l).ctr = s.ctr := by unfold State.logBytes; split <;> rfl
@[simp] theorem logBytes_acc (l : List Byte) : (s.logBytes l).acc = s.acc := by unfold State.logBytes; split <;> rfl
@[simp] theorem logBytes_spefscr (l : List Byte) : (s.logBytes l).spefscr = s.spefscr := by unfold State.logBytes; split <;> rfl
@[simp] theorem logBytes_msr (l : List Byte) : (s.logBytes l).msr = s.msr := by unfold State.logBytes; split <;> rfl
@[simp] theorem logBytes_resv (l : List Byte) : (s.logBytes l).resv = s.resv := by unfold State.logBytes; split <;> rfl
@[simp] theorem logBytes_ints (l : List Byte) : (s.logBytes l).ints = s.ints := by unfold State.logBytes; split <;> rfl
@[simp] theorem logBytes_sprg (l : List Byte) : (s.logBytes l).sprg = s.sprg := by unfold State.logBytes; split <;> rfl
@[simp] theorem logBytes_hid (l : List Byte) : (s.logBytes l).hid = s.hid := by unfold State.logBytes; split <;> rfl
@[simp] theorem logBytes_tmr (l : List Byte) : (s.logBytes l).tmr = s.tmr := by unfold State.logBytes; split <;> rfl
@[simp] theorem logBytes_mmu (l : List Byte) : (s.logBytes l).mmu = s.mmu := by unfold State.logBytes; split <;> rfl
@[simp] theorem logBytes_cache (l : List Byte) : (s.logBytes l).cache = s.cache := by unfold State.logBytes; split <;> rfl
@[simp] theorem logBytes_dbg (l : List Byte) : (s.logBytes l).dbg = s.dbg := by unfold State.logBytes; split <;> rfl
@[simp] theorem logBytes_pm (l : List Byte) : (s.logBytes l).pm = s.pm := by unfold State.logBytes; split <;> rfl
@[simp] theorem logBytes_psu (l : List Byte) : (s.logBytes l).psu = s.psu := by unfold State.logBytes; split <;> rfl
@[simp] theorem logBytes_pwr (l : List Byte) : (s.logBytes l).pwr = s.pwr := by unfold State.logBytes; split <;> rfl
@[simp] theorem logBytes_mem (l : List Byte) : (s.logBytes l).mem = s.mem := by unfold State.logBytes; split <;> rfl
@[simp] theorem logBytes_buf (l : List Byte) : (s.logBytes l).buf = s.buf := by unfold State.logBytes; split <;> rfl
@[simp] theorem logBytes_sync (l : List Byte) : (s.logBytes l).sync = s.sync := by unfold State.logBytes; split <;> rfl
@[simp] theorem logBytes_pins (l : List Byte) : (s.logBytes l).pins = s.pins := by unfold State.logBytes; split <;> rfl
@[simp] theorem logBytes_env (l : List Byte) : (s.logBytes l).env = s.env := by unfold State.logBytes; split <;> rfl
@[simp] theorem logBytes_free (l : List Byte) : (s.logBytes l).free = s.free := by unfold State.logBytes; split <;> rfl
@[simp] theorem logBytes_cur (l : List Byte) : (s.logBytes l).cur = s.cur := by unfold State.logBytes; split <;> rfl

/-! `psuBeat`. -/

@[simp] theorem psuBeat_gpr (b : Bool) (a : Word) (l : List Byte) : (s.psuBeat b a l).gpr = s.gpr := by unfold State.psuBeat; generalize s.psu.pscr.getLsbD (if b then 1 else 2) = c; cases c <;> rfl
@[simp] theorem psuBeat_pc (b : Bool) (a : Word) (l : List Byte) : (s.psuBeat b a l).pc = s.pc := by unfold State.psuBeat; generalize s.psu.pscr.getLsbD (if b then 1 else 2) = c; cases c <;> rfl
@[simp] theorem psuBeat_cr (b : Bool) (a : Word) (l : List Byte) : (s.psuBeat b a l).cr = s.cr := by unfold State.psuBeat; generalize s.psu.pscr.getLsbD (if b then 1 else 2) = c; cases c <;> rfl
@[simp] theorem psuBeat_xer (b : Bool) (a : Word) (l : List Byte) : (s.psuBeat b a l).xer = s.xer := by unfold State.psuBeat; generalize s.psu.pscr.getLsbD (if b then 1 else 2) = c; cases c <;> rfl
@[simp] theorem psuBeat_lr (b : Bool) (a : Word) (l : List Byte) : (s.psuBeat b a l).lr = s.lr := by unfold State.psuBeat; generalize s.psu.pscr.getLsbD (if b then 1 else 2) = c; cases c <;> rfl
@[simp] theorem psuBeat_ctr (b : Bool) (a : Word) (l : List Byte) : (s.psuBeat b a l).ctr = s.ctr := by unfold State.psuBeat; generalize s.psu.pscr.getLsbD (if b then 1 else 2) = c; cases c <;> rfl
@[simp] theorem psuBeat_acc (b : Bool) (a : Word) (l : List Byte) : (s.psuBeat b a l).acc = s.acc := by unfold State.psuBeat; generalize s.psu.pscr.getLsbD (if b then 1 else 2) = c; cases c <;> rfl
@[simp] theorem psuBeat_spefscr (b : Bool) (a : Word) (l : List Byte) : (s.psuBeat b a l).spefscr = s.spefscr := by unfold State.psuBeat; generalize s.psu.pscr.getLsbD (if b then 1 else 2) = c; cases c <;> rfl
@[simp] theorem psuBeat_msr (b : Bool) (a : Word) (l : List Byte) : (s.psuBeat b a l).msr = s.msr := by unfold State.psuBeat; generalize s.psu.pscr.getLsbD (if b then 1 else 2) = c; cases c <;> rfl
@[simp] theorem psuBeat_resv (b : Bool) (a : Word) (l : List Byte) : (s.psuBeat b a l).resv = s.resv := by unfold State.psuBeat; generalize s.psu.pscr.getLsbD (if b then 1 else 2) = c; cases c <;> rfl
@[simp] theorem psuBeat_ints (b : Bool) (a : Word) (l : List Byte) : (s.psuBeat b a l).ints = s.ints := by unfold State.psuBeat; generalize s.psu.pscr.getLsbD (if b then 1 else 2) = c; cases c <;> rfl
@[simp] theorem psuBeat_sprg (b : Bool) (a : Word) (l : List Byte) : (s.psuBeat b a l).sprg = s.sprg := by unfold State.psuBeat; generalize s.psu.pscr.getLsbD (if b then 1 else 2) = c; cases c <;> rfl
@[simp] theorem psuBeat_hid (b : Bool) (a : Word) (l : List Byte) : (s.psuBeat b a l).hid = s.hid := by unfold State.psuBeat; generalize s.psu.pscr.getLsbD (if b then 1 else 2) = c; cases c <;> rfl
@[simp] theorem psuBeat_tmr (b : Bool) (a : Word) (l : List Byte) : (s.psuBeat b a l).tmr = s.tmr := by unfold State.psuBeat; generalize s.psu.pscr.getLsbD (if b then 1 else 2) = c; cases c <;> rfl
@[simp] theorem psuBeat_mmu (b : Bool) (a : Word) (l : List Byte) : (s.psuBeat b a l).mmu = s.mmu := by unfold State.psuBeat; generalize s.psu.pscr.getLsbD (if b then 1 else 2) = c; cases c <;> rfl
@[simp] theorem psuBeat_cache (b : Bool) (a : Word) (l : List Byte) : (s.psuBeat b a l).cache = s.cache := by unfold State.psuBeat; generalize s.psu.pscr.getLsbD (if b then 1 else 2) = c; cases c <;> rfl
@[simp] theorem psuBeat_dbg (b : Bool) (a : Word) (l : List Byte) : (s.psuBeat b a l).dbg = s.dbg := by unfold State.psuBeat; generalize s.psu.pscr.getLsbD (if b then 1 else 2) = c; cases c <;> rfl
@[simp] theorem psuBeat_pm (b : Bool) (a : Word) (l : List Byte) : (s.psuBeat b a l).pm = s.pm := by unfold State.psuBeat; generalize s.psu.pscr.getLsbD (if b then 1 else 2) = c; cases c <;> rfl
@[simp] theorem psuBeat_pwr (b : Bool) (a : Word) (l : List Byte) : (s.psuBeat b a l).pwr = s.pwr := by unfold State.psuBeat; generalize s.psu.pscr.getLsbD (if b then 1 else 2) = c; cases c <;> rfl
@[simp] theorem psuBeat_mem (b : Bool) (a : Word) (l : List Byte) : (s.psuBeat b a l).mem = s.mem := by unfold State.psuBeat; generalize s.psu.pscr.getLsbD (if b then 1 else 2) = c; cases c <;> rfl
@[simp] theorem psuBeat_buf (b : Bool) (a : Word) (l : List Byte) : (s.psuBeat b a l).buf = s.buf := by unfold State.psuBeat; generalize s.psu.pscr.getLsbD (if b then 1 else 2) = c; cases c <;> rfl
@[simp] theorem psuBeat_sync (b : Bool) (a : Word) (l : List Byte) : (s.psuBeat b a l).sync = s.sync := by unfold State.psuBeat; generalize s.psu.pscr.getLsbD (if b then 1 else 2) = c; cases c <;> rfl
@[simp] theorem psuBeat_pins (b : Bool) (a : Word) (l : List Byte) : (s.psuBeat b a l).pins = s.pins := by unfold State.psuBeat; generalize s.psu.pscr.getLsbD (if b then 1 else 2) = c; cases c <;> rfl
@[simp] theorem psuBeat_env (b : Bool) (a : Word) (l : List Byte) : (s.psuBeat b a l).env = s.env := by unfold State.psuBeat; generalize s.psu.pscr.getLsbD (if b then 1 else 2) = c; cases c <;> rfl
@[simp] theorem psuBeat_free (b : Bool) (a : Word) (l : List Byte) : (s.psuBeat b a l).free = s.free := by unfold State.psuBeat; generalize s.psu.pscr.getLsbD (if b then 1 else 2) = c; cases c <;> rfl
@[simp] theorem psuBeat_cur (b : Bool) (a : Word) (l : List Byte) : (s.psuBeat b a l).cur = s.cur := by unfold State.psuBeat; generalize s.psu.pscr.getLsbD (if b then 1 else 2) = c; cases c <;> rfl
@[simp] theorem psuBeat_ev (b : Bool) (a : Word) (l : List Byte) : (s.psuBeat b a l).ev = s.ev := by unfold State.psuBeat; generalize s.psu.pscr.getLsbD (if b then 1 else 2) = c; cases c <;> rfl

/-! `psuReadError`. -/

@[simp] theorem psuReadError_gpr : s.psuReadError.gpr = s.gpr := by unfold State.psuReadError; split <;> rfl
@[simp] theorem psuReadError_pc : s.psuReadError.pc = s.pc := by unfold State.psuReadError; split <;> rfl
@[simp] theorem psuReadError_cr : s.psuReadError.cr = s.cr := by unfold State.psuReadError; split <;> rfl
@[simp] theorem psuReadError_xer : s.psuReadError.xer = s.xer := by unfold State.psuReadError; split <;> rfl
@[simp] theorem psuReadError_lr : s.psuReadError.lr = s.lr := by unfold State.psuReadError; split <;> rfl
@[simp] theorem psuReadError_ctr : s.psuReadError.ctr = s.ctr := by unfold State.psuReadError; split <;> rfl
@[simp] theorem psuReadError_acc : s.psuReadError.acc = s.acc := by unfold State.psuReadError; split <;> rfl
@[simp] theorem psuReadError_spefscr : s.psuReadError.spefscr = s.spefscr := by unfold State.psuReadError; split <;> rfl
@[simp] theorem psuReadError_msr : s.psuReadError.msr = s.msr := by unfold State.psuReadError; split <;> rfl
@[simp] theorem psuReadError_resv : s.psuReadError.resv = s.resv := by unfold State.psuReadError; split <;> rfl
@[simp] theorem psuReadError_ints : s.psuReadError.ints = s.ints := by unfold State.psuReadError; split <;> rfl
@[simp] theorem psuReadError_sprg : s.psuReadError.sprg = s.sprg := by unfold State.psuReadError; split <;> rfl
@[simp] theorem psuReadError_hid : s.psuReadError.hid = s.hid := by unfold State.psuReadError; split <;> rfl
@[simp] theorem psuReadError_tmr : s.psuReadError.tmr = s.tmr := by unfold State.psuReadError; split <;> rfl
@[simp] theorem psuReadError_mmu : s.psuReadError.mmu = s.mmu := by unfold State.psuReadError; split <;> rfl
@[simp] theorem psuReadError_cache : s.psuReadError.cache = s.cache := by unfold State.psuReadError; split <;> rfl
@[simp] theorem psuReadError_dbg : s.psuReadError.dbg = s.dbg := by unfold State.psuReadError; split <;> rfl
@[simp] theorem psuReadError_pm : s.psuReadError.pm = s.pm := by unfold State.psuReadError; split <;> rfl
@[simp] theorem psuReadError_pwr : s.psuReadError.pwr = s.pwr := by unfold State.psuReadError; split <;> rfl
@[simp] theorem psuReadError_mem : s.psuReadError.mem = s.mem := by unfold State.psuReadError; split <;> rfl
@[simp] theorem psuReadError_buf : s.psuReadError.buf = s.buf := by unfold State.psuReadError; split <;> rfl
@[simp] theorem psuReadError_sync : s.psuReadError.sync = s.sync := by unfold State.psuReadError; split <;> rfl
@[simp] theorem psuReadError_pins : s.psuReadError.pins = s.pins := by unfold State.psuReadError; split <;> rfl
@[simp] theorem psuReadError_env : s.psuReadError.env = s.env := by unfold State.psuReadError; split <;> rfl
@[simp] theorem psuReadError_free : s.psuReadError.free = s.free := by unfold State.psuReadError; split <;> rfl
@[simp] theorem psuReadError_cur : s.psuReadError.cur = s.cur := by unfold State.psuReadError; split <;> rfl
@[simp] theorem psuReadError_ev : s.psuReadError.ev = s.ev := by unfold State.psuReadError; split <;> rfl

/-! `setCache`. -/

@[simp] theorem setCache_gpr (d : Side) (c : Cache) : (s.setCache d c).gpr = s.gpr := by cases d <;> rfl
@[simp] theorem setCache_pc (d : Side) (c : Cache) : (s.setCache d c).pc = s.pc := by cases d <;> rfl
@[simp] theorem setCache_cr (d : Side) (c : Cache) : (s.setCache d c).cr = s.cr := by cases d <;> rfl
@[simp] theorem setCache_xer (d : Side) (c : Cache) : (s.setCache d c).xer = s.xer := by cases d <;> rfl
@[simp] theorem setCache_lr (d : Side) (c : Cache) : (s.setCache d c).lr = s.lr := by cases d <;> rfl
@[simp] theorem setCache_ctr (d : Side) (c : Cache) : (s.setCache d c).ctr = s.ctr := by cases d <;> rfl
@[simp] theorem setCache_acc (d : Side) (c : Cache) : (s.setCache d c).acc = s.acc := by cases d <;> rfl
@[simp] theorem setCache_spefscr (d : Side) (c : Cache) : (s.setCache d c).spefscr = s.spefscr := by cases d <;> rfl
@[simp] theorem setCache_msr (d : Side) (c : Cache) : (s.setCache d c).msr = s.msr := by cases d <;> rfl
@[simp] theorem setCache_resv (d : Side) (c : Cache) : (s.setCache d c).resv = s.resv := by cases d <;> rfl
@[simp] theorem setCache_ints (d : Side) (c : Cache) : (s.setCache d c).ints = s.ints := by cases d <;> rfl
@[simp] theorem setCache_sprg (d : Side) (c : Cache) : (s.setCache d c).sprg = s.sprg := by cases d <;> rfl
@[simp] theorem setCache_hid (d : Side) (c : Cache) : (s.setCache d c).hid = s.hid := by cases d <;> rfl
@[simp] theorem setCache_tmr (d : Side) (c : Cache) : (s.setCache d c).tmr = s.tmr := by cases d <;> rfl
@[simp] theorem setCache_mmu (d : Side) (c : Cache) : (s.setCache d c).mmu = s.mmu := by cases d <;> rfl
@[simp] theorem setCache_dbg (d : Side) (c : Cache) : (s.setCache d c).dbg = s.dbg := by cases d <;> rfl
@[simp] theorem setCache_pm (d : Side) (c : Cache) : (s.setCache d c).pm = s.pm := by cases d <;> rfl
@[simp] theorem setCache_psu (d : Side) (c : Cache) : (s.setCache d c).psu = s.psu := by cases d <;> rfl
@[simp] theorem setCache_pwr (d : Side) (c : Cache) : (s.setCache d c).pwr = s.pwr := by cases d <;> rfl
@[simp] theorem setCache_mem (d : Side) (c : Cache) : (s.setCache d c).mem = s.mem := by cases d <;> rfl
@[simp] theorem setCache_buf (d : Side) (c : Cache) : (s.setCache d c).buf = s.buf := by cases d <;> rfl
@[simp] theorem setCache_sync (d : Side) (c : Cache) : (s.setCache d c).sync = s.sync := by cases d <;> rfl
@[simp] theorem setCache_pins (d : Side) (c : Cache) : (s.setCache d c).pins = s.pins := by cases d <;> rfl
@[simp] theorem setCache_env (d : Side) (c : Cache) : (s.setCache d c).env = s.env := by cases d <;> rfl
@[simp] theorem setCache_free (d : Side) (c : Cache) : (s.setCache d c).free = s.free := by cases d <;> rfl
@[simp] theorem setCache_cur (d : Side) (c : Cache) : (s.setCache d c).cur = s.cur := by cases d <;> rfl
@[simp] theorem setCache_ev (d : Side) (c : Cache) : (s.setCache d c).ev = s.ev := by cases d <;> rfl

/-! `putLine`. -/

@[simp] theorem putLine_gpr (d : Side) (n w : Nat) (l : CacheLine) : (s.putLine d n w l).gpr = s.gpr := by cases d <;> rfl
@[simp] theorem putLine_pc (d : Side) (n w : Nat) (l : CacheLine) : (s.putLine d n w l).pc = s.pc := by cases d <;> rfl
@[simp] theorem putLine_cr (d : Side) (n w : Nat) (l : CacheLine) : (s.putLine d n w l).cr = s.cr := by cases d <;> rfl
@[simp] theorem putLine_xer (d : Side) (n w : Nat) (l : CacheLine) : (s.putLine d n w l).xer = s.xer := by cases d <;> rfl
@[simp] theorem putLine_lr (d : Side) (n w : Nat) (l : CacheLine) : (s.putLine d n w l).lr = s.lr := by cases d <;> rfl
@[simp] theorem putLine_ctr (d : Side) (n w : Nat) (l : CacheLine) : (s.putLine d n w l).ctr = s.ctr := by cases d <;> rfl
@[simp] theorem putLine_acc (d : Side) (n w : Nat) (l : CacheLine) : (s.putLine d n w l).acc = s.acc := by cases d <;> rfl
@[simp] theorem putLine_spefscr (d : Side) (n w : Nat) (l : CacheLine) : (s.putLine d n w l).spefscr = s.spefscr := by cases d <;> rfl
@[simp] theorem putLine_msr (d : Side) (n w : Nat) (l : CacheLine) : (s.putLine d n w l).msr = s.msr := by cases d <;> rfl
@[simp] theorem putLine_resv (d : Side) (n w : Nat) (l : CacheLine) : (s.putLine d n w l).resv = s.resv := by cases d <;> rfl
@[simp] theorem putLine_ints (d : Side) (n w : Nat) (l : CacheLine) : (s.putLine d n w l).ints = s.ints := by cases d <;> rfl
@[simp] theorem putLine_sprg (d : Side) (n w : Nat) (l : CacheLine) : (s.putLine d n w l).sprg = s.sprg := by cases d <;> rfl
@[simp] theorem putLine_hid (d : Side) (n w : Nat) (l : CacheLine) : (s.putLine d n w l).hid = s.hid := by cases d <;> rfl
@[simp] theorem putLine_tmr (d : Side) (n w : Nat) (l : CacheLine) : (s.putLine d n w l).tmr = s.tmr := by cases d <;> rfl
@[simp] theorem putLine_mmu (d : Side) (n w : Nat) (l : CacheLine) : (s.putLine d n w l).mmu = s.mmu := by cases d <;> rfl
@[simp] theorem putLine_dbg (d : Side) (n w : Nat) (l : CacheLine) : (s.putLine d n w l).dbg = s.dbg := by cases d <;> rfl
@[simp] theorem putLine_pm (d : Side) (n w : Nat) (l : CacheLine) : (s.putLine d n w l).pm = s.pm := by cases d <;> rfl
@[simp] theorem putLine_psu (d : Side) (n w : Nat) (l : CacheLine) : (s.putLine d n w l).psu = s.psu := by cases d <;> rfl
@[simp] theorem putLine_pwr (d : Side) (n w : Nat) (l : CacheLine) : (s.putLine d n w l).pwr = s.pwr := by cases d <;> rfl
@[simp] theorem putLine_mem (d : Side) (n w : Nat) (l : CacheLine) : (s.putLine d n w l).mem = s.mem := by cases d <;> rfl
@[simp] theorem putLine_buf (d : Side) (n w : Nat) (l : CacheLine) : (s.putLine d n w l).buf = s.buf := by cases d <;> rfl
@[simp] theorem putLine_sync (d : Side) (n w : Nat) (l : CacheLine) : (s.putLine d n w l).sync = s.sync := by cases d <;> rfl
@[simp] theorem putLine_pins (d : Side) (n w : Nat) (l : CacheLine) : (s.putLine d n w l).pins = s.pins := by cases d <;> rfl
@[simp] theorem putLine_env (d : Side) (n w : Nat) (l : CacheLine) : (s.putLine d n w l).env = s.env := by cases d <;> rfl
@[simp] theorem putLine_free (d : Side) (n w : Nat) (l : CacheLine) : (s.putLine d n w l).free = s.free := by cases d <;> rfl
@[simp] theorem putLine_cur (d : Side) (n w : Nat) (l : CacheLine) : (s.putLine d n w l).cur = s.cur := by cases d <;> rfl
@[simp] theorem putLine_ev (d : Side) (n w : Nat) (l : CacheLine) : (s.putLine d n w l).ev = s.ev := by cases d <;> rfl

/-! `setCsrBits`. -/

@[simp] theorem setCsrBits_gpr (d : Side) (v : Word) : (s.setCsrBits d v).gpr = s.gpr := by cases d <;> rfl
@[simp] theorem setCsrBits_pc (d : Side) (v : Word) : (s.setCsrBits d v).pc = s.pc := by cases d <;> rfl
@[simp] theorem setCsrBits_cr (d : Side) (v : Word) : (s.setCsrBits d v).cr = s.cr := by cases d <;> rfl
@[simp] theorem setCsrBits_xer (d : Side) (v : Word) : (s.setCsrBits d v).xer = s.xer := by cases d <;> rfl
@[simp] theorem setCsrBits_lr (d : Side) (v : Word) : (s.setCsrBits d v).lr = s.lr := by cases d <;> rfl
@[simp] theorem setCsrBits_ctr (d : Side) (v : Word) : (s.setCsrBits d v).ctr = s.ctr := by cases d <;> rfl
@[simp] theorem setCsrBits_acc (d : Side) (v : Word) : (s.setCsrBits d v).acc = s.acc := by cases d <;> rfl
@[simp] theorem setCsrBits_spefscr (d : Side) (v : Word) : (s.setCsrBits d v).spefscr = s.spefscr := by cases d <;> rfl
@[simp] theorem setCsrBits_msr (d : Side) (v : Word) : (s.setCsrBits d v).msr = s.msr := by cases d <;> rfl
@[simp] theorem setCsrBits_resv (d : Side) (v : Word) : (s.setCsrBits d v).resv = s.resv := by cases d <;> rfl
@[simp] theorem setCsrBits_ints (d : Side) (v : Word) : (s.setCsrBits d v).ints = s.ints := by cases d <;> rfl
@[simp] theorem setCsrBits_sprg (d : Side) (v : Word) : (s.setCsrBits d v).sprg = s.sprg := by cases d <;> rfl
@[simp] theorem setCsrBits_hid (d : Side) (v : Word) : (s.setCsrBits d v).hid = s.hid := by cases d <;> rfl
@[simp] theorem setCsrBits_tmr (d : Side) (v : Word) : (s.setCsrBits d v).tmr = s.tmr := by cases d <;> rfl
@[simp] theorem setCsrBits_mmu (d : Side) (v : Word) : (s.setCsrBits d v).mmu = s.mmu := by cases d <;> rfl
@[simp] theorem setCsrBits_dbg (d : Side) (v : Word) : (s.setCsrBits d v).dbg = s.dbg := by cases d <;> rfl
@[simp] theorem setCsrBits_pm (d : Side) (v : Word) : (s.setCsrBits d v).pm = s.pm := by cases d <;> rfl
@[simp] theorem setCsrBits_psu (d : Side) (v : Word) : (s.setCsrBits d v).psu = s.psu := by cases d <;> rfl
@[simp] theorem setCsrBits_pwr (d : Side) (v : Word) : (s.setCsrBits d v).pwr = s.pwr := by cases d <;> rfl
@[simp] theorem setCsrBits_mem (d : Side) (v : Word) : (s.setCsrBits d v).mem = s.mem := by cases d <;> rfl
@[simp] theorem setCsrBits_buf (d : Side) (v : Word) : (s.setCsrBits d v).buf = s.buf := by cases d <;> rfl
@[simp] theorem setCsrBits_sync (d : Side) (v : Word) : (s.setCsrBits d v).sync = s.sync := by cases d <;> rfl
@[simp] theorem setCsrBits_pins (d : Side) (v : Word) : (s.setCsrBits d v).pins = s.pins := by cases d <;> rfl
@[simp] theorem setCsrBits_env (d : Side) (v : Word) : (s.setCsrBits d v).env = s.env := by cases d <;> rfl
@[simp] theorem setCsrBits_free (d : Side) (v : Word) : (s.setCsrBits d v).free = s.free := by cases d <;> rfl
@[simp] theorem setCsrBits_cur (d : Side) (v : Word) : (s.setCsrBits d v).cur = s.cur := by cases d <;> rfl
@[simp] theorem setCsrBits_ev (d : Side) (v : Word) : (s.setCsrBits d v).ev = s.ev := by cases d <;> rfl

/-! `missMas`. -/

@[simp] theorem missMas_gpr (a : Bool) (e : Word) : (s.missMas a e).gpr = s.gpr := rfl
@[simp] theorem missMas_pc (a : Bool) (e : Word) : (s.missMas a e).pc = s.pc := rfl
@[simp] theorem missMas_cr (a : Bool) (e : Word) : (s.missMas a e).cr = s.cr := rfl
@[simp] theorem missMas_xer (a : Bool) (e : Word) : (s.missMas a e).xer = s.xer := rfl
@[simp] theorem missMas_lr (a : Bool) (e : Word) : (s.missMas a e).lr = s.lr := rfl
@[simp] theorem missMas_ctr (a : Bool) (e : Word) : (s.missMas a e).ctr = s.ctr := rfl
@[simp] theorem missMas_acc (a : Bool) (e : Word) : (s.missMas a e).acc = s.acc := rfl
@[simp] theorem missMas_spefscr (a : Bool) (e : Word) : (s.missMas a e).spefscr = s.spefscr := rfl
@[simp] theorem missMas_msr (a : Bool) (e : Word) : (s.missMas a e).msr = s.msr := rfl
@[simp] theorem missMas_resv (a : Bool) (e : Word) : (s.missMas a e).resv = s.resv := rfl
@[simp] theorem missMas_ints (a : Bool) (e : Word) : (s.missMas a e).ints = s.ints := rfl
@[simp] theorem missMas_sprg (a : Bool) (e : Word) : (s.missMas a e).sprg = s.sprg := rfl
@[simp] theorem missMas_hid (a : Bool) (e : Word) : (s.missMas a e).hid = s.hid := rfl
@[simp] theorem missMas_tmr (a : Bool) (e : Word) : (s.missMas a e).tmr = s.tmr := rfl
@[simp] theorem missMas_cache (a : Bool) (e : Word) : (s.missMas a e).cache = s.cache := rfl
@[simp] theorem missMas_dbg (a : Bool) (e : Word) : (s.missMas a e).dbg = s.dbg := rfl
@[simp] theorem missMas_pm (a : Bool) (e : Word) : (s.missMas a e).pm = s.pm := rfl
@[simp] theorem missMas_psu (a : Bool) (e : Word) : (s.missMas a e).psu = s.psu := rfl
@[simp] theorem missMas_pwr (a : Bool) (e : Word) : (s.missMas a e).pwr = s.pwr := rfl
@[simp] theorem missMas_mem (a : Bool) (e : Word) : (s.missMas a e).mem = s.mem := rfl
@[simp] theorem missMas_buf (a : Bool) (e : Word) : (s.missMas a e).buf = s.buf := rfl
@[simp] theorem missMas_sync (a : Bool) (e : Word) : (s.missMas a e).sync = s.sync := rfl
@[simp] theorem missMas_pins (a : Bool) (e : Word) : (s.missMas a e).pins = s.pins := rfl
@[simp] theorem missMas_env (a : Bool) (e : Word) : (s.missMas a e).env = s.env := rfl
@[simp] theorem missMas_cur (a : Bool) (e : Word) : (s.missMas a e).cur = s.cur := rfl
@[simp] theorem missMas_ev (a : Bool) (e : Word) : (s.missMas a e).ev = s.ev := rfl

/-! `enterHalt`. -/

@[simp] theorem enterHalt_gpr : s.enterHalt.gpr = s.gpr := rfl
@[simp] theorem enterHalt_pc : s.enterHalt.pc = s.pc := rfl
@[simp] theorem enterHalt_cr : s.enterHalt.cr = s.cr := rfl
@[simp] theorem enterHalt_xer : s.enterHalt.xer = s.xer := rfl
@[simp] theorem enterHalt_lr : s.enterHalt.lr = s.lr := rfl
@[simp] theorem enterHalt_ctr : s.enterHalt.ctr = s.ctr := rfl
@[simp] theorem enterHalt_acc : s.enterHalt.acc = s.acc := rfl
@[simp] theorem enterHalt_spefscr : s.enterHalt.spefscr = s.spefscr := rfl
@[simp] theorem enterHalt_msr : s.enterHalt.msr = s.msr := rfl
@[simp] theorem enterHalt_resv : s.enterHalt.resv = s.resv := rfl
@[simp] theorem enterHalt_ints : s.enterHalt.ints = s.ints := rfl
@[simp] theorem enterHalt_sprg : s.enterHalt.sprg = s.sprg := rfl
@[simp] theorem enterHalt_hid : s.enterHalt.hid = s.hid := rfl
@[simp] theorem enterHalt_tmr : s.enterHalt.tmr = s.tmr := rfl
@[simp] theorem enterHalt_mmu : s.enterHalt.mmu = s.mmu := rfl
@[simp] theorem enterHalt_cache : s.enterHalt.cache = s.cache := rfl
@[simp] theorem enterHalt_pm : s.enterHalt.pm = s.pm := rfl
@[simp] theorem enterHalt_psu : s.enterHalt.psu = s.psu := rfl
@[simp] theorem enterHalt_pwr : s.enterHalt.pwr = s.pwr := rfl
@[simp] theorem enterHalt_mem : s.enterHalt.mem = s.mem := rfl
@[simp] theorem enterHalt_buf : s.enterHalt.buf = s.buf := rfl
@[simp] theorem enterHalt_sync : s.enterHalt.sync = s.sync := rfl
@[simp] theorem enterHalt_pins : s.enterHalt.pins = s.pins := rfl
@[simp] theorem enterHalt_env : s.enterHalt.env = s.env := rfl
@[simp] theorem enterHalt_free : s.enterHalt.free = s.free := rfl
@[simp] theorem enterHalt_cur : s.enterHalt.cur = s.cur := rfl
@[simp] theorem enterHalt_ev : s.enterHalt.ev = s.ev := rfl

/-! `putMem`. -/

@[simp] theorem putMem_gpr (late : Bool) (ra : Word) (b : List Byte) : (s.putMem late ra b).gpr = s.gpr := rfl
@[simp] theorem putMem_pc (late : Bool) (ra : Word) (b : List Byte) : (s.putMem late ra b).pc = s.pc := rfl
@[simp] theorem putMem_cr (late : Bool) (ra : Word) (b : List Byte) : (s.putMem late ra b).cr = s.cr := rfl
@[simp] theorem putMem_xer (late : Bool) (ra : Word) (b : List Byte) : (s.putMem late ra b).xer = s.xer := rfl
@[simp] theorem putMem_lr (late : Bool) (ra : Word) (b : List Byte) : (s.putMem late ra b).lr = s.lr := rfl
@[simp] theorem putMem_ctr (late : Bool) (ra : Word) (b : List Byte) : (s.putMem late ra b).ctr = s.ctr := rfl
@[simp] theorem putMem_acc (late : Bool) (ra : Word) (b : List Byte) : (s.putMem late ra b).acc = s.acc := rfl
@[simp] theorem putMem_spefscr (late : Bool) (ra : Word) (b : List Byte) : (s.putMem late ra b).spefscr = s.spefscr := rfl
@[simp] theorem putMem_msr (late : Bool) (ra : Word) (b : List Byte) : (s.putMem late ra b).msr = s.msr := rfl
@[simp] theorem putMem_resv (late : Bool) (ra : Word) (b : List Byte) : (s.putMem late ra b).resv = s.resv := rfl
@[simp] theorem putMem_ints (late : Bool) (ra : Word) (b : List Byte) : (s.putMem late ra b).ints = s.ints := rfl
@[simp] theorem putMem_sprg (late : Bool) (ra : Word) (b : List Byte) : (s.putMem late ra b).sprg = s.sprg := rfl
@[simp] theorem putMem_hid (late : Bool) (ra : Word) (b : List Byte) : (s.putMem late ra b).hid = s.hid := rfl
@[simp] theorem putMem_tmr (late : Bool) (ra : Word) (b : List Byte) : (s.putMem late ra b).tmr = s.tmr := rfl
@[simp] theorem putMem_mmu (late : Bool) (ra : Word) (b : List Byte) : (s.putMem late ra b).mmu = s.mmu := rfl
@[simp] theorem putMem_cache (late : Bool) (ra : Word) (b : List Byte) : (s.putMem late ra b).cache = s.cache := rfl
@[simp] theorem putMem_dbg (late : Bool) (ra : Word) (b : List Byte) : (s.putMem late ra b).dbg = s.dbg := rfl
@[simp] theorem putMem_pm (late : Bool) (ra : Word) (b : List Byte) : (s.putMem late ra b).pm = s.pm := rfl
@[simp] theorem putMem_psu (late : Bool) (ra : Word) (b : List Byte) : (s.putMem late ra b).psu = s.psu := rfl
@[simp] theorem putMem_pwr (late : Bool) (ra : Word) (b : List Byte) : (s.putMem late ra b).pwr = s.pwr := rfl
@[simp] theorem putMem_sync (late : Bool) (ra : Word) (b : List Byte) : (s.putMem late ra b).sync = s.sync := rfl
@[simp] theorem putMem_pins (late : Bool) (ra : Word) (b : List Byte) : (s.putMem late ra b).pins = s.pins := rfl
@[simp] theorem putMem_env (late : Bool) (ra : Word) (b : List Byte) : (s.putMem late ra b).env = s.env := rfl
@[simp] theorem putMem_free (late : Bool) (ra : Word) (b : List Byte) : (s.putMem late ra b).free = s.free := rfl
@[simp] theorem putMem_cur (late : Bool) (ra : Word) (b : List Byte) : (s.putMem late ra b).cur = s.cur := rfl
@[simp] theorem putMem_ev (late : Bool) (ra : Word) (b : List Byte) : (s.putMem late ra b).ev = s.ev := rfl

/-! `awaitIndex`. -/

@[simp] theorem awaitIndex_gpr (side : Side) (ra : Word) : (s.awaitIndex side ra).gpr = s.gpr := by cases side <;> rfl
@[simp] theorem awaitIndex_pc (side : Side) (ra : Word) : (s.awaitIndex side ra).pc = s.pc := by cases side <;> rfl
@[simp] theorem awaitIndex_cr (side : Side) (ra : Word) : (s.awaitIndex side ra).cr = s.cr := by cases side <;> rfl
@[simp] theorem awaitIndex_xer (side : Side) (ra : Word) : (s.awaitIndex side ra).xer = s.xer := by cases side <;> rfl
@[simp] theorem awaitIndex_lr (side : Side) (ra : Word) : (s.awaitIndex side ra).lr = s.lr := by cases side <;> rfl
@[simp] theorem awaitIndex_ctr (side : Side) (ra : Word) : (s.awaitIndex side ra).ctr = s.ctr := by cases side <;> rfl
@[simp] theorem awaitIndex_acc (side : Side) (ra : Word) : (s.awaitIndex side ra).acc = s.acc := by cases side <;> rfl
@[simp] theorem awaitIndex_spefscr (side : Side) (ra : Word) : (s.awaitIndex side ra).spefscr = s.spefscr := by cases side <;> rfl
@[simp] theorem awaitIndex_msr (side : Side) (ra : Word) : (s.awaitIndex side ra).msr = s.msr := by cases side <;> rfl
@[simp] theorem awaitIndex_resv (side : Side) (ra : Word) : (s.awaitIndex side ra).resv = s.resv := by cases side <;> rfl
@[simp] theorem awaitIndex_ints (side : Side) (ra : Word) : (s.awaitIndex side ra).ints = s.ints := by cases side <;> rfl
@[simp] theorem awaitIndex_sprg (side : Side) (ra : Word) : (s.awaitIndex side ra).sprg = s.sprg := by cases side <;> rfl
@[simp] theorem awaitIndex_hid (side : Side) (ra : Word) : (s.awaitIndex side ra).hid = s.hid := by cases side <;> rfl
@[simp] theorem awaitIndex_tmr (side : Side) (ra : Word) : (s.awaitIndex side ra).tmr = s.tmr := by cases side <;> rfl
@[simp] theorem awaitIndex_mmu (side : Side) (ra : Word) : (s.awaitIndex side ra).mmu = s.mmu := by cases side <;> rfl
@[simp] theorem awaitIndex_cache (side : Side) (ra : Word) : (s.awaitIndex side ra).cache = s.cache := by cases side <;> rfl
@[simp] theorem awaitIndex_dbg (side : Side) (ra : Word) : (s.awaitIndex side ra).dbg = s.dbg := by cases side <;> rfl
@[simp] theorem awaitIndex_pm (side : Side) (ra : Word) : (s.awaitIndex side ra).pm = s.pm := by cases side <;> rfl
@[simp] theorem awaitIndex_psu (side : Side) (ra : Word) : (s.awaitIndex side ra).psu = s.psu := by cases side <;> rfl
@[simp] theorem awaitIndex_pwr (side : Side) (ra : Word) : (s.awaitIndex side ra).pwr = s.pwr := by cases side <;> rfl
@[simp] theorem awaitIndex_mem (side : Side) (ra : Word) : (s.awaitIndex side ra).mem = s.mem := by cases side <;> rfl
@[simp] theorem awaitIndex_sync (side : Side) (ra : Word) : (s.awaitIndex side ra).sync = s.sync := by cases side <;> rfl
@[simp] theorem awaitIndex_pins (side : Side) (ra : Word) : (s.awaitIndex side ra).pins = s.pins := by cases side <;> rfl
@[simp] theorem awaitIndex_env (side : Side) (ra : Word) : (s.awaitIndex side ra).env = s.env := by cases side <;> rfl
@[simp] theorem awaitIndex_free (side : Side) (ra : Word) : (s.awaitIndex side ra).free = s.free := by cases side <;> rfl
@[simp] theorem awaitIndex_cur (side : Side) (ra : Word) : (s.awaitIndex side ra).cur = s.cur := by cases side <;> rfl
@[simp] theorem awaitIndex_ev (side : Side) (ra : Word) : (s.awaitIndex side ra).ev = s.ev := by cases side <;> rfl

/-! `staleLine`. -/

@[simp] theorem staleLine_gpr (set : Nat) (l : CacheLine) : (s.staleLine set l).gpr = s.gpr := by unfold State.staleLine; split <;> rfl
@[simp] theorem staleLine_pc (set : Nat) (l : CacheLine) : (s.staleLine set l).pc = s.pc := by unfold State.staleLine; split <;> rfl
@[simp] theorem staleLine_cr (set : Nat) (l : CacheLine) : (s.staleLine set l).cr = s.cr := by unfold State.staleLine; split <;> rfl
@[simp] theorem staleLine_xer (set : Nat) (l : CacheLine) : (s.staleLine set l).xer = s.xer := by unfold State.staleLine; split <;> rfl
@[simp] theorem staleLine_lr (set : Nat) (l : CacheLine) : (s.staleLine set l).lr = s.lr := by unfold State.staleLine; split <;> rfl
@[simp] theorem staleLine_ctr (set : Nat) (l : CacheLine) : (s.staleLine set l).ctr = s.ctr := by unfold State.staleLine; split <;> rfl
@[simp] theorem staleLine_acc (set : Nat) (l : CacheLine) : (s.staleLine set l).acc = s.acc := by unfold State.staleLine; split <;> rfl
@[simp] theorem staleLine_spefscr (set : Nat) (l : CacheLine) : (s.staleLine set l).spefscr = s.spefscr := by unfold State.staleLine; split <;> rfl
@[simp] theorem staleLine_msr (set : Nat) (l : CacheLine) : (s.staleLine set l).msr = s.msr := by unfold State.staleLine; split <;> rfl
@[simp] theorem staleLine_resv (set : Nat) (l : CacheLine) : (s.staleLine set l).resv = s.resv := by unfold State.staleLine; split <;> rfl
@[simp] theorem staleLine_ints (set : Nat) (l : CacheLine) : (s.staleLine set l).ints = s.ints := by unfold State.staleLine; split <;> rfl
@[simp] theorem staleLine_sprg (set : Nat) (l : CacheLine) : (s.staleLine set l).sprg = s.sprg := by unfold State.staleLine; split <;> rfl
@[simp] theorem staleLine_hid (set : Nat) (l : CacheLine) : (s.staleLine set l).hid = s.hid := by unfold State.staleLine; split <;> rfl
@[simp] theorem staleLine_tmr (set : Nat) (l : CacheLine) : (s.staleLine set l).tmr = s.tmr := by unfold State.staleLine; split <;> rfl
@[simp] theorem staleLine_mmu (set : Nat) (l : CacheLine) : (s.staleLine set l).mmu = s.mmu := by unfold State.staleLine; split <;> rfl
@[simp] theorem staleLine_cache (set : Nat) (l : CacheLine) : (s.staleLine set l).cache = s.cache := by unfold State.staleLine; split <;> rfl
@[simp] theorem staleLine_dbg (set : Nat) (l : CacheLine) : (s.staleLine set l).dbg = s.dbg := by unfold State.staleLine; split <;> rfl
@[simp] theorem staleLine_pm (set : Nat) (l : CacheLine) : (s.staleLine set l).pm = s.pm := by unfold State.staleLine; split <;> rfl
@[simp] theorem staleLine_psu (set : Nat) (l : CacheLine) : (s.staleLine set l).psu = s.psu := by unfold State.staleLine; split <;> rfl
@[simp] theorem staleLine_pwr (set : Nat) (l : CacheLine) : (s.staleLine set l).pwr = s.pwr := by unfold State.staleLine; split <;> rfl
@[simp] theorem staleLine_mem (set : Nat) (l : CacheLine) : (s.staleLine set l).mem = s.mem := by unfold State.staleLine; split <;> rfl
@[simp] theorem staleLine_sync (set : Nat) (l : CacheLine) : (s.staleLine set l).sync = s.sync := by unfold State.staleLine; split <;> rfl
@[simp] theorem staleLine_pins (set : Nat) (l : CacheLine) : (s.staleLine set l).pins = s.pins := by unfold State.staleLine; split <;> rfl
@[simp] theorem staleLine_env (set : Nat) (l : CacheLine) : (s.staleLine set l).env = s.env := by unfold State.staleLine; split <;> rfl
@[simp] theorem staleLine_free (set : Nat) (l : CacheLine) : (s.staleLine set l).free = s.free := by unfold State.staleLine; split <;> rfl
@[simp] theorem staleLine_cur (set : Nat) (l : CacheLine) : (s.staleLine set l).cur = s.cur := by unfold State.staleLine; split <;> rfl
@[simp] theorem staleLine_ev (set : Nat) (l : CacheLine) : (s.staleLine set l).ev = s.ev := by unfold State.staleLine; split <;> rfl

/-! `mapDbsr`. -/

@[simp] theorem mapDbsr_gpr (f : Word → Word) : (s.mapDbsr f).gpr = s.gpr := rfl
@[simp] theorem mapDbsr_pc (f : Word → Word) : (s.mapDbsr f).pc = s.pc := rfl
@[simp] theorem mapDbsr_cr (f : Word → Word) : (s.mapDbsr f).cr = s.cr := rfl
@[simp] theorem mapDbsr_xer (f : Word → Word) : (s.mapDbsr f).xer = s.xer := rfl
@[simp] theorem mapDbsr_lr (f : Word → Word) : (s.mapDbsr f).lr = s.lr := rfl
@[simp] theorem mapDbsr_ctr (f : Word → Word) : (s.mapDbsr f).ctr = s.ctr := rfl
@[simp] theorem mapDbsr_acc (f : Word → Word) : (s.mapDbsr f).acc = s.acc := rfl
@[simp] theorem mapDbsr_spefscr (f : Word → Word) : (s.mapDbsr f).spefscr = s.spefscr := rfl
@[simp] theorem mapDbsr_msr (f : Word → Word) : (s.mapDbsr f).msr = s.msr := rfl
@[simp] theorem mapDbsr_resv (f : Word → Word) : (s.mapDbsr f).resv = s.resv := rfl
@[simp] theorem mapDbsr_ints (f : Word → Word) : (s.mapDbsr f).ints = s.ints := rfl
@[simp] theorem mapDbsr_sprg (f : Word → Word) : (s.mapDbsr f).sprg = s.sprg := rfl
@[simp] theorem mapDbsr_hid (f : Word → Word) : (s.mapDbsr f).hid = s.hid := rfl
@[simp] theorem mapDbsr_tmr (f : Word → Word) : (s.mapDbsr f).tmr = s.tmr := rfl
@[simp] theorem mapDbsr_mmu (f : Word → Word) : (s.mapDbsr f).mmu = s.mmu := rfl
@[simp] theorem mapDbsr_cache (f : Word → Word) : (s.mapDbsr f).cache = s.cache := rfl
@[simp] theorem mapDbsr_pm (f : Word → Word) : (s.mapDbsr f).pm = s.pm := rfl
@[simp] theorem mapDbsr_psu (f : Word → Word) : (s.mapDbsr f).psu = s.psu := rfl
@[simp] theorem mapDbsr_pwr (f : Word → Word) : (s.mapDbsr f).pwr = s.pwr := rfl
@[simp] theorem mapDbsr_mem (f : Word → Word) : (s.mapDbsr f).mem = s.mem := rfl
@[simp] theorem mapDbsr_buf (f : Word → Word) : (s.mapDbsr f).buf = s.buf := rfl
@[simp] theorem mapDbsr_pins (f : Word → Word) : (s.mapDbsr f).pins = s.pins := rfl
@[simp] theorem mapDbsr_env (f : Word → Word) : (s.mapDbsr f).env = s.env := rfl
@[simp] theorem mapDbsr_free (f : Word → Word) : (s.mapDbsr f).free = s.free := rfl
@[simp] theorem mapDbsr_cur (f : Word → Word) : (s.mapDbsr f).cur = s.cur := rfl
@[simp] theorem mapDbsr_ev (f : Word → Word) : (s.mapDbsr f).ev = s.ev := rfl

/-! `clearDbsr`. -/

@[simp] theorem clearDbsr_gpr (v : Word) : (s.clearDbsr v).gpr = s.gpr := rfl
@[simp] theorem clearDbsr_pc (v : Word) : (s.clearDbsr v).pc = s.pc := rfl
@[simp] theorem clearDbsr_cr (v : Word) : (s.clearDbsr v).cr = s.cr := rfl
@[simp] theorem clearDbsr_xer (v : Word) : (s.clearDbsr v).xer = s.xer := rfl
@[simp] theorem clearDbsr_lr (v : Word) : (s.clearDbsr v).lr = s.lr := rfl
@[simp] theorem clearDbsr_ctr (v : Word) : (s.clearDbsr v).ctr = s.ctr := rfl
@[simp] theorem clearDbsr_acc (v : Word) : (s.clearDbsr v).acc = s.acc := rfl
@[simp] theorem clearDbsr_spefscr (v : Word) : (s.clearDbsr v).spefscr = s.spefscr := rfl
@[simp] theorem clearDbsr_msr (v : Word) : (s.clearDbsr v).msr = s.msr := rfl
@[simp] theorem clearDbsr_resv (v : Word) : (s.clearDbsr v).resv = s.resv := rfl
@[simp] theorem clearDbsr_ints (v : Word) : (s.clearDbsr v).ints = s.ints := rfl
@[simp] theorem clearDbsr_sprg (v : Word) : (s.clearDbsr v).sprg = s.sprg := rfl
@[simp] theorem clearDbsr_hid (v : Word) : (s.clearDbsr v).hid = s.hid := rfl
@[simp] theorem clearDbsr_tmr (v : Word) : (s.clearDbsr v).tmr = s.tmr := rfl
@[simp] theorem clearDbsr_mmu (v : Word) : (s.clearDbsr v).mmu = s.mmu := rfl
@[simp] theorem clearDbsr_cache (v : Word) : (s.clearDbsr v).cache = s.cache := rfl
@[simp] theorem clearDbsr_pm (v : Word) : (s.clearDbsr v).pm = s.pm := rfl
@[simp] theorem clearDbsr_psu (v : Word) : (s.clearDbsr v).psu = s.psu := rfl
@[simp] theorem clearDbsr_pwr (v : Word) : (s.clearDbsr v).pwr = s.pwr := rfl
@[simp] theorem clearDbsr_mem (v : Word) : (s.clearDbsr v).mem = s.mem := rfl
@[simp] theorem clearDbsr_buf (v : Word) : (s.clearDbsr v).buf = s.buf := rfl
@[simp] theorem clearDbsr_pins (v : Word) : (s.clearDbsr v).pins = s.pins := rfl
@[simp] theorem clearDbsr_env (v : Word) : (s.clearDbsr v).env = s.env := rfl
@[simp] theorem clearDbsr_free (v : Word) : (s.clearDbsr v).free = s.free := rfl
@[simp] theorem clearDbsr_cur (v : Word) : (s.clearDbsr v).cur = s.cur := rfl
@[simp] theorem clearDbsr_ev (v : Word) : (s.clearDbsr v).ev = s.ev := rfl

/-! The fields that change. -/

@[simp] theorem setGprD_gpr (r : Gpr) (v : DWord) : (s.setGprD r v).gpr = s.gpr.set r.toNat v r.isLt := rfl
@[simp] theorem setCrField_cr (n : CrField) (v : BitVec 4) : (s.setCrField n v).cr = withCrField s.cr n v := rfl
@[simp] theorem advance_pc (n : Nat) : (s.advance n).pc = s.pc + BitVec.ofNat 32 n := rfl
@[simp] theorem returnFrom_pc (a b : Word) : (returnFrom a b s).pc = a &&& 0xFFFFFFFE#32 := rfl
@[simp] theorem returnFrom_msr (a b : Word) : (returnFrom a b s).msr = b &&& msrMask := rfl
@[simp] theorem takeInterrupt_pc (t : IntType) (w : Word) : (takeInterrupt t w s).pc = s.vector t := rfl
@[simp] theorem takeInterrupt_msr (t : IntType) (w : Word) : (takeInterrupt t w s).msr = s.msr &&& s.keepMask t.cls := rfl
@[simp] theorem setEsr_esr (v : Word) : (s.setEsr v).ints.esr = v := rfl
@[simp] theorem setDear_dear (v : Word) : (s.setDear v).ints.dear = v := rfl
@[simp] theorem setEe_msr (b : Bool) : (s.setEe b).msr = putBits s.msr 0x8000#32 b := rfl
@[simp] theorem branch_pc (n : Nat) (lk : Bool) (r : Br) : (s.branch n lk r).pc = if r.taken then r.target else s.nextPc n := rfl
@[simp] theorem branch_lr (n : Nat) (lk : Bool) (r : Br) : (s.branch n lk r).lr = if lk then s.nextPc n else s.lr := rfl
@[simp] theorem branch_ctr (n : Nat) (lk : Bool) (r : Br) : (s.branch n lk r).ctr = r.ctr := rfl
@[simp] theorem putAcc_acc (b : Bool) (v : DWord) : (s.putAcc b v).acc = if b then v else s.acc := by cases b <;> rfl
@[simp] theorem speWrite_acc (r : Gpr) (v : DWord) (b : Bool) : (s.speWrite r v b).acc = if b then v else s.acc := by cases b <;> rfl
@[simp] theorem speWrite_pc (r : Gpr) (v : DWord) (b : Bool) : (s.speWrite r v b).pc = s.pc + 4#32 := by cases b <;> rfl
@[simp] theorem resultCr_cr (n : Nat) (f : CrField) (v : BitVec 4) : (s.resultCr n f v).cr = withCrField s.cr f v := rfl
@[simp] theorem resultCr_pc (n : Nat) (f : CrField) (v : BitVec 4) : (s.resultCr n f v).pc = s.pc + BitVec.ofNat 32 n := rfl
@[simp] theorem crLogic_cr (a b c : CrBit) (f : Bool → Bool → Bool) : (s.crLogic a b c f).cr = withCrBit s.cr a (f (crBit s.cr b) (crBit s.cr c)) := rfl
@[simp] theorem enterHalt_dbg : s.enterHalt.dbg = { s.dbg with halted := true } := rfl
@[simp] theorem markFail_ev : s.markFail.ev = { s.ev with dataFail := true } := rfl

/-! Registers read after a write. -/

@[simp] theorem setGprD_gprD_self (r : Gpr) (v : DWord) : (s.setGprD r v).gprD r = v := by
  simp [State.gprD, State.setGprD]
theorem setGprD_gprD_ne (r q : Gpr) (v : DWord) (h : q ≠ r) : (s.setGprD r v).gprD q = s.gprD q := by
  have : r.toNat ≠ q.toNat := fun e => h (BitVec.eq_of_toNat_eq e.symm)
  simp [State.gprD, State.setGprD, this]
@[simp] theorem hiW_append (a b : Word) : hiW (a ++ b) = a := by
  ext i hi
  have : (a ++ b : BitVec (32 + 32)).getLsbD (32 + i) = a[i] := by
    rw [BitVec.getLsbD_append]; simp [hi]
  simpa [hiW] using this
@[simp] theorem loW_append (a b : Word) : loW (a ++ b) = b := by
  ext i hi
  have : (a ++ b : BitVec (32 + 32)).getLsbD i = b[i] := by
    rw [BitVec.getLsbD_append]; simp [hi]
  simpa [loW] using this
@[simp] theorem setGprD_gprW_self (r : Gpr) (v : DWord) : (s.setGprD r v).gprW r = loW v := by simp [State.gprW]
@[simp] theorem setGprD_gprH_self (r : Gpr) (v : DWord) : (s.setGprD r v).gprH r = hiW v := by simp [State.gprH]
@[simp] theorem setGprW_gprW_self (r : Gpr) (v : Word) : (s.setGprW r v).gprW r = v := by simp [State.setGprW]
@[simp] theorem setGprW_gprH_self (r : Gpr) (v : Word) : (s.setGprW r v).gprH r = s.gprH r := by simp [State.setGprW]
theorem setGprW_gprD_ne (r q : Gpr) (v : Word) (h : q ≠ r) : (s.setGprW r v).gprD q = s.gprD q :=
  setGprD_gprD_ne s r q _ h
theorem gprD_of_gpr {s t : State} (h : t.gpr = s.gpr) (r : Gpr) : t.gprD r = s.gprD r := by simp [State.gprD, h]
theorem gprW_of_gpr {s t : State} (h : t.gpr = s.gpr) (r : Gpr) : t.gprW r = s.gprW r := by
  simp [State.gprW, gprD_of_gpr h]

end Sys2Proof.Machine
end

