-- ==== Sys2Proof/Laws/Memory.lean ====
section
/-! SUPPORT. Keyed lists and memory: a read after a write, the canonical form, and the numbers that bytes stand for. -/

namespace Sys2Proof.Machine

/-! Keyed lists. -/

theorem sparseGet_sparsePut {α : Type} [DecidableEq α] (d : α) (l : List (Nat × α)) (lo a b : Nat) (x : α)
    (h : sparseWf d lo l = true) : sparseGet d (sparsePut d l a x) b = if b = a then x else sparseGet d l b := by
  induction l generalizing lo with
  | nil => by_cases e : x = d <;> simp [sparsePut, sparseGet, e]
  | cons p t ih =>
    obtain ⟨k, v⟩ := p
    simp only [sparseWf, Bool.and_eq_true, decide_eq_true_eq] at h
    have gone (c : Nat) (hc : c ≤ k) : sparseGet d t c = d := by
      clear ih
      obtain ⟨-, h⟩ := h
      have : ∀ (lo : Nat) (t : List (Nat × α)), c < lo → sparseWf d lo t = true → sparseGet d t c = d := by
        intro lo t
        induction t generalizing lo with
        | nil => intros; rfl
        | cons q t ih =>
          obtain ⟨k', v'⟩ := q
          intro hlo hw
          simp only [sparseWf, Bool.and_eq_true, decide_eq_true_eq] at hw
          have : c ≠ k' := by omega
          simp only [sparseGet, this, if_false]
          exact ih (k' + 1) (by omega) hw.2
      exact this (k + 1) t (by omega) h
    rw [sparsePut]
    split
    · split
      · rename_i h1 h2
        by_cases e : b = a
        · subst e; subst h2
          have : b ≠ k := by omega
          simp [sparseGet, this, gone b (by omega)]
        · simp [e]
      · simp only [sparseGet]
    · split
      · rename_i h1 h2
        subst h2
        split
        · rename_i h3
          by_cases e : b = a
          · subst e; simp [h3, gone b (Nat.le_refl _)]
          · simp [sparseGet, e]
        · by_cases e : b = a <;> simp [sparseGet, e]
      · rename_i h1 h2
        simp only [sparseGet]
        rw [ih (k + 1) h.2]
        by_cases e : b = k
        · subst e
          have : b ≠ a := fun e => h2 e.symm
          simp [this]
        · simp [e]

theorem sparseWf_sparsePut {α : Type} [DecidableEq α] (d : α) (l : List (Nat × α)) (lo a : Nat) (x : α)
    (h : sparseWf d lo l = true) (ha : lo ≤ a) : sparseWf d lo (sparsePut d l a x) = true := by
  induction l generalizing lo with
  | nil =>
    by_cases e : x = d
    · simp [sparsePut, e, sparseWf]
    · simp [sparsePut, e, sparseWf, ha]
  | cons p t ih =>
    obtain ⟨k, v⟩ := p
    simp only [sparseWf, Bool.and_eq_true, decide_eq_true_eq] at h
    obtain ⟨⟨h1, h2⟩, h3⟩ := h
    rw [sparsePut]
    split
    · rename_i hk
      split
      · simp [sparseWf, h1, h2, h3]
      · rename_i hx
        have : a + 1 ≤ k := hk
        simp [sparseWf, ha, hx, h2, h3, this]
    · split
      · rename_i hk; subst hk
        have mono : ∀ (m n : Nat) (t : List (Nat × α)), m ≤ n → sparseWf d n t = true → sparseWf d m t = true := by
          intro m n t hmn hw
          cases t with
          | nil => rfl
          | cons q t =>
            obtain ⟨k', v'⟩ := q
            simp only [sparseWf, Bool.and_eq_true, decide_eq_true_eq] at hw ⊢
            exact ⟨⟨by omega, hw.1.2⟩, hw.2⟩
        split
        · exact mono lo (a + 1) t (by omega) h3
        · rename_i hx
          simp [sparseWf, ha, hx, h3]
      · rename_i h4 h5
        simp [sparseWf, h1, h2, ih (k + 1) h3 (by omega)]

/-! Memory. -/

/-- A byte read after a byte is written. -/
theorem Memory.byte_put (m : Memory) (h : m.wf = true) (a b : Nat) (x : Byte) :
    (m.put a x).byte b = if b = a then x else m.byte b := sparseGet_sparsePut _ m 0 a b x h

/-- Writing a byte keeps the canonical form. -/
theorem Memory.wf_put (m : Memory) (h : m.wf = true) (a : Nat) (x : Byte) : (m.put a x).wf = true :=
  sparseWf_sparsePut _ m 0 a x h (Nat.zero_le _)

/-- Writing bytes keeps the canonical form. -/
theorem Memory.wf_putBytes (m : Memory) (h : m.wf = true) (ra : Word) (l : List Byte) : (m.putBytes ra l).wf = true := by
  induction l generalizing m ra with
  | nil => exact h
  | cons b t ih => exact ih _ (Memory.wf_put m h _ _) _

/-- The reset memory has the canonical form. -/
theorem reset_mem_wf : State.reset.mem.wf = true := rfl

@[simp] theorem Memory.bytes_length (m : Memory) (ra : Word) (n : Nat) : (m.bytes ra n).length = n := by
  induction n generalizing ra with
  | zero => rfl
  | succ n ih => simp [Memory.bytes, ih]

theorem addr_succ (ra : Word) (j : Nat) : ra + 1#32 + BitVec.ofNat 32 j = ra + BitVec.ofNat 32 (j + 1) := by
  apply BitVec.eq_of_toNat_eq
  simp only [BitVec.toNat_add, BitVec.toNat_ofNat]
  omega

/-- Each byte of several. -/
theorem Memory.bytes_getD (m : Memory) (ra : Word) (n j : Nat) (h : j < n) :
    (m.bytes ra n).getD j 0#8 = m.byte (ra + BitVec.ofNat 32 j).toNat := by
  induction n generalizing ra j with
  | zero => omega
  | succ n ih =>
    cases j with
    | zero => simp [Memory.bytes]
    | succ j =>
      have := ih (ra + 1#32) j (by omega)
      simp only [Memory.bytes, List.getD_cons_succ, this, addr_succ]

/-- Consecutive bytes in two parts. -/
theorem Memory.bytes_append (m : Memory) (ra : Word) (n k : Nat) :
    m.bytes ra n ++ m.bytes (ra + BitVec.ofNat 32 n) k = m.bytes ra (n + k) := by
  induction n generalizing ra with
  | zero => simp [Memory.bytes]
  | succ n ih =>
    rw [show n + 1 + k = (n + k) + 1 by omega]
    simp only [Memory.bytes, List.cons_append]
    rw [← ih (ra + 1#32), addr_succ]

/-- Writing consecutive bytes in two parts. -/
theorem Memory.putBytes_append (m : Memory) (ra : Word) (l k : List Byte) :
    (m.putBytes ra l).putBytes (ra + BitVec.ofNat 32 l.length) k = m.putBytes ra (l ++ k) := by
  induction l generalizing m ra with
  | nil => simp [Memory.putBytes]
  | cons b t ih => simp only [Memory.putBytes, List.cons_append, List.length_cons]; rw [← ih, addr_succ]

/-- A byte outside the bytes written. -/
theorem Memory.byte_putBytes_outside (m : Memory) (h : m.wf = true) (ra : Word) (l : List Byte) (a : Nat)
    (ha : ∀ j, j < l.length → a ≠ (ra + BitVec.ofNat 32 j).toNat) : (m.putBytes ra l).byte a = m.byte a := by
  induction l generalizing m ra with
  | nil => rfl
  | cons b t ih =>
    rw [Memory.putBytes, ih _ (Memory.wf_put m h _ _), Memory.byte_put m h]
    · have := ha 0 (by simp)
      rw [if_neg (by simpa using this)]
    · intro j hj
      rw [addr_succ]
      exact ha (j + 1) (by simpa using hj)

/-- The bytes written read back. -/
theorem Memory.bytes_putBytes (m : Memory) (h : m.wf = true) (ra : Word) (l : List Byte) (hl : l.length ≤ 2 ^ 32) :
    (m.putBytes ra l).bytes ra l.length = l := by
  induction l generalizing m ra with
  | nil => rfl
  | cons b t ih =>
    rw [Memory.putBytes, List.length_cons, Memory.bytes]
    have hl' : t.length < 2 ^ 32 := by simpa using hl
    rw [ih _ (Memory.wf_put m h _ _) _ (Nat.le_of_lt hl'), Memory.byte_putBytes_outside _ (Memory.wf_put m h _ _)]
    · simp [Memory.byte_put m h]
    · intro j hj e
      have := congrArg (fun k => k % 2 ^ 32) e
      simp only [BitVec.toNat_add, BitVec.toNat_ofNat] at this
      have := ra.isLt
      omega

/-! The numbers that bytes stand for. -/

theorem foldl_bytes (l : List Byte) (a : Nat) :
    l.foldl (fun a b => a * 256 + b.toNat) a = a * 256 ^ l.length + bytesNat l := by
  induction l generalizing a with
  | nil => simp [bytesNat]
  | cons b t ih =>
    simp only [bytesNat, List.foldl_cons, List.length_cons, Nat.zero_mul, Nat.zero_add]
    rw [ih, ih b.toNat, Nat.pow_succ]
    ring

theorem bytesNat_append (l k : List Byte) : bytesNat (l ++ k) = bytesNat l * 256 ^ k.length + bytesNat k := by
  conv => lhs; unfold bytesNat
  rw [List.foldl_append, foldl_bytes]
  rfl

theorem bytesNat_lt (l : List Byte) : bytesNat l < 256 ^ l.length := by
  induction l with
  | nil => simp [bytesNat]
  | cons b t ih =>
    have : bytesNat (b :: t) = b.toNat * 256 ^ t.length + bytesNat t := by
      have := bytesNat_append [b] t
      simpa [bytesNat] using this
    rw [this, List.length_cons, Nat.pow_succ]
    have := b.isLt
    nlinarith

theorem bytesNat_wordBytes (w : Word) : bytesNat (wordBytes w) = w.toNat := by
  have := w.isLt
  simp only [bytesNat, wordBytes, List.foldl_cons, List.foldl_nil, BitVec.extractLsb'_toNat, Nat.shiftRight_eq_div_pow]
  omega

theorem bytesNat_halfBytes (h : Half) : bytesNat (halfBytes h) = h.toNat := by
  have := h.isLt
  simp only [bytesNat, halfBytes, List.foldl_cons, List.foldl_nil, BitVec.extractLsb'_toNat, Nat.shiftRight_eq_div_pow]
  omega

theorem bytesNat_byte (b : Byte) : bytesNat [b] = b.toNat := by simp [bytesNat]

theorem bytesNat_dwordBytes (d : DWord) : bytesNat (dwordBytes d) = d.toNat := by
  have := d.isLt
  rw [dwordBytes, bytesNat_append, bytesNat_wordBytes, bytesNat_wordBytes]
  simp only [wordBytes, List.length_cons, List.length_nil, BitVec.extractLsb'_toNat, Nat.shiftRight_eq_div_pow]
  omega

end Sys2Proof.Machine
end

