-- ==== Sys2Proof/Laws/Buffers.lean ====
section
/-! SUPPORT. What the store buffer, the snoop queue and the record of unsynchronized registers do to the rest of the
state. -/

namespace Sys2Proof.Machine

variable {s : State}

/-! The store buffer. -/

/-- Reporting the bus errors of stores changes MCSR and MCAR alone. -/
theorem reportAll_rest (l : List Word) (s : State) : s.reportAll l = { s with ints := (s.reportAll l).ints } := by
  induction l generalizing s with
  | nil => rfl
  | cons a l ih =>
    rw [State.reportAll, ih]
    simp only [State.asyncMcheck, State.orMcsr, State.logMcar]
    split <;> rfl

/-- EMPTYING THE STORE BUFFER changes nothing but what it held and what it reports. -/
theorem flushBuffers_rest (s : State) :
    s.flushBuffers =
      { s with ints := s.flushBuffers.ints, buf := { s.buf with storeErrs := [], entries := [] } } := by
  rw [State.flushBuffers, reportAll_rest]

/-- A store buffer without errors has nothing to report. -/
theorem flushBuffers_empty (h : s.buf.storeErrs = []) :
    s.flushBuffers = { s with buf := { s.buf with storeErrs := [], entries := [] } } := by
  simp only [State.flushBuffers, h, State.reportAll]

@[simp] theorem flushBuffers_gpr : s.flushBuffers.gpr = s.gpr := by rw [flushBuffers_rest]
@[simp] theorem flushBuffers_pc : s.flushBuffers.pc = s.pc := by rw [flushBuffers_rest]
@[simp] theorem flushBuffers_msr : s.flushBuffers.msr = s.msr := by rw [flushBuffers_rest]
@[simp] theorem flushBuffers_cache : s.flushBuffers.cache = s.cache := by rw [flushBuffers_rest]
@[simp] theorem flushBuffers_mem : s.flushBuffers.mem = s.mem := by rw [flushBuffers_rest]
@[simp] theorem flushBuffers_pins : s.flushBuffers.pins = s.pins := by rw [flushBuffers_rest]
@[simp] theorem flushBuffers_sync : s.flushBuffers.sync = s.sync := by rw [flushBuffers_rest]
@[simp] theorem flushBuffers_storeErrs : s.flushBuffers.buf.storeErrs = [] := by rw [flushBuffers_rest]
@[simp] theorem flushBuffers_snoops : s.flushBuffers.buf.snoops = s.buf.snoops := by rw [flushBuffers_rest]
@[simp] theorem flushBuffers_stale : s.flushBuffers.buf.stale = s.buf.stale := by rw [flushBuffers_rest]

/-- WAITING FOR THE BUFFERS empties the store buffer, and what a fetch may read from then on. -/
theorem syncBuffers_rest :
    s.syncBuffers =
      { s with ints := s.flushBuffers.ints, buf := { s.buf with storeErrs := [], entries := [], unsynced := [] } } := by
  rw [State.syncBuffers, flushBuffers_rest]

@[simp] theorem flushBuffers_unsynced : s.flushBuffers.buf.unsynced = s.buf.unsynced := by rw [flushBuffers_rest]

/-! The bus. -/

/-- What holds of none of the addresses of a range. -/
theorem anyFrom_false {f : Word → Bool} {n : Nat} {ra : Word} (h : ∀ j, j < n → f (ra + BitVec.ofNat 32 j) = false) :
    anyFrom f ra n = false := by
  induction n generalizing ra with
  | zero => rfl
  | succ n ih =>
    have h0 := h 0 (by omega)
    rw [BitVec.add_zero] at h0
    rw [anyFrom, h0, ih fun j hj => by rw [addr_succ]; exact h (j + 1) (by omega)]
    rfl

/-- A range of which no byte answers with a bus error. -/
theorem busErrIn_false {ra : Word} {n : Nat} (h : ∀ j, j < n → s.busErr (ra + BitVec.ofNat 32 j) = false) :
    s.busErrIn ra n = false := anyFrom_false h

/-- A read of bytes that are all RAM gives those of memory and draws nothing. -/
theorem busBytes_plain {ra : Word} {k n : Nat} (h : ∀ j, j < n → s.onDevice (ra + BitVec.ofNat 32 j) = false) :
    s.busBytes k ra n = s.mem.bytes ra n ∧ s.drawBus ra n = s := by
  refine ⟨?_, by simp [State.drawBus, State.drawIf, anyFrom_false h]⟩
  induction n generalizing ra k with
  | zero => rfl
  | succ n ih =>
    have h0 := h 0 (by omega)
    rw [BitVec.add_zero] at h0
    rw [State.busBytes, Memory.bytes, State.busByte, h0, ih fun j hj => by rw [addr_succ]; exact h (j + 1) (by omega)]
    rfl

/-- Bytes for which there is no older one are seen as they are, and draw nothing. -/
theorem seenBytes_plain {f k : Nat} {l : List Host.Cell} {ra : Word} {b : List Byte}
    (h : ∀ j, j < b.length → cellsAt l (ra + BitVec.ofNat 32 j) = []) : seenBytes f l k ra b = b := by
  induction b generalizing ra k with
  | nil => rfl
  | cons m t ih =>
    have h0 := h 0 (by simp)
    rw [BitVec.add_zero] at h0
    rw [seenBytes, h0, ih fun j hj => by rw [addr_succ]; exact h (j + 1) (by simpa using hj)]

/-- There is no older byte for any of the addresses. -/
theorem anyOlder_false {l : List Host.Cell} {ra : Word} {n : Nat} (h : ∀ j, j < n → cellsAt l (ra + BitVec.ofNat 32 j) = []) :
    anyOlder l ra n = false := anyFrom_false fun j hj => by rw [h j hj]; rfl

@[simp] theorem drawIf_false (n : Nat) : s.drawIf false n = s := rfl

/-- Writing RAM keeps the canonical form, whatever devices there are. -/
theorem putRam_wf {m : Memory} (h : m.wf = true) (ra : Word) (b : List Byte) : (s.putRam m ra b).wf = true := by
  induction b generalizing m ra with
  | nil => exact h
  | cons x t ih =>
    rw [State.putRam]
    split
    · exact ih h _
    · exact ih (Memory.wf_put m h _ _) _

/-- Writing bytes that are all RAM. -/
theorem putRam_plain {m : Memory} {ra : Word} {b : List Byte}
    (h : ∀ j, j < b.length → s.onDevice (ra + BitVec.ofNat 32 j) = false) : s.putRam m ra b = m.putBytes ra b := by
  induction b generalizing m ra with
  | nil => rfl
  | cons x t ih =>
    have h0 := h 0 (by simp)
    rw [BitVec.add_zero] at h0
    rw [State.putRam, h0, Memory.putBytes]
    exact ih fun j hj => by rw [addr_succ]; exact h (j + 1) (by simpa using hj)

/-- A WRITE changes memory, the entries of the store buffer and what a fetch may still read; the canonical form stays. -/
theorem putMem_rest (late : Bool) (ra : Word) (b : List Byte) :
    s.putMem late ra b =
      { s with
        mem := s.putRam s.mem ra b
        buf :=
          { s.buf with
            entries := (s.putMem late ra b).buf.entries
            stale := addCells (s.changed ra b) s.buf.stale
            unsynced := addCells (s.changed ra b) s.buf.unsynced
            unpurged := addCells (s.changed ra b) s.buf.unpurged } } := by
  cases late <;> rfl

/-- Bytes written to memory that is no device. -/
theorem putMem_ram {late : Bool} {ra : Word} {b : List Byte}
    (h : ∀ j, j < b.length → s.onDevice (ra + BitVec.ofNat 32 j) = false) :
    s.putMem late ra b =
      { s with
        mem := s.mem.putBytes ra b
        buf :=
          { s.buf with
            entries := (s.putMem late ra b).buf.entries
            stale := addCells (s.changed ra b) s.buf.stale
            unsynced := addCells (s.changed ra b) s.buf.unsynced
            unpurged := addCells (s.changed ra b) s.buf.unpurged } } := by
  rw [putMem_rest, putRam_plain h]

theorem mem_addCells (l m : List Host.Cell) (c : Host.Cell) : c ∈ addCells l m ↔ c ∈ m ∨ c ∈ l := by
  by_cases h : c ∈ m <;> simp [addCells, h]

/-- The bytes of RAM that a write changes. -/
theorem mem_changed (ra : Word) (b : List Byte) (h : ∀ j, j < b.length → s.onDevice (ra + BitVec.ofNat 32 j) = false)
    (c : Host.Cell) :
    c ∈ s.changed ra b ↔
      ∃ j, j < b.length ∧ c.1 = (ra + BitVec.ofNat 32 j).toNat ∧ s.mem.byte c.1 = c.2 ∧ b.getD j 0#8 ≠ c.2 := by
  induction b generalizing ra with
  | nil => simp [State.changed]
  | cons x t ih =>
    have h0 := h 0 (by simp)
    rw [BitVec.add_zero] at h0
    have ht := ih (ra + 1#32) fun j hj => by rw [addr_succ]; exact h (j + 1) (by simpa using hj)
    have split : (∃ j, j < (x :: t).length ∧ c.1 = (ra + BitVec.ofNat 32 j).toNat ∧ s.mem.byte c.1 = c.2 ∧
          (x :: t).getD j 0#8 ≠ c.2) ↔
        (c.1 = ra.toNat ∧ s.mem.byte c.1 = c.2 ∧ x ≠ c.2) ∨ c ∈ s.changed (ra + 1#32) t := by
      rw [ht]
      constructor
      · rintro ⟨j, h1, h2, h3⟩
        cases j with
        | zero => exact .inl ⟨by simpa using h2, by simpa using h3⟩
        | succ j => exact .inr ⟨j, by simpa using h1, by rw [addr_succ]; exact h2, by simpa using h3⟩
      · rintro (⟨h1, h2, h3⟩ | ⟨j, h1, h2, h3⟩)
        · exact ⟨0, by simp, by simpa using h1, h2, by simpa using h3⟩
        · exact ⟨j + 1, by simpa using h1, by rw [← addr_succ]; exact h2, by simpa using h3⟩
    rw [split, State.changed]
    simp only [h0, Bool.false_or]
    obtain ⟨a, v⟩ := c
    split
    · rename_i e
      have e := beq_iff_eq.mp e
      constructor
      · exact .inr
      · rintro (⟨rfl, h2, h3⟩ | h)
        · exact absurd (e.symm.trans h2) h3
        · exact h
    · rename_i e
      simp only [List.mem_cons, Prod.mk.injEq]
      refine or_congr ⟨?_, ?_⟩ Iff.rfl
      · rintro ⟨rfl, h2⟩
        exact ⟨rfl, h2.symm, fun q => e (beq_iff_eq.mpr (h2.symm.trans q.symm))⟩
      · rintro ⟨rfl, h2, -⟩
        exact ⟨rfl, h2.symm⟩

/-- WHAT A FETCH MAY STILL READ AFTER A WRITE to RAM: what it might before, and the bytes the write changed. -/
theorem mem_changed_putMem {late : Bool} {ra : Word} {b : List Byte} (hm : s.mem.wf = true) (hl : b.length ≤ 2 ^ 32)
    (h : ∀ j, j < b.length → s.onDevice (ra + BitVec.ofNat 32 j) = false) (c : Host.Cell) :
    c ∈ s.changed ra b ↔ s.mem.byte c.1 = c.2 ∧ (s.putMem late ra b).mem.byte c.1 ≠ c.2 := by
  rw [mem_changed ra b h, putMem_ram h]
  show _ ↔ _ ∧ (s.mem.putBytes ra b).byte c.1 ≠ c.2
  have inside : ∀ j, j < b.length → (s.mem.putBytes ra b).byte (ra + BitVec.ofNat 32 j).toNat = b.getD j 0#8 := by
    intro j hj
    rw [← Memory.bytes_getD _ _ _ _ hj, Memory.bytes_putBytes _ hm _ _ hl]
  constructor
  · rintro ⟨j, h1, h2, h3, h4⟩
    exact ⟨h3, by rw [h2, inside j h1]; exact h4⟩
  · rintro ⟨h3, h4⟩
    by_cases hc : ∃ j, j < b.length ∧ c.1 = (ra + BitVec.ofNat 32 j).toNat
    · obtain ⟨j, h1, h2⟩ := hc
      exact ⟨j, h1, h2, h3, by rw [h2, inside j h1] at h4; exact h4⟩
    · rw [Memory.byte_putBytes_outside _ hm] at h4
      · exact absurd h3 h4
      · exact fun j hj e => hc ⟨j, hj, e⟩

/-- With nothing in the buffers a step boundary has nothing to finish. -/
theorem settleBuffers_empty (h1 : s.buf.snoops = []) (h2 : s.buf.storeErrs = []) : s.settleBuffers = s := by
  simp [State.settleBuffers, h1, h2]

/-! Unsynchronized registers. -/

@[simp] theorem owe_sync (r : SyncReg) :
    (s.owe r).sync = { s.sync with old := (r, s.syncGet r) :: s.sync.old } := rfl
@[simp] theorem settleMas_mmu (l : List (SyncReg × Word)) : (s.settleMas l).mmu = s.mmu := rfl

/-- With nothing unsynchronized an instruction works with the registers as they are. -/
@[simp] theorem viewOld_nil : s.viewOld [] = s := rfl

/-- THE END OF A STEP that began with nothing unsynchronized: only a context synchronizing event changes what is owed and what
can be fetched. -/
theorem endSync_none (csi back : Bool) :
    s.endSync Sync.none csi back =
      if csi || !s.ev.ints.isEmpty then { s with sync := Sync.none, buf := s.buf.synced }
      else { s with sync := { s.sync with new := [] } } := rfl

end Sys2Proof.Machine
end

