-- ==== Sys2Proof/Laws/Access.lean ====
section
/-! SUPPORT. What a data access does when nothing stands in its way: translation by one TLB entry, the bytes read, the
bytes written. -/

namespace Sys2Proof.Machine

/-! Translation. -/

theorem hitsFrom_mem (f : Nat → TlbEntry → Bool) (i k : Nat) (l : List TlbEntry) (t : TlbEntry)
    (h : (k, t) ∈ hitsFrom f i l) : f k t = true := by
  induction l generalizing i with
  | nil => simp [hitsFrom] at h
  | cons a l ih =>
    simp only [hitsFrom] at h
    split at h
    · rcases List.mem_cons.mp h with e | h
      · cases e; assumption
      · exact ih _ h
    · exact ih _ h

theorem epnMatch_of_hits {s : State} {as : Bool} {pid : Byte} {ea : Word} {i : Nat} {p : TlbEntry}
    (h : s.tlbHits as pid ea = [(i, p)]) : p.epnMatch ea = true := by
  have := hitsFrom_mem _ 0 i _ p (by rw [State.tlbHits] at h; rw [h]; simp)
  simp only [Bool.and_eq_true] at this
  exact this.2

/-- Translation by the one entry that matches. -/
theorem translate_one {s : State} {as : Bool} {ea : Word} {i : Nat} {p : TlbEntry} (ho : s.tlbOpen as s.pid = false)
    (h : s.tlbHits as s.pid ea = [(i, p)]) : s.translate as ea = (some (p.page ea), s) := by
  simp [State.translate, ho, h, State.lookupPage]

/-- A word is the sum of its parts under a mask and its complement. -/
theorem mask_split (m x : Word) : (x &&& m) + (x &&& ~~~m) = x := by
  rw [BitVec.add_eq_or_of_and_eq_zero]
  · ext i hi
    simp
    cases x[i] <;> cases m[i] <;> rfl
  · ext i hi
    simp
    intro _ h _
    simp [h]

/-- Two words with the same masked part differ as their other parts do. -/
theorem masked_add (m a b r : Word) (h : b = a + r) (hm : a &&& m = b &&& m) : b &&& ~~~m = (a &&& ~~~m) + r := by
  have ha := mask_split m a
  have hb := mask_split m b
  rw [← hm] at hb
  generalize a &&& m = x at *
  generalize a &&& ~~~m = y at *
  generalize b &&& ~~~m = z at *
  subst h
  subst ha
  have : x + z = x + (y + r) := by rw [hb, BitVec.add_assoc]
  exact (BitVec.add_right_inj x).mp this

/-- In one page, real addresses are as far apart as effective ones. -/
theorem page_ra_add (p : TlbEntry) (ea r : Word) (h1 : p.epnMatch ea = true) (h2 : p.epnMatch (ea + r) = true) :
    (p.page (ea + r)).ra = (p.page ea).ra + r := by
  have disj (x y : Word) : (x &&& pageMask p.size.toNat) ||| (y &&& ~~~pageMask p.size.toNat) =
      (x &&& pageMask p.size.toNat) + (y &&& ~~~pageMask p.size.toNat) := by
    rw [BitVec.add_eq_or_of_and_eq_zero]
    ext i hi
    simp
    intro _ h _
    simp [h]
  simp only [TlbEntry.epnMatch, beq_iff_eq] at h1 h2
  simp only [TlbEntry.page, disj]
  rw [masked_add _ ea (ea + r) r rfl (h1.trans h2.symm)]
  rw [BitVec.add_assoc]

variable {s : State} {ea : Word} {n : Nat} {k : AccessKind} {p : TlbEntry}

/-- An access stays plain when only other parts of the state change. -/
theorem PlainAccess.congr {t : State} (h : PlainAccess s ea n k p) (hc : t.cache = s.cache) (hm : t.mmu = s.mmu)
    (hp : t.pins = s.pins) (hs : t.msr = s.msr) (hb : t.buf.storeErrs = s.buf.storeErrs) : PlainAccess t ea n k p := by
  have h1 : t.msrDs = s.msrDs := by simp [State.msrDs, hs]
  have h2 : t.pid = s.pid := by simp [State.pid, hm]
  refine ⟨?_, ?_, fun j hj => ?_, ?_, fun j hj => ?_, fun j hj => ?_, hb.trans h.noErrs⟩
  · have := h.cacheOff; simpa [State.cacheOn, State.l1csr, hc] using this
  · have := h.known; simpa [State.tlbOpen, h1, h2, hm, hp] using this
  · obtain ⟨i, hi⟩ := h.maps j hj
    exact ⟨i, by simpa [State.tlbHits, h1, h2, hm, hp] using hi⟩
  · have := h.allowed; simpa [State.user, hs] using this
  · have := h.answers j hj; simpa [State.busErr, State.region, hp] using this
  · have := h.isRam j hj; simpa [State.onDevice, State.region, hp] using this

/-- A part of a plain access. -/
theorem PlainAccess.part (h : PlainAccess s ea n k p) (off len : Nat) (ho : off + len ≤ n) (hl : 0 < len) :
    PlainAccess s (ea + BitVec.ofNat 32 off) len k p := by
  have ad (x : Word) (j : Nat) : x + BitVec.ofNat 32 off + BitVec.ofNat 32 j = x + BitVec.ofNat 32 (off + j) := by
    rw [BitVec.add_assoc, BitVec.ofNat_add]
  obtain ⟨i0, h0⟩ := h.maps 0 (by omega)
  obtain ⟨i1, h1⟩ := h.maps off (by omega)
  have e0 := epnMatch_of_hits h0
  have e1 := epnMatch_of_hits h1
  rw [show ea + BitVec.ofNat 32 0 = ea by simp] at e0
  have hra := page_ra_add p ea _ e0 e1
  refine ⟨h.cacheOff, h.known, fun j hj => ?_, ?_, fun j hj => ?_, fun j hj => ?_, h.noErrs⟩
  · obtain ⟨i, hi⟩ := h.maps (off + j) (by omega)
    exact ⟨i, by rw [ad]; exact hi⟩
  · have := h.allowed
    cases k <;> simpa [Page.allows, TlbEntry.page] using this
  · rw [hra, ad]; exact h.answers (off + j) (by omega)
  · rw [hra, ad]; exact h.isRam (off + j) (by omega)

/-- The real address of a part of a plain access. -/
theorem PlainAccess.ra (h : PlainAccess s ea n k p) (off : Nat) (ho : off < n) :
    (p.page (ea + BitVec.ofNat 32 off)).ra = (p.page ea).ra + BitVec.ofNat 32 off := by
  obtain ⟨i0, h0⟩ := h.maps 0 (by omega)
  obtain ⟨i1, h1⟩ := h.maps off ho
  have e0 := epnMatch_of_hits h0
  rw [show ea + BitVec.ofNat 32 0 = ea by simp] at e0
  exact page_ra_add p ea _ e0 (epnMatch_of_hits h1)

/-- The translation of a plain access. -/
theorem PlainAccess.translate (h : PlainAccess s ea n k p) (off : Nat) (ho : off < n) :
    s.translate s.msrDs (ea + BitVec.ofNat 32 off) = (some (p.page (ea + BitVec.ofNat 32 off)), s) := by
  obtain ⟨i, hi⟩ := h.maps off ho
  exact translate_one h.known hi

/-- The page allows a plain access at each of its bytes. -/
theorem PlainAccess.allowedAt (h : PlainAccess s ea n k p) (b : Word) : (p.page b).allows s.user k = true := by
  have := h.allowed
  cases k <;> simpa [Page.allows, TlbEntry.page] using this

/-! Beats. -/

/-- The beats of a plain access. -/
def plainBeats (p : TlbEntry) (ea : Word) (n : Nat) : List Beat :=
  if n ≤ room ea then [⟨p.page ea, ea, n⟩]
  else
    [⟨p.page ea, ea, room ea⟩,
      ⟨p.page (ea + BitVec.ofNat 32 (room ea)), ea + BitVec.ofNat 32 (room ea), n - room ea⟩]

theorem PlainAccess.beats (h : PlainAccess s ea n k p) (hn : 0 < n) (esr : Word) (part : Page → State → State) :
    s.beats k esr ea n part = .ok (plainBeats p ea n) s := by
  have t0 := h.translate 0 hn
  rw [show ea + BitVec.ofNat 32 0 = ea by simp] at t0
  simp only [State.beats, t0, plainBeats]
  split
  · simp [h.allowedAt]
  · rename_i hr
    have t1 := h.translate (room ea) (by omega)
    simp only [t1, h.allowedAt, Bool.not_true, Bool.false_eq_true, if_false]
    simp [TlbEntry.page]

/-! The Parallel Signature Unit. -/

/-- The two digits of a number. -/
theorem two_digits (c x y : Nat) (h : y < c) :
    (x * c + y) % (c * c) / c % c = x % c ∧ (x * c + y) % (c * c) % c = y % c := by
  have hc : 0 < c := by omega
  refine ⟨?_, ?_⟩
  · rw [Nat.mod_mul_right_div_self, Nat.mod_mod, Nat.mul_comm, Nat.mul_add_div hc, Nat.div_eq_of_lt h, Nat.add_zero]
  · rw [Nat.mod_mod_of_dvd _ ⟨c, rfl⟩, Nat.mul_comm, Nat.mul_add_mod]

/-- The words of a doubleword of eight bytes. -/
theorem words_bytesDWord (l k : List Byte) (hk : k.length = 4) :
    hiW (bytesDWord (l ++ k)) = bytesWord l ∧ loW (bytesDWord (l ++ k)) = bytesWord k := by
  have h1 := bytesNat_lt k
  rw [hk] at h1
  have h2 := two_digits _ (bytesNat l) _ h1
  have h3 : bytesNat (l ++ k) = bytesNat l * 256 ^ 4 + bytesNat k := by rw [bytesNat_append, hk]
  rw [← h3, show (256 : Nat) ^ 4 = 2 ^ 32 from rfl, show (2 : Nat) ^ 32 * 2 ^ 32 = 2 ^ 64 from rfl] at h2
  constructor <;> apply BitVec.eq_of_toNat_eq <;>
    simp only [hiW, loW, bytesDWord, bytesWord, BitVec.extractLsb'_toNat, BitVec.toNat_ofNat, Nat.shiftRight_eq_div_pow]
  · exact h2.1
  · rw [Nat.pow_zero, Nat.div_one]
    exact h2.2

/-- The lanes of a beat, one by one. -/
theorem lanes_eq (ea : Word) (b : List Byte) (h : ea.toNat % 8 + b.length ≤ 8) :
    List.replicate (ea.toNat % 8) 0#8 ++ b ++ List.replicate (8 - ea.toNat % 8 - b.length) 0#8 =
      (List.range 8).map fun k => if ea.toNat % 8 ≤ k then b.getD (k - ea.toNat % 8) 0#8 else 0#8 := by
  generalize ea.toNat % 8 = o at *
  apply List.ext_getElem
  · simp; omega
  · intro i h1 h2
    simp only [List.getElem_map, List.getElem_range]
    simp only [List.getElem_append, List.length_append, List.length_replicate, List.getElem_replicate]
    split
    · rename_i ha
      split
      · rw [if_neg (by omega)]
      · rw [if_pos (by omega), List.getD_eq_getElem _ _ (by omega)]
    · rename_i ha
      rw [if_pos (by omega), List.getD_eq_default _ _ (by omega)]

/-- A BEAT ACCUMULATED, word by word. -/
theorem accumulate_lanes (p : Psu) (ea : Word) (b : List Byte) (h : ea.toNat % 8 + b.length ≤ 8) :
    p.accumulate (lanes ea b) = psuStep p (ea, b) := by
  have e : lanes ea b = bytesDWord
      (((List.range 4).map fun k => if ea.toNat % 8 ≤ k then b.getD (k - ea.toNat % 8) 0#8 else 0#8) ++
        (List.range 4).map fun k => if ea.toNat % 8 ≤ 4 + k then b.getD (4 + k - ea.toNat % 8) 0#8 else 0#8) := by
    rw [lanes, lanes_eq ea b h]; rfl
  have h := words_bytesDWord
    ((List.range 4).map fun k => if ea.toNat % 8 ≤ k then b.getD (k - ea.toNat % 8) 0#8 else 0#8)
    ((List.range 4).map fun k => if ea.toNat % 8 ≤ 4 + k then b.getD (4 + k - ea.toNat % 8) 0#8 else 0#8) (by simp)
  rw [Psu.accumulate, e, h.1, h.2]
  simp only [psuStep, laneWord, bytesWord, Nat.mul_zero, Nat.zero_add, Nat.mul_one]

@[simp] theorem psuStep_pscr (p : Psu) (q : Word × List Byte) : (psuStep p q).pscr = p.pscr := rfl
@[simp] theorem psuStep_pssr (p : Psu) (q : Word × List Byte) : (psuStep p q).pssr = p.pssr := rfl

@[simp] theorem psuSteps_pscr (l : List (Word × List Byte)) (p : Psu) : (l.foldl psuStep p).pscr = p.pscr := by
  induction l generalizing p with
  | nil => rfl
  | cons q l ih => rw [List.foldl_cons, ih]; rfl

/-- A kind of access that the unit accumulates, and one that it does not. -/
theorem psuAfter_on {b : Bool} {p : Psu} (h : p.pscr.getLsbD (if b then 1 else 2) = true) (l : List (Word × List Byte)) :
    psuAfter b l p = l.foldl psuStep p := by rw [psuAfter, if_pos h]
theorem psuAfter_off {b : Bool} {p : Psu} (h : ¬p.pscr.getLsbD (if b then 1 else 2) = true) (l : List (Word × List Byte)) :
    psuAfter b l p = p := by rw [psuAfter, if_neg h]

@[simp] theorem psuAfter_nil (b : Bool) (p : Psu) : psuAfter b [] p = p := ite_self _

/-- Beats after beats. -/
theorem psuAfter_append (b : Bool) (l k : List (Word × List Byte)) (p : Psu) :
    psuAfter b (l ++ k) p = psuAfter b k (psuAfter b l p) := by
  by_cases h : p.pscr.getLsbD (if b then 1 else 2) = true
  · rw [psuAfter_on h, psuAfter_on h, psuAfter_on (by rw [psuSteps_pscr]; exact h), List.foldl_append]
  · rw [psuAfter_off h, psuAfter_off h, psuAfter_off h]

/-! Records. -/

/-- What a fetch may still read after two stores to different bytes. -/
theorem OldBytes.trans {s t u : State} (h : OldBytes (Overwritten s t) s t) (g : OldBytes (Overwritten t u) t u)
    (hd : ∀ a, t.mem.byte a = s.mem.byte a ∨ u.mem.byte a = t.mem.byte a) : OldBytes (Overwritten s u) s u := by
  have key (c : Host.Cell) : (Overwritten s t c ∨ Overwritten t u c) ↔ Overwritten s u c := by
    simp only [Overwritten]
    rcases hd c.1 with e | e <;> rw [e] <;> tauto
  refine ⟨fun c => ?_, fun c => by rw [g.2 c, h.2 c, or_assoc, key]⟩
  obtain ⟨h1, h2⟩ := h.1 c
  obtain ⟨g1, g2⟩ := g.1 c
  rw [g1, g2, h1, h2, or_assoc, or_assoc, key]
  exact ⟨Iff.rfl, Iff.rfl⟩

/-- Nothing is overwritten, and nothing joins what a fetch may still read. -/
theorem OldBytes.same {s t : State} (hm : t.mem = s.mem) (h1 : t.buf.stale = s.buf.stale)
    (h2 : t.buf.unsynced = s.buf.unsynced) (h3 : t.buf.unpurged = s.buf.unpurged) : OldBytes (Overwritten s t) s t := by
  have no (c : Host.Cell) : ¬Overwritten s t c := fun h => h.2 (by rw [hm]; exact h.1)
  refine ⟨fun c => ?_, fun c => ?_⟩
  · rw [h1, h2]; simp [no c]
  · rw [h3]; simp [no c]

/-- Only the event record, memory, which is now `m`, the entries of the store buffer, what of a store a fetch may still miss,
and the Parallel Signature Unit, which has accumulated beats of this kind, changed. -/
structure OnlyRecords (store : Bool) (beats : List (Word × List Byte)) (m : Memory) (s t : State) : Prop where
  rest : t = { s with ev := t.ev, psu := t.psu, mem := m, buf := t.buf }
  psu : t.psu = psuAfter store beats s.psu
  snoops : t.buf.snoops = s.buf.snoops
  errs : t.buf.storeErrs = s.buf.storeErrs
  old : if store then OldBytes (Overwritten s t) s t
    else t.buf.stale = s.buf.stale ∧ t.buf.unsynced = s.buf.unsynced ∧ t.buf.unpurged = s.buf.unpurged

/-- Records that change no memory, no beat and nothing that a fetch may read. -/
theorem OnlyRecords.quiet {b : Bool} {s t : State}
    (h : t = { s with ev := t.ev, buf := { s.buf with entries := t.buf.entries } }) : OnlyRecords b [] s.mem s t where
  rest := by rw [h]
  psu := by rw [h, psuAfter_nil]
  snoops := by rw [h]
  errs := by rw [h]
  old := by
    have h1 : t.buf.stale = s.buf.stale := by rw [h]
    have h2 : t.buf.unsynced = s.buf.unsynced := by rw [h]
    have h3 : t.buf.unpurged = s.buf.unpurged := by rw [h]
    have h4 : t.mem = s.mem := by rw [h]
    cases b
    · exact ⟨h1, h2, h3⟩
    · exact OldBytes.same h4 h1 h2 h3

/-- One after the other; no byte is changed by both. -/
theorem OnlyRecords.trans {b : Bool} {s t u : State} {l k : List (Word × List Byte)} {m m' : Memory}
    (h : OnlyRecords b l m s t) (g : OnlyRecords b k m' t u)
    (hd : ∀ a, m.byte a = s.mem.byte a ∨ m'.byte a = m.byte a := by
      first | exact fun _ => .inl rfl | exact fun _ => .inr rfl) : OnlyRecords b (l ++ k) m' s u where
  rest := by rw [g.rest, h.rest]
  psu := by rw [g.psu, h.psu, psuAfter_append]
  snoops := g.snoops.trans h.snoops
  errs := g.errs.trans h.errs
  old := by
    have ht : t.mem = m := by rw [h.rest]
    have hu : u.mem = m' := by rw [g.rest]
    have h1 := h.old
    have g1 := g.old
    cases b
    · exact ⟨g1.1.trans h1.1, g1.2.1.trans h1.2.1, g1.2.2.trans h1.2.2⟩
    · exact OldBytes.trans h1 g1 (by rw [ht, hu]; exact hd)

section
variable {b : Bool} {t : State} {l : List (Word × List Byte)} {m : Memory} (h : OnlyRecords b l m s t)
include h
theorem OnlyRecords.mem : t.mem = m := by rw [h.rest]
theorem OnlyRecords.cache : t.cache = s.cache := by rw [h.rest]
theorem OnlyRecords.mmu : t.mmu = s.mmu := by rw [h.rest]
theorem OnlyRecords.pins : t.pins = s.pins := by rw [h.rest]
theorem OnlyRecords.msr : t.msr = s.msr := by rw [h.rest]
theorem OnlyRecords.gpr : t.gpr = s.gpr := by rw [h.rest]
end

/-- A plain access after one. -/
theorem PlainAccess.after {b : Bool} {t : State} {l : List (Word × List Byte)} {m : Memory} (h : PlainAccess s ea n k p)
    (g : OnlyRecords b l m s t) : PlainAccess t ea n k p := h.congr g.cache g.mmu g.pins g.msr g.errs

/-- A BEAT is accumulated where its kind is enabled, and changes nothing else. -/
theorem psuBeat_records (s : State) (b : Bool) (a : Word) (l : List Byte) (h : a.toNat % 8 + l.length ≤ 8) :
    OnlyRecords b [(a, l)] s.mem s (s.psuBeat b a l) := by
  have e : s.psuBeat b a l = { s with psu := psuAfter b [(a, l)] s.psu } := by
    by_cases hb : s.psu.pscr.getLsbD (if b then 1 else 2) = true
    · rw [psuAfter_on hb, State.psuBeat, if_pos hb, accumulate_lanes _ _ _ h]; rfl
    · rw [psuAfter_off hb, State.psuBeat, if_neg hb]
  rw [e]
  refine ⟨rfl, rfl, rfl, rfl, ?_⟩
  cases b
  · exact ⟨rfl, rfl, rfl⟩
  · exact OldBytes.same rfl rfl rfl rfl

/-- An empty store buffer forgets what it remembered. -/
theorem flushBuffers_records (b : Bool) (h : s.buf.storeErrs = []) : OnlyRecords b [] s.mem s s.flushBuffers := by
  rw [flushBuffers_empty h]
  exact .quiet (by rw [← h])

theorem putMem_records (late : Bool) (s : State) (ra : Word) (l : List Byte) (hm : s.mem.wf = true) (hl : l.length ≤ 2 ^ 32)
    (h : ∀ j, j < l.length → s.onDevice (ra + BitVec.ofNat 32 j) = false) :
    OnlyRecords true [] (s.mem.putBytes ra l) s (s.putMem late ra l) := by
  have hc := mem_changed_putMem (late := late) hm hl h
  have hr := putMem_ram (late := late) h
  have h3 : (s.putMem late ra l).buf.unpurged = addCells (s.changed ra l) s.buf.unpurged := by rw [hr]
  refine ⟨by rw [hr], by rw [hr, psuAfter_nil], by rw [hr], by rw [hr], fun c => ?_, fun c => by rw [h3, mem_addCells, hc c]; exact Iff.rfl⟩
  have h1 : (s.putMem late ra l).buf.stale = addCells (s.changed ra l) s.buf.stale := by rw [hr]
  have h2 : (s.putMem late ra l).buf.unsynced = addCells (s.changed ra l) s.buf.unsynced := by rw [hr]
  rw [h1, h2, mem_addCells, mem_addCells, hc c]
  exact ⟨Iff.rfl, Iff.rfl⟩

/-- Waiting for the store buffer empties it. -/
theorem awaitStores_records (p : Page) (h : s.buf.storeErrs = []) : OnlyRecords true [] s.mem s (s.awaitStores p) := by
  unfold State.awaitStores
  split
  · exact flushBuffers_records true h
  · split <;> exact .quiet rfl

theorem logAccess_records (b : Bool) (s : State) (a : Word) (st : Bool) (n : Nat) :
    OnlyRecords b [] s.mem s (s.logAccess a st n) := .quiet rfl

theorem logBytes_records (b : Bool) (s : State) (l : List Byte) : OnlyRecords b [] s.mem s (s.logBytes l) := by
  unfold State.logBytes; split <;> exact .quiet rfl

/-! Loads. -/

/-- One beat of a load with the cache off. -/
theorem loadBeat_plain {t : State} (hc : t.cacheOn .data = false) (he : t.buf.storeErrs = []) (a : Word) (q : Page) (m : Nat)
    (hf : a.toNat % 8 + m ≤ 8) (hb : ∀ j, j < m → t.busErr (q.ra + BitVec.ofNat 32 j) = false)
    (hd : ∀ j, j < m → t.onDevice (q.ra + BitVec.ofNat 32 j) = false) :
    ∃ u, t.loadBeat a q m = .ok (t.mem.bytes q.ra m) u ∧ OnlyRecords false [(a, t.mem.bytes q.ra m)] t.mem t u := by
  have hr := flushBuffers_records false he
  have hb' : t.flushBuffers.busErrIn q.ra m = false :=
    busErrIn_false fun j hj => by simpa [State.busErr, State.region] using hb j hj
  obtain ⟨h1, h2⟩ := busBytes_plain (s := t.flushBuffers) (k := 0) (n := m) fun j hj => by
    simpa [State.onDevice, State.region] using hd j hj
  refine ⟨t.flushBuffers.psuBeat false a (t.mem.bytes q.ra m), ?_, ?_⟩
  · simp [State.loadBeat, State.readBeat, hc, State.busRead, hb', h1, h2, Res.andThen]
  · have := psuBeat_records t.flushBuffers false a (t.mem.bytes q.ra m) (by simpa using hf)
    rw [hr.mem] at this
    exact hr.trans this

/-- The first bytes of a plain access answer and are RAM. -/
theorem PlainAccess.first (h : PlainAccess s ea n k p) (m : Nat) (hm : m ≤ n) :
    (∀ j, j < m → s.busErr ((p.page ea).ra + BitVec.ofNat 32 j) = false) ∧
      ∀ j, j < m → s.onDevice ((p.page ea).ra + BitVec.ofNat 32 j) = false :=
  ⟨fun j hj => h.answers j (by omega), fun j hj => h.isRam j (by omega)⟩

/-- The bytes of a plain access from one on answer and are RAM. -/
theorem PlainAccess.rest (h : PlainAccess s ea n k p) (off : Nat) (ho : off < n) :
    (∀ j, j < n - off → s.busErr ((p.page (ea + BitVec.ofNat 32 off)).ra + BitVec.ofNat 32 j) = false) ∧
      ∀ j, j < n - off → s.onDevice ((p.page (ea + BitVec.ofNat 32 off)).ra + BitVec.ofNat 32 j) = false := by
  rw [h.ra off ho]
  refine ⟨fun j hj => ?_, fun j hj => ?_⟩ <;> rw [BitVec.add_assoc, ← BitVec.ofNat_add]
  · exact h.answers (off + j) (by omega)
  · exact h.isRam (off + j) (by omega)

/-- The beats of an access, with the room left in its doubleword. -/
theorem busBeats_eq (a : Word) (b : List Byte) :
    busBeats a b = if b.length ≤ room a then [(a, b)]
      else [(a, b.take (room a)), (a + BitVec.ofNat 32 (room a), b.drop (room a))] := rfl

/-- The room left in a doubleword. -/
theorem room_fits (a : Word) (n : Nat) : a.toNat % 8 + n ≤ 8 ↔ n ≤ room a := by unfold room; omega

/-- Past the room of a doubleword a new one begins. -/
theorem room_next (a : Word) : (a + BitVec.ofNat 32 (room a)).toNat % 8 = 0 := by
  unfold room
  simp only [BitVec.toNat_add, BitVec.toNat_ofNat]
  omega

/-- The beats of a plain load give the bytes of memory. -/
theorem loadBeats_plain (h : PlainAccess s ea n .load p) (hn : n ≤ 8) :
    ∃ t, s.loadBeats (plainBeats p ea n) = .ok (s.mem.bytes (p.page ea).ra n) t ∧
      OnlyRecords false (busBeats ea (s.mem.bytes (p.page ea).ra n)) s.mem s t := by
  rw [busBeats_eq, Memory.bytes_length]
  unfold plainBeats
  split
  · rename_i hr
    obtain ⟨u, hu, hr⟩ := loadBeat_plain h.cacheOff h.noErrs ea (p.page ea) n ((room_fits _ _).mpr hr) h.answers h.isRam
    simp only [State.loadBeats, hu, Res.andThen, List.append_nil]
    exact ⟨_, rfl, hr⟩
  · rename_i hr
    have hlt : room ea < n := Nat.lt_of_not_le hr
    obtain ⟨ha, hd⟩ := h.first (room ea) (by omega)
    obtain ⟨u, hu, hr1⟩ :=
      loadBeat_plain h.cacheOff h.noErrs ea (p.page ea) (room ea) ((room_fits _ _).mpr (Nat.le_refl _)) ha hd
    have h1 := h.after hr1
    obtain ⟨ha1, hd1⟩ := h1.rest (room ea) hlt
    obtain ⟨v, hv, hr2⟩ := loadBeat_plain h1.cacheOff h1.noErrs (ea + BitVec.ofNat 32 (room ea)) _ (n - room ea)
      (by rw [room_next]; omega) ha1 hd1
    rw [hr1.mem] at hv hr2
    have e := Memory.bytes_append s.mem (p.page ea).ra (room ea) (n - room ea)
    rw [show room ea + (n - room ea) = n by omega] at e
    rw [h.ra (room ea) hlt] at hv hr2
    refine ⟨v, ?_, ?_⟩
    · simp only [State.loadBeats, hu, hv, Res.andThen, List.append_nil, e]
    · have := hr1.trans hr2
      rw [← e, List.take_left' (by simp), List.drop_left' (by simp)]
      exact this

/-- A PLAIN LOAD gives the bytes of memory in the order of the page and leaves everything but its records. -/
theorem load_plain (h : PlainAccess s ea n .load p) (hn : 0 < n) (hn' : n ≤ 8) (esr : Word) (el : Nat) :
    ∃ t, s.load esr ea n el = .ok (elemOrder p.e el (s.mem.bytes (p.page ea).ra n)) t ∧
      OnlyRecords false (busBeats ea (s.mem.bytes (p.page ea).ra n)) s.mem s t := by
  have hr0 := logAccess_records false s ea false n
  have h0 := h.after hr0
  obtain ⟨t, ht, hr1⟩ := loadBeats_plain h0 hn'
  have he : beatsE (plainBeats p ea n) = p.e := by unfold plainBeats; split <;> rfl
  refine ⟨t.logBytes (((s.logAccess ea false n).mem.bytes (p.page ea).ra n).take (beatsN (plainBeats p ea n))), ?_, ?_⟩
  · rw [State.load, h0.beats hn]
    simp only [Res.andThen, ht, he]
    rfl
  · have := logBytes_records false t (((s.logAccess ea false n).mem.bytes (p.page ea).ra n).take
      (beatsN (plainBeats p ea n)))
    rw [hr1.mem] at this
    simpa using (hr0.trans hr1).trans this

/-! Stores. -/

/-- One beat of a store with the cache off. -/
theorem storeBeat_plain {t : State} (hm : t.mem.wf = true) (hc : t.cacheOn .data = false) (he : t.buf.storeErrs = [])
    (a : Word) (q : Page) (b : List Byte) (hf : a.toNat % 8 + b.length ≤ 8)
    (hb : ∀ j, j < b.length → t.busErr (q.ra + BitVec.ofNat 32 j) = false)
    (hd : ∀ j, j < b.length → t.onDevice (q.ra + BitVec.ofNat 32 j) = false) :
    ∃ u, t.storeBeat a q b = .ok true u ∧ OnlyRecords true [(a, b)] (t.mem.putBytes q.ra b) t u := by
  have hr := psuBeat_records t true a b hf
  have hw := awaitStores_records q (hr.errs.trans he)
  rw [hr.mem] at hw
  have hrv := hr.trans hw
  generalize hv : (t.psuBeat true a b).awaitStores q = v at *
  have hb' : v.busErrIn q.ra b.length = false :=
    busErrIn_false fun j hj => by simpa [State.busErr, State.region, hrv.pins] using hb j hj
  refine ⟨v.putMem (v.buffers q) q.ra b, ?_, ?_⟩
  · simp only [State.storeBeat, hc, State.busWrite, hv, hb']; rfl
  · have := putMem_records (v.buffers q) v q.ra b (by rw [hrv.mem]; exact hm) (by omega) fun j hj => by
      simpa [State.onDevice, State.region, hrv.pins] using hd j hj
    rw [hrv.mem] at this
    exact hrv.trans this

/-- Bytes written one after the other are different ones. -/
theorem putBytes_apart {m : Memory} (hm : m.wf = true) (ra : Word) (l k : List Byte) (hl : l.length + k.length ≤ 2 ^ 32)
    (a : Nat) :
    (m.putBytes ra l).byte a = m.byte a ∨
      ((m.putBytes ra l).putBytes (ra + BitVec.ofNat 32 l.length) k).byte a = (m.putBytes ra l).byte a := by
  by_cases h : ∃ j, j < l.length ∧ a = (ra + BitVec.ofNat 32 j).toNat
  · obtain ⟨j, hj, rfl⟩ := h
    refine .inr (Memory.byte_putBytes_outside _ (Memory.wf_putBytes _ hm _ _) _ _ _ fun i hi e => ?_)
    have := congrArg (fun n => n % 2 ^ 32) e
    simp only [BitVec.toNat_add, BitVec.toNat_ofNat] at this
    have := ra.isLt
    omega
  · exact .inl (Memory.byte_putBytes_outside _ hm _ _ _ fun j hj e => h ⟨j, hj, e⟩)

/-- The beats of a plain store write its bytes. -/
theorem storeBeats_plain (m : List Byte) (hm : s.mem.wf = true) (hn : m.length ≤ 8) (h : PlainAccess s ea m.length .store p) :
    ∃ t, s.storeBeats (plainBeats p ea m.length) m = .ok true t ∧
      OnlyRecords true (busBeats ea m) (s.mem.putBytes (p.page ea).ra m) s t := by
  rw [busBeats_eq]
  unfold plainBeats
  split
  · rename_i hr
    have hd : m.take m.length = m := List.take_length
    obtain ⟨u, hu, hr⟩ := storeBeat_plain hm h.cacheOff h.noErrs ea (p.page ea) m ((room_fits _ _).mpr hr) h.answers h.isRam
    simp only [State.storeBeats, hd, hu, Res.andThen]
    exact ⟨_, rfl, hr⟩
  · rename_i hr
    have hlt : room ea < m.length := Nat.lt_of_not_le hr
    have hl : (m.take (room ea)).length = room ea := by simp; omega
    obtain ⟨ha, hdv⟩ := h.first (room ea) (by omega)
    obtain ⟨u, hu, hr1⟩ := storeBeat_plain hm h.cacheOff h.noErrs ea (p.page ea) (m.take (room ea))
      (by rw [hl]; exact (room_fits _ _).mpr (Nat.le_refl _)) (by rw [hl]; exact ha) (by rw [hl]; exact hdv)
    have h1 := h.after hr1
    obtain ⟨ha1, hd1⟩ := h1.rest (room ea) hlt
    have hd : (m.drop (room ea)).take (m.length - room ea) = m.drop (room ea) :=
      List.take_of_length_le (by simp)
    obtain ⟨v, hv, hr2⟩ := storeBeat_plain (by rw [hr1.mem]; exact Memory.wf_putBytes _ hm _ _) h1.cacheOff h1.noErrs
      (ea + BitVec.ofNat 32 (room ea)) (p.page (ea + BitVec.ofNat 32 (room ea))) (m.drop (room ea))
      (by rw [room_next, List.length_drop]; omega)
      (by rw [List.length_drop]; exact ha1) (by rw [List.length_drop]; exact hd1)
    simp only [State.storeBeats, hu, hd, hv, Res.andThen]
    have hp := Memory.putBytes_append s.mem (p.page ea).ra (m.take (room ea)) (m.drop (room ea))
    have hx := putBytes_apart hm (p.page ea).ra (m.take (room ea)) (m.drop (room ea)) (by simp; omega)
    rw [hl] at hp hx
    rw [h.ra (room ea) hlt, hr1.mem] at hr2
    have := hr1.trans hr2 hx
    rw [hp, List.take_append_drop] at this
    exact ⟨_, rfl, this⟩

/-- A plain store is performed whole: it writes the bytes at the real address in the order of the page, and leaves
everything else but its records. -/
theorem storeDone_plain (b : List Byte) (hm : s.mem.wf = true) (h : PlainAccess s ea b.length .store p) (hn : 0 < b.length)
    (hn' : b.length ≤ 8) (esr : Word) (el : Nat) (hel : (elemOrder p.e el b).length = b.length) :
    ∃ t, s.storeDone esr ea el b = .ok true t ∧
      OnlyRecords true (busBeats ea (elemOrder p.e el b)) (s.mem.putBytes (p.page ea).ra (elemOrder p.e el b)) s t := by
  have hr0 := logAccess_records true s ea true b.length
  have h0 := h.after hr0
  have he : beatsE (plainBeats p ea b.length) = p.e := by unfold plainBeats; split <;> rfl
  have hr1 := logBytes_records true (s.logAccess ea true b.length)
    ((elemOrder p.e el b).take (beatsN (plainBeats p ea b.length)))
  have h1 := h0.after hr1
  obtain ⟨t, ht, hr2⟩ := storeBeats_plain (elemOrder p.e el b) (by rw [hr1.mem, hr0.mem]; exact hm) (by omega)
    (by rw [hel]; exact h1)
  rw [hel] at ht
  refine ⟨t, ?_, ?_⟩
  · rw [State.storeDone, h0.beats hn]
    simp only [Res.andThen, he]
    exact ht
  · rw [hr1.mem, hr0.mem] at hr2
    simpa using (hr0.trans hr1).trans hr2

/-- A PLAIN STORE writes the bytes at the real address in the order of the page, and leaves everything else but its
records. -/
theorem store_plain (b : List Byte) (hm : s.mem.wf = true) (h : PlainAccess s ea b.length .store p) (hn : 0 < b.length)
    (hn' : b.length ≤ 8) (esr : Word) (el : Nat) (hel : (elemOrder p.e el b).length = b.length) :
    ∃ t, s.store esr ea el b = .ok () t ∧
      OnlyRecords true (busBeats ea (elemOrder p.e el b)) (s.mem.putBytes (p.page ea).ra (elemOrder p.e el b)) s t := by
  obtain ⟨t, ht, hr⟩ := storeDone_plain b hm h hn hn' esr el hel
  exact ⟨t, by rw [State.store, ht]; rfl, hr⟩

/-! The order of elements. -/

theorem revElems_one (n : Nat) (b : List Byte) (h : b.length = n) (hn : 0 < n) : revElems n b.length b = b.reverse := by
  cases b with
  | nil => simp at h; omega
  | cons x t =>
    have hd : (x :: t).drop n = [] := by simp [← h]
    have ht : (x :: t).take n = x :: t := List.take_of_length_le (by omega)
    rw [List.length_cons, revElems, hd, ht]
    cases t.length <;> simp [revElems]

/-- One element: the bytes as they are, or reversed. -/
theorem elemOrder_one (e : Bool) (n : Nat) (b : List Byte) (h : b.length = n) (hn : 0 < n) :
    elemOrder e n b = endian e b := by
  cases e
  · rfl
  · simp [elemOrder, endian, revElems_one n b h hn]

theorem revElems_length (el fuel : Nat) (b : List Byte) (hf : b.length ≤ fuel) (he : 0 < el) :
    (revElems el fuel b).length = b.length := by
  induction fuel generalizing b with
  | zero => simp at hf; simp [revElems]
  | succ n ih =>
    rw [revElems]
    split
    · simp_all
    · rename_i hb
      have : 0 < b.length := by cases b <;> simp_all
      rw [List.length_append, ih]
      · simp; omega
      · simp; omega

theorem elemOrder_length (e : Bool) (el : Nat) (b : List Byte) (he : 0 < el) : (elemOrder e el b).length = b.length := by
  cases e
  · rfl
  · exact revElems_length el b.length b (Nat.le_refl _) he

/-- Reversing the bytes twice. -/
theorem endian_endian (e : Bool) (b : List Byte) : endian e (endian e b) = b := by cases e <;> simp [endian]

end Sys2Proof.Machine
end

