-- ==== Sys2Proof/Laws/Bits.lean ====
section
/-! SUPPORT. The bit-field helpers and the fields of the condition register, bit by bit. -/

namespace Sys2Proof.Machine

@[simp] theorem insertBits_getLsbD (w m v : Word) (n : Nat) :
    (insertBits w m v).getLsbD n = if m.getLsbD n then v.getLsbD n else w.getLsbD n := by
  by_cases h : n < 32
  · simp only [insertBits, BitVec.getLsbD_or, BitVec.getLsbD_and, BitVec.getLsbD_not, h, decide_true, Bool.true_and]
    cases m.getLsbD n <;> simp
  · simp [BitVec.getLsbD_of_ge _ _ (Nat.le_of_not_lt h)]

@[simp] theorem putBits_getLsbD (w m : Word) (b : Bool) (n : Nat) :
    (putBits w m b).getLsbD n = if m.getLsbD n then b else w.getLsbD n := by
  by_cases h : n < 32
  · cases b
    · simp only [putBits, Bool.false_eq_true, if_false, BitVec.getLsbD_and, BitVec.getLsbD_not, h, decide_true,
        Bool.true_and]
      cases m.getLsbD n <;> simp
    · simp only [putBits, if_true, BitVec.getLsbD_or]
      cases m.getLsbD n <;> simp
  · simp [BitVec.getLsbD_of_ge _ _ (Nat.le_of_not_lt h)]

/-- A word with one bit set. -/
theorem oneBit_getLsbD (m : Word) (k n : Nat) (hm : m = BitVec.twoPow 32 k) (hk : k < 32) :
    m.getLsbD n = decide (n = k) := by
  subst hm
  by_cases h : n = k
  · simp [hk, h]
  · simp [BitVec.getLsbD_twoPow, h, Ne.symm h]

@[simp] theorem crField_getLsbD (cr : Word) (f : CrField) (n : Nat) :
    (crField cr f).getLsbD n = (decide (n < 4) && cr.getLsbD (28 - 4 * f.toNat + n)) := by
  simp [crField, Nat.add_comm]

theorem withCrField_getLsbD (cr : Word) (f : CrField) (v : BitVec 4) (n : Nat) :
    (withCrField cr f v).getLsbD n =
      if 28 - 4 * f.toNat ≤ n ∧ n < 32 - 4 * f.toNat then v.getLsbD (n - (28 - 4 * f.toNat)) else cr.getLsbD n := by
  have hf := f.isLt
  by_cases h : n < 32
  · have hF : (0xF#32).getLsbD (n - (28 - 4 * f.toNat)) = decide (n - (28 - 4 * f.toNat) < 4) := by
      generalize n - (28 - 4 * f.toNat) = k
      by_cases hk : k < 32
      · revert k; decide
      · simp [BitVec.getLsbD_of_ge _ _ (Nat.le_of_not_lt hk)]; omega
    simp only [withCrField, insertBits_getLsbD, BitVec.getLsbD_shiftLeft, h, decide_true, Bool.true_and, hF]
    by_cases h1 : n < 28 - 4 * f.toNat
    · simp [h1]; omega
    · by_cases h2 : n < 32 - 4 * f.toNat
      · have : n - (28 - 4 * f.toNat) < 4 := by omega
        have h3 : n - (28 - 4 * f.toNat) < 32 := by omega
        simp [h1, h2, this, h3]; omega
      · have : ¬ n - (28 - 4 * f.toNat) < 4 := by omega
        simp [h1, h2, this]
  · have : ¬ n < 32 - 4 * f.toNat := by omega
    simp [BitVec.getLsbD_of_ge _ _ (Nat.le_of_not_lt h), this]

@[simp] theorem crField_withCrField_self (cr : Word) (f : CrField) (v : BitVec 4) :
    crField (withCrField cr f v) f = v := by
  have hf := f.isLt
  ext i hi
  rw [← BitVec.getLsbD_eq_getElem, ← BitVec.getLsbD_eq_getElem, crField_getLsbD, withCrField_getLsbD]
  have : 28 - 4 * f.toNat ≤ 28 - 4 * f.toNat + i ∧ 28 - 4 * f.toNat + i < 32 - 4 * f.toNat := by omega
  simp [this, hi]

theorem crField_withCrField_ne (cr : Word) (f g : CrField) (v : BitVec 4) (h : g ≠ f) :
    crField (withCrField cr f v) g = crField cr g := by
  have hf := f.isLt
  have hg := g.isLt
  have hn : g.toNat ≠ f.toNat := fun e => h (BitVec.eq_of_toNat_eq e)
  ext i hi
  rw [← BitVec.getLsbD_eq_getElem, ← BitVec.getLsbD_eq_getElem, crField_getLsbD, crField_getLsbD, withCrField_getLsbD]
  have : ¬ (28 - 4 * f.toNat ≤ 28 - 4 * g.toNat + i ∧ 28 - 4 * g.toNat + i < 32 - 4 * f.toNat) := by omega
  rw [if_neg this]

@[simp] theorem crBits_getLsbD_3 (lt gt eq so : Bool) : (crBits lt gt eq so).getLsbD 3 = lt := by
  cases lt <;> cases gt <;> cases eq <;> cases so <;> rfl
@[simp] theorem crBits_getLsbD_2 (lt gt eq so : Bool) : (crBits lt gt eq so).getLsbD 2 = gt := by
  cases lt <;> cases gt <;> cases eq <;> cases so <;> rfl
@[simp] theorem crBits_getLsbD_1 (lt gt eq so : Bool) : (crBits lt gt eq so).getLsbD 1 = eq := by
  cases lt <;> cases gt <;> cases eq <;> cases so <;> rfl
@[simp] theorem crBits_getLsbD_0 (lt gt eq so : Bool) : (crBits lt gt eq so).getLsbD 0 = so := by
  cases lt <;> cases gt <;> cases eq <;> cases so <;> rfl

/-- Reading a CR bit after writing one. -/
theorem crBit_withCrBit (cr : Word) (n m : CrBit) (b : Bool) :
    crBit (withCrBit cr n b) m = if m = n then b else crBit cr m := by
  have hn := n.isLt
  have hm := m.isLt
  have hk : (0x80000000#32 >>> n.toNat).getLsbD (31 - m.toNat) = decide (m.toNat = n.toNat) := by
    have : (0x80000000#32).getLsbD (n.toNat + (31 - m.toNat)) = decide (n.toNat + (31 - m.toNat) = 31) := by
      generalize n.toNat + (31 - m.toNat) = k
      by_cases hk : k < 32
      · revert k; decide
      · simp [BitVec.getLsbD_of_ge _ _ (Nat.le_of_not_lt hk)]; omega
    rw [BitVec.getLsbD_ushiftRight, this]
    by_cases e : m.toNat = n.toNat
    · simp [e]; omega
    · simp [e]; omega
  have he : m = n ↔ m.toNat = n.toNat := ⟨fun h => h ▸ rfl, BitVec.eq_of_toNat_eq⟩
  simp only [crBit, withCrBit, BitVec.getMsbD_eq_getLsbD, putBits_getLsbD, hm, decide_true, Bool.true_and, he]
  rw [show 32 - 1 - m.toNat = 31 - m.toNat by omega, hk]
  by_cases e : m.toNat = n.toNat <;> simp [e]

end Sys2Proof.Machine
end

