-- ==== Sys2Proof/Laws/Cache.lean ====
section
/-! SUPPORT. What emptying the store buffer, dropping lines of the instruction cache, the whole-cache operations and a new value
of the time base do, each said once. -/

namespace Sys2Proof.Machine

variable {s : State}

/-! The store buffer. -/

/-- One bus error reported. -/
theorem asyncMcheck_ints (s : State) (a : Word) :
    (s.asyncMcheck 0x4#32 a false).ints =
      { s.ints with
        mcsr := (if s.ints.mcsr.getLsbD 19 then s.ints.mcsr
          else putBits (s.ints.mcsr ||| 0x00080000#32) 0x00040000#32 false) ||| 0x4#32
        mcar := if s.ints.mcsr.getLsbD 19 then s.ints.mcar else a } := by
  simp only [State.asyncMcheck, State.orMcsr, State.logMcar]
  split <;> rfl

/-- What each bit of MCSR becomes by it. -/
theorem asyncMcheck_mcsr (s : State) (a : Word) (j : Nat) (h18 : j ≠ 18) :
    (s.asyncMcheck 0x4#32 a false).ints.mcsr.getLsbD j = (s.ints.mcsr.getLsbD j || j == 2 || j == 19) := by
  rw [asyncMcheck_ints]
  by_cases hj : j < 32
  · have e4 : (0x4#32).getLsbD j = (j == 2) := by interval_cases j <;> rfl
    have e8 : (0x80000#32).getLsbD j = (j == 19) := by interval_cases j <;> rfl
    have e1 : (~~~0x40000#32).getLsbD j = true := by interval_cases j <;> first | rfl | omega
    split
    · rename_i h
      rw [BitVec.getLsbD_or, e4]
      cases h2 : j == 19
      · simp
      · rw [beq_iff_eq.mp h2, h]; rfl
    · show (((s.ints.mcsr ||| 0x80000#32) &&& ~~~0x40000#32) ||| 0x4#32).getLsbD j = _
      rw [BitVec.getLsbD_or, BitVec.getLsbD_and, BitVec.getLsbD_or, e4, e8, e1, Bool.and_true]
      cases s.ints.mcsr.getLsbD j <;> cases j == 2 <;> cases j == 19 <;> rfl
  · have : j ≠ 2 ∧ j ≠ 19 := ⟨by omega, by omega⟩
    simp [BitVec.getLsbD_of_ge _ _ (Nat.le_of_not_lt hj), this]

/-- The bus errors of stores, reported one after the other. -/
theorem reportAll_ints (l : List Word) (s : State) :
    (l = [] → (s.reportAll l).ints = s.ints) ∧
      (l ≠ [] → (s.reportAll l).ints = { s.ints with mcsr := (s.reportAll l).ints.mcsr, mcar := (s.reportAll l).ints.mcar } ∧
        (∀ j, j ≠ 18 → (s.reportAll l).ints.mcsr.getLsbD j = (s.ints.mcsr.getLsbD j || j == 2 || j == 19)) ∧
        (s.reportAll l).ints.mcar = if s.ints.mcsr.getLsbD 19 then s.ints.mcar else l.headD 0#32) := by
  induction l generalizing s with
  | nil => exact ⟨fun _ => rfl, fun h => absurd rfl h⟩
  | cons a l ih =>
    refine ⟨nofun, fun _ => ?_⟩
    have hm := asyncMcheck_mcsr s a
    have hi := asyncMcheck_ints s a
    obtain ⟨h0, h1⟩ := ih (s.asyncMcheck 0x4#32 a false)
    rw [State.reportAll]
    generalize s.asyncMcheck 0x4#32 a false = u at *
    by_cases hl : l = []
    · subst hl
      refine ⟨?_, hm, ?_⟩
      · show u.ints = { s.ints with mcsr := u.ints.mcsr, mcar := u.ints.mcar }
        rw [hi]
      · show u.ints.mcar = _
        rw [hi]; rfl
    · obtain ⟨e, hb, ha⟩ := h1 hl
      refine ⟨?_, fun j hj => ?_, ?_⟩
      · rw [e, hi]
      · rw [hb j hj, hm j hj]
        cases s.ints.mcsr.getLsbD j <;> cases j == 2 <;> cases j == 19 <;> rfl
      · have h19 := hm 19 (by decide)
        rw [ha, h19, hi]
        simp

/-- EMPTYING THE STORE BUFFER reports its bus errors. -/
theorem flushBuffers_reported (s : State) : StoreErrsReported s s.flushBuffers := by
  have h : s.flushBuffers.ints = (s.reportAll s.buf.storeErrs).ints := rfl
  obtain ⟨h0, h1⟩ := reportAll_ints s.buf.storeErrs s
  refine ⟨fun e => by rw [h, h0 e], fun e => ?_⟩
  obtain ⟨e1, e2, e3⟩ := h1 e
  rw [h]
  refine ⟨e1, ?_, ?_, fun j h2 h18 h19 => ?_, e3⟩
  · rw [e2 2 (by decide)]; cases s.ints.mcsr.getLsbD 2 <;> rfl
  · rw [e2 19 (by decide)]; cases s.ints.mcsr.getLsbD 19 <;> rfl
  · rw [e2 j h18]; rw [beq_eq_false_iff_ne.mpr h2, beq_eq_false_iff_ne.mpr h19, Bool.or_false, Bool.or_false]

/-! Lines of the instruction cache that are dropped. -/

/-- DROPPING A LINE of the instruction cache: its bytes that differ from memory join those a fetch may still read. -/
theorem staleLine_old (s : State) (set : Nat) (l : CacheLine) : AheadBytes (LineDiffers s set l) s (s.staleLine set l) := by
  intro c
  unfold State.staleLine
  by_cases hv : l.valid = true
  · rw [if_pos hv]
    have key : c ∈ (((List.range 32).map fun k =>
        ((lineAddr set l + BitVec.ofNat 32 k).toNat, l.data.toList.getD k 0)).filter fun c => s.mem.byte c.1 != c.2) ↔
        LineDiffers s set l c := by
      simp only [List.mem_filter, List.mem_map, List.mem_range, bne_iff_ne, LineDiffers, hv, true_and]
      constructor
      · rintro ⟨⟨k, hk, rfl⟩, hne⟩
        exact ⟨hne, ⟨k, hk⟩, by simp [hk, Vector.get, List.getD]⟩
      · rintro ⟨hne, j, rfl⟩
        exact ⟨⟨j.val, j.isLt, by simp [Vector.get, List.getD]⟩, hne⟩
    simp only [Buffers.addStale, mem_addCells, key, and_self]
  · rw [if_neg hv]
    have : ¬LineDiffers s set l c := fun h => hv h.1
    simp [this]

/-- It changes nothing else. -/
theorem staleLine_rest (s : State) (set : Nat) (l : CacheLine) :
    s.staleLine set l =
      { s with buf := { s.buf with stale := (s.staleLine set l).buf.stale, unsynced := (s.staleLine set l).buf.unsynced } } := by
  unfold State.staleLine
  split <;> rfl

/-- A LINE IS PURGED: a fill brings in none of its older bytes, and nothing else changes. -/
theorem purge_done (s : State) (ra : Word) : Purged ra s (s.purge ra) := by
  intro c
  have key (n : Nat) (a : Word) : inRange a n c = false ↔ ∀ j, j < n → c.1 ≠ (a + BitVec.ofNat 32 j).toNat := by
    constructor
    · intro h j hj e
      induction n generalizing a j with
      | zero => exact absurd hj (Nat.not_lt_zero j)
      | succ n ih =>
        simp only [inRange, anyFrom, Bool.or_eq_false_iff, beq_eq_false_iff_ne] at h
        cases j with
        | zero => rw [BitVec.add_zero] at e; exact h.1 e.symm
        | succ j => exact ih (a + 1#32) h.2 j (by omega) (by rwa [addr_succ])
    · intro h
      exact anyFrom_false fun j hj => beq_eq_false_iff_ne.mpr (Ne.symm (h j hj))
  simp only [State.purge, List.mem_filter, Bool.not_eq_true', key]

/-- Dropping all of them. -/
theorem staleAll_old (l : List (Nat × CacheLine)) (s : State) :
    AheadBytes (fun c => ∃ q ∈ l, LineDiffers s (q.1 / 4) q.2 c) s (s.staleAll l) ∧
      s.staleAll l =
        { s with buf := { s.buf with stale := (s.staleAll l).buf.stale, unsynced := (s.staleAll l).buf.unsynced } } := by
  induction l generalizing s with
  | nil => exact ⟨fun c => by simp [State.staleAll], rfl⟩
  | cons q l ih =>
    obtain ⟨h1, h2⟩ := ih (s.staleLine (q.1 / 4) q.2)
    have hl := staleLine_old s (q.1 / 4) q.2
    have hr := staleLine_rest s (q.1 / 4) q.2
    rw [State.staleAll]
    refine ⟨fun c => ?_, by rw [h2, hr]⟩
    have hd (set : Nat) (k : CacheLine) : LineDiffers (s.staleLine (q.1 / 4) q.2) set k c ↔ LineDiffers s set k c := by
      rw [LineDiffers, LineDiffers, hr]
    obtain ⟨a1, a2⟩ := h1 c
    obtain ⟨b1, b2⟩ := hl c
    simp only [hd] at a1 a2
    rw [a1, a2, b1, b2]
    simp only [List.mem_cons, exists_eq_or_imp, or_assoc, and_self]

/-! The whole-cache operations (22_cache.md R431, R432). -/

/-- A keyed list with every value changed, by a function that keeps the default. -/
theorem sparseGet_filterMap {α : Type} [DecidableEq α] (d : α) (f : α → α) (hf : f d = d) (l : List (Nat × α)) (lo a : Nat)
    (h : sparseWf d lo l = true) :
    sparseGet d (l.filterMap fun p => if f p.2 = d then none else some (p.1, f p.2)) a = f (sparseGet d l a) := by
  induction l generalizing lo with
  | nil => simp [sparseGet, hf]
  | cons p t ih =>
    obtain ⟨k, v⟩ := p
    simp only [sparseWf, Bool.and_eq_true, decide_eq_true_eq] at h
    have hi := ih (k + 1) h.2
    have gone : ∀ (lo : Nat) (t : List (Nat × α)), a < lo → sparseWf d lo t = true → sparseGet d t a = d := by
      intro lo t
      induction t generalizing lo with
      | nil => intros; rfl
      | cons q t ih =>
        obtain ⟨k', v'⟩ := q
        intro hlo hw
        simp only [sparseWf, Bool.and_eq_true, decide_eq_true_eq] at hw
        have : a ≠ k' := by omega
        simp only [sparseGet, this, if_false]
        exact ih (k' + 1) (by omega) hw.2
    by_cases hz : f v = d
    · simp only [List.filterMap_cons, hz, if_true]
      rw [hi, sparseGet]
      split
      · rename_i e
        rw [gone (k + 1) t (by omega) h.2, hf, hz]
      · rfl
    · simp only [List.filterMap_cons, hz, if_false, sparseGet]
      split
      · rfl
      · exact hi

/-- What every line of a changed cache satisfies. -/
theorem mapAll_all (c : Cache) (f : CacheLine → CacheLine) (P : CacheLine → Prop) (h0 : P CacheLine.zero)
    (hf : ∀ l, P (f l)) (k w : Nat) : P ((c.mapAll f).line k w) := by
  unfold Cache.line Cache.mapAll
  simp only
  generalize k * 4 + w = a
  induction c.lines with
  | nil => exact h0
  | cons p t ih =>
    simp only [List.filterMap_cons]
    split
    · exact ih
    · rename_i e
      split at e
      · cases e
      · cases e
        simp only [sparseGet]
        split
        · exact hf _
        · exact ih

/-- Each line of a cache in canonical form with every line changed. -/
theorem mapAll_line (c : Cache) (f : CacheLine → CacheLine) (hf : f CacheLine.zero = CacheLine.zero)
    (h : sparseWf CacheLine.zero 0 c.lines = true) (k w : Nat) : (c.mapAll f).line k w = f (c.line k w) :=
  sparseGet_filterMap CacheLine.zero f hf c.lines 0 (k * 4 + w) h

/-- A keyed list with every value changed is canonical. -/
theorem sparseWf_filterMap {α : Type} [DecidableEq α] (d : α) (f : α → α) (l : List (Nat × α)) (lo : Nat)
    (h : sparseWf d lo l = true) :
    sparseWf d lo (l.filterMap fun p => if f p.2 = d then none else some (p.1, f p.2)) = true := by
  induction l generalizing lo with
  | nil => rfl
  | cons p t ih =>
    obtain ⟨k, v⟩ := p
    simp only [sparseWf, Bool.and_eq_true, decide_eq_true_eq] at h
    have mono : ∀ (m n : Nat) (t : List (Nat × α)), m ≤ n → sparseWf d n t = true → sparseWf d m t = true := by
      intro m n t hmn hw
      cases t with
      | nil => rfl
      | cons q t =>
        obtain ⟨k', v'⟩ := q
        simp only [sparseWf, Bool.and_eq_true, decide_eq_true_eq] at hw ⊢
        exact ⟨⟨by omega, hw.1.2⟩, hw.2⟩
    by_cases hz : f v = d
    · simp only [List.filterMap_cons, hz, if_true]
      exact mono _ _ _ (by omega) (ih (k + 1) h.2)
    · simp only [List.filterMap_cons, hz, if_false, sparseWf, Bool.and_eq_true, decide_eq_true_eq]
      exact ⟨⟨h.1.1, hz⟩, ih (k + 1) h.2⟩

/-- The cache after CINV and CLFC of a write of L1CSR0 or L1CSR1. -/
def Cache.flash (c : Cache) (v : Word) : Cache :=
  let c := if v.getLsbD 1 then c.flashInvalidate else c
  if v.getLsbD 8 then c.flashUnlock else c

/-- THE WHOLE-CACHE OPERATIONS, line by line. -/
theorem flash_done (v : Word) (side : Side) (s t : State) (h : t.cacheOf side = (s.cacheOf side).flash v) :
    FlashDone v side s t := by
  unfold FlashDone
  rw [h]
  generalize s.cacheOf side = c
  have vi (c : Cache) (k w : Nat) : (c.flashInvalidate.line k w).valid = false :=
    mapAll_all c (fun l => { l with valid := false, tagErr := 0 }) (fun l => l.valid = false) rfl (fun _ => rfl) k w
  have lu (c : Cache) (k w : Nat) : (c.flashUnlock.line k w).lock = 0#4 :=
    mapAll_all c (fun l => { l with lock := 0 }) (fun l => l.lock = 0#4) rfl (fun _ => rfl) k w
  have vu (c : Cache) (hz : ∀ q ∈ c.lines, q.2.valid = false) (k w : Nat) :
      (c.flashUnlock.line k w).valid = false := by
    unfold Cache.flashUnlock Cache.line Cache.mapAll
    simp only
    generalize k * 4 + w = a
    revert hz
    induction c.lines with
    | nil => intro _; rfl
    | cons p t ih =>
      intro hz
      have hp := hz p (by simp)
      have ht := ih fun q hq => hz q (by simp [hq])
      simp only [List.filterMap_cons]
      split
      · exact ht
      · rename_i e
        split at e
        · cases e
        · cases e
          simp only [sparseGet]
          split
          · exact hp
          · exact ht
  have zi (c : Cache) : ∀ q ∈ c.flashInvalidate.lines, q.2.valid = false := by
    intro q hq
    simp only [Cache.flashInvalidate, Cache.mapAll, List.mem_filterMap] at hq
    obtain ⟨p, -, e⟩ := hq
    split at e
    · cases e
    · cases e; rfl
  refine ⟨fun h1 h8 => ?_, ?_, fun h1 k w => ?_, fun h8 k w => ?_, fun hw k w => ?_⟩
  · simp [Cache.flash, h1, h8, -BitVec.getLsbD_eq_getElem]
  · cases h1 : v.getLsbD 1 <;> cases h8 : v.getLsbD 8 <;>
      simp [Cache.flash, h1, h8, Cache.flashInvalidate, Cache.flashUnlock, Cache.mapAll, -BitVec.getLsbD_eq_getElem]
  · simp only [Cache.flash, h1, if_true]
    split
    · exact vu _ (zi c) k w
    · exact vi c k w
  · simp only [Cache.flash, h8, if_true]
    exact lu _ k w
  · have ei : ∀ k w, (c.flashInvalidate.line k w) = { c.line k w with valid := false, tagErr := 0 } := fun k w =>
      mapAll_line c (fun l => { l with valid := false, tagErr := 0 }) rfl hw k w
    have wi : sparseWf CacheLine.zero 0 c.flashInvalidate.lines = true :=
      sparseWf_filterMap CacheLine.zero (fun l => { l with valid := false, tagErr := 0 }) c.lines 0 hw
    have eu : ∀ (c : Cache), sparseWf CacheLine.zero 0 c.lines = true →
        ∀ k w, (c.flashUnlock.line k w) = { c.line k w with lock := 0 } := fun c hw k w =>
      mapAll_line c (fun l => { l with lock := 0 }) rfl hw k w
    cases h1 : v.getLsbD 1 <;> cases h8 : v.getLsbD 8 <;>
      simp [Cache.flash, h1, h8, ei, eu _ hw, eu _ wi, -BitVec.getLsbD_eq_getElem]

/-- A WRITE OF L1CSR0: the store buffer is emptied, and the data cache flashed. -/
theorem writeL1csr_data (s : State) (v : Word) :
    s.writeL1csr .data v =
      { s with
        ints := s.flushBuffers.ints
        buf := { s.buf with storeErrs := [], entries := [] }
        cache := { s.cache with dcache := s.cache.dcache.flash v, l1csr0 := v &&& 0xFF1DBEED#32 } } := by
  show ({ s.flushBuffers.setCache .data ((s.flushBuffers.cacheOf .data).flash v) with cache := _ } : State) = _
  rw [flushBuffers_rest]
  rfl

/-- A WRITE OF L1CSR1: the instruction cache is flashed; with CINV the bytes of its lines join those a fetch may still read, and a
fill brings in no older byte. -/
theorem writeL1csr_instr (s : State) (v : Word) :
    s.writeL1csr .instr v =
      { s with
        buf := if v.getLsbD 1 then { (s.staleAll s.cache.icache.lines).buf with unpurged := [] } else s.buf
        cache := { s.cache with icache := s.cache.icache.flash v, l1csr1 := v &&& 0x0001B6E5#32 } } := by
  have h := (staleAll_old s.cache.icache.lines s).2
  have e : s.writeL1csr .instr v =
      (let t := if v.getLsbD 1 then (s.staleAll s.cache.icache.lines).purgeAll else s
       let u := t.setCache .instr (s.cache.icache.flash v)
       { u with cache := { u.cache with l1csr1 := v &&& 0x0001B6E5#32 } }) := rfl
  rw [e]
  split
  · rw [State.purgeAll, h]; rfl
  · rfl

/-- A key of a keyed list in canonical form, read back. -/
theorem sparseGet_mem {α : Type} [DecidableEq α] (d : α) (l : List (Nat × α)) (lo : Nat) (h : sparseWf d lo l = true)
    (q : Nat × α) (hq : q ∈ l) : lo ≤ q.1 ∧ sparseGet d l q.1 = q.2 := by
  induction l generalizing lo with
  | nil => cases hq
  | cons p t ih =>
    obtain ⟨k, v⟩ := p
    simp only [sparseWf, Bool.and_eq_true, decide_eq_true_eq] at h
    rcases List.mem_cons.mp hq with e | e
    · subst e; exact ⟨h.1.1, by simp [sparseGet]⟩
    · obtain ⟨h1, h2⟩ := ih (k + 1) h.2 e
      refine ⟨by omega, ?_⟩
      rw [sparseGet, if_neg (by omega), h2]

/-- A value that is not the default is listed. -/
theorem mem_of_sparseGet {α : Type} (d : α) (l : List (Nat × α)) (a : Nat) (h : sparseGet d l a ≠ d) :
    (a, sparseGet d l a) ∈ l := by
  induction l with
  | nil => exact absurd rfl h
  | cons p t ih =>
    obtain ⟨k, v⟩ := p
    rw [sparseGet] at h ⊢
    split
    · rename_i e; subst e; simp
    · rename_i e
      rw [if_neg e] at h
      exact List.mem_cons_of_mem _ (ih h)

/-- The bytes of the lines of a cache in canonical form that differ from memory. -/
theorem staleAll_cache (s : State) (c : Cache) (h : sparseWf CacheLine.zero 0 c.lines = true) :
    AheadBytes (fun b => ∃ k w, w < 4 ∧ LineDiffers s k (c.line k w) b) s (s.staleAll c.lines) := by
  intro b
  have key : (∃ q ∈ c.lines, LineDiffers s (q.1 / 4) q.2 b) ↔ ∃ k w, w < 4 ∧ LineDiffers s k (c.line k w) b := by
    constructor
    · rintro ⟨q, hq, hd⟩
      have := (sparseGet_mem _ _ _ h q hq).2
      refine ⟨q.1 / 4, q.1 % 4, Nat.mod_lt _ (by decide), ?_⟩
      rw [Cache.line, show q.1 / 4 * 4 + q.1 % 4 = q.1 by omega, this]
      exact hd
    · rintro ⟨k, w, hw, hd⟩
      have hz : sparseGet CacheLine.zero c.lines (k * 4 + w) ≠ CacheLine.zero := fun e => by
        have := hd.1
        rw [Cache.line, e] at this
        cases this
      refine ⟨_, mem_of_sparseGet _ _ _ hz, ?_⟩
      rw [show (k * 4 + w) / 4 = k by omega]
      exact hd
  have := (staleAll_old c.lines s).1 b
  exact ⟨this.1.trans (or_congr Iff.rfl key), this.2.trans (or_congr Iff.rfl key)⟩

/-! The time base. -/

/-- TSR after a fixed-interval time-out, bit by bit. -/
theorem fitUpdate_bits (tcr tsr : Word) (old new : DWord) (j : Nat) :
    (fitUpdate tcr tsr old new).getLsbD j = (tsr.getLsbD j || (j == 26 && rises old new (fitSel tcr))) := by
  unfold fitUpdate
  have e : (0x04000000#32).getLsbD j = (j == 26) := by
    by_cases hj : j < 32
    · interval_cases j <;> rfl
    · rw [BitVec.getLsbD_of_ge _ _ (Nat.le_of_not_lt hj), beq_eq_false_iff_ne.mpr (by omega)]
  split
  · rename_i h; rw [BitVec.getLsbD_or, e, h, Bool.and_true]
  · rename_i h; simp [Bool.eq_false_iff.mpr h]

/-- TSR after a watchdog time-out, bit by bit. -/
theorem watchdogUpdate_bits (tcr tsr : Word) (old new : DWord) (j : Nat) (hj : j < 32) :
    (watchdogUpdate tcr tsr old new).getLsbD j =
      let wd := rises old new (watchdogSel tcr)
      let enw := tsr.getLsbD 31
      let wis := tsr.getLsbD 30
      if j = 31 then enw || wd
      else if j = 30 then wis || (wd && enw)
      else if (j = 28 ∨ j = 29) ∧ wd = true ∧ enw = true ∧ wis = true ∧ tcr.extractLsb' 28 2 ≠ 0#2 then tcr.getLsbD j
      else tsr.getLsbD j := by
  unfold watchdogUpdate
  have e31 : (0x80000000#32).getLsbD j = (j == 31) := by interval_cases j <;> rfl
  have e30 : (0x40000000#32).getLsbD j = (j == 30) := by interval_cases j <;> rfl
  have ec : (0xCFFFFFFF#32).getLsbD j = !(j == 28 || j == 29) := by interval_cases j <;> rfl
  have e3 : (0x30000000#32).getLsbD j = (j == 28 || j == 29) := by interval_cases j <;> rfl
  simp only [apply_ite (fun z => BitVec.getLsbD z j), BitVec.getLsbD_or, BitVec.getLsbD_and, e31, e30, ec, e3]
  generalize rises old new (watchdogSel tcr) = wd
  by_cases hr : tcr.extractLsb' 28 2 = 0#2
  · simp only [hr, beq_self_eq_true, ne_eq, not_true_eq_false, and_false, if_true, if_false]
    by_cases a : j = 31
    · subst a; cases wd <;> cases tsr.getLsbD 31 <;> cases tsr.getLsbD 30 <;> rfl
    · by_cases b : j = 30
      · subst b; cases wd <;> cases tsr.getLsbD 31 <;> cases tsr.getLsbD 30 <;> rfl
      · rw [if_neg a, if_neg b, beq_eq_false_iff_ne.mpr a, beq_eq_false_iff_ne.mpr b, Bool.or_false]
        cases wd <;> cases tsr.getLsbD 31 <;> cases tsr.getLsbD 30 <;> rfl
  · simp only [hr, beq_eq_false_iff_ne.mpr hr, ne_eq, not_false_eq_true, and_true, Bool.false_eq_true, if_false]
    by_cases a : j = 31
    · subst a; cases wd <;> cases tsr.getLsbD 31 <;> cases tsr.getLsbD 30 <;> cases tcr.getLsbD 31 <;> rfl
    · by_cases b : j = 30
      · subst b; cases wd <;> cases tsr.getLsbD 31 <;> cases tsr.getLsbD 30 <;> cases tcr.getLsbD 30 <;> rfl
      · rw [if_neg a, if_neg b, beq_eq_false_iff_ne.mpr a, beq_eq_false_iff_ne.mpr b, Bool.or_false]
        by_cases c : j = 28 ∨ j = 29
        · have h : (j == 28 || j == 29) = true := by simpa using c
          simp only [h, c, true_and, Bool.and_true, Bool.not_true, Bool.and_false, Bool.false_or]
          cases wd <;> cases tsr.getLsbD 31 <;> cases tsr.getLsbD 30 <;> rfl
        · have h : (j == 28 || j == 29) = false := by simpa using c
          simp only [h, c, false_and, if_false, Bool.and_false, Bool.not_false, Bool.and_true, Bool.or_false]
          cases wd <;> cases tsr.getLsbD 31 <;> cases tsr.getLsbD 30 <;> rfl

/-- The bit that PMGC0[TBSEL] selects. -/
theorem tbselBit_eq (w : Word) : tbselBit w = ([63, 55, 51, 47] : List Nat).getD (w.extractLsb' 11 2).toNat 0 := by
  unfold tbselBit
  have h := (w.extractLsb' 11 2).isLt
  generalize (w.extractLsb' 11 2).toNat = n at *
  have : n < 4 := h
  interval_cases n <;> rfl

/-- A NEW VALUE OF THE TIME BASE. -/
theorem setTb_written (s : State) (new : DWord) : TbWritten new s ((s.setTb new).advance 4) := by
  have hw (j : Nat) (hj : j < 32) := watchdogUpdate_bits s.tmr.tcr (fitUpdate s.tmr.tcr s.tmr.tsr s.tmr.tb new) s.tmr.tb new j hj
  have hf := fitUpdate_bits s.tmr.tcr s.tmr.tsr s.tmr.tb new
  have ht : ((s.setTb new).advance 4).tmr.tsr =
      watchdogUpdate s.tmr.tcr (fitUpdate s.tmr.tcr s.tmr.tsr s.tmr.tb new) s.tmr.tb new := rfl
  have f31 := hf 31
  have f30 := hf 30
  simp only [show ((31 : Nat) == 26) = false from rfl, show ((30 : Nat) == 26) = false from rfl, Bool.false_and,
    Bool.or_false] at f31 f30
  simp only [f31, f30] at hw
  refine ⟨rfl, ?_, ?_, ?_, ?_, ?_, ?_, ?_, ?_⟩
  · rw [ht, hw 26 (by decide), if_neg (by decide), if_neg (by decide), if_neg (by simp), hf 26]; rfl
  · rw [ht, hw 31 (by decide), if_pos rfl]; rfl
  · rw [ht, hw 30 (by decide), if_neg (by decide), if_pos rfl]; rfl
  · rw [ht]
    apply BitVec.eq_of_getLsbD_eq
    intro i hi
    have h28 := hw (28 + i) (by omega)
    rw [if_neg (by omega), if_neg (by omega), hf (28 + i), beq_eq_false_iff_ne.mpr (by omega), Bool.false_and,
      Bool.or_false] at h28
    have hq : 28 + i = 28 ∨ 28 + i = 29 := by omega
    rw [BitVec.getLsbD_extractLsb', h28]
    have hr : rises s.tmr.tb new (watchdogSel s.tmr.tcr) =
      (!s.tmr.tb.getMsbD (s.tmr.tcr.extractLsb' 17 4 ++ s.tmr.tcr.extractLsb' 30 2).toNat &&
        new.getMsbD (s.tmr.tcr.extractLsb' 17 4 ++ s.tmr.tcr.extractLsb' 30 2).toNat) := rfl
    simp only [hi, decide_true, Bool.true_and, hq, true_and, ← hr]
    split <;> rw [BitVec.getLsbD_extractLsb', decide_eq_true hi, Bool.true_and]
  · rw [ht, hw 27 (by decide), if_neg (by decide), if_neg (by decide), if_neg (by simp), hf 27]; simp
  · rw [ht]
    apply BitVec.eq_of_getLsbD_eq
    intro i hi
    rw [BitVec.getLsbD_extractLsb', BitVec.getLsbD_extractLsb', hw _ (by omega), if_neg (by omega), if_neg (by omega),
      if_neg (by omega), hf, beq_eq_false_iff_ne.mpr (by omega), Bool.false_and, Bool.or_false]
  · show (s.pm.tbEvent || (s.pm.pmgc0.getLsbD 8 && rises s.tmr.tb new (tbselBit s.pm.pmgc0))) = _
    rw [tbselBit_eq]; rfl
  · exact ⟨rfl, fun _ => rfl, rfl, rfl, ⟨rfl, rfl, rfl, rfl⟩, rfl, rfl, rfl, rfl, rfl, rfl, rfl, rfl, rfl, rfl, rfl, rfl,
      rfl, rfl, rfl, fun _ => rfl⟩

end Sys2Proof.Machine
end

