-- ==== Sys2Proof/Laws/Exec.lean ====
section
/-! SUPPORT. The meaning of each instruction by name. -/

namespace Sys2Proof.Machine

variable (s : State)

@[simp] theorem exec_tlbre : exec .tlbre s = execTlbre s := rfl
@[simp] theorem exec_tlbwe : exec .tlbwe s = execTlbwe s := rfl
@[simp] theorem exec_tlbsx (ra rb : Gpr) : exec (.tlbsx ra rb) s = execTlbsx ra rb s := rfl
@[simp] theorem exec_tlbivax (ra rb : Gpr) : exec (.tlbivax ra rb) s = execTlbivax ra rb s := rfl
@[simp] theorem exec_tlbsync : exec .tlbsync s = execTlbsync s := rfl
@[simp] theorem exec_icbi (ra rb : Gpr) : exec (.icbi ra rb) s = execIcbi ra rb s := rfl
@[simp] theorem exec_icbt (ct : BitVec 4) (ra rb : Gpr) : exec (.icbt ct ra rb) s = execIcbt ct ra rb s := rfl
@[simp] theorem exec_dcba (ra rb : Gpr) : exec (.dcba ra rb) s = execDcba ra rb s := rfl
@[simp] theorem exec_dcbf (ra rb : Gpr) : exec (.dcbf ra rb) s = execDcbf ra rb s := rfl
@[simp] theorem exec_dcbi (ra rb : Gpr) : exec (.dcbi ra rb) s = execDcbi ra rb s := rfl
@[simp] theorem exec_dcbst (ra rb : Gpr) : exec (.dcbst ra rb) s = execDcbst ra rb s := rfl
@[simp] theorem exec_dcbt (ct : BitVec 4) (ra rb : Gpr) : exec (.dcbt ct ra rb) s = execDcbt ct ra rb s := rfl
@[simp] theorem exec_dcbtst (ct : BitVec 4) (ra rb : Gpr) : exec (.dcbtst ct ra rb) s = execDcbtst ct ra rb s := rfl
@[simp] theorem exec_dcbz (ra rb : Gpr) : exec (.dcbz ra rb) s = execDcbz ra rb s := rfl
@[simp] theorem exec_dcbtls (ct : BitVec 4) (ra rb : Gpr) : exec (.dcbtls ct ra rb) s = execDcbtls ct ra rb s := rfl
@[simp] theorem exec_dcbtstls (ct : BitVec 4) (ra rb : Gpr) : exec (.dcbtstls ct ra rb) s = execDcbtstls ct ra rb s := rfl
@[simp] theorem exec_dcblc (ct : BitVec 4) (ra rb : Gpr) : exec (.dcblc ct ra rb) s = execDcblc ct ra rb s := rfl
@[simp] theorem exec_icbtls (ct : BitVec 4) (ra rb : Gpr) : exec (.icbtls ct ra rb) s = execIcbtls ct ra rb s := rfl
@[simp] theorem exec_icblc (ct : BitVec 4) (ra rb : Gpr) : exec (.icblc ct ra rb) s = execIcblc ct ra rb s := rfl
@[simp] theorem exec_addi (rt ra : Gpr) (si : BitVec 16) : exec (.addi rt ra si) s = execAddi rt ra si s := rfl
@[simp] theorem exec_addis (rt ra : Gpr) (si : BitVec 16) : exec (.addis rt ra si) s = execAddis rt ra si s := rfl
@[simp] theorem exec_addic (rt ra : Gpr) (si : BitVec 16) : exec (.addic rt ra si) s = execAddic rt ra si s := rfl
@[simp] theorem exec_addicDot (rt ra : Gpr) (si : BitVec 16) : exec (.addicDot rt ra si) s = execAddicDot rt ra si s := rfl
@[simp] theorem exec_subfic (rt ra : Gpr) (si : BitVec 16) : exec (.subfic rt ra si) s = execSubfic rt ra si s := rfl
@[simp] theorem exec_mulli (rt ra : Gpr) (si : BitVec 16) : exec (.mulli rt ra si) s = execMulli rt ra si s := rfl
@[simp] theorem exec_add (rt ra rb : Gpr) (oe rc : Bool) : exec (.add rt ra rb oe rc) s = execAdd rt ra rb oe rc s := rfl
@[simp] theorem exec_addc (rt ra rb : Gpr) (oe rc : Bool) : exec (.addc rt ra rb oe rc) s = execAddc rt ra rb oe rc s := rfl
@[simp] theorem exec_adde (rt ra rb : Gpr) (oe rc : Bool) : exec (.adde rt ra rb oe rc) s = execAdde rt ra rb oe rc s := rfl
@[simp] theorem exec_addme (rt ra : Gpr) (oe rc : Bool) : exec (.addme rt ra oe rc) s = execAddme rt ra oe rc s := rfl
@[simp] theorem exec_addze (rt ra : Gpr) (oe rc : Bool) : exec (.addze rt ra oe rc) s = execAddze rt ra oe rc s := rfl
@[simp] theorem exec_subf (rt ra rb : Gpr) (oe rc : Bool) : exec (.subf rt ra rb oe rc) s = execSubf rt ra rb oe rc s := rfl
@[simp] theorem exec_subfc (rt ra rb : Gpr) (oe rc : Bool) : exec (.subfc rt ra rb oe rc) s = execSubfc rt ra rb oe rc s := rfl
@[simp] theorem exec_subfe (rt ra rb : Gpr) (oe rc : Bool) : exec (.subfe rt ra rb oe rc) s = execSubfe rt ra rb oe rc s := rfl
@[simp] theorem exec_subfme (rt ra : Gpr) (oe rc : Bool) : exec (.subfme rt ra oe rc) s = execSubfme rt ra oe rc s := rfl
@[simp] theorem exec_subfze (rt ra : Gpr) (oe rc : Bool) : exec (.subfze rt ra oe rc) s = execSubfze rt ra oe rc s := rfl
@[simp] theorem exec_neg (rt ra : Gpr) (oe rc : Bool) : exec (.neg rt ra oe rc) s = execNeg rt ra oe rc s := rfl
@[simp] theorem exec_mullw (rt ra rb : Gpr) (oe rc : Bool) : exec (.mullw rt ra rb oe rc) s = execMullw rt ra rb oe rc s := rfl
@[simp] theorem exec_divw (rt ra rb : Gpr) (oe rc : Bool) : exec (.divw rt ra rb oe rc) s = execDivw rt ra rb oe rc s := rfl
@[simp] theorem exec_divwu (rt ra rb : Gpr) (oe rc : Bool) : exec (.divwu rt ra rb oe rc) s = execDivwu rt ra rb oe rc s := rfl
@[simp] theorem exec_mulhw (rt ra rb : Gpr) (rc : Bool) : exec (.mulhw rt ra rb rc) s = execMulhw rt ra rb rc s := rfl
@[simp] theorem exec_mulhwu (rt ra rb : Gpr) (rc : Bool) : exec (.mulhwu rt ra rb rc) s = execMulhwu rt ra rb rc s := rfl
@[simp] theorem exec_cmpi (crf : CrField) (ra : Gpr) (si : BitVec 16) : exec (.cmpi crf ra si) s = execCmpi crf ra si s := rfl
@[simp] theorem exec_cmp (crf : CrField) (ra rb : Gpr) : exec (.cmp crf ra rb) s = execCmp crf ra rb s := rfl
@[simp] theorem exec_cmpli (crf : CrField) (ra : Gpr) (ui : BitVec 16) : exec (.cmpli crf ra ui) s = execCmpli crf ra ui s := rfl
@[simp] theorem exec_cmpl (crf : CrField) (ra rb : Gpr) : exec (.cmpl crf ra rb) s = execCmpl crf ra rb s := rfl
@[simp] theorem exec_andiDot (ra rs : Gpr) (ui : BitVec 16) : exec (.andiDot ra rs ui) s = execAndiDot ra rs ui s := rfl
@[simp] theorem exec_andisDot (ra rs : Gpr) (ui : BitVec 16) : exec (.andisDot ra rs ui) s = execAndisDot ra rs ui s := rfl
@[simp] theorem exec_ori (ra rs : Gpr) (ui : BitVec 16) : exec (.ori ra rs ui) s = execOri ra rs ui s := rfl
@[simp] theorem exec_oris (ra rs : Gpr) (ui : BitVec 16) : exec (.oris ra rs ui) s = execOris ra rs ui s := rfl
@[simp] theorem exec_xori (ra rs : Gpr) (ui : BitVec 16) : exec (.xori ra rs ui) s = execXori ra rs ui s := rfl
@[simp] theorem exec_xoris (ra rs : Gpr) (ui : BitVec 16) : exec (.xoris ra rs ui) s = execXoris ra rs ui s := rfl
@[simp] theorem exec_and (ra rs rb : Gpr) (rc : Bool) : exec (.and ra rs rb rc) s = execAnd ra rs rb rc s := rfl
@[simp] theorem exec_andc (ra rs rb : Gpr) (rc : Bool) : exec (.andc ra rs rb rc) s = execAndc ra rs rb rc s := rfl
@[simp] theorem exec_or (ra rs rb : Gpr) (rc : Bool) : exec (.or ra rs rb rc) s = execOr ra rs rb rc s := rfl
@[simp] theorem exec_orc (ra rs rb : Gpr) (rc : Bool) : exec (.orc ra rs rb rc) s = execOrc ra rs rb rc s := rfl
@[simp] theorem exec_xor (ra rs rb : Gpr) (rc : Bool) : exec (.xor ra rs rb rc) s = execXor ra rs rb rc s := rfl
@[simp] theorem exec_nand (ra rs rb : Gpr) (rc : Bool) : exec (.nand ra rs rb rc) s = execNand ra rs rb rc s := rfl
@[simp] theorem exec_nor (ra rs rb : Gpr) (rc : Bool) : exec (.nor ra rs rb rc) s = execNor ra rs rb rc s := rfl
@[simp] theorem exec_eqv (ra rs rb : Gpr) (rc : Bool) : exec (.eqv ra rs rb rc) s = execEqv ra rs rb rc s := rfl
@[simp] theorem exec_extsb (ra rs : Gpr) (rc : Bool) : exec (.extsb ra rs rc) s = execExtsb ra rs rc s := rfl
@[simp] theorem exec_extsh (ra rs : Gpr) (rc : Bool) : exec (.extsh ra rs rc) s = execExtsh ra rs rc s := rfl
@[simp] theorem exec_cntlzw (ra rs : Gpr) (rc : Bool) : exec (.cntlzw ra rs rc) s = execCntlzw ra rs rc s := rfl
@[simp] theorem exec_rlwinm (ra rs : Gpr) (sh mb me : BitVec 5) (rc : Bool) : exec (.rlwinm ra rs sh mb me rc) s = execRlwinm ra rs sh mb me rc s := rfl
@[simp] theorem exec_rlwimi (ra rs : Gpr) (sh mb me : BitVec 5) (rc : Bool) : exec (.rlwimi ra rs sh mb me rc) s = execRlwimi ra rs sh mb me rc s := rfl
@[simp] theorem exec_rlwnm (ra rs rb : Gpr) (mb me : BitVec 5) (rc : Bool) : exec (.rlwnm ra rs rb mb me rc) s = execRlwnm ra rs rb mb me rc s := rfl
@[simp] theorem exec_slw (ra rs rb : Gpr) (rc : Bool) : exec (.slw ra rs rb rc) s = execSlw ra rs rb rc s := rfl
@[simp] theorem exec_srw (ra rs rb : Gpr) (rc : Bool) : exec (.srw ra rs rb rc) s = execSrw ra rs rb rc s := rfl
@[simp] theorem exec_sraw (ra rs rb : Gpr) (rc : Bool) : exec (.sraw ra rs rb rc) s = execSraw ra rs rb rc s := rfl
@[simp] theorem exec_srawi (ra rs : Gpr) (sh : BitVec 5) (rc : Bool) : exec (.srawi ra rs sh rc) s = execSrawi ra rs sh rc s := rfl
@[simp] theorem exec_lbz (rt : Gpr) (d : BitVec 16) (ra : Gpr) : exec (.lbz rt d ra) s = execLbz rt d ra s := rfl
@[simp] theorem exec_lbzu (rt : Gpr) (d : BitVec 16) (ra : Gpr) : exec (.lbzu rt d ra) s = execLbzu rt d ra s := rfl
@[simp] theorem exec_lhz (rt : Gpr) (d : BitVec 16) (ra : Gpr) : exec (.lhz rt d ra) s = execLhz rt d ra s := rfl
@[simp] theorem exec_lhzu (rt : Gpr) (d : BitVec 16) (ra : Gpr) : exec (.lhzu rt d ra) s = execLhzu rt d ra s := rfl
@[simp] theorem exec_lha (rt : Gpr) (d : BitVec 16) (ra : Gpr) : exec (.lha rt d ra) s = execLha rt d ra s := rfl
@[simp] theorem exec_lhau (rt : Gpr) (d : BitVec 16) (ra : Gpr) : exec (.lhau rt d ra) s = execLhau rt d ra s := rfl
@[simp] theorem exec_lwz (rt : Gpr) (d : BitVec 16) (ra : Gpr) : exec (.lwz rt d ra) s = execLwz rt d ra s := rfl
@[simp] theorem exec_lwzu (rt : Gpr) (d : BitVec 16) (ra : Gpr) : exec (.lwzu rt d ra) s = execLwzu rt d ra s := rfl
@[simp] theorem exec_stb (rs : Gpr) (d : BitVec 16) (ra : Gpr) : exec (.stb rs d ra) s = execStb rs d ra s := rfl
@[simp] theorem exec_stbu (rs : Gpr) (d : BitVec 16) (ra : Gpr) : exec (.stbu rs d ra) s = execStbu rs d ra s := rfl
@[simp] theorem exec_sth (rs : Gpr) (d : BitVec 16) (ra : Gpr) : exec (.sth rs d ra) s = execSth rs d ra s := rfl
@[simp] theorem exec_sthu (rs : Gpr) (d : BitVec 16) (ra : Gpr) : exec (.sthu rs d ra) s = execSthu rs d ra s := rfl
@[simp] theorem exec_stw (rs : Gpr) (d : BitVec 16) (ra : Gpr) : exec (.stw rs d ra) s = execStw rs d ra s := rfl
@[simp] theorem exec_stwu (rs : Gpr) (d : BitVec 16) (ra : Gpr) : exec (.stwu rs d ra) s = execStwu rs d ra s := rfl
@[simp] theorem exec_lbzx (rt ra rb : Gpr) : exec (.lbzx rt ra rb) s = execLbzx rt ra rb s := rfl
@[simp] theorem exec_lbzux (rt ra rb : Gpr) : exec (.lbzux rt ra rb) s = execLbzux rt ra rb s := rfl
@[simp] theorem exec_lhzx (rt ra rb : Gpr) : exec (.lhzx rt ra rb) s = execLhzx rt ra rb s := rfl
@[simp] theorem exec_lhzux (rt ra rb : Gpr) : exec (.lhzux rt ra rb) s = execLhzux rt ra rb s := rfl
@[simp] theorem exec_lhax (rt ra rb : Gpr) : exec (.lhax rt ra rb) s = execLhax rt ra rb s := rfl
@[simp] theorem exec_lhaux (rt ra rb : Gpr) : exec (.lhaux rt ra rb) s = execLhaux rt ra rb s := rfl
@[simp] theorem exec_lwzx (rt ra rb : Gpr) : exec (.lwzx rt ra rb) s = execLwzx rt ra rb s := rfl
@[simp] theorem exec_lwzux (rt ra rb : Gpr) : exec (.lwzux rt ra rb) s = execLwzux rt ra rb s := rfl
@[simp] theorem exec_stbx (rs ra rb : Gpr) : exec (.stbx rs ra rb) s = execStbx rs ra rb s := rfl
@[simp] theorem exec_stbux (rs ra rb : Gpr) : exec (.stbux rs ra rb) s = execStbux rs ra rb s := rfl
@[simp] theorem exec_sthx (rs ra rb : Gpr) : exec (.sthx rs ra rb) s = execSthx rs ra rb s := rfl
@[simp] theorem exec_sthux (rs ra rb : Gpr) : exec (.sthux rs ra rb) s = execSthux rs ra rb s := rfl
@[simp] theorem exec_stwx (rs ra rb : Gpr) : exec (.stwx rs ra rb) s = execStwx rs ra rb s := rfl
@[simp] theorem exec_stwux (rs ra rb : Gpr) : exec (.stwux rs ra rb) s = execStwux rs ra rb s := rfl
@[simp] theorem exec_lhbrx (rt ra rb : Gpr) : exec (.lhbrx rt ra rb) s = execLhbrx rt ra rb s := rfl
@[simp] theorem exec_lwbrx (rt ra rb : Gpr) : exec (.lwbrx rt ra rb) s = execLwbrx rt ra rb s := rfl
@[simp] theorem exec_sthbrx (rs ra rb : Gpr) : exec (.sthbrx rs ra rb) s = execSthbrx rs ra rb s := rfl
@[simp] theorem exec_stwbrx (rs ra rb : Gpr) : exec (.stwbrx rs ra rb) s = execStwbrx rs ra rb s := rfl
@[simp] theorem exec_lmw (rt : Gpr) (d : BitVec 16) (ra : Gpr) : exec (.lmw rt d ra) s = execLmw rt d ra s := rfl
@[simp] theorem exec_stmw (rs : Gpr) (d : BitVec 16) (ra : Gpr) : exec (.stmw rs d ra) s = execStmw rs d ra s := rfl
@[simp] theorem exec_b (li : BitVec 24) (aa lk : Bool) : exec (.b li aa lk) s = execB li aa lk s := rfl
@[simp] theorem exec_bc (bo : BitVec 5) (bi : CrBit) (bd : BitVec 14) (aa lk : Bool) : exec (.bc bo bi bd aa lk) s = execBc bo bi bd aa lk s := rfl
@[simp] theorem exec_bclr (bo : BitVec 5) (bi : CrBit) (lk : Bool) : exec (.bclr bo bi lk) s = execBclr bo bi lk s := rfl
@[simp] theorem exec_bcctr (bo : BitVec 5) (bi : CrBit) (lk : Bool) : exec (.bcctr bo bi lk) s = execBcctr bo bi lk s := rfl
@[simp] theorem exec_crand (bt ba bb : CrBit) : exec (.crand bt ba bb) s = execCrand bt ba bb s := rfl
@[simp] theorem exec_crandc (bt ba bb : CrBit) : exec (.crandc bt ba bb) s = execCrandc bt ba bb s := rfl
@[simp] theorem exec_creqv (bt ba bb : CrBit) : exec (.creqv bt ba bb) s = execCreqv bt ba bb s := rfl
@[simp] theorem exec_crnand (bt ba bb : CrBit) : exec (.crnand bt ba bb) s = execCrnand bt ba bb s := rfl
@[simp] theorem exec_crnor (bt ba bb : CrBit) : exec (.crnor bt ba bb) s = execCrnor bt ba bb s := rfl
@[simp] theorem exec_cror (bt ba bb : CrBit) : exec (.cror bt ba bb) s = execCror bt ba bb s := rfl
@[simp] theorem exec_crorc (bt ba bb : CrBit) : exec (.crorc bt ba bb) s = execCrorc bt ba bb s := rfl
@[simp] theorem exec_crxor (bt ba bb : CrBit) : exec (.crxor bt ba bb) s = execCrxor bt ba bb s := rfl
@[simp] theorem exec_mcrf (crf crs : CrField) : exec (.mcrf crf crs) s = execMcrf crf crs s := rfl
@[simp] theorem exec_mcrxr (crf : CrField) : exec (.mcrxr crf) s = execMcrxr crf s := rfl
@[simp] theorem exec_mfcr (rt : Gpr) : exec (.mfcr rt) s = execMfcr rt s := rfl
@[simp] theorem exec_mtcrf (fxm : BitVec 8) (rs : Gpr) : exec (.mtcrf fxm rs) s = execMtcrf fxm rs s := rfl
@[simp] theorem exec_tw (tmask : BitVec 5) (ra rb : Gpr) : exec (.tw tmask ra rb) s = execTw tmask ra rb s := rfl
@[simp] theorem exec_twi (tmask : BitVec 5) (ra : Gpr) (simm : BitVec 16) : exec (.twi tmask ra simm) s = execTwi tmask ra simm s := rfl
@[simp] theorem exec_sc : exec .sc s = execSc s := rfl
@[simp] theorem exec_rfi : exec .rfi s = execRfi s := rfl
@[simp] theorem exec_rfci : exec .rfci s = execRfci s := rfl
@[simp] theorem exec_isync : exec .isync s = execIsync s := rfl
@[simp] theorem exec_mfmsr (rt : Gpr) : exec (.mfmsr rt) s = execMfmsr rt s := rfl
@[simp] theorem exec_mtmsr (rs : Gpr) : exec (.mtmsr rs) s = execMtmsr rs s := rfl
@[simp] theorem exec_wrtee (rs : Gpr) : exec (.wrtee rs) s = execWrtee rs s := rfl
@[simp] theorem exec_wrteei (e : Bool) : exec (.wrteei e) s = execWrteei e s := rfl
@[simp] theorem exec_mfspr (rt : Gpr) (sprn : BitVec 10) : exec (.mfspr rt sprn) s = execMfspr rt sprn s := rfl
@[simp] theorem exec_mtspr (sprn : BitVec 10) (rs : Gpr) : exec (.mtspr sprn rs) s = execMtspr sprn rs s := rfl
@[simp] theorem exec_isel (rt ra rb : Gpr) (crb : CrBit) : exec (.isel rt ra rb crb) s = execIsel rt ra rb crb s := rfl
@[simp] theorem exec_rfdi : exec .rfdi s = execRfdi s := rfl
@[simp] theorem exec_rfmci : exec .rfmci s = execRfmci s := rfl
@[simp] theorem exec_dnh (dui : BitVec 5) (duis : BitVec 10) : exec (.dnh dui duis) s = execDnh dui duis s := rfl
@[simp] theorem exec_wait : exec .wait s = execWait s := rfl
@[simp] theorem exec_msync : exec .msync s = execMsync s := rfl
@[simp] theorem exec_mbar (mo : BitVec 5) : exec (.mbar mo) s = execMbar mo s := rfl
@[simp] theorem exec_mfdcr (rt : Gpr) (dcrn : BitVec 10) : exec (.mfdcr rt dcrn) s = execMfdcr rt dcrn s := rfl
@[simp] theorem exec_mtdcr (dcrn : BitVec 10) (rs : Gpr) : exec (.mtdcr dcrn rs) s = execMtdcr dcrn rs s := rfl
@[simp] theorem exec_lbarx (rt ra rb : Gpr) : exec (.lbarx rt ra rb) s = execLbarx rt ra rb s := rfl
@[simp] theorem exec_lharx (rt ra rb : Gpr) : exec (.lharx rt ra rb) s = execLharx rt ra rb s := rfl
@[simp] theorem exec_lwarx (rt ra rb : Gpr) : exec (.lwarx rt ra rb) s = execLwarx rt ra rb s := rfl
@[simp] theorem exec_stbcxDot (rs ra rb : Gpr) : exec (.stbcxDot rs ra rb) s = execStbcxDot rs ra rb s := rfl
@[simp] theorem exec_sthcxDot (rs ra rb : Gpr) : exec (.sthcxDot rs ra rb) s = execSthcxDot rs ra rb s := rfl
@[simp] theorem exec_stwcxDot (rs ra rb : Gpr) : exec (.stwcxDot rs ra rb) s = execStwcxDot rs ra rb s := rfl
@[simp] theorem exec_eLmvgprw (d8 : BitVec 8) (ra : Gpr) : exec (.eLmvgprw d8 ra) s = execELmvgprw d8 ra s := rfl
@[simp] theorem exec_eStmvgprw (d8 : BitVec 8) (ra : Gpr) : exec (.eStmvgprw d8 ra) s = execEStmvgprw d8 ra s := rfl
@[simp] theorem exec_eLmvsprw (d8 : BitVec 8) (ra : Gpr) : exec (.eLmvsprw d8 ra) s = execELmvsprw d8 ra s := rfl
@[simp] theorem exec_eStmvsprw (d8 : BitVec 8) (ra : Gpr) : exec (.eStmvsprw d8 ra) s = execEStmvsprw d8 ra s := rfl
@[simp] theorem exec_eLmvsrrw (d8 : BitVec 8) (ra : Gpr) : exec (.eLmvsrrw d8 ra) s = execELmvsrrw d8 ra s := rfl
@[simp] theorem exec_eStmvsrrw (d8 : BitVec 8) (ra : Gpr) : exec (.eStmvsrrw d8 ra) s = execEStmvsrrw d8 ra s := rfl
@[simp] theorem exec_eLmvcsrrw (d8 : BitVec 8) (ra : Gpr) : exec (.eLmvcsrrw d8 ra) s = execELmvcsrrw d8 ra s := rfl
@[simp] theorem exec_eStmvcsrrw (d8 : BitVec 8) (ra : Gpr) : exec (.eStmvcsrrw d8 ra) s = execEStmvcsrrw d8 ra s := rfl
@[simp] theorem exec_eLmvdsrrw (d8 : BitVec 8) (ra : Gpr) : exec (.eLmvdsrrw d8 ra) s = execELmvdsrrw d8 ra s := rfl
@[simp] theorem exec_eStmvdsrrw (d8 : BitVec 8) (ra : Gpr) : exec (.eStmvdsrrw d8 ra) s = execEStmvdsrrw d8 ra s := rfl
@[simp] theorem exec_eLmvmcsrrw (d8 : BitVec 8) (ra : Gpr) : exec (.eLmvmcsrrw d8 ra) s = execELmvmcsrrw d8 ra s := rfl
@[simp] theorem exec_eStmvmcsrrw (d8 : BitVec 8) (ra : Gpr) : exec (.eStmvmcsrrw d8 ra) s = execEStmvmcsrrw d8 ra s := rfl
@[simp] theorem exec_seIllegal : exec .seIllegal s = execSeIllegal s := rfl
@[simp] theorem exec_seIsync : exec .seIsync s = execSeIsync s := rfl
@[simp] theorem exec_seSc : exec .seSc s = execSeSc s := rfl
@[simp] theorem exec_seBlr (lk : Bool) : exec (.seBlr lk) s = execSeBlr lk s := rfl
@[simp] theorem exec_seBctr (lk : Bool) : exec (.seBctr lk) s = execSeBctr lk s := rfl
@[simp] theorem exec_seRfi : exec .seRfi s = execSeRfi s := rfl
@[simp] theorem exec_seRfci : exec .seRfci s = execSeRfci s := rfl
@[simp] theorem exec_seRfdi : exec .seRfdi s = execSeRfdi s := rfl
@[simp] theorem exec_seRfmci : exec .seRfmci s = execSeRfmci s := rfl
@[simp] theorem exec_seDnh : exec .seDnh s = execSeDnh s := rfl
@[simp] theorem exec_seNot (rx : Gpr) : exec (.seNot rx) s = execSeNot rx s := rfl
@[simp] theorem exec_seNeg (rx : Gpr) : exec (.seNeg rx) s = execSeNeg rx s := rfl
@[simp] theorem exec_seMflr (rx : Gpr) : exec (.seMflr rx) s = execSeMflr rx s := rfl
@[simp] theorem exec_seMtlr (rx : Gpr) : exec (.seMtlr rx) s = execSeMtlr rx s := rfl
@[simp] theorem exec_seMfctr (rx : Gpr) : exec (.seMfctr rx) s = execSeMfctr rx s := rfl
@[simp] theorem exec_seMtctr (rx : Gpr) : exec (.seMtctr rx) s = execSeMtctr rx s := rfl
@[simp] theorem exec_seExtzb (rx : Gpr) : exec (.seExtzb rx) s = execSeExtzb rx s := rfl
@[simp] theorem exec_seExtsb (rx : Gpr) : exec (.seExtsb rx) s = execSeExtsb rx s := rfl
@[simp] theorem exec_seExtzh (rx : Gpr) : exec (.seExtzh rx) s = execSeExtzh rx s := rfl
@[simp] theorem exec_seExtsh (rx : Gpr) : exec (.seExtsh rx) s = execSeExtsh rx s := rfl
@[simp] theorem exec_seMr (rx ry : Gpr) : exec (.seMr rx ry) s = execSeMr rx ry s := rfl
@[simp] theorem exec_seMtar (arx ry : Gpr) : exec (.seMtar arx ry) s = execSeMtar arx ry s := rfl
@[simp] theorem exec_seMfar (rx ary : Gpr) : exec (.seMfar rx ary) s = execSeMfar rx ary s := rfl
@[simp] theorem exec_seAdd (rx ry : Gpr) : exec (.seAdd rx ry) s = execSeAdd rx ry s := rfl
@[simp] theorem exec_seMullw (rx ry : Gpr) : exec (.seMullw rx ry) s = execSeMullw rx ry s := rfl
@[simp] theorem exec_seSub (rx ry : Gpr) : exec (.seSub rx ry) s = execSeSub rx ry s := rfl
@[simp] theorem exec_seSubf (rx ry : Gpr) : exec (.seSubf rx ry) s = execSeSubf rx ry s := rfl
@[simp] theorem exec_seCmp (rx ry : Gpr) : exec (.seCmp rx ry) s = execSeCmp rx ry s := rfl
@[simp] theorem exec_seCmpl (rx ry : Gpr) : exec (.seCmpl rx ry) s = execSeCmpl rx ry s := rfl
@[simp] theorem exec_seCmph (rx ry : Gpr) : exec (.seCmph rx ry) s = execSeCmph rx ry s := rfl
@[simp] theorem exec_seCmphl (rx ry : Gpr) : exec (.seCmphl rx ry) s = execSeCmphl rx ry s := rfl
@[simp] theorem exec_seSrw (rx ry : Gpr) : exec (.seSrw rx ry) s = execSeSrw rx ry s := rfl
@[simp] theorem exec_seSraw (rx ry : Gpr) : exec (.seSraw rx ry) s = execSeSraw rx ry s := rfl
@[simp] theorem exec_seSlw (rx ry : Gpr) : exec (.seSlw rx ry) s = execSeSlw rx ry s := rfl
@[simp] theorem exec_seOr (rx ry : Gpr) : exec (.seOr rx ry) s = execSeOr rx ry s := rfl
@[simp] theorem exec_seAndc (rx ry : Gpr) : exec (.seAndc rx ry) s = execSeAndc rx ry s := rfl
@[simp] theorem exec_seAnd (rx ry : Gpr) (rc : Bool) : exec (.seAnd rx ry rc) s = execSeAnd rx ry rc s := rfl
@[simp] theorem exec_seAddi (rx : Gpr) (oimm : BitVec 6) : exec (.seAddi rx oimm) s = execSeAddi rx oimm s := rfl
@[simp] theorem exec_seCmpli (rx : Gpr) (oimm : BitVec 6) : exec (.seCmpli rx oimm) s = execSeCmpli rx oimm s := rfl
@[simp] theorem exec_seSubi (rx : Gpr) (oimm : BitVec 6) (rc : Bool) : exec (.seSubi rx oimm rc) s = execSeSubi rx oimm rc s := rfl
@[simp] theorem exec_seCmpi (rx : Gpr) (ui5 : BitVec 5) : exec (.seCmpi rx ui5) s = execSeCmpi rx ui5 s := rfl
@[simp] theorem exec_seBmaski (rx : Gpr) (ui5 : BitVec 5) : exec (.seBmaski rx ui5) s = execSeBmaski rx ui5 s := rfl
@[simp] theorem exec_seAndi (rx : Gpr) (ui5 : BitVec 5) : exec (.seAndi rx ui5) s = execSeAndi rx ui5 s := rfl
@[simp] theorem exec_seBclri (rx : Gpr) (ui5 : BitVec 5) : exec (.seBclri rx ui5) s = execSeBclri rx ui5 s := rfl
@[simp] theorem exec_seBgeni (rx : Gpr) (ui5 : BitVec 5) : exec (.seBgeni rx ui5) s = execSeBgeni rx ui5 s := rfl
@[simp] theorem exec_seBseti (rx : Gpr) (ui5 : BitVec 5) : exec (.seBseti rx ui5) s = execSeBseti rx ui5 s := rfl
@[simp] theorem exec_seBtsti (rx : Gpr) (ui5 : BitVec 5) : exec (.seBtsti rx ui5) s = execSeBtsti rx ui5 s := rfl
@[simp] theorem exec_seSrwi (rx : Gpr) (ui5 : BitVec 5) : exec (.seSrwi rx ui5) s = execSeSrwi rx ui5 s := rfl
@[simp] theorem exec_seSrawi (rx : Gpr) (ui5 : BitVec 5) : exec (.seSrawi rx ui5) s = execSeSrawi rx ui5 s := rfl
@[simp] theorem exec_seSlwi (rx : Gpr) (ui5 : BitVec 5) : exec (.seSlwi rx ui5) s = execSeSlwi rx ui5 s := rfl
@[simp] theorem exec_seLi (rx : Gpr) (ui7 : BitVec 7) : exec (.seLi rx ui7) s = execSeLi rx ui7 s := rfl
@[simp] theorem exec_seLbz (rz : Gpr) (sd4 : BitVec 4) (rx : Gpr) : exec (.seLbz rz sd4 rx) s = execSeLbz rz sd4 rx s := rfl
@[simp] theorem exec_seStb (rz : Gpr) (sd4 : BitVec 4) (rx : Gpr) : exec (.seStb rz sd4 rx) s = execSeStb rz sd4 rx s := rfl
@[simp] theorem exec_seLhz (rz : Gpr) (sd4 : BitVec 4) (rx : Gpr) : exec (.seLhz rz sd4 rx) s = execSeLhz rz sd4 rx s := rfl
@[simp] theorem exec_seSth (rz : Gpr) (sd4 : BitVec 4) (rx : Gpr) : exec (.seSth rz sd4 rx) s = execSeSth rz sd4 rx s := rfl
@[simp] theorem exec_seLwz (rz : Gpr) (sd4 : BitVec 4) (rx : Gpr) : exec (.seLwz rz sd4 rx) s = execSeLwz rz sd4 rx s := rfl
@[simp] theorem exec_seStw (rz : Gpr) (sd4 : BitVec 4) (rx : Gpr) : exec (.seStw rz sd4 rx) s = execSeStw rz sd4 rx s := rfl
@[simp] theorem exec_seB (bd8 : BitVec 8) (lk : Bool) : exec (.seB bd8 lk) s = execSeB bd8 lk s := rfl
@[simp] theorem exec_seBc (bo16 : Bool) (bi16 : BitVec 2) (bd8 : BitVec 8) : exec (.seBc bo16 bi16 bd8) s = execSeBc bo16 bi16 bd8 s := rfl
@[simp] theorem exec_eLbz (rd : Gpr) (d : BitVec 16) (ra : Gpr) : exec (.eLbz rd d ra) s = execELbz rd d ra s := rfl
@[simp] theorem exec_eStb (rs : Gpr) (d : BitVec 16) (ra : Gpr) : exec (.eStb rs d ra) s = execEStb rs d ra s := rfl
@[simp] theorem exec_eLha (rd : Gpr) (d : BitVec 16) (ra : Gpr) : exec (.eLha rd d ra) s = execELha rd d ra s := rfl
@[simp] theorem exec_eLwz (rd : Gpr) (d : BitVec 16) (ra : Gpr) : exec (.eLwz rd d ra) s = execELwz rd d ra s := rfl
@[simp] theorem exec_eStw (rs : Gpr) (d : BitVec 16) (ra : Gpr) : exec (.eStw rs d ra) s = execEStw rs d ra s := rfl
@[simp] theorem exec_eLhz (rd : Gpr) (d : BitVec 16) (ra : Gpr) : exec (.eLhz rd d ra) s = execELhz rd d ra s := rfl
@[simp] theorem exec_eSth (rs : Gpr) (d : BitVec 16) (ra : Gpr) : exec (.eSth rs d ra) s = execESth rs d ra s := rfl
@[simp] theorem exec_eAdd16i (rd ra : Gpr) (si : BitVec 16) : exec (.eAdd16i rd ra si) s = execEAdd16i rd ra si s := rfl
@[simp] theorem exec_eLbzu (rd : Gpr) (d8 : BitVec 8) (ra : Gpr) : exec (.eLbzu rd d8 ra) s = execELbzu rd d8 ra s := rfl
@[simp] theorem exec_eLhzu (rd : Gpr) (d8 : BitVec 8) (ra : Gpr) : exec (.eLhzu rd d8 ra) s = execELhzu rd d8 ra s := rfl
@[simp] theorem exec_eLwzu (rd : Gpr) (d8 : BitVec 8) (ra : Gpr) : exec (.eLwzu rd d8 ra) s = execELwzu rd d8 ra s := rfl
@[simp] theorem exec_eLhau (rd : Gpr) (d8 : BitVec 8) (ra : Gpr) : exec (.eLhau rd d8 ra) s = execELhau rd d8 ra s := rfl
@[simp] theorem exec_eStbu (rs : Gpr) (d8 : BitVec 8) (ra : Gpr) : exec (.eStbu rs d8 ra) s = execEStbu rs d8 ra s := rfl
@[simp] theorem exec_eSthu (rs : Gpr) (d8 : BitVec 8) (ra : Gpr) : exec (.eSthu rs d8 ra) s = execESthu rs d8 ra s := rfl
@[simp] theorem exec_eStwu (rs : Gpr) (d8 : BitVec 8) (ra : Gpr) : exec (.eStwu rs d8 ra) s = execEStwu rs d8 ra s := rfl
@[simp] theorem exec_eLmw (rd : Gpr) (d8 : BitVec 8) (ra : Gpr) : exec (.eLmw rd d8 ra) s = execELmw rd d8 ra s := rfl
@[simp] theorem exec_eStmw (rs : Gpr) (d8 : BitVec 8) (ra : Gpr) : exec (.eStmw rs d8 ra) s = execEStmw rs d8 ra s := rfl
@[simp] theorem exec_eAddi (rd ra : Gpr) (f : Bool) (scl : BitVec 2) (ui8 : BitVec 8) (rc : Bool) : exec (.eAddi rd ra f scl ui8 rc) s = execEAddi rd ra f scl ui8 rc s := rfl
@[simp] theorem exec_eAddic (rd ra : Gpr) (f : Bool) (scl : BitVec 2) (ui8 : BitVec 8) (rc : Bool) : exec (.eAddic rd ra f scl ui8 rc) s = execEAddic rd ra f scl ui8 rc s := rfl
@[simp] theorem exec_eMulli (rd ra : Gpr) (f : Bool) (scl : BitVec 2) (ui8 : BitVec 8) : exec (.eMulli rd ra f scl ui8) s = execEMulli rd ra f scl ui8 s := rfl
@[simp] theorem exec_eCmpi (crf : BitVec 2) (ra : Gpr) (f : Bool) (scl : BitVec 2) (ui8 : BitVec 8) : exec (.eCmpi crf ra f scl ui8) s = execECmpi crf ra f scl ui8 s := rfl
@[simp] theorem exec_eCmpli (crf : BitVec 2) (ra : Gpr) (f : Bool) (scl : BitVec 2) (ui8 : BitVec 8) : exec (.eCmpli crf ra f scl ui8) s = execECmpli crf ra f scl ui8 s := rfl
@[simp] theorem exec_eSubfic (rd ra : Gpr) (f : Bool) (scl : BitVec 2) (ui8 : BitVec 8) (rc : Bool) : exec (.eSubfic rd ra f scl ui8 rc) s = execESubfic rd ra f scl ui8 rc s := rfl
@[simp] theorem exec_eAndi (ra rs : Gpr) (f : Bool) (scl : BitVec 2) (ui8 : BitVec 8) (rc : Bool) : exec (.eAndi ra rs f scl ui8 rc) s = execEAndi ra rs f scl ui8 rc s := rfl
@[simp] theorem exec_eOri (ra rs : Gpr) (f : Bool) (scl : BitVec 2) (ui8 : BitVec 8) (rc : Bool) : exec (.eOri ra rs f scl ui8 rc) s = execEOri ra rs f scl ui8 rc s := rfl
@[simp] theorem exec_eXori (ra rs : Gpr) (f : Bool) (scl : BitVec 2) (ui8 : BitVec 8) (rc : Bool) : exec (.eXori ra rs f scl ui8 rc) s = execEXori ra rs f scl ui8 rc s := rfl
@[simp] theorem exec_eLi (rd : Gpr) (li20 : BitVec 20) : exec (.eLi rd li20) s = execELi rd li20 s := rfl
@[simp] theorem exec_eAdd2iDot (ra : Gpr) (si : BitVec 16) : exec (.eAdd2iDot ra si) s = execEAdd2iDot ra si s := rfl
@[simp] theorem exec_eAdd2is (ra : Gpr) (si : BitVec 16) : exec (.eAdd2is ra si) s = execEAdd2is ra si s := rfl
@[simp] theorem exec_eCmp16i (ra : Gpr) (si : BitVec 16) : exec (.eCmp16i ra si) s = execECmp16i ra si s := rfl
@[simp] theorem exec_eMull2i (ra : Gpr) (si : BitVec 16) : exec (.eMull2i ra si) s = execEMull2i ra si s := rfl
@[simp] theorem exec_eCmpl16i (ra : Gpr) (ui : BitVec 16) : exec (.eCmpl16i ra ui) s = execECmpl16i ra ui s := rfl
@[simp] theorem exec_eCmph16i (ra : Gpr) (si : BitVec 16) : exec (.eCmph16i ra si) s = execECmph16i ra si s := rfl
@[simp] theorem exec_eCmphl16i (ra : Gpr) (ui : BitVec 16) : exec (.eCmphl16i ra ui) s = execECmphl16i ra ui s := rfl
@[simp] theorem exec_eOr2i (rd : Gpr) (ui : BitVec 16) : exec (.eOr2i rd ui) s = execEOr2i rd ui s := rfl
@[simp] theorem exec_eAnd2iDot (rd : Gpr) (ui : BitVec 16) : exec (.eAnd2iDot rd ui) s = execEAnd2iDot rd ui s := rfl
@[simp] theorem exec_eOr2is (rd : Gpr) (ui : BitVec 16) : exec (.eOr2is rd ui) s = execEOr2is rd ui s := rfl
@[simp] theorem exec_eLis (rd : Gpr) (ui : BitVec 16) : exec (.eLis rd ui) s = execELis rd ui s := rfl
@[simp] theorem exec_eAnd2isDot (rd : Gpr) (ui : BitVec 16) : exec (.eAnd2isDot rd ui) s = execEAnd2isDot rd ui s := rfl
@[simp] theorem exec_eRlwimi (ra rs : Gpr) (sh mb me : BitVec 5) : exec (.eRlwimi ra rs sh mb me) s = execERlwimi ra rs sh mb me s := rfl
@[simp] theorem exec_eRlwinm (ra rs : Gpr) (sh mb me : BitVec 5) : exec (.eRlwinm ra rs sh mb me) s = execERlwinm ra rs sh mb me s := rfl
@[simp] theorem exec_eB (bd24 : BitVec 24) (lk : Bool) : exec (.eB bd24 lk) s = execEB bd24 lk s := rfl
@[simp] theorem exec_eBc (bo32 : BitVec 2) (bi32 : BitVec 4) (bd15 : BitVec 15) (lk : Bool) : exec (.eBc bo32 bi32 bd15 lk) s = execEBc bo32 bi32 bd15 lk s := rfl
@[simp] theorem exec_eCmph (crf : CrField) (ra rb : Gpr) : exec (.eCmph crf ra rb) s = execECmph crf ra rb s := rfl
@[simp] theorem exec_eCmphl (crf : CrField) (ra rb : Gpr) : exec (.eCmphl crf ra rb) s = execECmphl crf ra rb s := rfl
@[simp] theorem exec_eMcrf (crf crs : CrField) : exec (.eMcrf crf crs) s = execEMcrf crf crs s := rfl
@[simp] theorem exec_eCrnor (bt ba bb : CrBit) : exec (.eCrnor bt ba bb) s = execECrnor bt ba bb s := rfl
@[simp] theorem exec_eCrandc (bt ba bb : CrBit) : exec (.eCrandc bt ba bb) s = execECrandc bt ba bb s := rfl
@[simp] theorem exec_eCrxor (bt ba bb : CrBit) : exec (.eCrxor bt ba bb) s = execECrxor bt ba bb s := rfl
@[simp] theorem exec_eCrnand (bt ba bb : CrBit) : exec (.eCrnand bt ba bb) s = execECrnand bt ba bb s := rfl
@[simp] theorem exec_eCrand (bt ba bb : CrBit) : exec (.eCrand bt ba bb) s = execECrand bt ba bb s := rfl
@[simp] theorem exec_eCreqv (bt ba bb : CrBit) : exec (.eCreqv bt ba bb) s = execECreqv bt ba bb s := rfl
@[simp] theorem exec_eCrorc (bt ba bb : CrBit) : exec (.eCrorc bt ba bb) s = execECrorc bt ba bb s := rfl
@[simp] theorem exec_eCror (bt ba bb : CrBit) : exec (.eCror bt ba bb) s = execECror bt ba bb s := rfl
@[simp] theorem exec_eSlwi (ra rs : Gpr) (sh : BitVec 5) (rc : Bool) : exec (.eSlwi ra rs sh rc) s = execESlwi ra rs sh rc s := rfl
@[simp] theorem exec_eRlw (ra rs rb : Gpr) (rc : Bool) : exec (.eRlw ra rs rb rc) s = execERlw ra rs rb rc s := rfl
@[simp] theorem exec_eRlwi (ra rs : Gpr) (sh : BitVec 5) (rc : Bool) : exec (.eRlwi ra rs sh rc) s = execERlwi ra rs sh rc s := rfl
@[simp] theorem exec_eSrwi (ra rs : Gpr) (sh : BitVec 5) (rc : Bool) : exec (.eSrwi ra rs sh rc) s = execESrwi ra rs sh rc s := rfl
@[simp] theorem exec_eDnh (dui : BitVec 5) (duis : BitVec 10) : exec (.eDnh dui duis) s = execEDnh dui duis s := rfl
@[simp] theorem exec_efsabs (rd ra : Gpr) : exec (.efsabs rd ra) s = execEfsabs rd ra s := rfl
@[simp] theorem exec_efsnabs (rd ra : Gpr) : exec (.efsnabs rd ra) s = execEfsnabs rd ra s := rfl
@[simp] theorem exec_efsneg (rd ra : Gpr) : exec (.efsneg rd ra) s = execEfsneg rd ra s := rfl
@[simp] theorem exec_efsadd (rd ra rb : Gpr) : exec (.efsadd rd ra rb) s = execEfsadd rd ra rb s := rfl
@[simp] theorem exec_efssub (rd ra rb : Gpr) : exec (.efssub rd ra rb) s = execEfssub rd ra rb s := rfl
@[simp] theorem exec_efsmul (rd ra rb : Gpr) : exec (.efsmul rd ra rb) s = execEfsmul rd ra rb s := rfl
@[simp] theorem exec_efsdiv (rd ra rb : Gpr) : exec (.efsdiv rd ra rb) s = execEfsdiv rd ra rb s := rfl
@[simp] theorem exec_efsmadd (rd ra rb : Gpr) : exec (.efsmadd rd ra rb) s = execEfsmadd rd ra rb s := rfl
@[simp] theorem exec_efsmsub (rd ra rb : Gpr) : exec (.efsmsub rd ra rb) s = execEfsmsub rd ra rb s := rfl
@[simp] theorem exec_efsnmadd (rd ra rb : Gpr) : exec (.efsnmadd rd ra rb) s = execEfsnmadd rd ra rb s := rfl
@[simp] theorem exec_efsnmsub (rd ra rb : Gpr) : exec (.efsnmsub rd ra rb) s = execEfsnmsub rd ra rb s := rfl
@[simp] theorem exec_efssqrt (rd ra : Gpr) : exec (.efssqrt rd ra) s = execEfssqrt rd ra s := rfl
@[simp] theorem exec_efsmax (rd ra rb : Gpr) : exec (.efsmax rd ra rb) s = execEfsmax rd ra rb s := rfl
@[simp] theorem exec_efsmin (rd ra rb : Gpr) : exec (.efsmin rd ra rb) s = execEfsmin rd ra rb s := rfl
@[simp] theorem exec_efscmpgt (crf : CrField) (ra rb : Gpr) : exec (.efscmpgt crf ra rb) s = execEfscmpgt crf ra rb s := rfl
@[simp] theorem exec_efscmplt (crf : CrField) (ra rb : Gpr) : exec (.efscmplt crf ra rb) s = execEfscmplt crf ra rb s := rfl
@[simp] theorem exec_efscmpeq (crf : CrField) (ra rb : Gpr) : exec (.efscmpeq crf ra rb) s = execEfscmpeq crf ra rb s := rfl
@[simp] theorem exec_efststgt (crf : CrField) (ra rb : Gpr) : exec (.efststgt crf ra rb) s = execEfststgt crf ra rb s := rfl
@[simp] theorem exec_efststlt (crf : CrField) (ra rb : Gpr) : exec (.efststlt crf ra rb) s = execEfststlt crf ra rb s := rfl
@[simp] theorem exec_efststeq (crf : CrField) (ra rb : Gpr) : exec (.efststeq crf ra rb) s = execEfststeq crf ra rb s := rfl
@[simp] theorem exec_efscfsi (rd rb : Gpr) : exec (.efscfsi rd rb) s = execEfscfsi rd rb s := rfl
@[simp] theorem exec_efscfui (rd rb : Gpr) : exec (.efscfui rd rb) s = execEfscfui rd rb s := rfl
@[simp] theorem exec_efscfsf (rd rb : Gpr) : exec (.efscfsf rd rb) s = execEfscfsf rd rb s := rfl
@[simp] theorem exec_efscfuf (rd rb : Gpr) : exec (.efscfuf rd rb) s = execEfscfuf rd rb s := rfl
@[simp] theorem exec_efsctsi (rd rb : Gpr) : exec (.efsctsi rd rb) s = execEfsctsi rd rb s := rfl
@[simp] theorem exec_efsctsiz (rd rb : Gpr) : exec (.efsctsiz rd rb) s = execEfsctsiz rd rb s := rfl
@[simp] theorem exec_efsctui (rd rb : Gpr) : exec (.efsctui rd rb) s = execEfsctui rd rb s := rfl
@[simp] theorem exec_efsctuiz (rd rb : Gpr) : exec (.efsctuiz rd rb) s = execEfsctuiz rd rb s := rfl
@[simp] theorem exec_efsctsf (rd rb : Gpr) : exec (.efsctsf rd rb) s = execEfsctsf rd rb s := rfl
@[simp] theorem exec_efsctuf (rd rb : Gpr) : exec (.efsctuf rd rb) s = execEfsctuf rd rb s := rfl
@[simp] theorem exec_efscfh (rd rb : Gpr) : exec (.efscfh rd rb) s = execEfscfh rd rb s := rfl
@[simp] theorem exec_efscth (rd rb : Gpr) : exec (.efscth rd rb) s = execEfscth rd rb s := rfl
@[simp] theorem exec_evfsabs (rd ra : Gpr) : exec (.evfsabs rd ra) s = execEvfsabs rd ra s := rfl
@[simp] theorem exec_evfsnabs (rd ra : Gpr) : exec (.evfsnabs rd ra) s = execEvfsnabs rd ra s := rfl
@[simp] theorem exec_evfsneg (rd ra : Gpr) : exec (.evfsneg rd ra) s = execEvfsneg rd ra s := rfl
@[simp] theorem exec_evfsadd (rd ra rb : Gpr) : exec (.evfsadd rd ra rb) s = execEvfsadd rd ra rb s := rfl
@[simp] theorem exec_evfssub (rd ra rb : Gpr) : exec (.evfssub rd ra rb) s = execEvfssub rd ra rb s := rfl
@[simp] theorem exec_evfsaddsub (rd ra rb : Gpr) : exec (.evfsaddsub rd ra rb) s = execEvfsaddsub rd ra rb s := rfl
@[simp] theorem exec_evfssubadd (rd ra rb : Gpr) : exec (.evfssubadd rd ra rb) s = execEvfssubadd rd ra rb s := rfl
@[simp] theorem exec_evfsaddx (rd ra rb : Gpr) : exec (.evfsaddx rd ra rb) s = execEvfsaddx rd ra rb s := rfl
@[simp] theorem exec_evfssubx (rd ra rb : Gpr) : exec (.evfssubx rd ra rb) s = execEvfssubx rd ra rb s := rfl
@[simp] theorem exec_evfsaddsubx (rd ra rb : Gpr) : exec (.evfsaddsubx rd ra rb) s = execEvfsaddsubx rd ra rb s := rfl
@[simp] theorem exec_evfssubaddx (rd ra rb : Gpr) : exec (.evfssubaddx rd ra rb) s = execEvfssubaddx rd ra rb s := rfl
@[simp] theorem exec_evfssum (rd ra rb : Gpr) : exec (.evfssum rd ra rb) s = execEvfssum rd ra rb s := rfl
@[simp] theorem exec_evfsdiff (rd ra rb : Gpr) : exec (.evfsdiff rd ra rb) s = execEvfsdiff rd ra rb s := rfl
@[simp] theorem exec_evfssumdiff (rd ra rb : Gpr) : exec (.evfssumdiff rd ra rb) s = execEvfssumdiff rd ra rb s := rfl
@[simp] theorem exec_evfsdiffsum (rd ra rb : Gpr) : exec (.evfsdiffsum rd ra rb) s = execEvfsdiffsum rd ra rb s := rfl
@[simp] theorem exec_evfsmul (rd ra rb : Gpr) : exec (.evfsmul rd ra rb) s = execEvfsmul rd ra rb s := rfl
@[simp] theorem exec_evfsmule (rd ra rb : Gpr) : exec (.evfsmule rd ra rb) s = execEvfsmule rd ra rb s := rfl
@[simp] theorem exec_evfsmulo (rd ra rb : Gpr) : exec (.evfsmulo rd ra rb) s = execEvfsmulo rd ra rb s := rfl
@[simp] theorem exec_evfsmulx (rd ra rb : Gpr) : exec (.evfsmulx rd ra rb) s = execEvfsmulx rd ra rb s := rfl
@[simp] theorem exec_evfsdiv (rd ra rb : Gpr) : exec (.evfsdiv rd ra rb) s = execEvfsdiv rd ra rb s := rfl
@[simp] theorem exec_evfssqrt (rd ra : Gpr) : exec (.evfssqrt rd ra) s = execEvfssqrt rd ra s := rfl
@[simp] theorem exec_evfsmadd (rd ra rb : Gpr) : exec (.evfsmadd rd ra rb) s = execEvfsmadd rd ra rb s := rfl
@[simp] theorem exec_evfsmsub (rd ra rb : Gpr) : exec (.evfsmsub rd ra rb) s = execEvfsmsub rd ra rb s := rfl
@[simp] theorem exec_evfsnmadd (rd ra rb : Gpr) : exec (.evfsnmadd rd ra rb) s = execEvfsnmadd rd ra rb s := rfl
@[simp] theorem exec_evfsnmsub (rd ra rb : Gpr) : exec (.evfsnmsub rd ra rb) s = execEvfsnmsub rd ra rb s := rfl
@[simp] theorem exec_evfsmax (rd ra rb : Gpr) : exec (.evfsmax rd ra rb) s = execEvfsmax rd ra rb s := rfl
@[simp] theorem exec_evfsmin (rd ra rb : Gpr) : exec (.evfsmin rd ra rb) s = execEvfsmin rd ra rb s := rfl
@[simp] theorem exec_evfscmpgt (crf : CrField) (ra rb : Gpr) : exec (.evfscmpgt crf ra rb) s = execEvfscmpgt crf ra rb s := rfl
@[simp] theorem exec_evfscmplt (crf : CrField) (ra rb : Gpr) : exec (.evfscmplt crf ra rb) s = execEvfscmplt crf ra rb s := rfl
@[simp] theorem exec_evfscmpeq (crf : CrField) (ra rb : Gpr) : exec (.evfscmpeq crf ra rb) s = execEvfscmpeq crf ra rb s := rfl
@[simp] theorem exec_evfststgt (crf : CrField) (ra rb : Gpr) : exec (.evfststgt crf ra rb) s = execEvfststgt crf ra rb s := rfl
@[simp] theorem exec_evfststlt (crf : CrField) (ra rb : Gpr) : exec (.evfststlt crf ra rb) s = execEvfststlt crf ra rb s := rfl
@[simp] theorem exec_evfststeq (crf : CrField) (ra rb : Gpr) : exec (.evfststeq crf ra rb) s = execEvfststeq crf ra rb s := rfl
@[simp] theorem exec_evfscfsi (rd rb : Gpr) : exec (.evfscfsi rd rb) s = execEvfscfsi rd rb s := rfl
@[simp] theorem exec_evfscfui (rd rb : Gpr) : exec (.evfscfui rd rb) s = execEvfscfui rd rb s := rfl
@[simp] theorem exec_evfscfsf (rd rb : Gpr) : exec (.evfscfsf rd rb) s = execEvfscfsf rd rb s := rfl
@[simp] theorem exec_evfscfuf (rd rb : Gpr) : exec (.evfscfuf rd rb) s = execEvfscfuf rd rb s := rfl
@[simp] theorem exec_evfsctsi (rd rb : Gpr) : exec (.evfsctsi rd rb) s = execEvfsctsi rd rb s := rfl
@[simp] theorem exec_evfsctsiz (rd rb : Gpr) : exec (.evfsctsiz rd rb) s = execEvfsctsiz rd rb s := rfl
@[simp] theorem exec_evfsctui (rd rb : Gpr) : exec (.evfsctui rd rb) s = execEvfsctui rd rb s := rfl
@[simp] theorem exec_evfsctuiz (rd rb : Gpr) : exec (.evfsctuiz rd rb) s = execEvfsctuiz rd rb s := rfl
@[simp] theorem exec_evfsctsf (rd rb : Gpr) : exec (.evfsctsf rd rb) s = execEvfsctsf rd rb s := rfl
@[simp] theorem exec_evfsctuf (rd rb : Gpr) : exec (.evfsctuf rd rb) s = execEvfsctuf rd rb s := rfl
@[simp] theorem exec_evfscfh (rd rb : Gpr) : exec (.evfscfh rd rb) s = execEvfscfh rd rb s := rfl
@[simp] theorem exec_evfscth (rd rb : Gpr) : exec (.evfscth rd rb) s = execEvfscth rd rb s := rfl
@[simp] theorem exec_brinc (rd ra rb : Gpr) : exec (.brinc rd ra rb) s = execBrinc rd ra rb s := rfl
@[simp] theorem exec_evabs (rd ra : Gpr) : exec (.evabs rd ra) s = execEvabs rd ra s := rfl
@[simp] theorem exec_evaddiw (rd rb : Gpr) (uimm : BitVec 5) : exec (.evaddiw rd rb uimm) s = execEvaddiw rd rb uimm s := rfl
@[simp] theorem exec_evaddw (rd ra rb : Gpr) : exec (.evaddw rd ra rb) s = execEvaddw rd ra rb s := rfl
@[simp] theorem exec_evand (rd ra rb : Gpr) : exec (.evand rd ra rb) s = execEvand rd ra rb s := rfl
@[simp] theorem exec_evandc (rd ra rb : Gpr) : exec (.evandc rd ra rb) s = execEvandc rd ra rb s := rfl
@[simp] theorem exec_evcmpeq (crf : CrField) (ra rb : Gpr) : exec (.evcmpeq crf ra rb) s = execEvcmpeq crf ra rb s := rfl
@[simp] theorem exec_evcmpgts (crf : CrField) (ra rb : Gpr) : exec (.evcmpgts crf ra rb) s = execEvcmpgts crf ra rb s := rfl
@[simp] theorem exec_evcmpgtu (crf : CrField) (ra rb : Gpr) : exec (.evcmpgtu crf ra rb) s = execEvcmpgtu crf ra rb s := rfl
@[simp] theorem exec_evcmplts (crf : CrField) (ra rb : Gpr) : exec (.evcmplts crf ra rb) s = execEvcmplts crf ra rb s := rfl
@[simp] theorem exec_evcmpltu (crf : CrField) (ra rb : Gpr) : exec (.evcmpltu crf ra rb) s = execEvcmpltu crf ra rb s := rfl
@[simp] theorem exec_evcntlsw (rd ra : Gpr) : exec (.evcntlsw rd ra) s = execEvcntlsw rd ra s := rfl
@[simp] theorem exec_evcntlzw (rd ra : Gpr) : exec (.evcntlzw rd ra) s = execEvcntlzw rd ra s := rfl
@[simp] theorem exec_evdivws (rd ra rb : Gpr) : exec (.evdivws rd ra rb) s = execEvdivws rd ra rb s := rfl
@[simp] theorem exec_evdivwu (rd ra rb : Gpr) : exec (.evdivwu rd ra rb) s = execEvdivwu rd ra rb s := rfl
@[simp] theorem exec_eveqv (rd ra rb : Gpr) : exec (.eveqv rd ra rb) s = execEveqv rd ra rb s := rfl
@[simp] theorem exec_evextsb (rd ra : Gpr) : exec (.evextsb rd ra) s = execEvextsb rd ra s := rfl
@[simp] theorem exec_evextsh (rd ra : Gpr) : exec (.evextsh rd ra) s = execEvextsh rd ra s := rfl
@[simp] theorem exec_evmergehi (rd ra rb : Gpr) : exec (.evmergehi rd ra rb) s = execEvmergehi rd ra rb s := rfl
@[simp] theorem exec_evmergehilo (rd ra rb : Gpr) : exec (.evmergehilo rd ra rb) s = execEvmergehilo rd ra rb s := rfl
@[simp] theorem exec_evmergelo (rd ra rb : Gpr) : exec (.evmergelo rd ra rb) s = execEvmergelo rd ra rb s := rfl
@[simp] theorem exec_evmergelohi (rd ra rb : Gpr) : exec (.evmergelohi rd ra rb) s = execEvmergelohi rd ra rb s := rfl
@[simp] theorem exec_evnand (rd ra rb : Gpr) : exec (.evnand rd ra rb) s = execEvnand rd ra rb s := rfl
@[simp] theorem exec_evneg (rd ra : Gpr) : exec (.evneg rd ra) s = execEvneg rd ra s := rfl
@[simp] theorem exec_evnor (rd ra rb : Gpr) : exec (.evnor rd ra rb) s = execEvnor rd ra rb s := rfl
@[simp] theorem exec_evor (rd ra rb : Gpr) : exec (.evor rd ra rb) s = execEvor rd ra rb s := rfl
@[simp] theorem exec_evorc (rd ra rb : Gpr) : exec (.evorc rd ra rb) s = execEvorc rd ra rb s := rfl
@[simp] theorem exec_evrlw (rd ra rb : Gpr) : exec (.evrlw rd ra rb) s = execEvrlw rd ra rb s := rfl
@[simp] theorem exec_evrlwi (rd ra : Gpr) (uimm : BitVec 5) : exec (.evrlwi rd ra uimm) s = execEvrlwi rd ra uimm s := rfl
@[simp] theorem exec_evrndw (rd ra : Gpr) : exec (.evrndw rd ra) s = execEvrndw rd ra s := rfl
@[simp] theorem exec_evsel (rd ra rb : Gpr) (crs : CrField) : exec (.evsel rd ra rb crs) s = execEvsel rd ra rb crs s := rfl
@[simp] theorem exec_evslw (rd ra rb : Gpr) : exec (.evslw rd ra rb) s = execEvslw rd ra rb s := rfl
@[simp] theorem exec_evslwi (rd ra : Gpr) (uimm : BitVec 5) : exec (.evslwi rd ra uimm) s = execEvslwi rd ra uimm s := rfl
@[simp] theorem exec_evsplatfi (rd : Gpr) (simm : BitVec 5) : exec (.evsplatfi rd simm) s = execEvsplatfi rd simm s := rfl
@[simp] theorem exec_evsplati (rd : Gpr) (simm : BitVec 5) : exec (.evsplati rd simm) s = execEvsplati rd simm s := rfl
@[simp] theorem exec_evsrwis (rd ra : Gpr) (uimm : BitVec 5) : exec (.evsrwis rd ra uimm) s = execEvsrwis rd ra uimm s := rfl
@[simp] theorem exec_evsrwiu (rd ra : Gpr) (uimm : BitVec 5) : exec (.evsrwiu rd ra uimm) s = execEvsrwiu rd ra uimm s := rfl
@[simp] theorem exec_evsrws (rd ra rb : Gpr) : exec (.evsrws rd ra rb) s = execEvsrws rd ra rb s := rfl
@[simp] theorem exec_evsrwu (rd ra rb : Gpr) : exec (.evsrwu rd ra rb) s = execEvsrwu rd ra rb s := rfl
@[simp] theorem exec_evsubfw (rd ra rb : Gpr) : exec (.evsubfw rd ra rb) s = execEvsubfw rd ra rb s := rfl
@[simp] theorem exec_evsubifw (rd : Gpr) (uimm : BitVec 5) (rb : Gpr) : exec (.evsubifw rd uimm rb) s = execEvsubifw rd uimm rb s := rfl
@[simp] theorem exec_evxor (rd ra rb : Gpr) : exec (.evxor rd ra rb) s = execEvxor rd ra rb s := rfl
@[simp] theorem exec_evmra (rd ra : Gpr) : exec (.evmra rd ra) s = execEvmra rd ra s := rfl
@[simp] theorem exec_evmhegsmfaa (rd ra rb : Gpr) : exec (.evmhegsmfaa rd ra rb) s = execEvmhegsmfaa rd ra rb s := rfl
@[simp] theorem exec_evmhegsmfan (rd ra rb : Gpr) : exec (.evmhegsmfan rd ra rb) s = execEvmhegsmfan rd ra rb s := rfl
@[simp] theorem exec_evmhegsmiaa (rd ra rb : Gpr) : exec (.evmhegsmiaa rd ra rb) s = execEvmhegsmiaa rd ra rb s := rfl
@[simp] theorem exec_evmhegsmian (rd ra rb : Gpr) : exec (.evmhegsmian rd ra rb) s = execEvmhegsmian rd ra rb s := rfl
@[simp] theorem exec_evmhegumiaa (rd ra rb : Gpr) : exec (.evmhegumiaa rd ra rb) s = execEvmhegumiaa rd ra rb s := rfl
@[simp] theorem exec_evmhegumian (rd ra rb : Gpr) : exec (.evmhegumian rd ra rb) s = execEvmhegumian rd ra rb s := rfl
@[simp] theorem exec_evmhesmf (rd ra rb : Gpr) : exec (.evmhesmf rd ra rb) s = execEvmhesmf rd ra rb s := rfl
@[simp] theorem exec_evmhesmfa (rd ra rb : Gpr) : exec (.evmhesmfa rd ra rb) s = execEvmhesmfa rd ra rb s := rfl
@[simp] theorem exec_evmhesmi (rd ra rb : Gpr) : exec (.evmhesmi rd ra rb) s = execEvmhesmi rd ra rb s := rfl
@[simp] theorem exec_evmhesmia (rd ra rb : Gpr) : exec (.evmhesmia rd ra rb) s = execEvmhesmia rd ra rb s := rfl
@[simp] theorem exec_evmhessf (rd ra rb : Gpr) : exec (.evmhessf rd ra rb) s = execEvmhessf rd ra rb s := rfl
@[simp] theorem exec_evmhessfa (rd ra rb : Gpr) : exec (.evmhessfa rd ra rb) s = execEvmhessfa rd ra rb s := rfl
@[simp] theorem exec_evmheumi (rd ra rb : Gpr) : exec (.evmheumi rd ra rb) s = execEvmheumi rd ra rb s := rfl
@[simp] theorem exec_evmheumia (rd ra rb : Gpr) : exec (.evmheumia rd ra rb) s = execEvmheumia rd ra rb s := rfl
@[simp] theorem exec_evmhesmfaaw (rd ra rb : Gpr) : exec (.evmhesmfaaw rd ra rb) s = execEvmhesmfaaw rd ra rb s := rfl
@[simp] theorem exec_evmhesmfanw (rd ra rb : Gpr) : exec (.evmhesmfanw rd ra rb) s = execEvmhesmfanw rd ra rb s := rfl
@[simp] theorem exec_evmhesmiaaw (rd ra rb : Gpr) : exec (.evmhesmiaaw rd ra rb) s = execEvmhesmiaaw rd ra rb s := rfl
@[simp] theorem exec_evmhesmianw (rd ra rb : Gpr) : exec (.evmhesmianw rd ra rb) s = execEvmhesmianw rd ra rb s := rfl
@[simp] theorem exec_evmhessfaaw (rd ra rb : Gpr) : exec (.evmhessfaaw rd ra rb) s = execEvmhessfaaw rd ra rb s := rfl
@[simp] theorem exec_evmhessfanw (rd ra rb : Gpr) : exec (.evmhessfanw rd ra rb) s = execEvmhessfanw rd ra rb s := rfl
@[simp] theorem exec_evmhessiaaw (rd ra rb : Gpr) : exec (.evmhessiaaw rd ra rb) s = execEvmhessiaaw rd ra rb s := rfl
@[simp] theorem exec_evmhessianw (rd ra rb : Gpr) : exec (.evmhessianw rd ra rb) s = execEvmhessianw rd ra rb s := rfl
@[simp] theorem exec_evmheumiaaw (rd ra rb : Gpr) : exec (.evmheumiaaw rd ra rb) s = execEvmheumiaaw rd ra rb s := rfl
@[simp] theorem exec_evmheumianw (rd ra rb : Gpr) : exec (.evmheumianw rd ra rb) s = execEvmheumianw rd ra rb s := rfl
@[simp] theorem exec_evmheusiaaw (rd ra rb : Gpr) : exec (.evmheusiaaw rd ra rb) s = execEvmheusiaaw rd ra rb s := rfl
@[simp] theorem exec_evmheusianw (rd ra rb : Gpr) : exec (.evmheusianw rd ra rb) s = execEvmheusianw rd ra rb s := rfl
@[simp] theorem exec_evmhogsmfaa (rd ra rb : Gpr) : exec (.evmhogsmfaa rd ra rb) s = execEvmhogsmfaa rd ra rb s := rfl
@[simp] theorem exec_evmhogsmfan (rd ra rb : Gpr) : exec (.evmhogsmfan rd ra rb) s = execEvmhogsmfan rd ra rb s := rfl
@[simp] theorem exec_evmhogsmiaa (rd ra rb : Gpr) : exec (.evmhogsmiaa rd ra rb) s = execEvmhogsmiaa rd ra rb s := rfl
@[simp] theorem exec_evmhogsmian (rd ra rb : Gpr) : exec (.evmhogsmian rd ra rb) s = execEvmhogsmian rd ra rb s := rfl
@[simp] theorem exec_evmhogumiaa (rd ra rb : Gpr) : exec (.evmhogumiaa rd ra rb) s = execEvmhogumiaa rd ra rb s := rfl
@[simp] theorem exec_evmhogumian (rd ra rb : Gpr) : exec (.evmhogumian rd ra rb) s = execEvmhogumian rd ra rb s := rfl
@[simp] theorem exec_evmhosmf (rd ra rb : Gpr) : exec (.evmhosmf rd ra rb) s = execEvmhosmf rd ra rb s := rfl
@[simp] theorem exec_evmhosmfa (rd ra rb : Gpr) : exec (.evmhosmfa rd ra rb) s = execEvmhosmfa rd ra rb s := rfl
@[simp] theorem exec_evmhosmi (rd ra rb : Gpr) : exec (.evmhosmi rd ra rb) s = execEvmhosmi rd ra rb s := rfl
@[simp] theorem exec_evmhosmia (rd ra rb : Gpr) : exec (.evmhosmia rd ra rb) s = execEvmhosmia rd ra rb s := rfl
@[simp] theorem exec_evmhossf (rd ra rb : Gpr) : exec (.evmhossf rd ra rb) s = execEvmhossf rd ra rb s := rfl
@[simp] theorem exec_evmhossfa (rd ra rb : Gpr) : exec (.evmhossfa rd ra rb) s = execEvmhossfa rd ra rb s := rfl
@[simp] theorem exec_evmhoumi (rd ra rb : Gpr) : exec (.evmhoumi rd ra rb) s = execEvmhoumi rd ra rb s := rfl
@[simp] theorem exec_evmhoumia (rd ra rb : Gpr) : exec (.evmhoumia rd ra rb) s = execEvmhoumia rd ra rb s := rfl
@[simp] theorem exec_evmhosmfaaw (rd ra rb : Gpr) : exec (.evmhosmfaaw rd ra rb) s = execEvmhosmfaaw rd ra rb s := rfl
@[simp] theorem exec_evmhosmfanw (rd ra rb : Gpr) : exec (.evmhosmfanw rd ra rb) s = execEvmhosmfanw rd ra rb s := rfl
@[simp] theorem exec_evmhosmiaaw (rd ra rb : Gpr) : exec (.evmhosmiaaw rd ra rb) s = execEvmhosmiaaw rd ra rb s := rfl
@[simp] theorem exec_evmhosmianw (rd ra rb : Gpr) : exec (.evmhosmianw rd ra rb) s = execEvmhosmianw rd ra rb s := rfl
@[simp] theorem exec_evmhossfaaw (rd ra rb : Gpr) : exec (.evmhossfaaw rd ra rb) s = execEvmhossfaaw rd ra rb s := rfl
@[simp] theorem exec_evmhossfanw (rd ra rb : Gpr) : exec (.evmhossfanw rd ra rb) s = execEvmhossfanw rd ra rb s := rfl
@[simp] theorem exec_evmhossiaaw (rd ra rb : Gpr) : exec (.evmhossiaaw rd ra rb) s = execEvmhossiaaw rd ra rb s := rfl
@[simp] theorem exec_evmhossianw (rd ra rb : Gpr) : exec (.evmhossianw rd ra rb) s = execEvmhossianw rd ra rb s := rfl
@[simp] theorem exec_evmhoumiaaw (rd ra rb : Gpr) : exec (.evmhoumiaaw rd ra rb) s = execEvmhoumiaaw rd ra rb s := rfl
@[simp] theorem exec_evmhoumianw (rd ra rb : Gpr) : exec (.evmhoumianw rd ra rb) s = execEvmhoumianw rd ra rb s := rfl
@[simp] theorem exec_evmhousiaaw (rd ra rb : Gpr) : exec (.evmhousiaaw rd ra rb) s = execEvmhousiaaw rd ra rb s := rfl
@[simp] theorem exec_evmhousianw (rd ra rb : Gpr) : exec (.evmhousianw rd ra rb) s = execEvmhousianw rd ra rb s := rfl
@[simp] theorem exec_evmwhsmf (rd ra rb : Gpr) : exec (.evmwhsmf rd ra rb) s = execEvmwhsmf rd ra rb s := rfl
@[simp] theorem exec_evmwhsmfa (rd ra rb : Gpr) : exec (.evmwhsmfa rd ra rb) s = execEvmwhsmfa rd ra rb s := rfl
@[simp] theorem exec_evmwhsmi (rd ra rb : Gpr) : exec (.evmwhsmi rd ra rb) s = execEvmwhsmi rd ra rb s := rfl
@[simp] theorem exec_evmwhsmia (rd ra rb : Gpr) : exec (.evmwhsmia rd ra rb) s = execEvmwhsmia rd ra rb s := rfl
@[simp] theorem exec_evmwhssf (rd ra rb : Gpr) : exec (.evmwhssf rd ra rb) s = execEvmwhssf rd ra rb s := rfl
@[simp] theorem exec_evmwhssfa (rd ra rb : Gpr) : exec (.evmwhssfa rd ra rb) s = execEvmwhssfa rd ra rb s := rfl
@[simp] theorem exec_evmwhumi (rd ra rb : Gpr) : exec (.evmwhumi rd ra rb) s = execEvmwhumi rd ra rb s := rfl
@[simp] theorem exec_evmwhumia (rd ra rb : Gpr) : exec (.evmwhumia rd ra rb) s = execEvmwhumia rd ra rb s := rfl
@[simp] theorem exec_evmwlumi (rd ra rb : Gpr) : exec (.evmwlumi rd ra rb) s = execEvmwlumi rd ra rb s := rfl
@[simp] theorem exec_evmwlumia (rd ra rb : Gpr) : exec (.evmwlumia rd ra rb) s = execEvmwlumia rd ra rb s := rfl
@[simp] theorem exec_evmwlsmiaaw (rd ra rb : Gpr) : exec (.evmwlsmiaaw rd ra rb) s = execEvmwlsmiaaw rd ra rb s := rfl
@[simp] theorem exec_evmwlsmianw (rd ra rb : Gpr) : exec (.evmwlsmianw rd ra rb) s = execEvmwlsmianw rd ra rb s := rfl
@[simp] theorem exec_evmwlssiaaw (rd ra rb : Gpr) : exec (.evmwlssiaaw rd ra rb) s = execEvmwlssiaaw rd ra rb s := rfl
@[simp] theorem exec_evmwlssianw (rd ra rb : Gpr) : exec (.evmwlssianw rd ra rb) s = execEvmwlssianw rd ra rb s := rfl
@[simp] theorem exec_evmwlumiaaw (rd ra rb : Gpr) : exec (.evmwlumiaaw rd ra rb) s = execEvmwlumiaaw rd ra rb s := rfl
@[simp] theorem exec_evmwlumianw (rd ra rb : Gpr) : exec (.evmwlumianw rd ra rb) s = execEvmwlumianw rd ra rb s := rfl
@[simp] theorem exec_evmwlusiaaw (rd ra rb : Gpr) : exec (.evmwlusiaaw rd ra rb) s = execEvmwlusiaaw rd ra rb s := rfl
@[simp] theorem exec_evmwlusianw (rd ra rb : Gpr) : exec (.evmwlusianw rd ra rb) s = execEvmwlusianw rd ra rb s := rfl
@[simp] theorem exec_evmwsmf (rd ra rb : Gpr) : exec (.evmwsmf rd ra rb) s = execEvmwsmf rd ra rb s := rfl
@[simp] theorem exec_evmwsmfa (rd ra rb : Gpr) : exec (.evmwsmfa rd ra rb) s = execEvmwsmfa rd ra rb s := rfl
@[simp] theorem exec_evmwsmfaa (rd ra rb : Gpr) : exec (.evmwsmfaa rd ra rb) s = execEvmwsmfaa rd ra rb s := rfl
@[simp] theorem exec_evmwsmfan (rd ra rb : Gpr) : exec (.evmwsmfan rd ra rb) s = execEvmwsmfan rd ra rb s := rfl
@[simp] theorem exec_evmwsmi (rd ra rb : Gpr) : exec (.evmwsmi rd ra rb) s = execEvmwsmi rd ra rb s := rfl
@[simp] theorem exec_evmwsmia (rd ra rb : Gpr) : exec (.evmwsmia rd ra rb) s = execEvmwsmia rd ra rb s := rfl
@[simp] theorem exec_evmwsmiaa (rd ra rb : Gpr) : exec (.evmwsmiaa rd ra rb) s = execEvmwsmiaa rd ra rb s := rfl
@[simp] theorem exec_evmwsmian (rd ra rb : Gpr) : exec (.evmwsmian rd ra rb) s = execEvmwsmian rd ra rb s := rfl
@[simp] theorem exec_evmwssf (rd ra rb : Gpr) : exec (.evmwssf rd ra rb) s = execEvmwssf rd ra rb s := rfl
@[simp] theorem exec_evmwssfa (rd ra rb : Gpr) : exec (.evmwssfa rd ra rb) s = execEvmwssfa rd ra rb s := rfl
@[simp] theorem exec_evmwssfaa (rd ra rb : Gpr) : exec (.evmwssfaa rd ra rb) s = execEvmwssfaa rd ra rb s := rfl
@[simp] theorem exec_evmwssfan (rd ra rb : Gpr) : exec (.evmwssfan rd ra rb) s = execEvmwssfan rd ra rb s := rfl
@[simp] theorem exec_evmwumi (rd ra rb : Gpr) : exec (.evmwumi rd ra rb) s = execEvmwumi rd ra rb s := rfl
@[simp] theorem exec_evmwumia (rd ra rb : Gpr) : exec (.evmwumia rd ra rb) s = execEvmwumia rd ra rb s := rfl
@[simp] theorem exec_evmwumiaa (rd ra rb : Gpr) : exec (.evmwumiaa rd ra rb) s = execEvmwumiaa rd ra rb s := rfl
@[simp] theorem exec_evmwumian (rd ra rb : Gpr) : exec (.evmwumian rd ra rb) s = execEvmwumian rd ra rb s := rfl
@[simp] theorem exec_evaddsmiaaw (rd ra : Gpr) : exec (.evaddsmiaaw rd ra) s = execEvaddsmiaaw rd ra s := rfl
@[simp] theorem exec_evaddssiaaw (rd ra : Gpr) : exec (.evaddssiaaw rd ra) s = execEvaddssiaaw rd ra s := rfl
@[simp] theorem exec_evaddumiaaw (rd ra : Gpr) : exec (.evaddumiaaw rd ra) s = execEvaddumiaaw rd ra s := rfl
@[simp] theorem exec_evaddusiaaw (rd ra : Gpr) : exec (.evaddusiaaw rd ra) s = execEvaddusiaaw rd ra s := rfl
@[simp] theorem exec_evsubfsmiaaw (rd ra : Gpr) : exec (.evsubfsmiaaw rd ra) s = execEvsubfsmiaaw rd ra s := rfl
@[simp] theorem exec_evsubfssiaaw (rd ra : Gpr) : exec (.evsubfssiaaw rd ra) s = execEvsubfssiaaw rd ra s := rfl
@[simp] theorem exec_evsubfumiaaw (rd ra : Gpr) : exec (.evsubfumiaaw rd ra) s = execEvsubfumiaaw rd ra s := rfl
@[simp] theorem exec_evsubfusiaaw (rd ra : Gpr) : exec (.evsubfusiaaw rd ra) s = execEvsubfusiaaw rd ra s := rfl
@[simp] theorem exec_evldd (rd : Gpr) (uimm : BitVec 5) (ra : Gpr) : exec (.evldd rd uimm ra) s = execEvldd rd uimm ra s := rfl
@[simp] theorem exec_evlddx (rd ra rb : Gpr) : exec (.evlddx rd ra rb) s = execEvlddx rd ra rb s := rfl
@[simp] theorem exec_evldw (rd : Gpr) (uimm : BitVec 5) (ra : Gpr) : exec (.evldw rd uimm ra) s = execEvldw rd uimm ra s := rfl
@[simp] theorem exec_evldwx (rd ra rb : Gpr) : exec (.evldwx rd ra rb) s = execEvldwx rd ra rb s := rfl
@[simp] theorem exec_evldh (rd : Gpr) (uimm : BitVec 5) (ra : Gpr) : exec (.evldh rd uimm ra) s = execEvldh rd uimm ra s := rfl
@[simp] theorem exec_evldhx (rd ra rb : Gpr) : exec (.evldhx rd ra rb) s = execEvldhx rd ra rb s := rfl
@[simp] theorem exec_evlhhesplat (rd : Gpr) (uimm : BitVec 5) (ra : Gpr) : exec (.evlhhesplat rd uimm ra) s = execEvlhhesplat rd uimm ra s := rfl
@[simp] theorem exec_evlhhesplatx (rd ra rb : Gpr) : exec (.evlhhesplatx rd ra rb) s = execEvlhhesplatx rd ra rb s := rfl
@[simp] theorem exec_evlhhousplat (rd : Gpr) (uimm : BitVec 5) (ra : Gpr) : exec (.evlhhousplat rd uimm ra) s = execEvlhhousplat rd uimm ra s := rfl
@[simp] theorem exec_evlhhousplatx (rd ra rb : Gpr) : exec (.evlhhousplatx rd ra rb) s = execEvlhhousplatx rd ra rb s := rfl
@[simp] theorem exec_evlhhossplat (rd : Gpr) (uimm : BitVec 5) (ra : Gpr) : exec (.evlhhossplat rd uimm ra) s = execEvlhhossplat rd uimm ra s := rfl
@[simp] theorem exec_evlhhossplatx (rd ra rb : Gpr) : exec (.evlhhossplatx rd ra rb) s = execEvlhhossplatx rd ra rb s := rfl
@[simp] theorem exec_evlwhe (rd : Gpr) (uimm : BitVec 5) (ra : Gpr) : exec (.evlwhe rd uimm ra) s = execEvlwhe rd uimm ra s := rfl
@[simp] theorem exec_evlwhex (rd ra rb : Gpr) : exec (.evlwhex rd ra rb) s = execEvlwhex rd ra rb s := rfl
@[simp] theorem exec_evlwhou (rd : Gpr) (uimm : BitVec 5) (ra : Gpr) : exec (.evlwhou rd uimm ra) s = execEvlwhou rd uimm ra s := rfl
@[simp] theorem exec_evlwhoux (rd ra rb : Gpr) : exec (.evlwhoux rd ra rb) s = execEvlwhoux rd ra rb s := rfl
@[simp] theorem exec_evlwhos (rd : Gpr) (uimm : BitVec 5) (ra : Gpr) : exec (.evlwhos rd uimm ra) s = execEvlwhos rd uimm ra s := rfl
@[simp] theorem exec_evlwhosx (rd ra rb : Gpr) : exec (.evlwhosx rd ra rb) s = execEvlwhosx rd ra rb s := rfl
@[simp] theorem exec_evlwwsplat (rd : Gpr) (uimm : BitVec 5) (ra : Gpr) : exec (.evlwwsplat rd uimm ra) s = execEvlwwsplat rd uimm ra s := rfl
@[simp] theorem exec_evlwwsplatx (rd ra rb : Gpr) : exec (.evlwwsplatx rd ra rb) s = execEvlwwsplatx rd ra rb s := rfl
@[simp] theorem exec_evlwhsplat (rd : Gpr) (uimm : BitVec 5) (ra : Gpr) : exec (.evlwhsplat rd uimm ra) s = execEvlwhsplat rd uimm ra s := rfl
@[simp] theorem exec_evlwhsplatx (rd ra rb : Gpr) : exec (.evlwhsplatx rd ra rb) s = execEvlwhsplatx rd ra rb s := rfl
@[simp] theorem exec_evstdd (rs : Gpr) (uimm : BitVec 5) (ra : Gpr) : exec (.evstdd rs uimm ra) s = execEvstdd rs uimm ra s := rfl
@[simp] theorem exec_evstddx (rs ra rb : Gpr) : exec (.evstddx rs ra rb) s = execEvstddx rs ra rb s := rfl
@[simp] theorem exec_evstdw (rs : Gpr) (uimm : BitVec 5) (ra : Gpr) : exec (.evstdw rs uimm ra) s = execEvstdw rs uimm ra s := rfl
@[simp] theorem exec_evstdwx (rs ra rb : Gpr) : exec (.evstdwx rs ra rb) s = execEvstdwx rs ra rb s := rfl
@[simp] theorem exec_evstdh (rs : Gpr) (uimm : BitVec 5) (ra : Gpr) : exec (.evstdh rs uimm ra) s = execEvstdh rs uimm ra s := rfl
@[simp] theorem exec_evstdhx (rs ra rb : Gpr) : exec (.evstdhx rs ra rb) s = execEvstdhx rs ra rb s := rfl
@[simp] theorem exec_evstwhe (rs : Gpr) (uimm : BitVec 5) (ra : Gpr) : exec (.evstwhe rs uimm ra) s = execEvstwhe rs uimm ra s := rfl
@[simp] theorem exec_evstwhex (rs ra rb : Gpr) : exec (.evstwhex rs ra rb) s = execEvstwhex rs ra rb s := rfl
@[simp] theorem exec_evstwho (rs : Gpr) (uimm : BitVec 5) (ra : Gpr) : exec (.evstwho rs uimm ra) s = execEvstwho rs uimm ra s := rfl
@[simp] theorem exec_evstwhox (rs ra rb : Gpr) : exec (.evstwhox rs ra rb) s = execEvstwhox rs ra rb s := rfl
@[simp] theorem exec_evstwwe (rs : Gpr) (uimm : BitVec 5) (ra : Gpr) : exec (.evstwwe rs uimm ra) s = execEvstwwe rs uimm ra s := rfl
@[simp] theorem exec_evstwwex (rs ra rb : Gpr) : exec (.evstwwex rs ra rb) s = execEvstwwex rs ra rb s := rfl
@[simp] theorem exec_evstwwo (rs : Gpr) (uimm : BitVec 5) (ra : Gpr) : exec (.evstwwo rs uimm ra) s = execEvstwwo rs uimm ra s := rfl
@[simp] theorem exec_evstwwox (rs ra rb : Gpr) : exec (.evstwwox rs ra rb) s = execEvstwwox rs ra rb s := rfl
@[simp] theorem exec_mfpmr (rd : Gpr) (pmrn : BitVec 10) : exec (.mfpmr rd pmrn) s = execMfpmr rd pmrn s := rfl
@[simp] theorem exec_mtpmr (pmrn : BitVec 10) (rs : Gpr) : exec (.mtpmr pmrn rs) s = execMtpmr pmrn rs s := rfl

end Sys2Proof.Machine
end

