-- ==== Sys2Proof/Laws/Step.lean ====
section
/-! SUPPORT. What a step does round an instruction where no input arrives and no debug mode is on, each said once. -/

namespace Sys2Proof.Machine

/-- The events cleared at the beginning of a step. -/
def State.fresh (s : State) : State := { s with ev := Ev.none }

variable {s : State}

/-- With an idle performance monitor no watchpoint is carried over. -/
theorem clearEvents_quiet (h : s.pm.quiet = true) : s.clearEvents = s.fresh := by simp [State.clearEvents, State.fresh, h, Ev.none]

/-- The beginning of an idle step only clears the events of the step before. -/
theorem begin_idle (h : s.Idle) : s.begin = s.fresh := by
  obtain ⟨h1, h2, h3⟩ := h.running
  have hi : s.fresh.takeInputs = s.fresh := by simp [State.takeInputs, State.fresh, h.noInput]
  have hp : s.fresh.powerStep = s.fresh := by simp [State.powerStep, State.fresh, h1, h2, h3, h.noSession]
  have hb : s.fresh.settleBuffers = s.fresh := settleBuffers_empty h.noWork.1 h.noWork.2.1
  have hr : s.fresh.resetAsked = false := h.noReset
  simp only [State.begin, clearEvents_quiet h.noPerf, hi, hp, hb, hr, Bool.false_eq_true, if_false]

/-- Where no debug session has just been left, nothing is blocked: the foremost interrupt is that of the highest priority, a core
that waits stays waiting, and the start of an instruction changes nothing. -/
theorem foremost_normal (h : s.dbg.exiting = false) : s.foremost = s.maskable := by simp [State.foremost, h]
theorem staysWaiting_normal (h : s.dbg.exiting = false) : s.staysWaiting = s.pwr.waiting := by simp [State.staysWaiting, h]
@[simp] theorem started_normal (h : s.dbg.exiting = false) : s.started = s := by simp [State.started, h]
theorem awake_normal (h : s.pwr.waiting = false) : s.awake = s := by simp [State.awake, h]

/-- No input means no reset. -/
theorem interrupted_idle (h : s.env = []) : s.interrupted exec = s := by simp [State.interrupted, h]

/-- No value-compare window is open in a steady state. -/
theorem settleDvc_none (h : s.dbg.dvcPend = none) : s.settleDvc = s := by simp [State.settleDvc, h]

/-- With no debug mode on, the end of a step only adds watchpoints. -/
theorem endDebug_inactive (ha : s.dbg.active = false) (ran : Ran) (hits : List Bool) (t : State) :
    endDebug s ran hits t = { t with ev := { t.ev with wp := t.ev.wp ||| devntWatchpoints t.ev.devnt } } := by
  simp [endDebug, State.debugOn, ha]

/-- With an idle performance monitor that the step left alone, nothing counts. -/
theorem endPerf_quiet (hq : s.pm.quiet = true) (ran : Ran) (t : State) (hp : t.pm = s.pm) : endPerf s ran t = t := by
  simp [endPerf, State.countPerf, hp, hq]

/-- The end of a step of an idle machine leaves what the step left, but for the watchpoints and what a context synchronizing
event ends. -/
theorem endStep_idle (ha : s.dbg.active = false) (hd : s.dbg.dvcPend = none) (hq : s.pm.quiet = true)
    (hs : s.sync = Sync.none) (ran : Ran) (hits : List Bool) (t : State) (hp : t.pm = s.pm) :
    AfterStep ((ran.map Prod.fst).any contextSyncs) t (endStep s ran hits t) := by
  have hu : undone s ran t = false := by simp [undone, hd]
  simp only [endStep, hu, Bool.false_eq_true, if_false, endWindow, hd, endDebug_inactive ha, hs, endSync_none]
  rw [endPerf_quiet hq _ _ (by simpa using hp)]
  simp only [AfterStep]
  split <;> rfl

/-- No debug mode is on in an undebugged state. -/
theorem active_undebugged (h : s.Undebugged) : s.dbg.active = false := by
  simp only [Debug.active, Debug.edm, Debug.idm, h.noDebug.1, h.noDebug.2, Bool.or_self]

/-- Nothing of the highest priority comes first in a steady state. -/
theorem urgent_steady (h : s.Steady) : s.fresh.urgent = none := by
  have hm : s.mcheckPending = false := by
    rcases h.noCheck with h | h
    · simp [State.mcheckPending, h]
    · simp only [State.mcheckPending, State.msrMe, h, Bool.and_false]
  have hf : s.fresh.mcheckPending = false := hm
  have hn : s.fresh.ints.nmiPend = false := h.noNmi
  simp only [State.urgent, hf, hn, Bool.false_eq_true, if_false]

/-- An idle step does what the state asks for once the events of the step before are cleared. -/
theorem step_idle (h : s.Idle) : step s = stepFrom exec s.fresh := by
  have e : (s.interrupted exec).begin.settleDvc = s.fresh := by
    rw [interrupted_idle h.noInput, begin_idle h]
    exact settleDvc_none h.noWindow
  have hy : s.fresh.sync.old = [] := by simp [State.fresh, h.noWork.2.2, Sync.none]
  simp only [step, stepWith, stepNow, e, hy, viewOld_nil]

/-- No window is open in an idle state. -/
theorem noWindow_idle (h : s.Idle) : s.fresh.noWindow = s.fresh := by
  have := h.noWindow
  cases s
  simp only [State.noWindow, State.fresh] at *
  rw [← this]

/-- With no debug mode on, a step takes the interrupt that comes first, or waits, or runs the instruction at the pc. -/
theorem step_undebugged (h : s.Undebugged) :
    step s = match s.fresh.urgent with
      | some t => .next (endStep s.fresh none [] t.noWindow)
      | none => match s.fresh.maskable with
        | some t => .next (endStep s.fresh none [] t)
        | none => if s.pwr.waiting then .next (endStep s.fresh none [] s.fresh) else runInstr exec s.fresh := by
  have hs : s.fresh.suspended = false := by
    simp [State.suspended, State.fresh, h.running.1, h.running.2.1]
  have hn : s.fresh.dbg.halted = false := h.noSession
  have hh : s.fresh.haltPending = false := by
    simp only [State.haltPending, State.fresh, Debug.edm, h.noDebug.1, Bool.false_and]
  have hw : s.fresh.dbg.dvcPend = none := h.noWindow
  rw [step_idle h.toIdle]
  have hx : s.fresh.dbg.exiting = false := h.noExit
  simp only [stepFrom, stepCalm, hs, hh, hn, hw, hx, noWindow_idle h.toIdle, foremost_normal hx, staysWaiting_normal hx,
    started_normal hx, Bool.or_self, Bool.false_and, Option.isSome_none, Bool.false_eq_true, if_false]
  have hp : s.fresh.pwr.waiting = s.pwr.waiting := rfl
  rw [hp]
  cases hv : s.pwr.waiting <;> cases s.fresh.urgent <;> cases s.fresh.maskable <;> simp [awake_normal, hp, hv]

/-- A steady step takes the maskable interrupt that comes first, or waits, or runs the instruction at the pc. -/
theorem step_steady (h : s.Steady) :
    step s = match s.fresh.maskable with
      | some t => .next (endStep s.fresh none [] t)
      | none => if s.pwr.waiting then .next (endStep s.fresh none [] s.fresh) else runInstr exec s.fresh := by
  simp only [step_undebugged h.toUndebugged, urgent_steady h]

/-- No debug, Critical Input or Watchdog interrupt is pending in a steady state. -/
theorem maskable_steady (h : s.Steady) :
    s.fresh.maskable =
      if s.pins.extint && s.msrEe then some (takeInterrupt .externalInput s.pc s.fresh)
      else if s.tmr.tsr.getLsbD 26 && s.tmr.tcr.getLsbD 23 && s.msrEe then some (takeInterrupt .fixedInterval s.pc s.fresh)
      else if s.tmr.tsr.getLsbD 27 && s.tmr.tcr.getLsbD 26 && s.msrEe then some (takeInterrupt .decrementer s.pc s.fresh)
      else none := by
  have hd : s.fresh.debugPending = false := by
    simp only [State.debugPending, State.fresh, Debug.idm, h.noDebug.2, Bool.and_false, Bool.false_and]
  have hp : s.fresh.pm.pending = false := by
    have := h.noPerf
    simp only [PerfMon.quiet, Bool.and_eq_true, beq_iff_eq] at this
    simp [PerfMon.pending, State.fresh, this.1.1]
  have hc : (s.pins.critint && s.msrCe) = false ∧ (s.tmr.tsr.getLsbD 30 && s.tmr.tcr.getLsbD 27 && s.msrCe) = false := by
    rcases h.noCritical with ⟨h1, h2 | h2⟩ | h1
    · simp only [h1, h2, Bool.false_and, and_self]
    · simp only [h1, h2, Bool.and_false, Bool.false_and, and_self]
    · simp only [State.msrCe, h1, Bool.and_false, and_self]
  have e1 : (s.fresh.pins.critint && s.fresh.msrCe) = false := hc.1
  have e2 : (s.fresh.tmr.tsr.getLsbD 30 && s.fresh.tmr.tcr.getLsbD 27 && s.fresh.msrCe) = false := hc.2
  simp only [State.maskable, hd, hp, e1, e2]
  simp only [Bool.false_eq_true, if_false, Bool.false_and]
  rfl

/-- A calm state has nothing to take. -/
theorem maskable_calm (h : s.Calm) : s.fresh.maskable = none := by
  rw [maskable_steady h.toSteady]
  rcases h.noMasked with ⟨h1, h2, h3⟩ | h1
  · have e2 : (s.tmr.tsr.getLsbD 26 && s.tmr.tcr.getLsbD 23) = false := by rcases h2 with h2 | h2 <;> simp only [h2, Bool.and_false, Bool.false_and]
    have e3 : (s.tmr.tsr.getLsbD 27 && s.tmr.tcr.getLsbD 26) = false := by rcases h3 with h3 | h3 <;> simp only [h3, Bool.and_false, Bool.false_and]
    simp only [h1, e2, e3, Bool.false_and, Bool.false_eq_true, if_false]
  · simp only [State.msrEe, h1, Bool.and_false, Bool.false_eq_true, if_false]

/-- A calm step runs the instruction at the pc. -/
theorem step_calm (h : s.Calm) : step s = runInstr exec s.fresh := by
  rw [step_steady h.toSteady, maskable_calm h]
  simp [h.awake]

end Sys2Proof.Machine
end

