-- ==== Sys2Proof/Laws/Fetch.lean ====
section
/-! SUPPORT. A fetch that nothing stands in the way of, and the step it begins, each said once. -/

namespace Sys2Proof.Machine

variable {s : State} {n : Nat} {p : TlbEntry}

/-- The bytes of a plain fetch, read in one piece from its first byte's page. -/
theorem PlainFetch.ra (h : PlainFetch s n p) (off : Nat) (ho : off < n) :
    (p.page (s.pc + BitVec.ofNat 32 off)).ra = (p.page s.pc).ra + BitVec.ofNat 32 off := by
  obtain ⟨i, hi⟩ := h.maps 0 (by omega)
  obtain ⟨j, hj⟩ := h.maps off ho
  rw [BitVec.add_zero] at hi
  exact page_ra_add p s.pc _ (epnMatch_of_hits hi) (epnMatch_of_hits hj)

/-- Instruction bytes read with the cache off and no bus error. -/
theorem fetchBytes_plain {t : State} (hc : t.cacheOn .instr = false) (first : Bool) (a : Word) (q : Page) (k : Nat)
    (hb : ∀ j, j < k → t.busErr (q.ra + BitVec.ofNat 32 j) = false)
    (hd : ∀ j, j < k → t.onDevice (q.ra + BitVec.ofNat 32 j) = false)
    (ho : ∀ j, j < k → cellsAt t.buf.stale (q.ra + BitVec.ofNat 32 j) = []) :
    t.fetchBytes first a q k = .ok (t.mem.bytes q.ra k) t := by
  obtain ⟨h1, h2⟩ := busBytes_plain (k := 0) hd
  have h3 : seenBytes t.free t.buf.stale 0 q.ra (t.mem.bytes q.ra k) = t.mem.bytes q.ra k :=
    seenBytes_plain fun j hj => ho j (by rwa [Memory.bytes_length] at hj)
  simp [State.fetchBytes, State.readBeat, hc, State.busRead, busErrIn_false hb, h1, h2, h3, anyOlder_false ho]

/-- The state of a fetch: the handler's first fetch is done. -/
def State.fetching (s : State) : State := { s with ints := { s.ints with handlerFetch := false } }

/-- A plain fetch of a Book E word. -/
theorem fetch_bookE (h : PlainFetch s 4 p) (hv : p.vle = false) (ha : s.pc.getLsbD 1 = false) :
    s.fetch (some (p.page s.pc)) =
      decodeFetched false (s.codeBytes 4 p)
        { s.fetching with cur := { vle := false, ir := bytesWord (s.codeBytes 4 p) } } := by
  have hal : (p.page s.pc).allows s.fetching.user .fetch = true := h.allowed
  have hv' : (p.page s.pc).vle = false := hv
  have ha' : s.fetching.pc.getLsbD 1 = false := ha
  have hb := fetchBytes_plain (t := s.fetching) h.cacheOff s.ints.handlerFetch s.pc (p.page s.pc) 4 h.answers h.isRam h.fresh
  simp only [State.fetch]
  rw [show ({ s with ints := { s.ints with handlerFetch := false } } : State) = s.fetching from rfl]
  simp only [hal, hv', Bool.not_true, Bool.false_eq_true, if_false, State.fetchBookE]
  rw [show s.fetching.pc = s.pc from rfl, hb]
  simp only [ha, Bool.and_false, Bool.false_eq_true, if_false]
  rfl

/-- A plain fetch of a VLE instruction of two bytes. -/
theorem fetch_vle2 (h : PlainFetch s 2 p) (hv : p.vle = true)
    (hl : vleLong (BitVec.ofNat 16 (bytesNat (s.codeBytes 2 p))) = false) :
    s.fetch (some (p.page s.pc)) =
      decodeFetched true (s.codeBytes 2 p)
        { s.fetching with cur := { vle := true, ir := bytesWord (s.codeBytes 2 p) <<< 16 } } := by
  have he := h.order hv
  have hal : (p.page s.pc).allows s.fetching.user .fetch = true := h.allowed
  have hv' : (p.page s.pc).vle = true := hv
  have he' : (p.page s.pc).e = false := he
  have hb := fetchBytes_plain (t := s.fetching) h.cacheOff s.ints.handlerFetch s.pc (p.page s.pc) 2 h.answers h.isRam h.fresh
  have hc : s.codeBytes 2 p = s.fetching.mem.bytes (p.page s.pc).ra 2 := by simp [State.codeBytes, endian, he]; rfl
  rw [hc] at hl ⊢
  simp only [State.fetch]
  rw [show ({ s with ints := { s.ints with handlerFetch := false } } : State) = s.fetching from rfl]
  simp only [hal, hv', he', Bool.not_true, Bool.false_and, Bool.false_eq_true, if_false, if_true, State.fetchVle]
  rw [show s.fetching.pc = s.pc from rfl, hb]
  simp only [hl, Bool.false_eq_true, if_false]
  rfl

/-- A plain fetch of a VLE instruction of four bytes. -/
theorem fetch_vle4 (h : PlainFetch s 4 p) (hv : p.vle = true)
    (hl : vleLong (BitVec.ofNat 16 (bytesNat (s.codeBytes 2 p))) = true) :
    s.fetch (some (p.page s.pc)) =
      decodeFetched true (s.codeBytes 4 p)
        { s.fetching with cur := { vle := true, ir := bytesWord (s.codeBytes 4 p) } } := by
  have shift (j : Nat) : (p.page s.pc).ra + 2#32 + BitVec.ofNat 32 j = (p.page s.pc).ra + BitVec.ofNat 32 (2 + j) := by
    rw [BitVec.add_assoc, BitVec.ofNat_add]
  have he := h.order hv
  have hal : (p.page s.pc).allows s.fetching.user .fetch = true := h.allowed
  have hv' : (p.page s.pc).vle = true := hv
  have he' : (p.page s.pc).e = false := he
  have hb := fetchBytes_plain (t := s.fetching) h.cacheOff s.ints.handlerFetch s.pc (p.page s.pc) 2 (fun j hj => h.answers j (by omega))
    (fun j hj => h.isRam j (by omega)) (fun j hj => h.fresh j (by omega))
  have hc (k : Nat) : s.codeBytes k p = s.fetching.mem.bytes (p.page s.pc).ra k := by
    simp [State.codeBytes, endian, he]; rfl
  rw [hc] at hl ⊢
  have hra := h.ra 2 (by omega)
  have hsec : ∃ q : Page, s.fetching.secondPage (p.page s.pc) (s.pc + 2#32) = (some q, s.fetching) ∧
      q.ra = (p.page s.pc).ra + 2#32 ∧ q.allows s.fetching.user .fetch = true ∧ q.vle = true ∧ q.e = false := by
    simp only [State.secondPage]
    split
    · obtain ⟨i, hi⟩ := h.maps 2 (by omega)
      have ht := translate_one (s := s.fetching) (as := s.fetching.msrIs) (ea := s.pc + 2#32) h.known hi
      exact ⟨p.page (s.pc + 2#32), ht, hra, h.allowed, hv, he⟩
    · exact ⟨_, rfl, rfl, h.allowed, hv, he⟩
  obtain ⟨q, hq, hqr, hqa, hqv, hqe⟩ := hsec
  have hb2 := fetchBytes_plain (t := s.fetching) h.cacheOff s.ints.handlerFetch (s.pc + 2#32) q 2
    (fun j hj => by rw [hqr, shift]; exact h.answers (2 + j) (by omega))
    (fun j hj => by rw [hqr, shift]; exact h.isRam (2 + j) (by omega))
    (fun j hj => by rw [hqr, shift]; exact h.fresh (2 + j) (by omega))
  simp only [State.fetch]
  rw [show ({ s with ints := { s.ints with handlerFetch := false } } : State) = s.fetching from rfl]
  simp only [hal, hv', he', Bool.not_true, Bool.false_and, Bool.false_eq_true, if_false, if_true, State.fetchVle]
  rw [show s.fetching.pc = s.pc from rfl, hb]
  simp only [hl, if_true, State.fetchSecond]
  rw [show s.fetching.pc = s.pc from rfl, hq]
  simp only [hqa, hqv, hqe, Bool.not_true, Bool.or_false, Bool.false_eq_true, if_false, hb2]
  rw [hqr, Memory.bytes_append]
  rfl

/-- An instruction that is fetched in a calm state runs, and the step adds watchpoints only. -/
theorem runInstr_calm (h : s.Calm) (hp : s.tlbOpen s.msrIs s.pid = false) {i : Nat}
    (hm : s.tlbHits s.msrIs s.pid s.pc = [(i, p)]) :
    runInstr exec s.fresh =
      match s.fresh.fetch (some (p.page s.pc)) with
      | .done t => .next (endStep s.fresh none [] t)
      | .illegal t => .next (endStep s.fresh none [] (raiseRefused t))
      | .stop f => .fault f
      | .instr i t => executeWith exec s.fresh [] i t := by
  have ha : s.fresh.dbg.active = false := active_undebugged (s := s) h.toUndebugged
  have ht := translate_one (s := s.fresh) (as := s.fresh.msrIs) (ea := s.fresh.pc) hp hm
  have hh : s.fresh.haltPending = false := by
    simp only [State.haltPending, State.fresh, Debug.edm, h.noDebug.1, Bool.false_and]
  have hd : s.fresh.debugPending = false := by
    simp only [State.debugPending, State.fresh, Debug.idm, h.noDebug.2, Bool.and_false, Bool.false_and]
  have hx : s.fresh.started = s.fresh := started_normal (s := s.fresh) h.noExit
  simp only [runInstr, ht, State.iacHits, State.debugOn, ha, Bool.false_and, Bool.false_eq_true, if_false, State.postIacFrom, hh, newDebug, newHalt, hd,
    hx]
  rfl

/-- Nothing of the debug unit comes between a fetched instruction and its execution where no debug mode is on. -/
theorem executeWith_idle (s0 t : State) (hits : List Bool) (i : Instr) (he : t.dbg.edm = false) (hi : t.dbg.idm = false) :
    executeWith exec s0 hits i t =
      match exec i t with
      | .next u => .next (endStep s0 (some (i, t)) hits u)
      | .fault f => .fault f
      | .refused r => .refused r := by
  have ha : t.dbg.active = false := by simp [Debug.active, he, hi]
  have hh : t.haltPending = false := by simp [State.haltPending, he]
  have hd : t.debugPending = false := by simp [State.debugPending, hi]
  cases hx : exec i t <;>
    simp only [executeWith, preDebug, State.debugOn, ha, Bool.not_false, if_true, hh, newDebug, newHalt, hd, Bool.false_and, Bool.false_eq_true,
      if_false, hx]

end Sys2Proof.Machine
end

