-- ==== Sys2Proof/Laws/Flags.lean ====
section
/-! SUPPORT. What the shared operations of the integer instructions do, each said once: the result with its flags, the CR
field, the sums, the products and the shifts. -/

namespace Sys2Proof.Machine

variable (s : State)

/-- Nothing of the system changed where no system field did: by computation. -/
theorem SameSystem.refl : SameSystem s s := by simp [SameSystem]

@[simp] theorem result_gpr (len : Nat) (rt : Gpr) (r : Word) (ca ov : Option Bool) (rc : Bool) :
    (s.result len rt r ca ov rc).gpr = (s.setGprW rt r).gpr := by simp [State.result]
@[simp] theorem result_pc (len : Nat) (rt : Gpr) (r : Word) (ca ov : Option Bool) (rc : Bool) :
    (s.result len rt r ca ov rc).pc = s.pc + BitVec.ofNat 32 len := by simp [State.result]
@[simp] theorem result_xer (len : Nat) (rt : Gpr) (r : Word) (ca ov : Option Bool) (rc : Bool) :
    (s.result len rt r ca ov rc).xer = ((s.putCa ca).putOv ov).xer := by
  cases ca <;> cases ov <;> simp [State.result, State.putCa, State.putOv]
theorem result_cr (len : Nat) (rt : Gpr) (r : Word) (ca ov : Option Bool) (rc : Bool) :
    (s.result len rt r ca ov rc).cr =
      if rc then withCrField s.cr 0#3 (cmpSigned r 0#32 ((s.putCa ca).putOv ov).xerSo) else s.cr := by
  cases rc <;> cases ca <;> cases ov <;>
    simp [State.result, State.recordIf, State.record, State.xerSo, State.putCa, State.putOv]

/-- A bit of XER after CA is written. -/
theorem putCa_xer_getLsbD (ca : Option Bool) (n : Nat) :
    (s.putCa ca).xer.getLsbD n = if n = 29 then ca.getD (s.xer.getLsbD 29) else s.xer.getLsbD n := by
  cases ca with
  | none => simp only [State.putCa, Option.getD_none]; split <;> simp_all
  | some c =>
    simp only [State.putCa, putBits_getLsbD, oneBit_getLsbD 0x20000000#32 29 n rfl (by decide), decide_eq_true_eq,
      Option.getD_some]

/-- A bit of XER after OV and SO are written. -/
theorem putOv_xer_getLsbD (ov : Option Bool) (n : Nat) :
    (s.putOv ov).xer.getLsbD n =
      if n = 30 then ov.getD (s.xer.getLsbD 30)
      else if n = 31 then (s.xer.getLsbD 31 || ov.getD false) else s.xer.getLsbD n := by
  have h30 := oneBit_getLsbD 0x40000000#32 30 n rfl (by decide)
  have h31 := oneBit_getLsbD 0x80000000#32 31 n rfl (by decide)
  cases ov with
  | none =>
    simp only [State.putOv, Option.getD_none, Bool.or_false]
    split
    · subst n; rfl
    · split
      · subst n; rfl
      · rfl
  | some v =>
    simp only [State.putOv, BitVec.getLsbD_or, putBits_getLsbD, h30, decide_eq_true_eq, Option.getD_some]
    by_cases a : n = 30
    · subst n; cases v <;> simp
    · by_cases b : n = 31
      · subst n; cases v <;> simp
      · cases v <;> simp [a, b, h31]

/-- XER after CA and OV are written. -/
theorem xerAfter_put (ca ov : Option Bool) (t : State) (h : t.xer = ((s.putCa ca).putOv ov).xer) :
    XerAfter ca ov s t := by
  refine ⟨?_, ?_, ?_, fun n hn => ?_⟩ <;> rw [h] <;> simp only [putOv_xer_getLsbD, putCa_xer_getLsbD]
  · rfl
  · rfl
  · rfl
  · rw [if_neg (by omega), if_neg (by omega), if_neg (by omega)]

/-- The integer result operation leaves exactly an integer result. -/
theorem result_spec (len : Nat) (rt : Gpr) (r : Word) (ca ov : Option Bool) (rc : Bool) :
    IntResult len rt r ca ov rc s (s.result len rt r ca ov rc) := by
  have hg := result_gpr s len rt r ca ov rc
  have hx := result_xer s len rt r ca ov rc
  refine ⟨?_, ?_, ?_, ?_, ?_, ?_, ?_, ?_⟩
  · rw [gprW_of_gpr hg]; simp
  · simp only [State.gprH]; rw [gprD_of_gpr hg]; exact setGprW_gprH_self s rt r
  · intro q hq; rw [gprD_of_gpr hg]; exact setGprW_gprD_ne s rt q r hq
  · exact result_pc s len rt r ca ov rc
  · exact xerAfter_put s ca ov _ hx
  · have hc := result_cr s len rt r ca ov rc
    have hso : ((s.putCa ca).putOv ov).xerSo = (s.result len rt r ca ov rc).xer.getLsbD 31 := by rw [hx]; rfl
    refine ⟨fun g hne => ?_, ?_⟩
    · rw [hc]; cases rc
      · rfl
      · exact crField_withCrField_ne _ _ _ _ hne
    · rw [← hso, hc]; cases rc
      · rfl
      · simp [-BitVec.getLsbD_eq_getElem, cmpSigned, BitVec.slt]
        rfl
  · simp [SameLinks]
  · simp [SameSystem]

/-- The operation that writes a CR field leaves exactly that. -/
theorem resultCr_spec (len : Nat) (f : CrField) (lt gt eq so : Bool) :
    CrResult len f lt gt eq so s (s.resultCr len f (crBits lt gt eq so)) := by
  refine ⟨?_, ?_, ?_, ?_, fun g hg => ?_, fun q => rfl, rfl, rfl, ?_, ?_⟩
  · simp [-BitVec.getLsbD_eq_getElem]
  · simp [-BitVec.getLsbD_eq_getElem]
  · simp [-BitVec.getLsbD_eq_getElem]
  · simp [-BitVec.getLsbD_eq_getElem]
  · rw [resultCr_cr]; exact crField_withCrField_ne _ _ _ _ hg
  · simp [SameLinks]
  · simp [SameSystem]

/-- Going on leaves everything else as it was. -/
theorem advance_spec (len : Nat) : OnlyPc len s (s.advance len) := by
  refine ⟨rfl, fun q => rfl, rfl, rfl, ?_, ?_⟩ <;> simp [SameLinks, SameSystem]

/-! Sums. -/

/-- The sum of two words and a carry. -/
theorem add3_sum (a b : Word) (c : Bool) : (add3 a b c).1 = a + b + (if c then 1#32 else 0#32) := by
  apply BitVec.eq_of_toNat_eq
  cases c <;> simp [add3, BitVec.toNat_add] 

/-- The carry out of a sum. -/
theorem add3_carry (a b : Word) (c : Bool) :
    (add3 a b c).2.1 = decide (2 ^ 32 ≤ a.toNat + b.toNat + (if c then 1 else 0)) := rfl

/-- The overflow of a sum: the exact signed sum is no signed word. -/
theorem add3_overflow (a b : Word) (c : Bool) :
    (add3 a b c).2.2 =
      decide (a.toInt + b.toInt + (if c then 1 else 0) < -2 ^ 31 ∨ 2 ^ 31 ≤ a.toInt + b.toInt + (if c then 1 else 0)) := by
  have ha := a.isLt
  have hb := b.isLt
  simp only [add3, BitVec.toInt_eq_toNat_cond, BitVec.msb_eq_decide, BitVec.toNat_ofNat]
  cases c <;> simp only [if_true, Bool.false_eq_true, if_false] <;>
    (apply Bool.eq_iff_iff.mpr
     simp only [Bool.and_eq_true, beq_iff_eq, bne_iff_ne, ne_eq, decide_eq_decide, decide_eq_true_eq]
     omega)

/-! Products. -/

theorem mulSigned_toInt (a b : Word) : (mulSigned a b).toInt = a.toInt * b.toInt := by
  have h1 := BitVec.toInt_lt (x := a)
  have h2 := BitVec.le_toInt (x := a)
  have h3 := BitVec.toInt_lt (x := b)
  have h4 := BitVec.le_toInt (x := b)
  have hp : a.toInt * b.toInt ≤ 2 ^ 62 ∧ -(2 ^ 62) ≤ a.toInt * b.toInt := by
    generalize a.toInt = x at *
    generalize b.toInt = y at *
    norm_num at h1 h2 h3 h4 ⊢
    constructor <;> nlinarith
  rw [mulSigned, BitVec.toInt_mul, BitVec.toInt_signExtend_of_le (by decide), BitVec.toInt_signExtend_of_le (by decide)]
  generalize a.toInt * b.toInt = p at *
  norm_num at hp
  exact Int.bmod_eq_of_le (by norm_num; omega) (by norm_num; omega)

theorem mulUnsigned_toNat (a b : Word) : (mulUnsigned a b).toNat = a.toNat * b.toNat := by
  have h : a.toNat * b.toNat < 2 ^ 64 := by
    have := Nat.mul_lt_mul'' a.isLt b.isLt
    norm_num at this ⊢; exact this
  simp [mulUnsigned, BitVec.toNat_mul]
  exact h

end Sys2Proof.Machine
end

