-- ==== Sys2Proof/Laws/Spe.lean ====
section
/-! SUPPORT. What the shared operations of the SPE instructions do, each said once, and the products as integers. -/

namespace Sys2Proof.Machine

variable {s : State}

/-! Results. -/

theorem setOv_getLsbD (f : Word) (h l : Bool) (n : Nat) :
    (setOv f h l).getLsbD n =
      if n = 14 then l else if n = 30 then h else if n = 15 then (f.getLsbD 15 || l)
      else if n = 31 then (f.getLsbD 31 || h) else f.getLsbD n := by
  by_cases hn : n < 32
  · have key : ∀ k : Fin 32, (0x40004000#32).getLsbD k = decide (k.val = 14 ∨ k.val = 30) ∧
        (0xC0000000#32).getLsbD k = decide (k.val = 30 ∨ k.val = 31) ∧
        (0x0000C000#32).getLsbD k = decide (k.val = 14 ∨ k.val = 15) := by decide
    obtain ⟨h1, h2, h3⟩ := key ⟨n, hn⟩
    simp only at h1 h2 h3
    have e (b : Bool) (m : Word) : (if b then m else 0#32).getLsbD n = (b && m.getLsbD n) := by cases b <;> simp
    simp only [setOv, BitVec.getLsbD_or, BitVec.getLsbD_and, BitVec.getLsbD_not, hn, decide_true, Bool.true_and, e, h1, h2,
      h3]
    by_cases a : n = 14
    · subst a; simp
    · by_cases b : n = 30
      · subst b; simp
      · by_cases c : n = 15
        · subst c; simp
        · by_cases d : n = 31
          · subst d; simp
          · simp [a, b, c, d]
  · rw [BitVec.getLsbD_of_ge _ _ (Nat.le_of_not_lt hn), if_neg (by omega), if_neg (by omega), if_neg (by omega),
      if_neg (by omega), BitVec.getLsbD_of_ge _ _ (Nat.le_of_not_lt hn)]

/-- The SPE result operation leaves exactly an SPE result. -/
theorem speWrite_spec (s : State) (rd : Gpr) (v : DWord) (acc : Bool) :
    SpeResult rd v acc none s (s.speWrite rd v acc) := by
  refine ⟨?_, fun q hq => ?_, ?_, ?_, ?_, ?_, ?_, ?_, ?_, ?_⟩
  · rw [State.speWrite, gprD_of_gpr (advance_gpr _ _)]; simp
  · rw [State.speWrite, gprD_of_gpr (advance_gpr _ _), setGprD_gprD_ne _ _ _ _ hq]
    exact gprD_of_gpr (putAcc_gpr _ _ _) q
  · simp
  · simp
  · simp [Past]
  · simp
  · simp
  · simp
  · simp
  · simp [SameSystem]

/-- An SPE instruction that writes a register and maybe the accumulator. -/
theorem speMul_spec (h : s.msrSpe = true) (rd : Gpr) (v : DWord) (acc : Bool) :
    ∃ t, s.speMul rd v acc = .next t ∧ SpeResult rd v acc none s t :=
  ⟨_, by simp only [State.speMul, speAvail, h, if_true], speWrite_spec s rd v acc⟩

/-- An SPE instruction that writes a register. -/
theorem spe_spec (h : s.msrSpe = true) (rd : Gpr) (v : DWord) :
    ∃ t, s.spe rd v = .next t ∧ SpeResult rd v false none s t :=
  ⟨_, by simp only [State.spe, speAvail, h, if_true], speWrite_spec s rd v false⟩

/-- An SPE instruction that writes a register, the overflow bits and maybe the accumulator. -/
theorem speOv_spec (h : s.msrSpe = true) (rd : Gpr) (v : DWord) (oh ol acc : Bool) :
    ∃ t, s.speOv rd v oh ol acc = .next t ∧ SpeResult rd v acc (some (oh, ol)) s t := by
  refine ⟨_, by simp only [State.speOv, speAvail, h, if_true]; rfl, ?_⟩
  obtain ⟨h1, h2, h3, h4, h5, h6, h7, h8, h9, h10⟩ :=
    speWrite_spec { s with spefscr := setOv s.spefscr oh ol } rd v acc
  refine ⟨h1, h2, h3, ?_, h5, h6, h7, h8, h9, h10⟩
  simp only at h4
  simp only [OvAfter, h4, setOv_getLsbD]
  refine ⟨rfl, rfl, rfl, rfl, fun n a b c d => ?_⟩
  rw [if_neg a, if_neg c, if_neg b, if_neg d]

/-- An SPE compare. -/
theorem speCompare_spec (hs : s.msrSpe = true) (f : CrField) (h l : Bool) :
    ∃ t, s.speCompare f h l = .next t ∧ CrResult 4 f h l (h || l) (h && l) s t :=
  ⟨_, by simp only [State.speCompare, speAvail, hs, if_true], resultCr_spec s 4 f h l (h || l) (h && l)⟩

/-! Products. -/

theorem mulSI16_eq (a b : Half) : mulSI16 a b = BitVec.ofInt 32 (a.toInt * b.toInt) := by
  apply BitVec.eq_of_toInt_eq
  rw [mulSI16, BitVec.toInt_mul, BitVec.toInt_signExtend_of_le (by decide), BitVec.toInt_signExtend_of_le (by decide),
    BitVec.toInt_ofInt]

theorem mulUI16_eq (a b : Half) : mulUI16 a b = BitVec.ofNat 32 (a.toNat * b.toNat) := by
  apply BitVec.eq_of_toNat_eq
  simp [mulUI16, BitVec.toNat_mul]

theorem shl1_ofInt (w : Nat) (x : Int) : BitVec.ofInt w x <<< 1 = BitVec.ofInt w (2 * x) := by
  rw [BitVec.shiftLeft_eq_mul_twoPow]
  have : BitVec.twoPow w 1 = BitVec.ofInt w 2 := by
    apply BitVec.eq_of_toNat_eq
    simp [BitVec.toNat_twoPow]
  rw [this, ← BitVec.ofInt_mul, Int.mul_comm]

theorem mulSF16_eq (a b : Half) : mulSF16 a b = BitVec.ofInt 32 (2 * (a.toInt * b.toInt)) := by
  rw [mulSF16, mulSI16_eq, shl1_ofInt]

theorem toInt_mul16 (a b : Half) : -(2 ^ 30) ≤ a.toInt * b.toInt ∧ a.toInt * b.toInt ≤ 2 ^ 30 := by
  have h1 := BitVec.toInt_lt (x := a)
  have h2 := BitVec.le_toInt (x := a)
  have h3 := BitVec.toInt_lt (x := b)
  have h4 := BitVec.le_toInt (x := b)
  generalize a.toInt = x at *
  generalize b.toInt = y at *
  norm_num at h1 h2 h3 h4 ⊢
  constructor <;> nlinarith

theorem guardSI_eq (a b : Half) : guardSI a b = BitVec.ofInt 64 (a.toInt * b.toInt) := by
  apply BitVec.eq_of_toInt_eq
  have := toInt_mul16 a b
  rw [guardSI, BitVec.toInt_signExtend_of_le (by decide), mulSI16_eq, BitVec.toInt_ofInt, BitVec.toInt_ofInt]
  generalize a.toInt * b.toInt = p at *
  norm_num at this
  rw [Int.bmod_eq_of_le (by norm_num; omega) (by norm_num; omega), Int.bmod_eq_of_le (by norm_num; omega) (by norm_num; omega)]

theorem guardSF_eq (a b : Half) : guardSF a b = BitVec.ofInt 64 (2 * (a.toInt * b.toInt)) := by
  have : guardSF a b = guardSI a b <<< 1 := rfl
  rw [this, guardSI_eq, shl1_ofInt]

theorem guardUI_eq (a b : Half) : guardUI a b = BitVec.ofNat 64 (a.toNat * b.toNat) := by
  apply BitVec.eq_of_toNat_eq
  have h : a.toNat * b.toNat < 2 ^ 32 := by
    have := Nat.mul_lt_mul'' a.isLt b.isLt
    norm_num at this ⊢; exact this
  simp [guardUI, mulUI16_eq]
  omega

theorem mulSigned_eq (a b : Word) : mulSigned a b = BitVec.ofInt 64 (a.toInt * b.toInt) := by
  apply BitVec.eq_of_toInt_eq
  rw [mulSigned, BitVec.toInt_mul, BitVec.toInt_signExtend_of_le (by decide), BitVec.toInt_signExtend_of_le (by decide),
    BitVec.toInt_ofInt]

theorem mulUnsigned_eq (a b : Word) : mulUnsigned a b = BitVec.ofNat 64 (a.toNat * b.toNat) := by
  apply BitVec.eq_of_toNat_eq
  simp [mulUnsigned, BitVec.toNat_mul]

theorem mulSF32_eq (a b : Word) : mulSF32 a b = BitVec.ofInt 64 (2 * (a.toInt * b.toInt)) := by
  rw [mulSF32, mulSigned_eq, shl1_ofInt]

/-- The low word of the unsigned product is the product of words. -/
theorem loW_mulUnsigned (a b : Word) : loW (mulUnsigned a b) = a * b := by
  apply BitVec.eq_of_toNat_eq
  rw [mulUnsigned_eq]
  simp only [loW, BitVec.extractLsb'_toNat, BitVec.toNat_ofNat, BitVec.toNat_mul, Nat.shiftRight_zero]
  rw [Nat.mod_mod_of_dvd]
  decide

/-- The low word of the signed product is the product of words. -/
theorem loW_mulSigned (a b : Word) : loW (mulSigned a b) = a * b := by
  ext i hi
  have : mulSigned a b = a.signExtend 64 * b.signExtend 64 := rfl
  have h2 : (loW (mulSigned a b)) = (mulSigned a b).setWidth 32 := by
    ext j hj; simp [loW]
  rw [h2, this, BitVec.setWidth_mul _ _ (by decide)]
  have e (x : Word) : (x.signExtend 64).setWidth 32 = x := by
    ext j hj
    have : j < 64 := by omega
    simp [this, BitVec.getElem_signExtend, hj]
  rw [e, e]

end Sys2Proof.Machine
end

