-- ==== Sys2Proof/Laws/Fpu.lean ====
section
/-! SUPPORT. What the completion of a floating-point instruction does. -/

namespace Sys2Proof.Machine

variable {s : State}

theorem ite_getLsbD (b : Bool) (m : Word) (n : Nat) :
    (if b then m else 0#32).getLsbD n = (b && m.getLsbD n) := by cases b <;> simp

/-- SPEFSCR after the status bits of both elements are put in, bit by bit. -/
theorem withStatus_getLsbD (f : Word) (oh ol : FpOut) (n : Nat) (hn : n < 32) :
    (withStatus f oh ol).getLsbD n =
      if n = 29 then oh.g else if n = 28 then oh.x else if n = 27 then oh.inv else if n = 26 then oh.dbz
      else if n = 25 then oh.unf else if n = 24 then oh.ovf else if n = 13 then ol.g else if n = 12 then ol.x
      else if n = 11 then ol.inv else if n = 10 then ol.dbz else if n = 9 then ol.unf else if n = 8 then ol.ovf
      else if n = 20 then (f.getLsbD 20 || (oh.inv || ol.inv)) else if n = 19 then (f.getLsbD 19 || (oh.dbz || ol.dbz))
      else if n = 18 then (f.getLsbD 18 || (oh.unf || ol.unf)) else if n = 17 then (f.getLsbD 17 || (oh.ovf || ol.ovf))
      else f.getLsbD n := by
  interval_cases n <;>
  (simp only [withStatus, FpOut.status, FpOut.sticky, BitVec.getLsbD_or, BitVec.getLsbD_and, BitVec.getLsbD_not,
      BitVec.getLsbD_shiftLeft, ite_getLsbD]
   simp [Bool.or_assoc])

/-- The status register of an instruction that goes on. -/
theorem fpStatus_of (oh ol : FpOut) (t : State)
    (h : t.spefscr = if oh.inexact || ol.inexact then withStatus s.spefscr oh ol ||| 0x00200000#32
      else withStatus s.spefscr oh ol) : FpStatus oh ol s t := by
  have hb : ∀ n, n < 32 → t.spefscr.getLsbD n =
      if n = 21 then (s.spefscr.getLsbD 21 || (oh.inexact || ol.inexact)) else (withStatus s.spefscr oh ol).getLsbD n := by
    intro n hn
    have h21 := oneBit_getLsbD 0x00200000#32 21 n (by decide) (by decide)
    rw [h]
    split
    · rename_i hx
      rw [BitVec.getLsbD_or, h21]
      by_cases hq : n = 21
      · simp [hq, hx]
      · simp [hq]
    · rename_i hx
      by_cases hq : n = 21
      · subst hq
        rw [withStatus_getLsbD _ _ _ _ (by decide)]
        simp_all
      · simp [hq]
  refine ⟨?_, ?_, ?_⟩
  · intro n b hm
    simp only [List.mem_cons, List.not_mem_nil, or_false, Prod.mk.injEq] at hm
    repeat' refine Or.elim hm (fun hm => ?_) (fun hm => ?_)
    all_goals
      obtain ⟨hn, hv⟩ := hm
      subst hn hv
      rw [hb _ (by decide), withStatus_getLsbD _ _ _ _ (by decide)]
      simp
  · intro n b hm
    simp only [List.mem_cons, List.not_mem_nil, or_false, Prod.mk.injEq] at hm
    repeat' refine Or.elim hm (fun hm => ?_) (fun hm => ?_)
    all_goals
      obtain ⟨hn, hv⟩ := hm
      subst hn hv
      rw [hb _ (by decide), withStatus_getLsbD _ _ _ _ (by decide)]
      simp
  · intro n hm
    simp only [List.mem_cons, List.not_mem_nil, or_false] at hm
    repeat' refine Or.elim hm (fun hm => ?_) (fun hm => ?_)
    all_goals
      subst hm
      rw [hb _ (by decide), withStatus_getLsbD _ _ _ _ (by decide)]
      simp

/-- Without enabled exceptions no outcome is a data exception. -/
theorem fpQuiet_enables (h : s.fpQuiet) (oh ol : FpOut) :
    withStatus s.spefscr oh ol &&& (oh.enables ||| ol.enables) = 0#32 := by
  have hq : ∀ n, n ∈ [2, 3, 4, 5, 6] → s.spefscr.getLsbD n = false := by
    intro n hm
    have := congrArg (fun w : Word => w.getLsbD n) h
    simp only [List.mem_cons, List.not_mem_nil, or_false] at hm
    rcases hm with rfl | rfl | rfl | rfl | rfl <;> simpa using this
  apply BitVec.eq_of_getLsbD_eq
  intro n hn
  rw [BitVec.getLsbD_and, withStatus_getLsbD _ _ _ _ hn]
  by_cases hm : n ∈ [2, 3, 4, 5]
  · simp only [List.mem_cons, List.not_mem_nil, or_false] at hm
    rcases hm with rfl | rfl | rfl | rfl
    · simp [-BitVec.getLsbD_eq_getElem, hq 2 (by simp)]
    · simp [-BitVec.getLsbD_eq_getElem, hq 3 (by simp)]
    · simp [-BitVec.getLsbD_eq_getElem, hq 4 (by simp)]
    · simp [-BitVec.getLsbD_eq_getElem, hq 5 (by simp)]
  · have : (oh.enables ||| ol.enables).getLsbD n = false := by
      simp only [List.mem_cons, List.not_mem_nil, or_false, not_or] at hm
      have h5 := oneBit_getLsbD 0x20#32 5 n (by decide) (by decide)
      have h4 := oneBit_getLsbD 0x10#32 4 n (by decide) (by decide)
      have h3 := oneBit_getLsbD 0x8#32 3 n (by decide) (by decide)
      have h2 := oneBit_getLsbD 0x4#32 2 n (by decide) (by decide)
      simp only [FpOut.enables, BitVec.getLsbD_or, ite_getLsbD, h5, h4, h3, h2]
      simp [hm]
    rw [this]; simp

theorem fpQuiet_round (h : s.fpQuiet) (oh ol : FpOut) : (withStatus s.spefscr oh ol).getLsbD 6 = false := by
  rw [withStatus_getLsbD _ _ _ _ (by decide)]
  have := congrArg (fun w : Word => w.getLsbD 6) h
  simpa using this

/-- SPEFSCR of an instruction that goes on. -/
def fpGone (s : State) (oh ol : FpOut) : State :=
  { s with spefscr := if oh.inexact || ol.inexact then withStatus s.spefscr oh ol ||| 0x00200000#32
    else withStatus s.spefscr oh ol }

/-- With no exception enabled a floating-point instruction writes its results and goes on. -/
theorem fpFinish_quiet (h : s.fpQuiet) (oh ol : FpOut) (write : Word → Word → State → State) :
    s.fpFinish oh ol write = .next ((write oh.result ol.result (fpGone s oh ol)).advance 4) := by
  unfold State.fpFinish fpGone
  simp only [fpQuiet_enables h, fpQuiet_round h]
  by_cases hx : (oh.inexact || ol.inexact) = true <;> simp [hx]

@[simp] theorem advance_gprD (n : Nat) (q : Gpr) : (s.advance n).gprD q = s.gprD q := rfl
@[simp] theorem fpGone_gprD (oh ol : FpOut) (q : Gpr) : (fpGone s oh ol).gprD q = s.gprD q := rfl

theorem fpScalar_spec (h : s.fpQuiet) (rd : Gpr) (o : FpOut) :
    ∃ t, s.fpScalar rd o = .next t ∧ FpScalarResult rd o s t := by
  refine ⟨_, fpFinish_quiet h _ _ _, ?_⟩
  refine ⟨by simp [State.gprW, State.setGprW], by simp [State.gprH, State.setGprW], ?_, rfl, ?_, ?_⟩
  · intro q hq; simp [State.setGprW, setGprD_gprD_ne (h := hq)]
  · exact fpStatus_of _ _ _ rfl
  · exact ⟨rfl, rfl, rfl, rfl, rfl, SameSystem.refl s⟩

theorem fpVector_spec (hs : s.msrSpe = true) (h : s.fpQuiet) (rd : Gpr) (oh ol : FpOut) :
    ∃ t, s.fpVector rd oh ol = .next t ∧ FpVectorResult rd oh ol s t := by
  refine ⟨_, by rw [State.fpVector, speAvail, if_pos hs]; exact fpFinish_quiet h _ _ _, ?_⟩
  refine ⟨by simp [State.gprH], by simp [State.gprW], ?_, rfl, ?_, ?_⟩
  · intro q hq; simp [setGprD_gprD_ne (h := hq)]
  · exact fpStatus_of _ _ _ rfl
  · exact ⟨rfl, rfl, rfl, rfl, rfl, SameSystem.refl s⟩

end Sys2Proof.Machine
end

