-- ==== Sys2Proof/Laws/Transfer.lean ====
section
/-! SUPPORT. What the shared shapes of the loads and stores do when nothing stands in their way, each said once. -/

namespace Sys2Proof.Machine

variable {s : State} {ea : Word} {n : Nat} {p : TlbEntry}

/-! Elements. -/

theorem bytes_part (m : Memory) (ra : Word) (n j l : Nat) (h : j + l ≤ n) :
    ((m.bytes ra n).drop j).take l = m.bytes (ra + BitVec.ofNat 32 j) l := by
  have h1 := Memory.bytes_append m ra j (n - j)
  have h2 := Memory.bytes_append m (ra + BitVec.ofNat 32 j) l (n - j - l)
  rw [show j + (n - j) = n by omega] at h1
  rw [show l + (n - j - l) = n - j by omega] at h2
  rw [← h1, List.drop_append_of_le_length (by simp), List.drop_of_length_le (by simp), List.nil_append, ← h2,
    List.take_append_of_le_length (by simp), List.take_of_length_le (by simp)]

theorem revElems_chunk (el fuel k : Nat) (b : List Byte) (hf : b.length ≤ fuel) (he : 0 < el)
    (hk : el * k + el ≤ b.length) :
    ((revElems el fuel b).drop (el * k)).take el = ((b.drop (el * k)).take el).reverse := by
  induction k generalizing b fuel with
  | zero =>
    cases fuel with
    | zero => omega
    | succ n =>
      have hb : b.isEmpty = false := by cases b <;> simp_all
      have hl : (b.take el).reverse.length = el := by simp; omega
      rw [revElems, hb]
      simp only [Bool.false_eq_true, if_false, Nat.mul_zero, List.drop_zero]
      rw [List.take_append_of_le_length (by omega), List.take_of_length_le (by omega)]
  | succ k ih =>
    cases fuel with
    | zero => omega
    | succ n =>
      have hm : el * (k + 1) = el + el * k := by ring
      have hb : b.isEmpty = false := by cases b <;> simp_all
      have hl : (b.take el).reverse.length = el := by simp; omega
      rw [revElems, hb, hm]
      simp only [Bool.false_eq_true, if_false]
      rw [List.drop_append, List.drop_of_length_le (by omega), List.nil_append, hl,
        show el + el * k - el = el * k by omega, ih n (b.drop el) (by simp; omega) (by simp; rw [hm] at hk; omega),
        List.drop_drop]

/-- Each element of reordered bytes is in the order of the page. -/
theorem elemOrder_chunk (e : Bool) (el k : Nat) (b : List Byte) (he : 0 < el) (hk : el * k + el ≤ b.length) :
    ((elemOrder e el b).drop (el * k)).take el = endian e ((b.drop (el * k)).take el) := by
  cases e
  · rfl
  · exact revElems_chunk el b.length k b (Nat.le_refl _) he hk

/-- The value of each element of the bytes loaded. -/
theorem elem_of_load (e : Bool) (el k n : Nat) (m : Memory) (ra : Word) (he : 0 < el) (hk : el * k + el ≤ n) (s : State)
    (hs : s.mem = m) :
    bytesNat (((elemOrder e el (m.bytes ra n)).drop (el * k)).take el) =
      s.elem e (ra + BitVec.ofNat 32 (el * k)) el := by
  rw [elemOrder_chunk e el k _ he (by simpa using hk), bytes_part _ _ _ _ _ hk, State.elem, hs]

/-- The value of each element of the bytes stored. -/
theorem elem_of_store (e : Bool) (el k : Nat) (b : List Byte) (m : Memory) (hm : m.wf = true) (ra : Word) (he : 0 < el)
    (hk : el * k + el ≤ b.length) (hb : b.length ≤ 2 ^ 32) (t : State)
    (ht : t.mem = m.putBytes ra (elemOrder e el b)) :
    t.elem e (ra + BitVec.ofNat 32 (el * k)) el = bytesNat ((b.drop (el * k)).take el) := by
  have hl := elemOrder_length e el b he
  have h := bytes_part t.mem ra b.length (el * k) el hk
  have hr : t.mem.bytes ra b.length = elemOrder e el b := by
    rw [ht, ← hl]; exact Memory.bytes_putBytes m hm ra _ (by omega)
  rw [State.elem, ← h, hr, elemOrder_chunk e el k b he hk, endian_endian]

/-! Single loads and stores. -/

section
variable {b : Bool} {l : List (Word × List Byte)} {m : Memory} {s t : State}

theorem SameLinks.of_records (h : OnlyRecords b l m s t) : SameLinks s t := by
  refine ⟨?_, ?_, ?_, ?_⟩ <;> rw [h.rest]

theorem SameSystemButMem.of_records (h : OnlyRecords b l m s t) : SameSystemButMem b l s t := by
  refine ⟨?_, ?_, ?_, ?_, ?_, ?_, ?_, ?_, ?_, ?_, h.psu, ?_, ?_, h.snoops, h.errs, h.old, ?_⟩ <;> rw [h.rest]

/-- Only registers of the program changed after that. -/
theorem SameSystemButMem.regs {u : State} (h : SameSystemButMem b l s t)
    (e : u = { t with gpr := u.gpr, pc := u.pc, cr := u.cr }) : SameSystemButMem b l s u := by
  rw [e]; exact h
end

/-- The base register and the pc of a load or store are registers of the program. -/
theorem setBase_regs (upd : Option Gpr) (ea : Word) (len : Nat) (t : State) :
    (t.setBase upd ea).advance len =
      { t with
        gpr := ((t.setBase upd ea).advance len).gpr
        pc := ((t.setBase upd ea).advance len).pc
        cr := ((t.setBase upd ea).advance len).cr } := by cases upd <;> rfl

theorem setBase_setGprW_regs (upd : Option Gpr) (ea : Word) (r : Gpr) (v : Word) (len : Nat) (t : State) :
    ((t.setBase upd ea).setGprW r v).advance len =
      { t with
        gpr := (((t.setBase upd ea).setGprW r v).advance len).gpr
        pc := (((t.setBase upd ea).setGprW r v).advance len).pc
        cr := (((t.setBase upd ea).setGprW r v).advance len).cr } := by cases upd <;> rfl

/-- A PLAIN LOAD INTO A REGISTER. -/
theorem loadTo_plain (h : PlainAccess s ea n .load p) (hn : 0 < n) (hn' : n ≤ 8) (len : Nat) (rt : Gpr) (upd : Option Gpr)
    (f : List Byte → Word) :
    ∃ t, s.loadTo len n rt upd f ea = .next t ∧
      LoadResult len rt upd (f (endian p.e (s.mem.bytes (p.page ea).ra n))) ea (s.mem.bytes (p.page ea).ra n) s t := by
  obtain ⟨t, ht, hr⟩ := load_plain h hn hn' 0#32 n
  rw [elemOrder_one _ _ _ (by simp) hn] at ht
  refine ⟨_, by simp only [State.loadTo, ht, Res.finish]; rfl, ?_⟩
  generalize f (endian p.e (s.mem.bytes (p.page ea).ra n)) = v
  have hg : ∀ q, t.gprD q = s.gprD q := fun q => gprD_of_gpr hr.gpr q
  have base (q : Gpr) : (t.setBase upd ea).gprD q =
      if upd = some q then s.gprH q ++ ea else s.gprD q := by
    cases upd with
    | none => simp [State.setBase, hg]
    | some a =>
      by_cases e : q = a
      · subst e; simp [State.setBase, State.setGprW, State.gprH, hg]
      · have : ¬ a = q := fun h => e h.symm
        simp [State.setBase, setGprW_gprD_ne _ _ _ _ e, hg, this]
  refine ⟨?_, ?_, ?_, ?_, ?_, ?_, ?_, ?_, ?_, ?_⟩
  · rw [gprW_of_gpr (advance_gpr _ _)]; simp
  · have : ((t.setBase upd ea).setGprW rt v).gprH rt = s.gprH rt := by
      rw [setGprW_gprH_self, State.gprH, base]
      split
      · simp
      · rfl
    simpa [State.gprH, gprD_of_gpr (advance_gpr _ _)] using this
  · intro q hq hu
    have : ((t.setBase upd ea).setGprW rt v).gprD q = s.gprH q ++ ea := by
      rw [setGprW_gprD_ne _ _ _ _ hq, base, if_pos hu]
    simp [State.gprW, State.gprH, gprD_of_gpr (advance_gpr _ _), this]
  · intro q hq hu
    have : ((t.setBase upd ea).setGprW rt v).gprD q = s.gprD q := by
      rw [setGprW_gprD_ne _ _ _ _ hq, base, if_neg hu]
    simpa [gprD_of_gpr (advance_gpr _ _)] using this
  · simp [Past]; rw [hr.rest]
  · simp; rw [hr.rest]
  · simp; rw [hr.rest]
  · have := SameLinks.of_records hr
    simpa [SameLinks] using this
  · exact (SameSystemButMem.of_records hr).regs (setBase_setGprW_regs upd ea rt v len t)
  · intro a; simp [hr.mem]

/-- A PLAIN STORE FROM A REGISTER: the bytes of one element of `n` bytes whose number is `v`. -/
theorem storeFrom_plain (b : List Byte) (hb : b.length = n) (h : PlainAccess s ea n .store p) (hn : 0 < n) (hn' : n ≤ 8)
    (hm : s.mem.wf = true) (len : Nat) (upd : Option Gpr) :
    ∃ t, s.storeFrom len b upd ea = .next t ∧
      StoreResult len n p.e (p.page ea).ra [bytesNat b] upd ea s t := by
  subst hb
  have hl := elemOrder_length p.e b.length b hn
  obtain ⟨t, ht, hr⟩ := store_plain b hm h hn hn' 0#32 b.length hl
  refine ⟨_, by simp only [State.storeFrom, ht, Res.finish]; rfl, ?_⟩
  have hg : ∀ q, t.gprD q = s.gprD q := fun q => gprD_of_gpr hr.gpr q
  have himg := Memory.bytes_putBytes s.mem hm (p.page ea).ra (elemOrder p.e b.length b) (by omega)
  rw [hl, ← hr.mem] at himg
  refine ⟨⟨?_, ?_, ?_, ?_, ?_, ?_, ?_, ?_⟩, ?_⟩
  · intro k hk
    have : k = 0 := by simpa using hk
    subst this
    rw [elem_of_store p.e b.length 0 b s.mem hm (p.page ea).ra hn (by simp) (by omega) _ (by simp [hr.mem])]
    simp
  · intro a ha
    simp only [advance_mem, setBase_mem, hr.mem]
    apply Memory.byte_putBytes_outside _ hm
    rw [elemOrder_length _ _ _ hn]
    simpa using ha
  · intro q hq
    subst hq
    have : (t.setBase (some q) ea).gprD q = s.gprH q ++ ea := by
      simp [State.setBase, State.setGprW, State.gprH, hg]
    simp [State.gprW, State.gprH, gprD_of_gpr (advance_gpr _ _), this]
  · intro q hq
    rw [gprD_of_gpr (advance_gpr _ _)]
    cases upd with
    | none => simp [State.setBase, hg]
    | some a =>
      have : q ≠ a := fun e => hq (by rw [e])
      simp [State.setBase, setGprW_gprD_ne _ _ _ _ this, hg]
  · simp [Past]; rw [hr.rest]
  · simp; rw [hr.rest]
  · simp; rw [hr.rest]
  · have := SameLinks.of_records hr
    simpa [SameLinks] using this
  · rw [List.length_singleton, Nat.mul_one, advance_mem, setBase_mem, himg]
    exact (SameSystemButMem.of_records hr).regs (setBase_regs upd ea len t)

/-! The values. -/

theorem zeroExt_endian (e : Bool) (ra : Word) (n : Nat) :
    zeroExt (endian e (s.mem.bytes ra n)) = BitVec.ofNat 32 (s.elem e ra n) := rfl
theorem algebraic_endian (e : Bool) (ra : Word) (n : Nat) :
    algebraic (endian e (s.mem.bytes ra n)) = (BitVec.ofNat 16 (s.elem e ra n)).signExtend 32 := rfl
theorem reversed_endian (e : Bool) (ra : Word) (n : Nat) :
    reversed (endian e (s.mem.bytes ra n)) = BitVec.ofNat 32 (s.elem (!e) ra n) := by
  cases e <;> simp [reversed, endian, State.elem, bytesWord]

/-! SPE loads and stores. -/

/-- A PLAIN SPE LOAD. -/
theorem speLoad_plain (form : SpeForm) (hs : s.msrSpe = true)
    (ha : aligned ea (s.pins.speBoundary form n) = true) (h : PlainAccess s ea n .load p) (hn : 0 < n)
    (hn' : n ≤ 8) (el : Nat) (rd : Gpr) (f : List Byte → DWord) :
    ∃ t, s.speLoad form n el rd f ea = .next t ∧
      SpeLoadResult rd (f (elemOrder p.e el (s.mem.bytes (p.page ea).ra n))) ea (s.mem.bytes (p.page ea).ra n) s t := by
  obtain ⟨t, ht, hr⟩ := load_plain h hn hn' esrSpe el
  refine ⟨_, by simp only [State.speLoad, speAvail, hs, if_true, ha, ht, Res.finish]; rfl, ?_⟩
  have hg : ∀ q, t.gprD q = s.gprD q := fun q => gprD_of_gpr hr.gpr q
  refine ⟨?_, ?_, ?_, ?_, ?_, ?_, ?_, ?_⟩
  · rw [gprD_of_gpr (advance_gpr _ _)]; simp
  · intro q hq; rw [gprD_of_gpr (advance_gpr _ _), setGprD_gprD_ne _ _ _ _ hq, hg]
  · simp [Past]; rw [hr.rest]
  · simp; rw [hr.rest]
  · simp; rw [hr.rest]
  · have := SameLinks.of_records hr
    simpa [SameLinks] using this
  · exact (SameSystemButMem.of_records hr).regs rfl
  · intro a; simp [hr.mem]

/-- A PLAIN SPE STORE of elements of `el` bytes. -/
theorem speStore_plain (form : SpeForm) (hs : s.msrSpe = true) (b : List Byte)
    (ha : aligned ea (s.pins.speBoundary form b.length) = true) (h : PlainAccess s ea b.length .store p) (hb : 0 < b.length) (hb' : b.length ≤ 8) (hm : s.mem.wf = true) (el k : Nat)
    (he : 0 < el) (hk : b.length = el * k) :
    ∃ t, s.speStore form el b ea = .next t ∧
      StoreResult 4 el p.e (p.page ea).ra ((List.range k).map fun j => bytesNat ((b.drop (el * j)).take el)) none ea
        s t := by
  have hl := elemOrder_length p.e el b he
  obtain ⟨t, ht, hr⟩ := store_plain b hm h hb hb' esrSpe el hl
  refine ⟨_, by simp only [State.speStore, speAvail, hs, if_true, ha, ht, Res.finish]; rfl, ?_⟩
  have himg := Memory.bytes_putBytes s.mem hm (p.page ea).ra (elemOrder p.e el b) (by omega)
  rw [hl, hk, ← hr.mem] at himg
  refine ⟨⟨?_, ?_, ?_, ?_, ?_, ?_, ?_, ?_⟩, ?_⟩
  · intro j hj
    have hj' : j < k := by simpa using hj
    have : el * j + el ≤ b.length := by
      rw [hk]; calc el * j + el = el * (j + 1) := by ring
        _ ≤ el * k := Nat.mul_le_mul_left _ hj'
    rw [elem_of_store p.e el j b s.mem hm (p.page ea).ra he this (by omega) _ (by simp [hr.mem])]
    simp [List.getD, hj']
  · intro a ha
    simp only [advance_mem, hr.mem]
    apply Memory.byte_putBytes_outside _ hm
    rw [elemOrder_length _ _ _ he, hk]
    simpa using ha
  · intro q hq; cases hq
  · intro q _; rw [gprD_of_gpr (advance_gpr _ _)]; exact gprD_of_gpr hr.gpr q
  · simp [Past]; rw [hr.rest]
  · simp; rw [hr.rest]
  · simp; rw [hr.rest]
  · have := SameLinks.of_records hr
    simpa [SameLinks] using this
  · rw [List.length_map, List.length_range, advance_mem, himg]
    exact (SameSystemButMem.of_records hr).regs rfl

end Sys2Proof.Machine
end

