-- ==== Sys2Proof/Laws/Multiple.lean ====
section
/-! SUPPORT. What the loads and stores of several words and the reservation instructions do when nothing stands in their
way. -/

namespace Sys2Proof.Machine

variable {s : State} {ea : Word} {n : Nat} {p : TlbEntry}

/-! Loads of several words. -/

/-- Putting a loaded word somewhere changes nothing that an access looks at, whatever the records. -/
def Quiet (put : State → Word → State) : Prop :=
  (∀ s w e q b, put { s with ev := e, psu := q, buf := b } w = { put s w with ev := e, psu := q, buf := b }) ∧
    ∀ s w, (put s w).cache = s.cache ∧ (put s w).mmu = s.mmu ∧ (put s w).pins = s.pins ∧ (put s w).msr = s.msr ∧
      (put s w).mem = s.mem ∧ (put s w).psu = s.psu ∧ (put s w).buf = s.buf

/-- The words put where they go, one after the other. -/
def putAll : List (State → Word → State) → List Word → State → State
  | put :: l, w :: ws, s => putAll l ws (put s w)
  | _, _, s => s

/-- The words at a real address. -/
def State.wordsAt (s : State) (e : Bool) (ra : Word) : Nat → List Word
  | 0 => []
  | n + 1 => s.wordAt e ra :: s.wordsAt e (ra + 4#32) n

@[simp] theorem wordsAt_length (e : Bool) (ra : Word) (n : Nat) : (s.wordsAt e ra n).length = n := by
  induction n generalizing ra with
  | zero => rfl
  | succ n ih => simp [State.wordsAt, ih]

theorem wordsAt_getD (e : Bool) (ra : Word) (n k : Nat) (h : k < n) :
    (s.wordsAt e ra n).getD k 0#32 = s.wordAt e (ra + BitVec.ofNat 32 (4 * k)) := by
  induction n generalizing ra k with
  | zero => omega
  | succ n ih =>
    cases k with
    | zero => simp [State.wordsAt]
    | succ k =>
      rw [State.wordsAt, List.getD_cons_succ, ih _ _ (by omega)]
      congr 1
      rw [BitVec.add_assoc, show (4#32 : Word) = BitVec.ofNat 32 4 from rfl, ← BitVec.ofNat_add]
      congr 2; omega

theorem wordsAt_congr {t : State} (h : t.mem = s.mem) (e : Bool) (ra : Word) (n : Nat) :
    t.wordsAt e ra n = s.wordsAt e ra n := by
  induction n generalizing ra with
  | zero => rfl
  | succ n ih => simp [State.wordsAt, State.wordAt, State.elem, h, ih]

variable {k : List (Word × List Byte)}

theorem OnlyRecords.put {t : State} {put : State → Word → State} (hq : Quiet put)
    (h : OnlyRecords false k s.mem s t) (w : Word) : OnlyRecords false k s.mem (put s w) (put t w) := by
  have e : put t w = { put s w with ev := t.ev, psu := t.psu, buf := t.buf } := by
    rw [h.rest]; exact hq.1 s w t.ev t.psu t.buf
  obtain ⟨-, -, -, -, hm, hp, hb⟩ := hq.2 s w
  exact {
    rest := by rw [e, ← hm]
    psu := by rw [e, hp]; exact h.psu
    snoops := by rw [e, hb]; exact h.snoops
    errs := by rw [e, hb]; exact h.errs
    old := by rw [e, hb]; exact h.old }

theorem OnlyRecords.putAll {t : State} (l : List (State → Word → State)) (ws : List Word)
    (hq : ∀ put ∈ l, Quiet put) (h : OnlyRecords false k s.mem s t) :
    OnlyRecords false k s.mem (putAll l ws s) (Machine.putAll l ws t) := by
  induction l generalizing s t ws with
  | nil => simpa [Machine.putAll] using h
  | cons put l ih =>
    cases ws with
    | nil => simpa [Machine.putAll] using h
    | cons w ws =>
      have hput := hq put (by simp)
      have := h.put hput w
      have hm := (hput.2 s w).2.2.2.2.1
      rw [← hm] at this
      have := ih (s := put s w) (t := put t w) ws (fun q hq' => hq q (by simp [hq'])) this
      rwa [hm] at this

/-- An aligned word is one beat, and so is the next. -/
theorem busBeats_word (ha : aligned ea 4 = true) (b : List Byte) (hb : b.length = 4) : busBeats ea b = [(ea, b)] := by
  rw [busBeats_eq, hb, if_pos]
  simp only [aligned, beq_iff_eq] at ha
  unfold room
  omega

theorem aligned_next (ha : aligned ea 4 = true) : aligned (ea + 4#32) 4 = true := by
  simp only [aligned, beq_iff_eq, BitVec.toNat_add, BitVec.toNat_ofNat] at *
  omega

/-- The first of several words, and the others. -/
theorem wordBeats_succ (m : Memory) (ra ea : Word) (n : Nat) :
    wordBeats m ra ea (n + 1) = (ea, m.bytes ra 4) :: wordBeats m (ra + 4#32) (ea + 4#32) n := by
  have e (x : Word) (k : Nat) : x + BitVec.ofNat 32 (4 * (k + 1)) = x + 4#32 + BitVec.ofNat 32 (4 * k) := by
    rw [BitVec.add_assoc, show (4#32 : Word) = BitVec.ofNat 32 4 from rfl, ← BitVec.ofNat_add]
    congr 2; omega
  simp only [wordBeats, List.range_succ_eq_map, List.map_cons, List.map_map, Function.comp_def, Nat.succ_eq_add_one, e]
  simp

/-- PLAIN LOADS OF SEVERAL WORDS put each where it goes. -/
theorem loadWords_plain (l : List (State → Word → State)) (hq : ∀ put ∈ l, Quiet put) (ha : aligned ea 4 = true)
    (h : PlainAccess s ea (4 * l.length) .load p) :
    ∃ t, s.loadWords ea l = .ok () t ∧
      OnlyRecords false (wordBeats s.mem (p.page ea).ra ea l.length) s.mem
        (putAll l (s.wordsAt p.e (p.page ea).ra l.length) s) t := by
  induction l generalizing s ea with
  | nil => exact ⟨s, rfl, .quiet rfl⟩
  | cons put l ih =>
    have hput := hq put (by simp)
    have h4 : PlainAccess s ea 4 .load p := by
      have := h.part 0 4 (by simp) (by decide)
      simpa using this
    obtain ⟨t, ht, hr⟩ := load_plain h4 (by decide) (by decide) 0#32 4
    rw [elemOrder_one _ _ _ (by simp) (by decide)] at ht
    rw [busBeats_word ha _ (by simp)] at hr
    have hw : bytesWord (endian p.e (s.mem.bytes (p.page ea).ra 4)) = s.wordAt p.e (p.page ea).ra := rfl
    simp only [State.loadWords, ht, Res.andThen, hw]
    generalize hv : s.wordAt p.e (p.page ea).ra = w
    have hr1 := hr.put hput w
    have hm : (put t w).mem = s.mem := by rw [(hput.2 t w).2.2.2.2.1, hr.mem]
    cases hl : l.length with
    | zero =>
      have : l = [] := List.length_eq_zero_iff.mp hl
      subst this
      refine ⟨put t w, rfl, ?_⟩
      simpa [State.wordsAt, hv, Machine.putAll, wordBeats] using hr1
    | succ m =>
      have hrest : PlainAccess s (ea + 4#32) (4 * l.length) .load p :=
        h.part 4 (4 * l.length) (by simp; omega) (by omega)
      have hrest' : PlainAccess (put t w) (ea + 4#32) (4 * l.length) .load p :=
        (hrest.after hr).congr (hput.2 t w).1 (hput.2 t w).2.1 (hput.2 t w).2.2.1 (hput.2 t w).2.2.2.1
          (congrArg Buffers.storeErrs (hput.2 t w).2.2.2.2.2.2)
      obtain ⟨u, hu, hr2⟩ := ih (s := put t w) (ea := ea + 4#32) (fun q hq' => hq q (by simp [hq']))
        (aligned_next ha) hrest'
      refine ⟨u, hu, ?_⟩
      have hra : (p.page (ea + 4#32)).ra = (p.page ea).ra + 4#32 := h.ra 4 (by simp; omega)
      rw [hm, hra, wordsAt_congr hm] at hr2
      have hall : OnlyRecords false [(ea, s.mem.bytes (p.page ea).ra 4)] s.mem (putAll l (s.wordsAt p.e ((p.page ea).ra + 4#32) l.length) (put s w))
          (putAll l (s.wordsAt p.e ((p.page ea).ra + 4#32) l.length) (put t w)) := by
        have hms := (hput.2 s w).2.2.2.2.1
        have := OnlyRecords.putAll (s := put s w) (t := put t w) l (s.wordsAt p.e ((p.page ea).ra + 4#32) l.length)
          (fun q hq' => hq q (by simp [hq'])) (by rw [hms]; exact hr1)
        rwa [hms] at this
      rw [List.length_cons, State.wordsAt, hv, Machine.putAll, wordBeats_succ]
      exact hall.trans hr2

theorem quiet_setGprW (r : Gpr) : Quiet fun s w => s.setGprW r w :=
  ⟨fun _ _ _ _ _ => rfl, fun _ _ => ⟨rfl, rfl, rfl, rfl, rfl, rfl, rfl⟩⟩

/-- Words put into registers. -/
theorem putAll_gprs (l : List Gpr) (hl : l.Nodup) (ws : List Word) (hw : ws.length = l.length) (s : State) :
    (∀ k, (h : k < l.length) → (putAll (intoGprs l) ws s).gprW l[k] = ws.getD k 0#32 ∧
        (putAll (intoGprs l) ws s).gprH l[k] = s.gprH l[k]) ∧
      (∀ q, q ∉ l → (putAll (intoGprs l) ws s).gprD q = s.gprD q) ∧
      putAll (intoGprs l) ws s = { s with gpr := (putAll (intoGprs l) ws s).gpr } := by
  induction l generalizing ws s with
  | nil => exact ⟨fun k h => absurd h (by simp), fun _ _ => by simp [intoGprs, putAll], by simp [intoGprs, putAll]⟩
  | cons r l ih =>
    cases ws with
    | nil => simp at hw
    | cons w ws =>
      have hn := List.nodup_cons.mp hl
      obtain ⟨h1, h2, h3⟩ := ih hn.2 ws (by simpa using hw) (s.setGprW r w)
      have e : putAll (intoGprs (r :: l)) (w :: ws) s = putAll (intoGprs l) ws (s.setGprW r w) := rfl
      rw [e]
      refine ⟨fun k hk => ?_, fun q hq => ?_, ?_⟩
      · cases k with
        | zero =>
          have := h2 r hn.1
          simp only [List.getElem_cons_zero, List.getD_cons_zero, State.gprW, State.gprH, this]
          exact ⟨setGprW_gprW_self s r w, setGprW_gprH_self s r w⟩
        | succ k =>
          have hk' : k < l.length := by simpa using hk
          have := h1 k hk'
          simp only [List.getElem_cons_succ, List.getD_cons_succ]
          refine ⟨this.1, this.2.trans ?_⟩
          have : l[k] ≠ r := fun e => hn.1 (e ▸ List.getElem_mem hk')
          simp [State.gprH, setGprW_gprD_ne _ _ _ _ this]
      · rw [h2 q (by simp at hq; exact hq.2)]
        exact setGprW_gprD_ne _ _ _ _ (by simp at hq; exact hq.1)
      · rw [h3]; rfl

/-- A PLAIN LOAD OF SEVERAL WORDS: what its parts come to. -/
theorem loadMultiple_plain (l : List (State → Word → State)) (hq : ∀ put ∈ l, Quiet put) (ha : aligned ea 4 = true)
    (h : PlainAccess s ea (4 * l.length) .load p) :
    ∃ t, s.loadMultiple ea l = .next (t.advance 4) ∧
      OnlyRecords false (wordBeats s.mem (p.page ea).ra ea l.length) s.mem
        (putAll l (s.wordsAt p.e (p.page ea).ra l.length) s) t := by
  obtain ⟨t, ht, hr⟩ := loadWords_plain l hq ha h
  exact ⟨t, by simp only [State.loadMultiple, ha, if_true, ht, Res.finish], hr⟩

/-- A PLAIN LOAD OF SEVERAL REGISTERS. -/
theorem loadMultiple_gprs (l : List Gpr) (hl : l.Nodup) (ha : aligned ea 4 = true)
    (h : PlainAccess s ea (4 * l.length) .load p) :
    ∃ t, s.loadMultiple ea (intoGprs l) = .next t ∧ LoadMultipleResult l.length p.e (p.page ea).ra ea l s t := by
  have hlen : (intoGprs l).length = l.length := by simp [intoGprs]
  rw [← hlen] at h
  obtain ⟨t, ht, hr⟩ := loadMultiple_plain (intoGprs l) (fun put hp => by
    obtain ⟨r, -, rfl⟩ := List.mem_map.mp hp
    exact quiet_setGprW r) ha h
  rw [hlen] at hr
  obtain ⟨h1, h2, h3⟩ := putAll_gprs l hl (s.wordsAt p.e (p.page ea).ra l.length) (by simp) s
  generalize putAll (intoGprs l) (s.wordsAt p.e (p.page ea).ra l.length) s = u at *
  have hg : ∀ q, (t.advance 4).gprD q = u.gprD q := fun q =>
    (gprD_of_gpr (advance_gpr _ _) q).trans (gprD_of_gpr hr.gpr q)
  refine ⟨_, ht, fun k hk => ?_, fun q hq => ?_, ?_, ?_, ?_, ?_, ?_, ?_⟩
  · have := h1 k hk
    rw [wordsAt_getD _ _ _ _ hk] at this
    simpa [State.gprW, State.gprH, hg] using this
  · rw [hg, h2 q hq]
  · simp [Past]; rw [hr.rest, h3]
  · simp; rw [hr.rest, h3]
  · simp; rw [hr.rest, h3]
  · have : SameLinks s t := by refine ⟨?_, ?_, ?_, ?_⟩ <;> rw [hr.rest, h3]
    simpa [SameLinks] using this
  · have := (SameSystemButMem.of_records hr).regs (u := t.advance 4) rfl
    rw [h3] at this
    exact this
  · intro a; simp [hr.mem]

/-! Stores of several words. -/

/-- The bytes of words. -/
def wordsBytes (l : List Word) : List Byte := l.flatMap wordBytes

theorem wordsBytes_length (l : List Word) : (wordsBytes l).length = 4 * l.length := by
  induction l with
  | nil => rfl
  | cons w l ih => simp [wordsBytes, List.flatMap_cons, wordBytes] at *; omega

theorem elemOrder_words (e : Bool) (w : Word) (l : List Word) :
    elemOrder e 4 (wordsBytes (w :: l)) = endian e (wordBytes w) ++ elemOrder e 4 (wordsBytes l) := by
  cases e
  · simp [elemOrder, endian, wordsBytes]
  · have big : ∀ (f g : Nat) (b : List Byte), b.length ≤ f → b.length ≤ g → revElems 4 f b = revElems 4 g b := by
      intro f
      induction f with
      | zero => intro g b h _; have : b = [] := by simpa using h
                subst this; cases g <;> simp [revElems]
      | succ f ih =>
        intro g b hf hg
        cases g with
        | zero => have : b = [] := by simpa using hg
                  subst this; simp [revElems]
        | succ g =>
          rw [revElems, revElems]
          split
          · rfl
          · rename_i hb
            have : 0 < b.length := by cases b <;> simp_all
            rw [ih g (b.drop 4) (by simp; omega) (by simp; omega)]
    simp only [elemOrder, endian, if_true]
    have : wordsBytes (w :: l) = wordBytes w ++ wordsBytes l := rfl
    rw [this]
    conv => lhs; rw [show (wordBytes w ++ wordsBytes l).length = (wordsBytes l).length + 3 + 1 by simp [wordBytes]]
    rw [revElems, big _ (wordsBytes l).length] <;> simp [wordBytes]

/-- The word `k` of bytes of words. -/
theorem wordsBytes_chunk (l : List Word) (k : Nat) (h : k < l.length) :
    ((wordsBytes l).drop (4 * k)).take 4 = wordBytes (l.getD k 0#32) := by
  induction l generalizing k with
  | nil => simp at h
  | cons w l ih =>
    cases k with
    | zero => simp [wordsBytes, wordBytes]
    | succ k =>
      have : (wordsBytes (w :: l)).drop (4 * (k + 1)) = (wordsBytes l).drop (4 * k) := by
        rw [show 4 * (k + 1) = 4 * k + 4 by ring]; simp [wordsBytes, wordBytes]
      rw [this, List.getD_cons_succ]
      exact ih k (by simpa using h)

/-- PLAIN STORES OF SEVERAL WORDS write their bytes one after the other. -/
theorem storeWords_plain (l : List Word) (hl : l.length ≤ 32) (hm : s.mem.wf = true) (ha : aligned ea 4 = true)
    (h : PlainAccess s ea (4 * l.length) .store p) :
    ∃ t, s.storeWords ea l = .ok () t ∧
      OnlyRecords true (wordBeats t.mem (p.page ea).ra ea l.length)
        (s.mem.putBytes (p.page ea).ra (elemOrder p.e 4 (wordsBytes l))) s t := by
  induction l generalizing s ea with
  | nil => exact ⟨s, rfl, by cases p.e <;> exact .quiet rfl⟩
  | cons w l ih =>
    have h4 : PlainAccess s ea 4 .store p := by
      have := h.part 0 4 (by simp) (by decide)
      simpa using this
    have hlen : (endian p.e (wordBytes w)).length = 4 := by cases p.e <;> simp [endian, wordBytes]
    obtain ⟨t, ht, hr⟩ := storeDone_plain (wordBytes w) hm h4 (by simp [wordBytes]) (by simp [wordBytes]) 0#32 4
      (elemOrder_length _ _ _ (by decide))
    rw [elemOrder_one _ 4 (wordBytes w) rfl (by decide), busBeats_word ha _ hlen] at hr
    simp only [State.storeWords, ht, Res.andThen, Bool.true_or, if_true]
    rw [elemOrder_words]
    have hw : t.mem.bytes (p.page ea).ra 4 = endian p.e (wordBytes w) := by
      have := Memory.bytes_putBytes s.mem hm (p.page ea).ra (endian p.e (wordBytes w)) (by omega)
      rwa [hlen, ← hr.mem] at this
    cases hn : l.length with
    | zero =>
      have : l = [] := List.length_eq_zero_iff.mp hn
      subst this
      have hz : elemOrder p.e 4 (wordsBytes []) = [] := by cases p.e <;> rfl
      refine ⟨t, rfl, ?_⟩
      rw [List.length_singleton, wordBeats_succ, hw, hz, List.append_nil]
      exact hr
    | succ m =>
      have hrest : PlainAccess s (ea + 4#32) (4 * l.length) .store p :=
        h.part 4 (4 * l.length) (by simp; omega) (by omega)
      have hl' : l.length + 1 ≤ 32 := by simpa using hl
      obtain ⟨u, hu, hr2⟩ := ih (s := t) (ea := ea + 4#32) (by omega)
        (by rw [hr.mem]; exact Memory.wf_putBytes _ hm _ _) (aligned_next ha) (hrest.after hr)
      have hra : (p.page (ea + 4#32)).ra = (p.page ea).ra + 4#32 := h.ra 4 (by simp; omega)
      have hlo : (elemOrder p.e 4 (wordsBytes l)).length = 4 * l.length := by
        rw [elemOrder_length _ _ _ (by decide), wordsBytes_length]
      have hp := Memory.putBytes_append s.mem (p.page ea).ra (endian p.e (wordBytes w)) (elemOrder p.e 4 (wordsBytes l))
      have hx := putBytes_apart hm (p.page ea).ra (endian p.e (wordBytes w)) (elemOrder p.e 4 (wordsBytes l)) (by omega)
      rw [hlen] at hp hx
      rw [hr.mem, hra] at hr2
      have hall := hr.trans hr2 hx
      rw [hp] at hall
      have hf : u.mem.bytes (p.page ea).ra 4 = endian p.e (wordBytes w) := by
        have hb := Memory.bytes_putBytes s.mem hm (p.page ea).ra
          (endian p.e (wordBytes w) ++ elemOrder p.e 4 (wordsBytes l)) (by rw [List.length_append]; omega)
        rw [← hall.mem, List.length_append, hlen, ← Memory.bytes_append] at hb
        exact (List.append_inj hb (by rw [Memory.bytes_length, hlen])).1
      refine ⟨u, hu, ?_⟩
      rw [List.length_cons, wordBeats_succ, hf]
      exact hall

/-- A PLAIN STORE OF SEVERAL WORDS. -/
theorem storeMultiple_plain (l : List Word) (hl : l.length ≤ 32) (ha : aligned ea 4 = true) (hm : s.mem.wf = true)
    (h : PlainAccess s ea (4 * l.length) .store p) :
    ∃ t, s.storeMultiple ea l = .next t ∧
      StoreMultipleResult p.e (p.page ea).ra (l.map BitVec.toNat) ea s t := by
  obtain ⟨t, ht, hr⟩ := storeWords_plain l hl hm ha h
  refine ⟨_, by simp only [State.storeMultiple, ha, if_true, ht, Res.finish]; rfl, ?_⟩
  have hlen := wordsBytes_length l
  refine ⟨⟨?_, ?_, ?_, ?_, ?_, ?_, ?_, ?_⟩, ?_⟩
  · intro k hk
    have hk' : k < l.length := by simpa using hk
    rw [elem_of_store p.e 4 k (wordsBytes l) s.mem hm (p.page ea).ra (by decide) (by omega) (by omega) _ (by simp [hr.mem])]
    rw [wordsBytes_chunk l k hk', bytesNat_wordBytes]
    simp [List.getD, hk']
  · intro a ha
    simp only [advance_mem, hr.mem]
    apply Memory.byte_putBytes_outside _ hm
    rw [elemOrder_length _ _ _ (by decide), hlen]
    simpa using ha
  · intro q hq; cases hq
  · intro q _; rw [gprD_of_gpr (advance_gpr _ _)]; exact gprD_of_gpr hr.gpr q
  · simp [Past]; rw [hr.rest]
  · simp; rw [hr.rest]
  · simp; rw [hr.rest]
  · have := SameLinks.of_records hr
    simpa [SameLinks] using this
  · rw [List.length_map, advance_mem]
    exact (SameSystemButMem.of_records hr).regs rfl

end Sys2Proof.Machine
end

