-- ==== Sys2Proof/Laws/Reserve.lean ====
section
/-! SUPPORT. What the reservation instructions do when nothing stands in their way. -/

namespace Sys2Proof.Machine

variable {s : State} {ea : Word} {n : Nat} {p : TlbEntry}

theorem aligned_room (ha : aligned ea n = true) (hn : n = 1 ∨ n = 2 ∨ n = 4) : n ≤ room ea := by
  simp only [aligned, beq_iff_eq] at ha
  unfold room
  rcases hn with h | h | h <;> subst h <;> omega

/-- A PLAIN LOAD AND RESERVE: a plain load of the state with the reservation set. -/
theorem loadReserved_plain (hn : n = 1 ∨ n = 2 ∨ n = 4) (rt ra rb : Gpr) (ha : aligned (s.eaX ra rb) n = true)
    (h : PlainAccess s (s.eaX ra rb) n .load p) :
    ∃ t, s.loadReserved n rt ra rb = .next t ∧
      LoadResult 4 rt none (BitVec.ofNat 32 (s.elem p.e (p.page (s.eaX ra rb)).ra n)) (s.eaX ra rb)
        (s.mem.bytes (p.page (s.eaX ra rb)).ra n) { s with resv := true } t := by
  have hp : 0 < n := by omega
  generalize he : s.eaX ra rb = ea at *
  have hr0 := logAccess_records false s ea false n
  have h0 := h.after hr0
  have hr := aligned_room ha hn
  have hb := h0.beats hp 0#32 (fun _ s => s)
  simp only [plainBeats, hr, if_true] at hb
  have hfl : (s.logAccess ea false n).atomicFlush ea (p.page ea) 0x8000#32 = .ok none (s.logAccess ea false n) := by
    simp [State.atomicFlush, h0.cacheOff]
  have hrf := hr0.trans (flushBuffers_records false h0.noErrs)
  have hw := h0.after (flushBuffers_records false h0.noErrs)
  have hbr : (s.logAccess ea false n).busRead .data (p.page ea) n =
      .ok (s.mem.bytes (p.page ea).ra n) (s.logAccess ea false n).flushBuffers := by
    obtain ⟨h1, h2⟩ := busBytes_plain (s := (s.logAccess ea false n).flushBuffers) (k := 0) (n := n) hw.isRam
    simp [State.busRead, busErrIn_false hw.answers, h1, h2]
  have hpe : (p.page ea).e = p.e := rfl
  simp only [State.loadReserved, he, ha, if_true, State.loadReserve, hb, Res.andThen, hfl, hbr, Res.finish, hpe]
  rw [elemOrder_one _ _ _ (by simp) hp]
  have hr1 := hrf.trans (psuBeat_records (s.logAccess ea false n).flushBuffers false ea (s.mem.bytes (p.page ea).ra n)
    (by rw [Memory.bytes_length]; exact (room_fits _ _).mpr hr))
  have hr2 := logBytes_records false ((s.logAccess ea false n).flushBuffers.psuBeat false ea (s.mem.bytes (p.page ea).ra n))
    (s.mem.bytes (p.page ea).ra n)
  rw [hr1.mem] at hr2
  have hr3 := hr1.trans hr2
  generalize ((s.logAccess ea false n).flushBuffers.psuBeat false ea (s.mem.bytes (p.page ea).ra n)).logBytes
    (s.mem.bytes (p.page ea).ra n) = t at *
  refine ⟨_, rfl, ?_⟩
  have hg : ∀ q, t.gprD q = s.gprD q := fun q => gprD_of_gpr hr3.gpr q
  have hv : bytesWord (endian p.e (s.mem.bytes (p.page ea).ra n)) =
      BitVec.ofNat 32 (s.elem p.e (p.page ea).ra n) := rfl
  rw [hv]
  refine ⟨?_, ?_, ?_, ?_, ?_, ?_, ?_, ?_, ?_, ?_⟩
  · rw [gprW_of_gpr (advance_gpr _ _)]; simp
  · have := setGprW_gprH_self { t with resv := true } rt (BitVec.ofNat 32 (s.elem p.e (p.page ea).ra n))
    have h2 : ({ t with resv := true } : State).gprH rt = s.gprH rt := by
      rw [State.gprH, State.gprH]; exact congrArg hiW (hg rt)
    rw [State.gprH, gprD_of_gpr (advance_gpr _ _)]
    exact this.trans h2
  · intro q _ hu; cases hu
  · intro q hq _
    rw [gprD_of_gpr (advance_gpr _ _), setGprW_gprD_ne _ _ _ _ hq]
    exact hg q
  · simp [Past]; rw [hr3.rest]
  · simp; rw [hr3.rest]
  · simp; rw [hr3.rest]
  · have := SameLinks.of_records hr3
    simpa [SameLinks] using this
  · have := SameSystemButMem.of_records hr3
    rw [busBeats_eq, Memory.bytes_length, if_pos hr]
    exact ⟨this.1, rfl, this.2.2⟩
  · intro a; simp [hr3.mem]

/-- A store conditional without a reservation writes CR0 alone. -/
theorem storeReserved_none (b : List Byte) (ra rb : Gpr) (hv : s.resv = false) :
    ∃ t, s.storeReserved b ra rb = .next t ∧ CrResult 4 0#3 false false false s.xerSo s t := by
  refine ⟨(s.condCr false).advance 4, by simp [State.storeReserved, hv], ?_⟩
  exact resultCr_spec s 4 0#3 false false false s.xerSo

/-- A PLAIN STORE CONDITIONAL with the reservation held: a store into the state with CR0 written and the reservation
gone. -/
theorem storeReserved_plain (b : List Byte) (hl : b.length = n) (hn : n = 1 ∨ n = 2 ∨ n = 4) (ra rb : Gpr)
    (hv : s.resv = true) (hx : s.pins.xfail = false) (hm : s.mem.wf = true) (ha : aligned (s.eaX ra rb) n = true)
    (h : PlainAccess s (s.eaX ra rb) n .store p) :
    ∃ t, s.storeReserved b ra rb = .next t ∧
      StoreResult 4 n p.e (p.page (s.eaX ra rb)).ra [bytesNat b] none (s.eaX ra rb)
        ({ s with resv := false }.setCrField 0#3 (crBits false false true s.xerSo)) t := by
  subst hl
  have hp : 0 < b.length := by omega
  generalize he : s.eaX ra rb = ea at *
  have hr0 := logAccess_records true s ea true b.length
  have h0 := h.after hr0
  have hr := aligned_room ha hn
  have hb := h0.beats hp esrSt (fun _ s => s)
  simp only [plainBeats, hr, if_true] at hb
  have hfl : (s.logAccess ea true b.length).atomicFlush ea (p.page ea) 0x4000#32 =
      .ok none (s.logAccess ea true b.length) := by
    simp [State.atomicFlush, h0.cacheOff]
  have hpe : (p.page ea).e = p.e := rfl
  have hrf := hr0.trans (flushBuffers_records true h0.noErrs)
  have hw := h0.after (flushBuffers_records true h0.noErrs)
  have hlen : (endian p.e b).length = b.length := by cases p.e <;> simp [endian]
  have hr1 := psuBeat_records (s.logAccess ea true b.length).flushBuffers true ea (endian p.e b)
    (by rw [hlen]; exact (room_fits _ _).mpr hr)
  have hr2 := logBytes_records true ((s.logAccess ea true b.length).flushBuffers.psuBeat true ea (endian p.e b))
    (endian p.e b)
  rw [hr1.mem] at hr2
  have hr12 := hr1.trans hr2
  have hx2 := hw.after hr12
  rw [hrf.mem] at hr12
  have hr3 := hrf.trans hr12
  simp only [State.storeReserved, he, hv, Bool.not_true, Bool.false_eq_true, if_false, ha, if_true,
    State.storeConditional, hb, Res.andThen, hfl, hpe, elemOrder_one _ _ _ rfl hp]
  generalize ((s.logAccess ea true b.length).flushBuffers.psuBeat true ea (endian p.e b)).logBytes (endian p.e b) = t at *
  have hxf : t.pins.xfail = false := by rw [hr3.pins]; exact hx
  simp only [busErrIn_false hx2.answers, hxf, Bool.false_eq_true, if_false, Res.finish]
  have hr4 := putMem_records false t (p.page ea).ra (endian p.e b) (by rw [hr3.mem]; exact hm) (by omega)
    (by rw [hlen]; exact hx2.isRam)
  rw [hr3.mem] at hr4
  have hr5 := hr3.trans hr4
  generalize t.putMem false (p.page ea).ra (endian p.e b) = u at *
  refine ⟨_, rfl, ?_⟩
  have hg : ∀ q, u.gprD q = s.gprD q := fun q => gprD_of_gpr hr5.gpr q
  have hend := elemOrder_one p.e b.length b rfl hp
  have himg := Memory.bytes_putBytes s.mem hm (p.page ea).ra (endian p.e b) (by omega)
  rw [hlen, show s.mem.putBytes (p.page ea).ra (endian p.e b) = u.mem from hr5.mem.symm] at himg
  refine ⟨⟨?_, ?_, ?_, ?_, ?_, ?_, ?_, ?_⟩, ?_⟩
  · intro k hk
    have : k = 0 := by simpa using hk
    subst this
    rw [elem_of_store p.e b.length 0 b s.mem hm (p.page ea).ra hp (by simp) (by omega) _
      (by rw [hend]; simp [State.condCr, hr5.mem])]
    simp
  · intro a ha
    have : ((({ u with resv := false } : State).condCr
        true).advance 4).mem = s.mem.putBytes (p.page ea).ra (endian p.e b) := by simp [State.condCr, hr5.mem]
    rw [this]
    apply Memory.byte_putBytes_outside _ hm
    rw [← hend, elemOrder_length _ _ _ hp]
    simpa using ha
  · intro q hq; cases hq
  · intro q _
    exact hg q
  · simp [Past, State.condCr]; rw [hr5.rest]
  · simp [State.condCr]; rw [hr5.rest]; rfl
  · simp [State.condCr]; rw [hr5.rest]
  · have := SameLinks.of_records hr5
    simpa [SameLinks, State.condCr] using this
  · have := SameSystemButMem.of_records hr5
    have hi : ((({ u with resv := false } : State).condCr true).advance 4).mem.bytes (p.page ea).ra b.length =
        endian p.e b := himg
    rw [List.length_singleton, Nat.mul_one, hi, busBeats_eq, hlen, if_pos hr]
    exact ⟨this.1, rfl, this.2.2⟩

end Sys2Proof.Machine
end

