-- ==== Sys2Proof/Laws/System.lean ====
section
/-! SUPPORT. What branches, interrupts and returns do, each said once. -/

namespace Sys2Proof.Machine

variable (s : State)

/-- A branch leaves exactly a branch result. -/
theorem branch_spec (len : Nat) (lk : Bool) (r : Br) :
    BranchResult len lk r.taken r.target r.ctr s (s.branch len lk r) := by
  refine ⟨rfl, rfl, rfl, fun q => rfl, rfl, rfl, rfl, rfl, ?_⟩
  simp [SameSystem]

/-- A non-critical synchronous interrupt but those that can be directed by an input. -/
theorem raiseSync_spec (ty : IntType) (esr : Word) (hc : ty.cls = .nonCritical) (he : ty ≠ .externalInput) :
    TakesNonCritical ty s.pc (esr ||| s.vlemi) s (raiseSync ty esr s) := by
  have hcrit : ty ≠ .criticalInput := fun e => by subst e; cases hc
  refine ⟨?_, ?_, ?_, ?_, ?_, fun q => rfl, rfl, rfl, ⟨rfl, rfl, rfl, rfl⟩, ?_⟩
  · simp [raiseSync, takeInterrupt, State.saveIn, hc]
  · simp [raiseSync, takeInterrupt, State.saveIn, hc]
  · simp [raiseSync, takeInterrupt, State.saveIn, hc, State.setEsr]
  · simp [raiseSync, State.keepMask, hc]
  · simp only [raiseSync, takeInterrupt_pc, State.vector]
    cases ty <;> rfl
  · refine ⟨?_, ?_, ?_, ?_, ?_, ?_, ?_, ?_, ?_, ?_, rfl, rfl, rfl, rfl, rfl, rfl, rfl, ?_, rfl, rfl, rfl, rfl, fun _ => rfl⟩ <;>
      simp [raiseSync, takeInterrupt, State.saveIn, hc, State.setEsr, he, hcrit]

theorem raiseSync_dear (ty : IntType) (esr : Word) (hc : ty.cls = .nonCritical) :
    (raiseSync ty esr s).ints.dear = s.ints.dear := by
  simp [raiseSync, takeInterrupt, State.saveIn, hc, State.setEsr]

/-- The Program interrupts. -/
theorem raiseProgram_spec (bit : Word) : TakesProgram bit s (raiseSync .program bit s) :=
  ⟨raiseSync_spec s .program bit rfl (by decide), raiseSync_dear s .program bit rfl, rfl⟩

theorem raiseIllegal_spec : TakesProgram 0x08000000#32 s (raiseIllegal s) := raiseProgram_spec s _
theorem raisePrivileged_spec : TakesProgram 0x04000000#32 s (raisePrivileged s) := raiseProgram_spec s _
theorem raiseTrap_spec : TakesProgram 0x02000000#32 s (raiseTrap s) := raiseProgram_spec s _

/-- The System Call interrupt. -/
theorem raiseSystemCall_spec (len : Nat) :
    TakesNonCritical .systemCall (s.pc + BitVec.ofNat 32 len) s.vlemi s (raiseSystemCall len s) := by
  simp [TakesNonCritical, SameGprs, SameLinks, State.gprD, raiseSystemCall, takeInterrupt, State.saveIn, State.setEsr,
    IntType.cls, State.keepMask, State.vector, State.nextPc]

/-- The Alignment interrupt: the address goes to DEAR. -/
theorem raiseAlignment_spec (ea bits : Word) :
    TakesNonCritical .alignment s.pc (bits ||| s.vlemi) s (raiseAlignment ea bits s) ∧
      (raiseAlignment ea bits s).ints.dear = ea :=
  ⟨raiseSync_spec (s.setDear ea) .alignment bits rfl (by decide), rfl⟩

/-- A non-critical interrupt that no input directs leaves the syndrome registers to its caller. -/
theorem takeInterrupt_spec (ty : IntType) (save : Word) (hc : ty.cls = .nonCritical) (he : ty ≠ .externalInput) :
    TakesNonCritical ty save s.ints.esr s (takeInterrupt ty save s) := by
  have hcrit : ty ≠ .criticalInput := fun e => by subst e; cases hc
  refine ⟨?_, ?_, ?_, ?_, ?_, fun q => rfl, rfl, rfl, ⟨rfl, rfl, rfl, rfl⟩, ?_⟩
  · simp [takeInterrupt, State.saveIn, hc]
  · simp [takeInterrupt, State.saveIn, hc]
  · simp [takeInterrupt, State.saveIn, hc]
  · simp [State.keepMask, hc]
  · simp only [takeInterrupt_pc, State.vector]
  · refine ⟨?_, ?_, ?_, ?_, ?_, ?_, ?_, ?_, ?_, ?_, rfl, rfl, rfl, rfl, rfl, rfl, rfl, ?_, rfl, rfl, rfl, rfl, fun _ => rfl⟩ <;>
      simp [takeInterrupt, State.saveIn, hc, he, hcrit]

/-- The External Input interrupt: as any other, but for the reservation (HID0[ICR]) and the address of the handler. -/
theorem takeExternal_spec (save : Word) :
    TakesNonCritical .externalInput save s.ints.esr { s with resv := s.resv && !s.hid.hid0.getLsbD 17 }
      { takeInterrupt .externalInput save s with
        pc := (s.ints.ivpr &&& 0xFFFF0000#32) ||| (s.ints.ivor.get 4 &&& 0x0000FFF0#32) } := by
  have hi : (takeInterrupt .externalInput save s).ints =
      { s.ints with srr0 := save, srr1 := s.msr, handlerFetch := true } := rfl
  have hm : (takeInterrupt .externalInput save s).msr = s.msr &&& 0x00021202#32 := rfl
  have hr : (takeInterrupt .externalInput save s).resv = (s.resv && !s.hid.hid0.getLsbD 17) := by
    cases h : s.hid.hid0.getLsbD 17 <;> simp [takeInterrupt, State.hidIcr, h, -BitVec.getLsbD_eq_getElem]
  have hw : (takeInterrupt .externalInput save s).pwr = { s.pwr with waiting := false } := rfl
  simp only [TakesNonCritical, SameGprs, SameLinks, State.gprD, hi, hm, hr, hw, takeInterrupt_gpr, takeInterrupt_cr,
    takeInterrupt_xer, takeInterrupt_lr, takeInterrupt_ctr, takeInterrupt_acc, takeInterrupt_spefscr, takeInterrupt_sprg,
    takeInterrupt_hid, takeInterrupt_tmr, takeInterrupt_cache, takeInterrupt_dbg, takeInterrupt_pm, takeInterrupt_psu,
    takeInterrupt_pins, takeInterrupt_mem, takeInterrupt_buf, takeInterrupt_sync]
  simp [IntType.ivorIndex]

end Sys2Proof.Machine
end

