-- ==== Sys2Proof/Laws/Tag.lean ====
section
/-! SUPPORT. The code of the tag check bits: every single error is located, no double error is (23_cache_errors_coherency.md
R470). -/

namespace Sys2Proof.Machine

/-- How many of the six check bits are set. -/
def weight (e : BitVec 6) : Nat :=
  countTrue [e.getLsbD 0, e.getLsbD 1, e.getLsbD 2, e.getLsbD 3, e.getLsbD 4, e.getLsbD 5]

theorem tagPool_weight : ∀ c ∈ tagPool, weight c = 3 ∨ weight c = 5 := by decide
theorem tagPool_nodup : tagPool.Nodup := by decide
theorem tagPool_length : tagPool.length = 26 := by decide

/-- COLUMNS TAKEN OUT OF A POOL are of the pool, are all different where those of the pool are, and as many as asked for. -/
theorem pickColumns_spec (k : Nat) (pool : List (BitVec 6)) (h : pool.Nodup) (hk : k ≤ pool.length) :
    (∀ c ∈ pickColumns k pool, c ∈ pool) ∧ (pickColumns k pool).Nodup ∧ (pickColumns k pool).length = k := by
  induction k generalizing pool with
  | zero => simp [pickColumns]
  | succ k ih =>
    have hi : Config.tagPick k % pool.length < pool.length := Nat.mod_lt _ (by omega)
    obtain ⟨h1, h2, h3⟩ := ih (pool.eraseIdx (Config.tagPick k % pool.length)) (h.eraseIdx _)
      (by rw [List.length_eraseIdx_of_lt hi]; omega)
    have hd : pool.getD (Config.tagPick k % pool.length) 0#6 = pool[Config.tagPick k % pool.length] := by
      simp [List.getD_eq_getElem?_getD, hi]
    have hn : pool[Config.tagPick k % pool.length] ∉ pool.eraseIdx (Config.tagPick k % pool.length) := by
      intro hm
      obtain ⟨j, hj, hne, he⟩ := List.mem_eraseIdx_iff_getElem.mp hm
      exact hne ((List.Nodup.getElem_inj_iff h).mp he)
    simp only [pickColumns, hd]
    refine ⟨?_, ?_, by simp [h3]⟩
    · rintro c (_ | ⟨_, hc⟩)
      · exact List.getElem_mem hi
      · exact List.mem_of_mem_eraseIdx (h1 c hc)
    · exact List.nodup_cons.mpr ⟨fun hm => hn (h1 _ hm), h2⟩

theorem tagColumns_weight {c : BitVec 6} (h : c ∈ tagColumns) : weight c = 3 ∨ weight c = 5 :=
  tagPool_weight c ((pickColumns_spec 23 tagPool tagPool_nodup (by rw [tagPool_length]; omega)).1 c h)

/-- AN ERROR IN ONE BIT of the tag or the valid bit is located. -/
theorem tagFix_single (j : Nat) (h : j < tagColumns.length) : tagFix tagColumns[j] = some (1#23 <<< j) := by
  have hn := (pickColumns_spec 23 tagPool tagPool_nodup (by rw [tagPool_length]; omega)).2.1
  have hw : ¬weight tagColumns[j] = 1 := by
    rcases tagColumns_weight (List.getElem_mem h) with e | e <;> omega
  have hf : tagColumns.findIdx? (· == tagColumns[j]) = some j := by
    rw [List.findIdx?_eq_some_iff_getElem]
    refine ⟨h, by simp, fun i hi => ?_⟩
    simp only [beq_iff_eq]
    intro he
    have := (List.Nodup.getElem_inj_iff hn).mp he
    omega
  unfold weight at hw
  rw [tagFix, if_neg hw, hf]
  rfl

/-- AN ERROR IN ONE CHECK BIT is located there: nothing of the tag is wrong. -/
theorem tagFix_check {e : BitVec 6} (h : weight e = 1) : tagFix e = some 0#23 := if_pos h

/-- AN ERROR IN TWO BITS, whose pattern has an even number of bits, is not located. -/
theorem tagFix_double {e : BitVec 6} (h : weight e % 2 = 0) : tagFix e = none := by
  have hw : ¬weight e = 1 := by omega
  have hf : tagColumns.findIdx? (· == e) = none := by
    rw [List.findIdx?_eq_none_iff]
    intro c hc
    simp only [beq_eq_false_iff_ne, ne_eq]
    rintro rfl
    rcases tagColumns_weight hc with e | e <;> omega
  unfold weight at hw
  rw [tagFix, if_neg hw, hf]
  rfl

theorem countTrue_xor : ∀ l m : List Bool, l.length = m.length →
    countTrue (List.zipWith Bool.xor l m) % 2 = (countTrue l + countTrue m) % 2
  | [], [], _ => rfl
  | a :: l, b :: m, h => by
    have ih := countTrue_xor l m (by simpa using h)
    simp only [countTrue] at ih
    cases a <;> cases b <;> simp [countTrue] <;> omega

/-- The weight of a sum is even where both weights are odd: two errors make an even pattern. -/
theorem weight_xor (a b : BitVec 6) : weight (a ^^^ b) % 2 = (weight a + weight b) % 2 := by
  have := countTrue_xor [a.getLsbD 0, a.getLsbD 1, a.getLsbD 2, a.getLsbD 3, a.getLsbD 4, a.getLsbD 5]
    [b.getLsbD 0, b.getLsbD 1, b.getLsbD 2, b.getLsbD 3, b.getLsbD 4, b.getLsbD 5] rfl
  simpa [weight] using this

end Sys2Proof.Machine
end

