-- ==== Sys2Proof/Tests/Slice0.lean ====
section
/-! SUPPORT. Tests of this model, each a named theorem: what well-formedness refuses; the decoding and the encoding of a word
of every instruction, written out from the fields of its row of spec/opcode_table.json and its rule; single steps whose
results are rows of spec/95_test_vectors.md (the row's number is in the name) or are worked out from the rule named; and,
for every statement with hypotheses, states and operands that meet them. -/

namespace Sys2Proof.Tests

-- One theorem after another: side by side they want more threads than the memory of a check allows.
set_option Elab.async false

open Sys2Proof.Machine

/-! Well-formedness. -/

/-- One ill-formed term for each check: registers that a 4-bit field cannot name, an OIMM of 0 or of 33. -/
theorem test_wellformed_refuses :
    ([
      .seNot 12, .seNeg 12, .seMflr 12, .seMtlr 12, .seMfctr 12, .seMtctr 12, .seExtzb 12, .seExtsb 12, .seExtzh 12,
      .seExtsh 12, .seMr 12 3, .seMr 3 12, .seMtar 24 3, .seMtar 9 12, .seMfar 12 9, .seMfar 3 24, .seAdd 12 3,
      .seAdd 3 12, .seMullw 12 3, .seMullw 3 12, .seSub 12 3, .seSub 3 12, .seSubf 12 3, .seSubf 3 12, .seCmp 12 3,
      .seCmp 3 12, .seCmpl 12 3, .seCmpl 3 12, .seCmph 12 3, .seCmph 3 12, .seCmphl 12 3, .seCmphl 3 12, .seSrw 12 3,
      .seSrw 3 12, .seSraw 12 3, .seSraw 3 12, .seSlw 12 3, .seSlw 3 12, .seOr 12 3, .seOr 3 12, .seAndc 12 3,
      .seAndc 3 12, .seAnd 12 3 true, .seAnd 3 12 true, .seAddi 12 1, .seAddi 3 0, .seCmpli 12 1, .seCmpli 3 0,
      .seSubi 12 1 true, .seSubi 3 0 true, .seCmpi 12 1, .seBmaski 12 1, .seAndi 12 1, .seBclri 12 1, .seBgeni 12 1,
      .seBseti 12 1, .seBtsti 12 1, .seSrwi 12 1, .seSrawi 12 1, .seSlwi 12 1, .seLi 12 1, .seLbz 12 1 3,
      .seLbz 3 1 12, .seStb 12 1 3, .seStb 3 1 12, .seLhz 12 1 3, .seLhz 3 1 12, .seSth 12 1 3, .seSth 3 1 12,
      .seLwz 12 1 3, .seLwz 3 1 12, .seStw 12 1 3, .seStw 3 1 12, .seAddi 3 33] : List Instr).all (fun i => !i.wellFormed) = true := by
  decide

/-! Decoding and encoding. -/

/-- The bytes of a word, most significant first. -/
def codeBytes (bits w : Nat) : List Byte :=
  if bits = 16 then [BitVec.ofNat 8 (w / 256), BitVec.ofNat 8 w]
  else [BitVec.ofNat 8 (w / 16777216), BitVec.ofNat 8 (w / 65536), BitVec.ofNat 8 (w / 256), BitVec.ofNat 8 w]

/-- Every word of the list decodes, on a page of this kind, to the instruction beside it, which is well-formed and encodes
to the word. -/
noncomputable def reads (vle : Bool) (bits : Nat) (l : List (Nat × Instr)) : Bool :=
  l.all fun p =>
    (match decode vle (codeBytes bits p.1) with | .ok (i, []) => decide (i = p.2) | _ => false) && p.2.wellFormed &&
      (match encode p.2 with
       | .half h => bits = 16 && h.toNat = p.1
       | .word w => bits = 32 && w.toNat = p.1)

theorem test_decode_mmu_1 : reads true 32
    [(0x7C000764, .tlbre), (0x7C0007A4, .tlbwe), (0x7C0EDF24, .tlbsx 14 27), (0x7C11DE24, .tlbivax 17 27),
      (0x7C00046C, .tlbsync)] = true := by
  decide +kernel

theorem test_decode_cache_1 : reads true 32
    [(0x7C1DC7AC, .icbi 29 24), (0x7CEE802C, .icbt 7 14 16), (0x7C1B95EC, .dcba 27 18), (0x7C0628AC, .dcbf 6 5),
      (0x7C1983AC, .dcbi 25 16), (0x7C0FA06C, .dcbst 15 20), (0x7D392A2C, .dcbt 9 25 5),
      (0x7C2E49EC, .dcbtst 1 14 9), (0x7C0417EC, .dcbz 4 2), (0x7D19E14C, .dcbtls 8 25 28),
      (0x7D74090C, .dcbtstls 11 20 1), (0x7D3F630C, .dcblc 9 31 12), (0x7DEEA3CC, .icbtls 15 14 20),
      (0x7D73A1CC, .icblc 11 19 20)] = true := by
  decide +kernel

theorem test_decode_integer_booke_1 : reads false 32
    [(0x38B303D7, .addi 5 19 983), (0x3F50102B, .addis 26 16 4139), (0x302130B1, .addic 1 1 12465),
      (0x37879980, .addicDot 28 7 39296), (0x201876C4, .subfic 0 24 30404), (0x1D4E9749, .mulli 10 14 38729),
      (0x2E8302CD, .cmpi 5 3 717), (0x2985AE9C, .cmpli 3 5 44700), (0x70D0FC3B, .andiDot 16 6 64571),
      (0x77172187, .andisDot 23 24 8583), (0x628D623D, .ori 13 20 25149), (0x65836BB6, .oris 3 12 27574),
      (0x68DF001E, .xori 31 6 30), (0x6F68F88E, .xoris 8 27 63630), (0x548EF49F, .rlwinm 14 4 30 18 15 true),
      (0x5092DB0B, .rlwimi 18 4 27 12 5 true), (0x5D24E9F5, .rlwnm 4 9 29 7 26 true)] = true := by
  decide +kernel

theorem test_decode_integer_1 : reads true 32
    [(0x7F468215, .add 26 6 16 false true), (0x7D2F0414, .addc 9 15 0 true false),
      (0x7DD44115, .adde 14 20 8 false true), (0x7E3F05D5, .addme 17 31 true true),
      (0x7C560194, .addze 2 22 false false), (0x7F078050, .subf 24 7 16 false false),
      (0x7C52C010, .subfc 2 18 24 false false), (0x7C7B4910, .subfe 3 27 9 false false),
      (0x7FC005D1, .subfme 30 0 true true), (0x7C060191, .subfze 0 6 false true),
      (0x7FA100D0, .neg 29 1 false false), (0x7FF661D6, .mullw 31 22 12 false false),
      (0x7E5437D7, .divw 18 20 6 true true), (0x7D0A1396, .divwu 8 10 2 false false),
      (0x7C1E6897, .mulhw 0 30 13 true), (0x7FA32016, .mulhwu 29 3 4 false), (0x7C0EC800, .cmp 0 14 25),
      (0x7E067040, .cmpl 4 6 14), (0x7F3F9038, .and 31 25 18 false), (0x7F9F0078, .andc 31 28 0 false),
      (0x7D85FB79, .or 5 12 31 true), (0x7E939338, .orc 19 20 18 false), (0x7FE12278, .xor 1 31 4 false),
      (0x7D0E03B9, .nand 14 8 0 true)] = true := by
  decide +kernel

theorem test_decode_integer_2 : reads true 32
    [(0x7D53D0F8, .nor 19 10 26 false), (0x7C4C1238, .eqv 12 2 2 false), (0x7E460775, .extsb 6 18 true),
      (0x7C070735, .extsh 7 0 true), (0x7D6B0035, .cntlzw 11 11 true), (0x7EE73030, .slw 7 23 6 false),
      (0x7E97F431, .srw 23 20 30 true), (0x7EA6F630, .sraw 6 21 30 false), (0x7DFC9E70, .srawi 28 15 19 false)] = true := by
  decide +kernel

theorem test_decode_loadstore_booke_1 : reads false 32
    [(0x89A30C22, .lbz 13 3106 3), (0x8C7009E8, .lbzu 3 2536 16), (0xA3C74153, .lhz 30 16723 7),
      (0xA6ECB45F, .lhzu 23 46175 12), (0xA91A6BBA, .lha 8 27578 26), (0xAF8F98B2, .lhau 28 39090 15),
      (0x81258523, .lwz 9 34083 5), (0x87BFB869, .lwzu 29 47209 31), (0x9847205B, .stb 2 8283 7),
      (0x9DF48F32, .stbu 15 36658 20), (0xB3739DA9, .sth 27 40361 19), (0xB44647BC, .sthu 2 18364 6),
      (0x93A6EA3A, .stw 29 59962 6), (0x96E2043E, .stwu 23 1086 2), (0xBAFC0B62, .lmw 23 2914 28),
      (0xBFB7BCB1, .stmw 29 48305 23)] = true := by
  decide +kernel

theorem test_decode_loadstore_1 : reads true 32
    [(0x7D0D70AE, .lbzx 8 13 14), (0x7CE108EE, .lbzux 7 1 1), (0x7CA95A2E, .lhzx 5 9 11),
      (0x7E12FA6E, .lhzux 16 18 31), (0x7C825AAE, .lhax 4 2 11), (0x7C9C72EE, .lhaux 4 28 14),
      (0x7FEAA82E, .lwzx 31 10 21), (0x7EF6806E, .lwzux 23 22 16), (0x7E5E21AE, .stbx 18 30 4),
      (0x7E41E9EE, .stbux 18 1 29), (0x7C0FEB2E, .sthx 0 15 29), (0x7D764B6E, .sthux 11 22 9),
      (0x7FC1012E, .stwx 30 1 0), (0x7E74116E, .stwux 19 20 2), (0x7DE2BE2C, .lhbrx 15 2 23),
      (0x7D2A242C, .lwbrx 9 10 4), (0x7FE2172C, .sthbrx 31 2 2), (0x7DD15D2C, .stwbrx 14 17 11)] = true := by
  decide +kernel

theorem test_decode_branch_system_booke_1 : reads false 32
    [(0x4AD09445, .b 11805969 false true), (0x43DD5774, .bc 30 29 5597 false false), (0x4EAF0021, .bclr 21 15 true),
      (0x4C5B0421, .bcctr 2 27 true), (0x4DBECA02, .crand 13 30 25), (0x4C1B7902, .crandc 0 27 15),
      (0x4E409A42, .creqv 18 0 19), (0x4EAC61C2, .crnand 21 12 12), (0x4E409842, .crnor 18 0 19),
      (0x4C421382, .cror 2 2 2), (0x4E83FB42, .crorc 20 3 31), (0x4D1C6982, .crxor 8 28 13), (0x4E880000, .mcrf 5 2),
      (0x0DDA8A8F, .twi 14 26 35471), (0x44000002, .sc), (0x4C000064, .rfi), (0x4C000066, .rfci),
      (0x4C00012C, .isync)] = true := by
  decide +kernel

theorem test_decode_branch_system_1 : reads true 32
    [(0x7D800400, .mcrxr 3), (0x7FA00026, .mfcr 29), (0x7ECBC120, .mtcrf 188 22), (0x7E4E7008, .tw 18 14 14),
      (0x7C4000A6, .mfmsr 2), (0x7E000124, .mtmsr 16), (0x7F000106, .wrtee 24), (0x7C008146, .wrteei true),
      (0x7C1D4AA6, .mfspr 0 317), (0x7C479BA6, .mtspr 615 2)] = true := by
  decide +kernel

theorem test_decode_apu_1 : reads true 32
    [(0x7DE03F9E, .isel 15 0 7 30), (0x7C00007C, .wait), (0x7C0004AC, .msync), (0x7DE006AC, .mbar 15),
      (0x7F159A86, .mfdcr 24 629), (0x7FA3AB86, .mtdcr 675 29), (0x7DE8E068, .lbarx 15 8 28),
      (0x7C0B48E8, .lharx 0 11 9), (0x7C959828, .lwarx 4 21 19), (0x7CD02D6D, .stbcxDot 6 16 5),
      (0x7F1C55AD, .sthcxDot 24 28 10), (0x7EBD712D, .stwcxDot 21 29 14), (0x181C107F, .eLmvgprw 127 28),
      (0x180A113D, .eStmvgprw 61 10), (0x18351067, .eLmvsprw 103 21), (0x18261140, .eStmvsprw 64 6),
      (0x188D10A2, .eLmvsrrw 162 13), (0x189911CD, .eStmvsrrw 205 25), (0x18BD10C1, .eLmvcsrrw 193 29),
      (0x18BC1133, .eStmvcsrrw 51 28), (0x18CC1036, .eLmvdsrrw 54 12), (0x18D21138, .eStmvdsrrw 56 18),
      (0x18EA10EB, .eLmvmcsrrw 235 10), (0x18E41135, .eStmvmcsrrw 53 4)] = true := by
  decide +kernel

theorem test_decode_apu_booke_1 : reads false 32
    [(0x4C00004E, .rfdi), (0x4C00004C, .rfmci), (0x4EC3998C, .dnh 22 115)] = true := by
  decide +kernel

theorem test_decode_vle16_1 : reads true 16
    [(0x0000, .seIllegal), (0x0001, .seIsync), (0x0002, .seSc), (0x0004, .seBlr false), (0x0006, .seBctr false),
      (0x0008, .seRfi), (0x0009, .seRfci), (0x000A, .seRfdi), (0x000B, .seRfmci), (0x000F, .seDnh),
      (0x0025, .seNot 5), (0x003D, .seNeg 29), (0x008E, .seMflr 30), (0x009D, .seMtlr 29), (0x00A0, .seMfctr 0),
      (0x00BB, .seMtctr 27), (0x00C1, .seExtzb 1), (0x00DF, .seExtsb 31), (0x00EF, .seExtzh 31),
      (0x00F4, .seExtsh 4), (0x012D, .seMr 29 2), (0x0271, .seMtar 9 7), (0x0347, .seMfar 7 12),
      (0x043E, .seAdd 30 3)] = true := by
  decide +kernel

theorem test_decode_vle16_2 : reads true 16
    [(0x056D, .seMullw 29 6), (0x06A6, .seSub 6 26), (0x0778, .seSubf 24 7), (0x0C5A, .seCmp 26 5),
      (0x0DDB, .seCmpl 27 29), (0x0EFD, .seCmph 29 31), (0x0F79, .seCmphl 25 7), (0x4015, .seSrw 5 1),
      (0x410D, .seSraw 29 0), (0x42D4, .seSlw 4 29), (0x4409, .seOr 25 0), (0x45BA, .seAndc 26 27),
      (0x4694, .seAnd 4 25 false), (0x2144, .seAddi 4 21), (0x232C, .seCmpli 28 19), (0x2540, .seSubi 0 21 false),
      (0x2AE6, .seCmpi 6 14), (0x2C03, .seBmaski 3 0), (0x2FAC, .seAndi 28 26), (0x6074, .seBclri 4 7),
      (0x624C, .seBgeni 28 4), (0x641C, .seBseti 28 1), (0x674F, .seBtsti 31 20), (0x68E1, .seSrwi 1 14)] = true := by
  decide +kernel

theorem test_decode_vle16_3 : reads true 16
    [(0x6B41, .seSrawi 1 20), (0x6D48, .seSlwi 24 20), (0x4E7A, .seLi 26 103), (0x8F51, .seLbz 5 15 1),
      (0x93A3, .seStb 26 3 3), (0xA7D4, .seLhz 29 7 4), (0xBB20, .seSth 2 11 0), (0xC7C8, .seLwz 28 7 24),
      (0xD0B2, .seStw 27 0 2), (0xE839, .seB 57 false), (0xE58A, .seBc true 1 138)] = true := by
  decide +kernel

theorem test_decode_vle_1 : reads true 32
    [(0x32D0F262, .eLbz 22 62050 16), (0x361F9D4C, .eStb 16 40268 31), (0x3B0C28C0, .eLha 24 10432 12),
      (0x5376CABC, .eLwz 27 51900 22), (0x57823953, .eStw 28 14675 2), (0x59BCEEBF, .eLhz 13 61119 28),
      (0x5EE46352, .eSth 23 25426 4), (0x1DCE3266, .eAdd16i 14 14 12902), (0x1A9D00E3, .eLbzu 20 227 29),
      (0x18110160, .eLhzu 0 96 17), (0x1A5C02A7, .eLwzu 18 167 28), (0x1A1A03CB, .eLhau 16 203 26),
      (0x1BCE0457, .eStbu 30 87 14), (0x195F05A6, .eSthu 10 166 31), (0x18D70619, .eStwu 6 25 23),
      (0x1B7908D1, .eLmw 27 209 25), (0x1A9609EC, .eStmw 20 236 22), (0x18668B63, .eAddi 3 6 false 3 99 true),
      (0x185F9AFA, .eAddic 2 31 false 2 250 true), (0x1BAAA3B7, .eMulli 29 10 false 3 183),
      (0x1860AA15, .eCmpi 3 0 false 2 21), (0x188EAA6B, .eCmpli 0 14 false 2 107),
      (0x1B08B307, .eSubfic 24 8 false 3 7 false), (0x1B79C1CC, .eAndi 25 27 false 1 204 false)] = true := by
  decide +kernel

theorem test_decode_vle_2 : reads true 32
    [(0x1A25DAC9, .eOri 5 17 false 2 201 true), (0x19E4EB84, .eXori 4 15 false 3 132 true),
      (0x72E94299, .eLi 23 543385), (0x72BA8D89, .eAdd2iDot 26 44425), (0x71D690AE, .eAdd2is 22 28846),
      (0x739E9943, .eCmp16i 30 57667), (0x724FA436, .eMull2i 15 37942), (0x72DEA866, .eCmpl16i 30 45158),
      (0x7302B201, .eCmph16i 2 49665), (0x71C7B87D, .eCmphl16i 7 28797), (0x7211C70B, .eOr2i 16 36619),
      (0x713ACCC6, .eAnd2iDot 9 54470), (0x72F1D7C0, .eOr2is 23 36800), (0x7285E212, .eLis 20 10770),
      (0x7210EBA3, .eAnd2isDot 16 33699), (0x77BA8A12, .eRlwimi 26 29 17 8 9), (0x7595F6F7, .eRlwinm 21 12 30 27 27),
      (0x79CD119F, .eB 15108303 true), (0x7A04D9CC, .eBc 0 4 27878 false), (0x7F91801C, .eCmph 7 17 16),
      (0x7D12785C, .eCmphl 2 18 15), (0x7C8C0020, .eMcrf 1 3), (0x7E238042, .eCrnor 17 3 16),
      (0x7C136102, .eCrandc 0 19 12)] = true := by
  decide +kernel

theorem test_decode_vle_3 : reads true 32
    [(0x7C11F982, .eCrxor 0 17 31), (0x7C30E9C2, .eCrnand 1 16 29), (0x7D91CA02, .eCrand 12 17 25),
      (0x7FF21A42, .eCreqv 31 18 3), (0x7DE2B342, .eCrorc 15 2 22), (0x7CA2EB82, .eCror 5 2 29),
      (0x7DD16871, .eSlwi 17 14 13 true), (0x7F3EEA30, .eRlw 30 25 29 false), (0x7CE87A70, .eRlwi 8 7 15 false),
      (0x7D446C71, .eSrwi 4 10 13 true), (0x7F5DF0C2, .eDnh 26 958)] = true := by
  decide +kernel

theorem test_decode_efpu_scalar_1 : reads true 32
    [(0x139D02C4, .efsabs 28 29), (0x11F002C5, .efsnabs 15 16), (0x114302C6, .efsneg 10 3),
      (0x10CD9AC0, .efsadd 6 13 19), (0x101D42C1, .efssub 0 29 8), (0x1096C2C8, .efsmul 4 22 24),
      (0x13E00AC9, .efsdiv 31 0 1), (0x10C43AC2, .efsmadd 6 4 7), (0x10154AC3, .efsmsub 0 21 9),
      (0x11575ACA, .efsnmadd 10 23 11), (0x10F37ACB, .efsnmsub 7 19 15), (0x106F02C7, .efssqrt 3 15),
      (0x12F21AB0, .efsmax 23 18 3), (0x13709AB1, .efsmin 27 16 19), (0x111632CC, .efscmpgt 2 22 6),
      (0x1290E2CD, .efscmplt 5 16 28), (0x118062CE, .efscmpeq 3 0 12), (0x128DD2DC, .efststgt 5 13 26),
      (0x12132ADD, .efststlt 4 19 5), (0x1206DADE, .efststeq 4 6 27), (0x12808AD1, .efscfsi 20 17),
      (0x128032D0, .efscfui 20 6), (0x120032D3, .efscfsf 16 6), (0x13608AD2, .efscfuf 27 17)] = true := by
  decide +kernel

theorem test_decode_efpu_scalar_2 : reads true 32
    [(0x126092D5, .efsctsi 19 18), (0x136022DA, .efsctsiz 27 4), (0x10E0EAD4, .efsctui 7 29),
      (0x12E0A2D8, .efsctuiz 23 20), (0x13205AD7, .efsctsf 25 11), (0x13802AD6, .efsctuf 28 5),
      (0x11449AD1, .efscfh 10 19), (0x1144E2D5, .efscth 10 28)] = true := by
  decide +kernel

theorem test_decode_efpu_vector_1 : reads true 32
    [(0x13A60284, .evfsabs 29 6), (0x10D80285, .evfsnabs 6 24), (0x13E60286, .evfsneg 31 6),
      (0x13832280, .evfsadd 28 3 4), (0x13872281, .evfssub 28 7 4), (0x12E242A2, .evfsaddsub 23 2 8),
      (0x11836AA3, .evfssubadd 12 3 13), (0x135E6AA8, .evfsaddx 26 30 13), (0x1239B2A9, .evfssubx 17 25 22),
      (0x108662AA, .evfsaddsubx 4 6 12), (0x1295CAAB, .evfssubaddx 20 21 25), (0x100332A4, .evfssum 0 3 6),
      (0x12555AA5, .evfsdiff 18 21 11), (0x13BAF2A6, .evfssumdiff 29 26 30), (0x1163B2A7, .evfsdiffsum 11 3 22),
      (0x1214C288, .evfsmul 16 20 24), (0x1150FAAE, .evfsmule 10 16 31), (0x12BA32AF, .evfsmulo 21 26 6),
      (0x13227AAC, .evfsmulx 25 2 15), (0x10600A89, .evfsdiv 3 0 1), (0x13110287, .evfssqrt 24 17),
      (0x1270E282, .evfsmadd 19 16 28), (0x124F2283, .evfsmsub 18 15 4), (0x10C51A8A, .evfsnmadd 6 5 3)] = true := by
  decide +kernel

theorem test_decode_efpu_vector_2 : reads true 32
    [(0x10C5D28B, .evfsnmsub 6 5 26), (0x10BF4AA0, .evfsmax 5 31 9), (0x13B51AA1, .evfsmin 29 21 3),
      (0x1201228C, .evfscmpgt 4 1 4), (0x1395728D, .evfscmplt 7 21 14), (0x10181A8E, .evfscmpeq 0 24 3),
      (0x110C729C, .evfststgt 2 12 14), (0x11905A9D, .evfststlt 3 16 11), (0x11869A9E, .evfststeq 3 6 19),
      (0x11600291, .evfscfsi 11 0), (0x1280B290, .evfscfui 20 22), (0x1020DA93, .evfscfsf 1 27),
      (0x10C02A92, .evfscfuf 6 5), (0x11A07295, .evfsctsi 13 14), (0x1160BA9A, .evfsctsiz 11 23),
      (0x11606294, .evfsctui 11 12), (0x13A03298, .evfsctuiz 29 6), (0x12602A97, .evfsctsf 19 5),
      (0x10608296, .evfsctuf 3 16), (0x13240291, .evfscfh 25 0), (0x1144E295, .evfscth 10 28)] = true := by
  decide +kernel

theorem test_decode_spe_simple_1 : reads true 32
    [(0x1059D20F, .brinc 2 25 26), (0x12DC0208, .evabs 22 28), (0x1374EA02, .evaddiw 27 29 20),
      (0x13CC9200, .evaddw 30 12 18), (0x12668211, .evand 19 6 16), (0x125F5212, .evandc 18 31 10),
      (0x13184234, .evcmpeq 6 24 8), (0x111D1A31, .evcmpgts 2 29 3), (0x1297C230, .evcmpgtu 5 23 24),
      (0x109AEA33, .evcmplts 1 26 29), (0x1184E232, .evcmpltu 3 4 28), (0x115C020E, .evcntlsw 10 28),
      (0x1236020D, .evcntlzw 17 22), (0x11786CC6, .evdivws 11 24 13), (0x130564C7, .evdivwu 24 5 12),
      (0x10D72A19, .eveqv 6 23 5), (0x1059020A, .evextsb 2 25), (0x1149020B, .evextsh 10 9),
      (0x11E3022C, .evmergehi 15 3 0), (0x138BFA2E, .evmergehilo 28 11 31), (0x129C9A2D, .evmergelo 20 28 19),
      (0x1027422F, .evmergelohi 1 7 8), (0x13DEAA1E, .evnand 30 30 21), (0x112A0209, .evneg 9 10)] = true := by
  decide +kernel

theorem test_decode_spe_simple_2 : reads true 32
    [(0x10D56218, .evnor 6 21 12), (0x12458A17, .evor 18 5 17), (0x104C821B, .evorc 2 12 16),
      (0x13EFA228, .evrlw 31 15 20), (0x10D61A2A, .evrlwi 6 22 3), (0x130C020C, .evrndw 24 12),
      (0x13F20278, .evsel 31 18 0 0), (0x1263BA24, .evslw 19 3 23), (0x10E87226, .evslwi 7 8 14),
      (0x1190022B, .evsplatfi 12 16), (0x10380229, .evsplati 1 24), (0x10D46223, .evsrwis 6 20 12),
      (0x10034222, .evsrwiu 0 3 8), (0x1108E221, .evsrws 8 8 28), (0x11518A20, .evsrwu 10 17 17),
      (0x120DF204, .evsubfw 16 13 30), (0x1212DA06, .evsubifw 16 18 27), (0x13E3A216, .evxor 31 3 20),
      (0x11D904C4, .evmra 14 25)] = true := by
  decide +kernel

theorem test_decode_spe_half_1 : reads true 32
    [(0x12828D2B, .evmhegsmfaa 20 2 17), (0x1275C5AB, .evmhegsmfan 19 21 24), (0x13C16529, .evmhegsmiaa 30 1 12),
      (0x13BE2DA9, .evmhegsmian 29 30 5), (0x118FFD28, .evmhegumiaa 12 15 31), (0x10BB7DA8, .evmhegumian 5 27 15),
      (0x12339C0B, .evmhesmf 17 19 19), (0x102DF42B, .evmhesmfa 1 13 30), (0x11ED4C09, .evmhesmi 15 13 9),
      (0x120C9C29, .evmhesmia 16 12 19), (0x112B8403, .evmhessf 9 11 16), (0x112FA423, .evmhessfa 9 15 20),
      (0x1111EC08, .evmheumi 8 17 29), (0x1135B428, .evmheumia 9 21 22), (0x12E9050B, .evmhesmfaaw 23 9 0),
      (0x10183D8B, .evmhesmfanw 0 24 7), (0x1241A509, .evmhesmiaaw 18 1 20), (0x10ADC589, .evmhesmianw 5 13 24),
      (0x12AC0D03, .evmhessfaaw 21 12 1), (0x138ABD83, .evmhessfanw 28 10 23), (0x11819501, .evmhessiaaw 12 1 18),
      (0x13F7F581, .evmhessianw 31 23 30), (0x1142CD08, .evmheumiaaw 10 2 25), (0x13876D88, .evmheumianw 28 7 13)] = true := by
  decide +kernel

theorem test_decode_spe_half_2 : reads true 32
    [(0x12EF4500, .evmheusiaaw 23 15 8), (0x13F83D80, .evmheusianw 31 24 7), (0x10301D2F, .evmhogsmfaa 1 16 3),
      (0x13B9BDAF, .evmhogsmfan 29 25 23), (0x13AE252D, .evmhogsmiaa 29 14 4), (0x13FED5AD, .evmhogsmian 31 30 26),
      (0x10F3B52C, .evmhogumiaa 7 19 22), (0x10619DAC, .evmhogumian 3 1 19), (0x11AE1C0F, .evmhosmf 13 14 3),
      (0x10DB0C2F, .evmhosmfa 6 27 1), (0x1170240D, .evmhosmi 11 16 4), (0x106B742D, .evmhosmia 3 11 14),
      (0x10956C07, .evmhossf 4 21 13), (0x11D34427, .evmhossfa 14 19 8), (0x1292AC0C, .evmhoumi 20 18 21),
      (0x11ABC42C, .evmhoumia 13 11 24), (0x12F0D50F, .evmhosmfaaw 23 16 26), (0x13E4F58F, .evmhosmfanw 31 4 30),
      (0x1137250D, .evmhosmiaaw 9 23 4), (0x10EF1D8D, .evmhosmianw 7 15 3), (0x121C4D07, .evmhossfaaw 16 28 9),
      (0x13309D87, .evmhossfanw 25 16 19), (0x136B4505, .evmhossiaaw 27 11 8), (0x1113AD85, .evmhossianw 8 19 21)] = true := by
  decide +kernel

theorem test_decode_spe_half_3 : reads true 32
    [(0x12F2B50C, .evmhoumiaaw 23 18 22), (0x1246A58C, .evmhoumianw 18 6 20), (0x11183D04, .evmhousiaaw 8 24 7),
      (0x10DE3D84, .evmhousianw 6 30 7)] = true := by
  decide +kernel

theorem test_decode_spe_word_memory_1 : reads true 32
    [(0x121FA44F, .evmwhsmf 16 31 20), (0x13A6E46F, .evmwhsmfa 29 6 28), (0x12A1A44D, .evmwhsmi 21 1 20),
      (0x1020446D, .evmwhsmia 1 0 8), (0x110D0447, .evmwhssf 8 13 0), (0x12611C67, .evmwhssfa 19 1 3),
      (0x10F1444C, .evmwhumi 7 17 8), (0x1058146C, .evmwhumia 2 24 2), (0x13B52C48, .evmwlumi 29 21 5),
      (0x1227A468, .evmwlumia 17 7 20), (0x13EB7D49, .evmwlsmiaaw 31 11 15), (0x11EB35C9, .evmwlsmianw 15 11 6),
      (0x114A7D41, .evmwlssiaaw 10 10 15), (0x12E4D5C1, .evmwlssianw 23 4 26), (0x1362CD48, .evmwlumiaaw 27 2 25),
      (0x106ECDC8, .evmwlumianw 3 14 25), (0x1353D540, .evmwlusiaaw 26 19 26), (0x131835C0, .evmwlusianw 24 24 6),
      (0x11CDBC5B, .evmwsmf 14 13 23), (0x110CCC7B, .evmwsmfa 8 12 25), (0x108B255B, .evmwsmfaa 4 11 4),
      (0x129AFDDB, .evmwsmfan 20 26 31), (0x126A4C59, .evmwsmi 19 10 9), (0x1238BC79, .evmwsmia 17 24 23)] = true := by
  decide +kernel

theorem test_decode_spe_word_memory_2 : reads true 32
    [(0x135D2D59, .evmwsmiaa 26 29 5), (0x11B45DD9, .evmwsmian 13 20 11), (0x12437453, .evmwssf 18 3 14),
      (0x138A1473, .evmwssfa 28 10 2), (0x12226D53, .evmwssfaa 17 2 13), (0x12527DD3, .evmwssfan 18 18 15),
      (0x13557458, .evmwumi 26 21 14), (0x113AC478, .evmwumia 9 26 24), (0x10024D58, .evmwumiaa 0 2 9),
      (0x10DDADD8, .evmwumian 6 29 21), (0x126204C9, .evaddsmiaaw 19 2), (0x12C904C1, .evaddssiaaw 22 9),
      (0x11F704C8, .evaddumiaaw 15 23), (0x131604C0, .evaddusiaaw 24 22), (0x114904CB, .evsubfsmiaaw 10 9),
      (0x138404C3, .evsubfssiaaw 28 4), (0x10EB04CA, .evsubfumiaaw 7 11), (0x12B704C2, .evsubfusiaaw 21 23),
      (0x115D5B01, .evldd 10 11 29), (0x106AB300, .evlddx 3 10 22), (0x11D39303, .evldw 14 18 19),
      (0x13BCF302, .evldwx 29 28 30), (0x12A8EB05, .evldh 21 29 8), (0x11D0CB04, .evldhx 14 16 25)] = true := by
  decide +kernel

theorem test_decode_spe_word_memory_3 : reads true 32
    [(0x13EE4B09, .evlhhesplat 31 9 14), (0x11476308, .evlhhesplatx 10 7 12), (0x13D7EB0D, .evlhhousplat 30 29 23),
      (0x13903B0C, .evlhhousplatx 28 16 7), (0x105A5B0F, .evlhhossplat 2 11 26),
      (0x11605B0E, .evlhhossplatx 11 0 11), (0x12B26311, .evlwhe 21 12 18), (0x11993310, .evlwhex 12 25 6),
      (0x12EB9315, .evlwhou 23 18 11), (0x132C8B14, .evlwhoux 25 12 17), (0x1092D317, .evlwhos 4 26 18),
      (0x12452B16, .evlwhosx 18 5 5), (0x104EC319, .evlwwsplat 2 24 14), (0x139B4B18, .evlwwsplatx 28 27 9),
      (0x1327031D, .evlwhsplat 25 0 7), (0x12018B1C, .evlwhsplatx 16 1 17), (0x10A99321, .evstdd 5 18 9),
      (0x13C0A320, .evstddx 30 0 20), (0x134DCB23, .evstdw 26 25 13), (0x10528B22, .evstdwx 2 18 17),
      (0x1131CB25, .evstdh 9 25 17), (0x104A1324, .evstdhx 2 10 2), (0x1103BB31, .evstwhe 8 23 3),
      (0x138A1330, .evstwhex 28 10 2)] = true := by
  decide +kernel

theorem test_decode_spe_word_memory_4 : reads true 32
    [(0x1014A335, .evstwho 0 20 20), (0x1083BB34, .evstwhox 4 3 23), (0x134DA339, .evstwwe 26 20 13),
      (0x10F63B38, .evstwwex 7 22 7), (0x11FDC33D, .evstwwo 15 24 29), (0x120AC33C, .evstwwox 16 10 24)] = true := by
  decide +kernel

theorem test_decode_perf_1 : reads true 32
    [(0x7DD3629C, .mfpmr 14 403), (0x7D465B9C, .mtpmr 358 10)] = true := by
  decide +kernel

/-! Single steps: the conditions are those of spec/95_test_vectors.md section 0. -/

/-- One page of 4 GB, real address equal to effective address, all permissions, big-endian. -/
def page (vle : Bool) : TlbEntry :=
  { TlbEntry.zero with v := true, size := 22#5, vle := vle, ux := true, sx := true, uw := true, sw := true, ur := true, sr := true }

/-- The state of the vectors: pc 0x1000, MSR 0, that page, the interrupt vectors of section 0. -/
def base (vle : Bool) : State :=
  { State.reset with
    pc := 0x1000#32
    mmu := { State.reset.mmu with tlb := (Vector.replicate 32 TlbEntry.zero).set 0 (page vle) }
    dbg := { State.reset.dbg with dbsr := 0 }
    ints :=
      { State.reset.ints with
        ivpr := 0x10000#32
        ivor := (((((((Vector.replicate 20 0).set 5 0x50#32).set 6 0x60#32).set 8 0x80#32).set 16 0x200#32).set 17
          0x210#32).set 18 0x220#32) } }

/-- Bytes put in memory. -/
def put (s : State) (a : Nat) (l : List Nat) : State :=
  { s with mem := s.mem.putBytes (BitVec.ofNat 32 a) (l.map (BitVec.ofNat 8)) }
/-- A whole register given a value. -/
def setD (s : State) (r v : Nat) : State := s.setGprD (BitVec.ofNat 5 r) (BitVec.ofNat 64 v)
/-- The low word of a register given a value. -/
def setW (s : State) (r v : Nat) : State := s.setGprW (BitVec.ofNat 5 r) (BitVec.ofNat 32 v)
/-- The pc moved on. -/
def past (n : Nat) (s : State) : State := { s with pc := s.pc + BitVec.ofNat 32 n }

/-- A step of `s` leaves `e`, but for the registers `ign`, which the manual leaves open, and the model's own fields. -/
noncomputable def leaves (s e : State) (ign : List Nat) : Bool :=
  match step s with
  | .next t =>
    let t := ign.foldl (fun t r => t.setGprD (BitVec.ofNat 5 r) (e.gprD (BitVec.ofNat 5 r))) t
    decide
      ({ t with
          ints := { t.ints with handlerFetch := false }
          buf := { t.buf with
            entries := e.buf.entries, stale := e.buf.stale, unsynced := e.buf.unsynced, unpurged := e.buf.unpurged }
          free := e.free
          cur := e.cur
          ev := e.ev } = { e with ints := { e.ints with handlerFetch := false } })
  | _ => false

theorem test_vector_A2 : (let s := (put (setW (base false) 4 0x80000001) 4096 [60, 100, 128, 0])
    leaves s (past 4 (setW s 3 1)) []) = true := by
  decide +kernel

theorem test_vector_A5 : (let s := (put { (setW (base false) 4 0x7FFFFFFF) with xer := 0x80000000#32 } 4096 [52, 100,
      0, 1])
    leaves s (past 4 { (setW s 3 0x80000000) with cr := 0x90000000#32 }) []) = true := by
  decide +kernel

theorem test_vector_A12 : (let s := (put { (setW (setW (base false) 4 0xFFFFFFFF) 5 0) with xer := 0x20000000#32 }
      4096 [124, 100, 41, 20])
    leaves s (past 4 (setW s 3 0)) []) = true := by
  decide +kernel

theorem test_vector_A18 : (let s := (put { (setW (setW (base false) 4 0) 5 0) with xer := 0#32 } 4096 [124, 100, 41,
      16])
    leaves s (past 4 (setW s 3 0xFFFFFFFF)) []) = true := by
  decide +kernel

theorem test_vector_A23 : (let s := (put (setW (setW (base false) 4 0x10000) 5 0x10000) 4096 [124, 100, 45, 215])
    leaves s (past 4 { { (setW s 3 0) with cr := 0x30000000#32 } with xer := 0xC0000000#32 }) []) = true := by
  decide +kernel

theorem test_vector_A25 : (let s := (put (setW (setW (base false) 4 0xFFFFFFFF) 5 2) 4096 [124, 100, 40, 150])
    leaves s (past 4 (setW s 3 0xFFFFFFFF)) []) = true := by
  decide +kernel

theorem test_vector_A30 : (let s := (put (setW (setW (base false) 4 0x80000000) 5 0xFFFFFFFF) 4096 [124, 100, 47,
      214])
    leaves s (past 4 { s with xer := 0xC0000000#32 }) [3]) = true := by
  decide +kernel

theorem test_vector_B2 : (let s := (put (setW (setW (base false) 4 0xFFFFFFFF) 5 1) 4096 [124, 4, 40, 64])
    leaves s (past 4 { s with cr := 0x40000000#32 }) []) = true := by
  decide +kernel

theorem test_vector_B7 : (let s := (put (setW (base false) 0 0xDEADBEEF) 4096 [96, 0, 0, 0])
    leaves s (past 4 s) []) = true := by
  decide +kernel

theorem test_vector_B12 : (let s := (put (setW (setW (base false) 4 0xAAAAAAAA) 5 0xAAAA5555) 4096 [124, 131, 42, 56])
    leaves s (past 4 (setW s 3 0xFFFF0000)) []) = true := by
  decide +kernel

theorem test_vector_B15 : (let s := (put (setW (base false) 4 0x12347FFF) 4096 [124, 131, 7, 52])
    leaves s (past 4 (setW s 3 0x7FFF)) []) = true := by
  decide +kernel

theorem test_vector_C1 : (let s := (put (setW (base false) 4 0x12345678) 4096 [84, 131, 70, 14])
    leaves s (past 4 (setW s 3 0x34000012)) []) = true := by
  decide +kernel

theorem test_vector_C4 : (let s := (put (setW (setW (base false) 3 0xAAAABBBB) 4 0x11112222) 4096 [80, 131, 128, 30])
    leaves s (past 4 (setW s 3 0x2222BBBB)) []) = true := by
  decide +kernel

theorem test_vector_C8 : (let s := (put (setW (setW (base false) 4 0x80000000) 5 31) 4096 [124, 131, 44, 49])
    leaves s (past 4 { (setW s 3 1) with cr := 0x40000000#32 }) []) = true := by
  decide +kernel

theorem test_vector_C10 : (let s := (put (setW { (setW (setW (base false) 4 0x7FFFFFFF) 5 40) with xer :=
      0x20000000#32 } 3 5) 4096 [124, 131, 46, 48])
    leaves s (past 4 { (setW s 3 0) with xer := 0#32 }) []) = true := by
  decide +kernel

theorem test_vector_C13 : (let s := (put { (setW (base false) 4 0x80000000) with xer := 0x20000000#32 } 4096 [124,
      131, 6, 113])
    leaves s (past 4 { { (setW s 3 0x80000000) with cr := 0x80000000#32 } with xer := 0#32 }) []) = true := by
  decide +kernel

theorem test_vector_D1 : (let s := (put (put (setD (setD (base false) 3 0xFFFFFFFFFFFFFFFF) 4 8192) 8192 [128, 1,
      254, 127, 18, 52, 86, 120, 154, 188, 222, 240]) 4096 [136, 100, 0, 0])
    leaves s (past 4 (setD s 3 0xFFFFFFFF00000080)) []) = true := by
  decide +kernel

theorem test_vector_D5 : (let s := (put (put (setW (base false) 4 8192) 8192 [128, 1, 254, 127, 18, 52, 86, 120, 154,
      188, 222, 240]) 4096 [128, 100, 0, 1])
    leaves s (past 4 (setW s 3 0x1FE7F12)) []) = true := by
  decide +kernel

theorem test_vector_D9 : (let s := (put (put (setW (base false) 0 0x9999) 8192 [128, 1, 254, 127, 18, 52, 86, 120,
      154, 188, 222, 240]) 4096 [140, 96, 32, 8])
    leaves s (past 4 (setW (setW s 0 8200) 3 154)) []) = true := by
  decide +kernel

theorem test_vector_D12 : (let s := (put (put (setW (setW (base false) 4 8192) 5 4) 8192 [128, 1, 254, 127, 18, 52,
      86, 120, 154, 188, 222, 240]) 4096 [124, 100, 44, 44])
    leaves s (past 4 (setW s 3 0x78563412)) []) = true := by
  decide +kernel

theorem test_vector_D15 : (let s := (put (setW (setD (base false) 3 0xAAAABBBB123456AB) 4 0x3000) 4096 [144, 100, 0,
      0])
    leaves s (past 4 (put s 0x3000 [18, 52, 86, 171])) []) = true := by
  decide +kernel

theorem test_vector_D18 : (let s := (put (setW (setW (setW (base false) 3 0x123456AB) 4 0x3000) 5 0) 4096 [124, 100,
      45, 44])
    leaves s (past 4 (put s 0x3000 [171, 86, 52, 18])) []) = true := by
  decide +kernel

theorem test_vector_D20 : (let s := (put (put (setW (base false) 4 8188) 8192 [128, 1, 254, 127, 18, 52, 86, 120,
      154, 188, 222, 240]) 4096 [187, 164, 0, 4])
    leaves s (past 4 (setW (setW (setW s 29 0x8001FE7F) 30 0x12345678) 31 0x9ABCDEF0)) []) = true := by
  decide +kernel

theorem test_vector_D23 : (let s := (put (put { (setW (base false) 4 8192) with msr := 0x8000#32 } 8192 [128, 1, 254,
      127, 18, 52, 86, 120, 154, 188, 222, 240]) 4096 [187, 164, 0, 2])
    leaves s (let s := { (let s := (let s := (let s := { s with msr := 0#32 }; { s with ints := { s.ints with srr0 :=
      4096#32 } }); { s with ints := { s.ints with srr1 := 0x8000#32 } }); { s with ints := { s.ints with dear :=
      8194#32 } }) with pc := 0x10050#32 }; { s with ints := { s.ints with esr := 0#32 } }) []) = true := by
  decide +kernel

theorem test_vector_E2 : (let s := (put (base false) 4096 [72, 0, 1, 2])
    leaves s ({ s with pc := 256#32 }) []) = true := by
  decide +kernel

theorem test_vector_E6 : (let s := (put { (base false) with cr := 0x20000000#32 } 4096 [65, 130, 0, 8])
    leaves s ({ s with pc := 4104#32 }) []) = true := by
  decide +kernel

theorem test_vector_E10 : (let s := (put { (base false) with lr := 0x3003#32 } 4096 [78, 128, 0, 33])
    leaves s ({ { s with lr := 4100#32 } with pc := 0x3002#32 }) []) = true := by
  decide +kernel

theorem test_vector_E14 : (let s := (put { (base false) with ctr := 1#32 } 4096 [78, 0, 4, 32])
    leaves s (past 4 { s with ctr := 0#32 }) []) = true := by
  decide +kernel

theorem test_vector_E18 : (let s := (put { (base false) with cr := 0xA0000005#32 } 4096 [79, 128, 0, 0])
    leaves s (past 4 { s with cr := 0xA000000A#32 }) []) = true := by
  decide +kernel

theorem test_vector_E22 : (let s := (put (setW (setW { (base false) with cr := 0x20000000#32 } 4 5) 5 9) 4096 [124,
      100, 40, 158])
    leaves s (past 4 (setW s 3 5)) []) = true := by
  decide +kernel

theorem test_vector_E25 : (let s := (put (setW (base false) 3 0xFFFFFFFF) 4096 [14, 3, 0, 5])
    leaves s (let s := { { (let s := (let s := s; { s with ints := { s.ints with srr0 := 4096#32 } }); { s with ints
      := { s.ints with esr := 0x2000000#32 } }) with pc := 0x10060#32 } with msr := 0#32 }; { s with ints := { s.ints
      with srr1 := 0#32 } }) []) = true := by
  decide +kernel

theorem test_vector_E28 : (let s := (put { (setW (base false) 3 0) with msr := 0x4000#32 } 4096 [124, 96, 1, 36])
    leaves s ({ (let s := (let s := (let s := { s with msr := 0#32 }; { s with ints := { s.ints with srr0 := 4096#32
      } }); { s with ints := { s.ints with srr1 := 0x4000#32 } }); { s with ints := { s.ints with esr := 0x4000000#32
      } }) with pc := 0x10060#32 }) []) = true := by
  decide +kernel

theorem test_vector_E31 : (let s := (put (setW (base false) 3 0xFFFFFFFF) 4096 [124, 97, 3, 166])
    leaves s (past 4 { s with xer := 0xE000007F#32 }) []) = true := by
  decide +kernel

theorem test_vector_E33 : (let s := (put { { (base false) with msr := 0x4000#32 } with lr := 4660#32 } 4096 [124,
      104, 2, 166])
    leaves s (past 4 (setW s 3 4660)) []) = true := by
  decide +kernel

theorem test_vector_F2 : (let s := (put (base true) 4096 [112, 127, 127, 255])
    leaves s (past 4 (setW s 3 0xFFFFFFFF)) []) = true := by
  decide +kernel

theorem test_vector_F7 : (let s := (put (setW (base true) 4 1) 4096 [24, 100, 132, 254])
    leaves s (past 4 (setW s 3 0xFFFFFFFF)) []) = true := by
  decide +kernel

theorem test_vector_F12 : (let s := (put (setW (base true) 4 0) 4096 [24, 100, 172, 255])
    leaves s (past 4 { s with cr := 0x40000#32 }) []) = true := by
  decide +kernel

theorem test_vector_F17 : (let s := (put (setW (base true) 3 0) 4096 [115, 227, 143, 255])
    leaves s (past 4 { (setW s 3 0xFFFFFFFF) with cr := 0x80000000#32 }) []) = true := by
  decide +kernel

theorem test_vector_F22 : (let s := (put (setW (setW (base true) 3 0x1FFFF) 4 0x20001) 4096 [125, 3, 32, 92])
    leaves s (past 4 { s with cr := 0x400000#32 }) []) = true := by
  decide +kernel

theorem test_vector_F27 : (let s := (put (setW (base true) 4 0x12345678) 4096 [124, 131, 66, 112])
    leaves s (past 4 (setW s 3 0x34567812)) []) = true := by
  decide +kernel

theorem test_vector_F32 : (let s := (put (setW (base true) 3 119) 4096 [2, 52])
    leaves s (past 2 (setW s 12 119)) []) = true := by
  decide +kernel

theorem test_vector_F37 : (let s := (put (setW (setW (base true) 3 0x10001) 4 0x10000) 4096 [5, 67])
    leaves s (past 2 (setW s 3 0x10000)) []) = true := by
  decide +kernel

theorem test_vector_F42 : (let s := (put (setW (base true) 3 0xFFFFFFF0) 4096 [33, 243])
    leaves s (past 2 (setW s 3 16)) []) = true := by
  decide +kernel

theorem test_vector_F47 : (let s := (put (setW (setW (base true) 3 0x18000) 4 0x27FFF) 4096 [14, 67])
    leaves s (past 2 { s with cr := 0x80000000#32 }) []) = true := by
  decide +kernel

theorem test_vector_F52 : (let s := (put (setW (base true) 3 0xFFFFFFFF) 4096 [96, 3])
    leaves s (past 2 (setW s 3 0x7FFFFFFF)) []) = true := by
  decide +kernel

theorem test_vector_F57 : (let s := (put (setW (setW (base true) 3 0xFFFFFFFF) 4 0xFFFF0000) 4096 [69, 67])
    leaves s (past 2 (setW s 3 0xFFFF)) []) = true := by
  decide +kernel

theorem test_vector_F62 : (let s := (put (setW (setW (base true) 3 0xFFFFFFFF) 4 32) 4096 [66, 67])
    leaves s (past 2 (setW s 3 0)) []) = true := by
  decide +kernel

theorem test_vector_F67 : (let s := (put (setW (setW (base true) 3 511) 28 0x3000) 4096 [144, 60])
    leaves s (past 2 (put s 0x3000 [255])) []) = true := by
  decide +kernel

theorem test_vector_F72 : (let s := (put (put (setW (base true) 4 8192) 8192 [128, 1, 254, 127, 18, 52, 86, 120])
      4096 [27, 196, 8, 0])
    leaves s (past 4 (setW (setW s 30 0x8001FE7F) 31 0x12345678)) []) = true := by
  decide +kernel

theorem test_vector_F77 : (let s := (put { (base true) with cr := 0x40000000#32 } 4096 [229, 4])
    leaves s ({ s with pc := 4104#32 }) []) = true := by
  decide +kernel

theorem test_vector_F82 : (let s := (put { (base true) with ctr := 1#32 } 4096 [122, 32, 255, 252])
    leaves s (past 4 { s with ctr := 0#32 }) []) = true := by
  decide +kernel

theorem test_vector_G1 : (let s := (put (setW { (setW (base false) 4 0x3F800000) with msr := 0x8000#32 } 5
      0x33800000) 4096 [16, 100, 42, 192])
    leaves s (past 4 { (setW s 3 0x3F800000) with spefscr := 0x202000#32 }) []) = true := by
  decide +kernel

theorem test_vector_G4 : (let s := (put { (setW { (setW (base false) 4 0x3F800000) with msr := 0x8000#32 } 5
      0x33800000) with spefscr := 3#32 } 4096 [16, 100, 42, 192])
    leaves s (past 4 { (setW s 3 0x3F800000) with spefscr := 0x202003#32 }) []) = true := by
  decide +kernel

theorem test_vector_G7 : (let s := (put { (setW { (setW (base false) 4 0x3F800000) with msr := 0x8000#32 } 5
      0x33800000) with spefscr := 64#32 } 4096 [16, 100, 42, 192])
    leaves s ({ (let s := (let s := (let s := { { (setW s 3 0x3F800000) with msr := 0#32 } with spefscr :=
      0x202040#32 }; { s with ints := { s.ints with srr0 := 4100#32 } }); { s with ints := { s.ints with srr1 :=
      0x8000#32 } }); { s with ints := { s.ints with esr := 128#32 } }) with pc := 0x10220#32 }) []) = true := by
  decide +kernel

theorem test_vector_G10 : (let s := (put (setW { (setW (base false) 4 0x7F800000) with msr := 0x8000#32 } 5
      0xFF800000) 4096 [16, 100, 42, 192])
    leaves s (past 4 { (setW s 3 0x7F7FFFFF) with spefscr := 0x100800#32 }) []) = true := by
  decide +kernel

theorem test_vector_G13 : (let s := (put { (setW { (setW (base false) 4 0) with msr := 0x8000#32 } 5 0x80000000) with
      spefscr := 3#32 } 4096 [16, 100, 42, 192])
    leaves s (past 4 (setW s 3 0x80000000)) []) = true := by
  decide +kernel

theorem test_vector_G16 : (let s := (put (setW { (setW (base false) 4 0x7F000000) with msr := 0x8000#32 } 5
      0x40000000) 4096 [16, 100, 42, 200])
    leaves s (past 4 { (setW s 3 0x7F7FFFFF) with spefscr := 0x220100#32 }) []) = true := by
  decide +kernel

theorem test_vector_G19 : (let s := (put (setW { (setW (base false) 4 0x3F800000) with msr := 0x8000#32 } 5
      0x40400000) 4096 [16, 100, 42, 201])
    leaves s (past 4 { (setW s 3 0x3EAAAAAB) with spefscr := 0x203000#32 }) []) = true := by
  decide +kernel

theorem test_vector_G22 : (let s := (put { (setW (base false) 4 0xFF800000) with msr := 0x8000#32 } 4096 [16, 100, 2,
      196])
    leaves s (past 4 { (setW s 3 0x7F800000) with spefscr := 0x100800#32 }) []) = true := by
  decide +kernel

theorem test_vector_G25 : (let s := (put { (setW (base false) 4 0x80000000) with msr := 0x8000#32 } 4096 [16, 96, 34,
      209])
    leaves s (past 4 (setW s 3 0xCF000000)) []) = true := by
  decide +kernel

theorem test_vector_G28 : (let s := (put { (setW (base false) 4 0x80000000) with msr := 0x8000#32 } 4096 [16, 96, 34,
      210])
    leaves s (past 4 (setW s 3 0x3F000000)) []) = true := by
  decide +kernel

theorem test_vector_G31 : (let s := (put { (setW (base false) 4 0xC039999A) with msr := 0x8000#32 } 4096 [16, 96, 34,
      218])
    leaves s (past 4 { (setW s 3 0xFFFFFFFE) with spefscr := 0x203000#32 }) []) = true := by
  decide +kernel

theorem test_vector_G34 : (let s := (put { (setW (base false) 4 0xBF800000) with msr := 0x8000#32 } 4096 [16, 96, 34,
      212])
    leaves s (past 4 (setW s 3 0)) []) = true := by
  decide +kernel

theorem test_vector_G37 : (let s := (put { (setW (base false) 4 0x3F800000) with msr := 0x8000#32 } 4096 [16, 96, 34,
      215])
    leaves s (past 4 { (setW s 3 0x7FFFFFFF) with spefscr := 0x100800#32 }) []) = true := by
  decide +kernel

theorem test_vector_H5 : (let s := (put { { (setD (setD (base false) 4 0x3F8000007F7FFFFF) 5 0x338000007F7FFFFF) with
      spefscr := 0#32 } with msr := 0x2000000#32 } 4096 [16, 100, 42, 128])
    leaves s (past 4 { (setD s 3 0x3F8000007F7FFFFF) with spefscr := 0x20220100#32 }) []) = true := by
  decide +kernel

theorem test_vector_H7 : (let s := (put { { (setD (setD (setD (base false) 3 0x1111111122222222) 4
      0x3F8000007F7FFFFF) 5 0x338000007F7FFFFF) with msr := 0x2000000#32 } with spefscr := 4#32 } 4096 [16, 100, 42,
      128])
    leaves s ({ { (let s := (let s := (let s := { s with spefscr := 0x20104#32 }; { s with ints := { s.ints with srr0
      := 4096#32 } }); { s with ints := { s.ints with srr1 := 0x2000000#32 } }); { s with ints := { s.ints with esr
      := 128#32 } }) with msr := 0#32 } with pc := 0x10210#32 }) []) = true := by
  decide +kernel

theorem test_vector_H9 : (let s := (put (setW (setW { (base false) with msr := 0#32 } 4 0x3F800000) 5 0x3F800000)
      4096 [16, 100, 42, 192])
    leaves s (past 4 (setW s 3 0x40000000)) []) = true := by
  decide +kernel

theorem test_vector_J2 : (let s := (put { (setW (setW (setD (base false) 3 0x9999999900000000) 4 4) 5 7) with msr :=
      0#32 } 4096 [16, 100, 42, 15])
    leaves s (past 4 (setD s 3 0x9999999900000002)) []) = true := by
  decide +kernel

theorem test_vector_J6 : (let s := (put { (setD (setD (base false) 4 0x180000000) 5 1) with msr := 0x2000000#32 }
      4096 [16, 100, 42, 4])
    leaves s (past 4 (setD s 3 0xFFFFFFFF80000001)) []) = true := by
  decide +kernel

theorem test_vector_J10 : (let s := (put { (setD (base false) 4 0xC00000000000FFFF) with msr := 0x2000000#32 } 4096
      [16, 100, 2, 14])
    leaves s (past 4 (setD s 3 0x200000010)) []) = true := by
  decide +kernel

theorem test_vector_J14 : (let s := (put { (setD (setD (base false) 4 0x100000001) 5 0x1F00000020) with msr :=
      0x2000000#32 } 4096 [16, 100, 42, 36])
    leaves s (past 4 (setD s 3 0x8000000000000000)) []) = true := by
  decide +kernel

theorem test_vector_J18 : (let s := (put { (base false) with msr := 0x2000000#32 } 4096 [16, 113, 2, 43])
    leaves s (past 4 (setD s 3 0x8800000088000000)) []) = true := by
  decide +kernel

theorem test_vector_J22 : (let s := (put { { (setD (setD (base false) 4 0xFFFFFFFF00000005) 5 3) with cr := 0#32 }
      with msr := 0x2000000#32 } 4096 [16, 132, 42, 48])
    leaves s (past 4 { s with cr := 0xF000000#32 }) []) = true := by
  decide +kernel

theorem test_vector_J26 : (let s := (put { { { (setD (setD (base false) 4 0x8000000080000000) 5 0x800000007FFF0000)
      with acc := 0x7FFFFFFF00000010#64 } with spefscr := 0#32 } with msr := 0x2000000#32 } 4096 [16, 100, 44, 3])
    leaves s (past 4 { (setD s 3 0x7FFFFFFF80010000) with spefscr := 0xC0000000#32 }) []) = true := by
  decide +kernel

theorem test_vector_J30 : (let s := (put { { { (setD (setD (base false) 4 0x8000000080000000) 5 0x8000000080000000)
      with acc := 0x7FFFFFFF00000010#64 } with spefscr := 0x40000000#32 } with msr := 0x2000000#32 } 4096 [16, 100,
      44, 83])
    leaves s (past 4 { (setD s 3 0x7FFFFFFFFFFFFFFF) with spefscr := 0xC000#32 }) []) = true := by
  decide +kernel

theorem test_vector_J34 : (let s := (put { { { (setD (setD (base false) 4 0x800000037FFFFFFE) 5 0x8000000500020004)
      with acc := 0x7FFFFFFF00000010#64 } with spefscr := 0#32 } with msr := 0x2000000#32 } 4096 [16, 100, 45, 65])
    leaves s (past 4 { { (setD s 3 0x7FFFFFFFFFFC0008) with acc := 0x7FFFFFFFFFFC0008#64 } with spefscr :=
      0xC0000000#32 }) []) = true := by
  decide +kernel

theorem test_vector_J38 : (let s := (put (put (setW { (base false) with msr := 0x2000000#32 } 4 0x6000) 0x6000 [0,
      17, 34, 51, 132, 85, 246, 119]) 4096 [16, 100, 19, 9])
    leaves s (past 4 (setD s 3 0x8455000084550000)) []) = true := by
  decide +kernel

theorem test_vector_J42 : (let s := (put (put (setW { (base false) with msr := 0x2000000#32 } 4 0x6000) 0x6000 [0,
      17, 34, 51, 132, 85, 246, 119]) 4096 [16, 100, 11, 21])
    leaves s (past 4 (setD s 3 0x84550000F677)) []) = true := by
  decide +kernel

theorem test_vector_J46 : (let s := (put (setD (setD (put (setW { (base false) with msr := 0x2000000#32 } 4 0x6000)
      0x6000 [0, 17, 34, 51, 132, 85, 246, 119]) 4 0xFFFFFFFF00005FF8) 5 0x7777777700000008) 4096 [16, 100, 43, 0])
    leaves s (past 4 (setD s 3 0x1122338455F677)) []) = true := by
  decide +kernel

theorem test_vector_J50 : (let s := (put (put (setD (put (setW { (base false) with msr := 0x2000000#32 } 4 0x6000)
      0x6000 [0, 17, 34, 51, 132, 85, 246, 119]) 3 0x123456789ABCDEF) 0x6008 [0]) 4096 [16, 100, 19, 57])
    leaves s (past 4 (put s 0x6008 [1, 35, 69, 103])) []) = true := by
  decide +kernel

theorem test_vector_J54 : (let s := (put { { (setW (put (setW { (base false) with msr := 0x2000000#32 } 4 0x6000)
      0x6000 [0, 17, 34, 51, 132, 85, 246, 119]) 4 0x6004) with pc := 4096#32 } with msr := 0x2008000#32 } 4096 [16,
      100, 3, 3])
    leaves s (let s := (let s := { { (let s := (let s := s; { s with ints := { s.ints with srr0 := 4096#32 } }); { s
      with ints := { s.ints with srr1 := 0x2008000#32 } }) with msr := 0#32 } with pc := 0x10050#32 }; { s with ints
      := { s.ints with dear := 0x6004#32 } }); { s with ints := { s.ints with esr := 128#32 } }) []) = true := by
  decide +kernel

theorem test_vector_K1 : (let s := (put { (put { (setW (setW (base false) 4 0x8000) 5 0x8102) with xer :=
      0x80000000#32 } 0x8000 [0, 0, 0, 255]) with resv := false } 4096 [124, 96, 32, 40])
    leaves s (past 4 { (setW s 3 255) with resv := true }) []) = true := by
  decide +kernel

theorem test_vector_K2 : (let s := (put (setW { (put { (setW (setW (base false) 4 0x8000) 5 0x8102) with xer :=
      0x80000000#32 } 0x8000 [0, 0, 0, 255]) with resv := true } 3 256) 4096 [124, 96, 33, 45])
    leaves s (past 4 { { (put s 0x8000 [0, 0, 1, 0]) with cr := 0x30000000#32 } with resv := false }) []) = true := by
  decide +kernel

theorem test_vector_K3 : (let s := (put (setW { (put { (setW (setW (base false) 4 0x8000) 5 0x8102) with xer :=
      0x80000000#32 } 0x8000 [0, 0, 0, 255]) with resv := false } 3 256) 4096 [124, 96, 33, 45])
    leaves s (past 4 { s with cr := 0x10000000#32 }) []) = true := by
  decide +kernel

theorem test_vector_K4 : (let s := (put (setW { (put { (setW (setW (base false) 4 0x8000) 5 0x8102) with xer :=
      0x80000000#32 } 0x8000 [0, 0, 0, 255]) with resv := true } 3 0xABCD) 4096 [124, 96, 45, 173])
    leaves s (past 4 { { (put s 0x8102 [171, 205]) with cr := 0x30000000#32 } with resv := false }) []) = true := by
  decide +kernel

theorem test_vector_K5 : (let s := (put { (put { (setW (setW (base false) 4 0x8000) 5 0x8102) with xer :=
      0x80000000#32 } 0x8000 [0, 0, 0, 255]) with resv := false } 4096 [124, 96, 41, 45])
    leaves s (past 4 { s with cr := 0x10000000#32 }) []) = true := by
  decide +kernel

theorem test_vector_K6 : (let s := (put { { (put { (setW (setW (base false) 4 0x8000) 5 0x8102) with xer :=
      0x80000000#32 } 0x8000 [0, 0, 0, 255]) with resv := true } with msr := 0x8000#32 } 4096 [124, 96, 41, 45])
    leaves s ({ { (let s := (let s := (let s := (let s := s; { s with ints := { s.ints with srr0 := 4096#32 } }); { s
      with ints := { s.ints with srr1 := 0x8000#32 } }); { s with ints := { s.ints with dear := 0x8102#32 } }); { s
      with ints := { s.ints with esr := 0x800000#32 } }) with msr := 0#32 } with pc := 0x10050#32 }) []) = true := by
  decide +kernel

theorem test_vector_K7 : (let s := (put { { (put { (setW (setW (base false) 4 0x8000) 5 0x8102) with xer :=
      0x80000000#32 } 0x8000 [0, 0, 0, 255]) with resv := false } with msr := 0x8000#32 } 4096 [124, 96, 40, 40])
    leaves s ({ (let s := { (let s := (let s := (let s := s; { s with ints := { s.ints with dear := 0x8102#32 } }); {
      s with ints := { s.ints with esr := 0#32 } }); { s with ints := { s.ints with srr0 := 4096#32 } }) with pc :=
      0x10050#32 }; { s with ints := { s.ints with srr1 := 0x8000#32 } }) with msr := 0#32 }) []) = true := by
  decide +kernel

theorem test_vector_K8 : (let s := (put (setD { (put { (setW (setW (base false) 4 0x8000) 5 0x8102) with xer :=
      0x80000000#32 } 0x8000 [0, 0, 0, 255]) with resv := false } 3 0xAAAAAAAA55555555) 4096 [124, 96, 32, 104])
    leaves s (past 4 { (setD s 3 0xAAAAAAAA00000000) with resv := true }) []) = true := by
  decide +kernel

/-! Steps of the whole machine. -/

/-- What a step leaves satisfies a check. -/
noncomputable def after (s : State) (p : State → Bool) : Bool := match step s with | .next t => p t | _ => false

/-- From the state after reset, an instruction placed where the first fetch is runs (70_reset_and_hazards.md R2402):
`ori r3,r3,5`. -/
theorem test_first_instruction : after (State.reset.withFetchWord 32 0x60630005) (fun t => t.gprW 3#5 == 5#32) = true := by
  decide +kernel

/-- The same for a 16-bit instruction: `se_li r3,5`. -/
theorem test_first_instruction_vle :
    after (State.reset.withFetchWord 16 0x4853) (fun t => t.gprW 3#5 == 5#32 && t.pc == State.reset.pc + 2#32) = true := by
  decide +kernel

/-- Row X2: the first load after reset misses the TLB. -/
theorem test_vector_X2 :
    after (State.reset.withFetchWord 32 0x80600000) (fun t =>
      t.ints.srr0 == State.reset.pc && t.ints.srr1 == 0#32 && t.ints.dear == 0#32 && t.ints.esr == 0#32) = true := by
  decide +kernel

/-- The timer rows: one tick with HID0[TBEN] set. -/
def ticked (tb : DWord) (dec decar tcr tsr : Word) : Timers :=
  ({ base false with
      hid := { (base false).hid with hid0 := 0x4000#32 }
      tmr := { tb := tb, dec := dec, decar := decar, tcr := tcr, tsr := tsr } }.arrive .tick).tmr

theorem test_vector_T1_T4 :
    ((ticked 0#64 2#32 0#32 0#32 0#32).dec == 1#32 && (ticked 0#64 2#32 0#32 0#32 0#32).tsr == 0#32 &&
      (ticked 0#64 1#32 0#32 0#32 0#32).dec == 0#32 && (ticked 0#64 1#32 0#32 0#32 0#32).tsr == 0x08000000#32 &&
      (ticked 0#64 1#32 0x64#32 0x00400000#32 0#32).dec == 0x64#32 && (ticked 0#64 0#32 0#32 0#32 0#32).tsr == 0#32) =
      true := by
  decide +kernel

theorem test_vector_T7_T8 :
    ((ticked 0xFFFF#64 0#32 0#32 0x03016000#32 0#32).tsr == 0x04000000#32 &&
      (ticked 0x1FFFF#64 0#32 0#32 0x03016000#32 0#32).tsr == 0#32 &&
      (ticked 0xFFFFFFFF#64 0#32 0#32 0#32 0#32).tb == 0x100000000#64) = true := by
  decide +kernel

/-- Row T5: a pending decrementer interrupt at an instruction boundary. -/
theorem test_vector_T5 :
    after
        { base false with
          pc := 0x3000#32
          msr := 0x8000#32
          tmr := { (base false).tmr with tsr := 0x08000000#32, tcr := 0x04000000#32 }
          ints := { (base false).ints with ivor := (base false).ints.ivor.set 10 0xA0#32 } }
        (fun t => t.ints.srr0 == 0x3000#32 && t.ints.srr1 == 0x8000#32 && t.msr == 0#32 && t.pc == 0x100A0#32 &&
          t.tmr.tsr == 0x08000000#32) = true := by
  decide +kernel

/-- Rows T9, T10, T11: watchdog time-outs (60_exceptions.md R2108); TCR[WP] selects bit 63. -/
theorem test_vector_T9_T11 :
    (watchdogUpdate 0xC01E0000#32 0#32 0#64 1#64 == 0x80000000#32 &&
      watchdogUpdate 0xC01E0000#32 0x80000000#32 0#64 1#64 == 0xC0000000#32 &&
      watchdogUpdate 0xE01E0000#32 0xC0000000#32 0#64 1#64 == 0xE0000000#32) = true := by
  decide +kernel

/-- Rows T6, T12: TSR is cleared by ones, TCR[WRC] stays once it is not zero. -/
theorem test_vector_T6_T12 :
    (after { put (setW (base false) 3 0x08000000) 0x1000 [0x7C, 0x70, 0x53, 0xA6] with
        tmr := { (base false).tmr with tsr := 0x0C000000#32 } } (fun t => t.tmr.tsr == 0x04000000#32) &&
      after { put (setW (base false) 3 0x10000000) 0x1000 [0x7C, 0x74, 0x53, 0xA6] with
        tmr := { (base false).tmr with tcr := 0x20000000#32 } } (fun t => t.tmr.tcr == 0x20000000#32)) = true := by
  decide +kernel

/-- Section 15 example 4 of 60_exceptions.md: `rfi` to an odd address clears its last bit (R2015, R56). -/
theorem test_rfi_odd :
    after { put (base false) 0x1000 [0x4C, 0x00, 0x00, 0x64] with
        ints := { (base false).ints with srr0 := 0x2001#32, srr1 := 0xFFFFFFFF#32 } }
      (fun t => t.pc == 0x2000#32 && t.msr == 0x0606FB36#32) = true := by
  decide +kernel

/-- An illegal instruction on a VLE page: ESR is PIL and VLEMI (60_exceptions.md R2054). -/
theorem test_illegal_vle :
    after (put (base true) 0x1000 [0, 0]) (fun t => t.ints.esr == 0x08000020#32 && t.pc == 0x10060#32 &&
      t.ints.srr0 == 0x1000#32) = true := by
  decide +kernel

/-- `wait` stops the core until an interrupt; the External Input interrupt returns past it (62_perfmon_power.md R2351). -/
theorem test_wait :
    (match step { put (base false) 0x1000 [0x7C, 0x00, 0x00, 0x7C] with msr := 0x8000#32 } with
     | .next t =>
       t.pwr.waiting && after { t with env := [] } (fun u => u.pc == 0x1004#32 && u.pwr.waiting) &&
         after { t with env := [[.extint true true 0#16]] } (fun u => u.ints.srr0 == 0x1004#32 && !u.pwr.waiting)
     | _ => false) = true := by
  decide +kernel

/-- The state of the cache tests: the data cache on in copyback mode, the line of address 0x2000 in way 2, one more way
with the same line if `twice`. -/
def line : CacheLine := { CacheLine.zero with tag := tagOf 0x2000#32, valid := true, data := Vector.replicate 32 0x11#8 }
def cached (dirty : BitVec 3) (twice : Bool) : State :=
  let c := (base false).cache.dcache.put 0 2 { line with dirty := dirty }
  { setW (base false) 4 0x2000 with
    cache := { (base false).cache with dcache := if twice then c.put 0 3 line else c, icache := c, l1csr0 := 0x00100001#32,
                                       l1csr1 := 1#32 } }

/-- A store in copyback mode goes to the line only (22_cache.md R422); `stw r5,4(r4)`. -/
theorem test_store_copyback :
    (match exec (.stw 5#5 4#16 4#5) (setW (cached 0#3 false) 5 0xAABBCCDD) with
     | .next t => (t.cache.dcache.line 0 2).read 0x2004#32 4 == wordBytes 0xAABBCCDD#32 &&
         (t.cache.dcache.line 0 2).dirty == 7#3 && t.mem.byte 0x2004 == 0#8
     | _ => false) = true := by
  decide +kernel

/-- `dcbf` writes a modified line to memory and drops it (22_cache.md R443). -/
theorem test_dcbf_dirty :
    (match exec (.dcbf 0#5 4#5) (cached 7#3 false) with
     | .next t => !(t.cache.dcache.line 0 2).valid && t.mem.byte 0x201F == 0x11#8 && t.mem.byte 0x2020 == 0#8
     | _ => false) = true := by
  decide +kernel

/-- A line in two ways: the one stop of this model (log entry 28). -/
theorem test_multiple_hit :
    (match exec (.lwz 5#5 0#16 4#5) (cached 0#3 true) with | .fault f => decide (f = .cacheMultipleHit) | _ => false) =
      true := by
  decide +kernel

/-- `tlbwe` writes the entry MAS0[ESEL] selects, `tlbsx` finds it (21_mmu.md R331, R332). -/
theorem test_tlbwe_tlbsx :
    (match exec .tlbwe { base false with
        mmu := { (base false).mmu with mas0 := 0x10070000#32, mas1 := 0xC0000500#32, mas2 := 0x40000000#32,
                                       mas3 := 0x8000003F#32, tlb := Vector.replicate 32 TlbEntry.zero } } with
     | .next t =>
       match exec (.tlbsx 0#5 4#5) { setW t 4 0x40000123 with mmu := { t.mmu with mas0 := 0#32, mas1 := 0#32 } } with
       | .next u => u.mmu.mas0 == 0x10070000#32 && u.mmu.mas1 == 0xC0000500#32 && u.mmu.mas3 == 0x8000003F#32
       | _ => false
     | _ => false) = true := by
  decide +kernel

/-! For every statement with hypotheses, states and operands that meet them. -/

/-- The step goes on. -/
noncomputable def isNext (o : Host.Outcome State Fault Refusal) : Bool := match o with | .next _ => true | _ => false

/-- A step that goes on answers a next state. -/
theorem next_of_isNext {o : Host.Outcome State Fault Refusal} (h : isNext o = true) : ∃ t, o = .next t := by
  cases o with
  | next t => exact ⟨t, rfl⟩
  | fault f => simp [isNext] at h
  | refused r => simp [isNext] at h

/-- The one entry that an address hits is `p`. -/
def hitsOnly (s : State) (as : Bool) (p : TlbEntry) (ea : Word) : Bool :=
  match s.tlbHits as s.pid ea with | [h] => decide (h.2 = p) | _ => false

theorem hits_of_hitsOnly {s : State} {as : Bool} {p : TlbEntry} {ea : Word} (h : hitsOnly s as p ea = true) :
    ∃ i, s.tlbHits as s.pid ea = [(i, p)] := by
  unfold hitsOnly at h
  split at h
  · rename_i x hx
    obtain ⟨i, q⟩ := x
    have : q = p := by simpa using h
    exact ⟨i, by rw [hx, this]⟩
  · cases h

/-- The conditions of a plain access, checked. -/
def plain (s : State) (ea : Word) (n : Nat) (k : AccessKind) (p : TlbEntry) : Bool :=
  !s.cacheOn .data && !s.tlbOpen s.msrDs s.pid &&
    (List.range n).all (fun j => hitsOnly s s.msrDs p (ea + BitVec.ofNat 32 j)) && (p.page ea).allows s.user k &&
    (List.range n).all (fun j => !s.busErr ((p.page ea).ra + BitVec.ofNat 32 j)) &&
    (List.range n).all (fun j => !s.onDevice ((p.page ea).ra + BitVec.ofNat 32 j)) && decide (s.buf.storeErrs = [])

theorem plain_access {s : State} {ea : Word} {n : Nat} {k : AccessKind} {p : TlbEntry} (h : plain s ea n k p = true) :
    PlainAccess s ea n k p := by
  simp only [plain, Bool.and_eq_true, Bool.not_eq_true', List.all_eq_true, List.mem_range, decide_eq_true_eq] at h
  obtain ⟨⟨⟨⟨⟨⟨h1, h2⟩, h3⟩, h4⟩, h5⟩, h6⟩, h7⟩ := h
  exact ⟨h1, h2, fun j hj => hits_of_hitsOnly (h3 j hj), h4, h5, h6, h7⟩

/-- The conditions of a plain fetch, checked. -/
def plainF (s : State) (n : Nat) (p : TlbEntry) : Bool :=
  !s.cacheOn .instr && !s.tlbOpen s.msrIs s.pid &&
    (List.range n).all (fun j => hitsOnly s s.msrIs p (s.pc + BitVec.ofNat 32 j)) &&
    (p.page s.pc).allows s.user .fetch && (!p.vle || !p.e) &&
    (List.range n).all (fun j => !s.busErr ((p.page s.pc).ra + BitVec.ofNat 32 j)) &&
    (List.range n).all (fun j => !s.onDevice ((p.page s.pc).ra + BitVec.ofNat 32 j)) &&
    (List.range n).all (fun j => decide (s.buf.olds ((p.page s.pc).ra + BitVec.ofNat 32 j) = []))

theorem plain_fetch {s : State} {n : Nat} {p : TlbEntry} (h : plainF s n p = true) : PlainFetch s n p := by
  simp only [plainF, Bool.and_eq_true, Bool.not_eq_true', List.all_eq_true, List.mem_range, Bool.or_eq_true,
    decide_eq_true_eq] at h
  obtain ⟨⟨⟨⟨⟨⟨⟨h1, h2⟩, h3⟩, h4⟩, h5⟩, h6⟩, h7⟩, h8⟩ := h
  refine ⟨h1, h2, fun j hj => hits_of_hitsOnly (h3 j hj), h4, fun hv => ?_, h6, h7, h8⟩
  rcases h5 with h5 | h5
  · rw [hv] at h5; cases h5
  · exact h5

/-- The conditions of a block hit, checked. -/
def blockHit (s : State) (side : Side) (ea : Word) (k : AccessKind) (p : TlbEntry) (w : Nat) (l : CacheLine) : Bool :=
  s.cacheOn side && !s.checkOn side && !s.tlbOpen s.msrDs s.pid && hitsOnly s s.msrDs p ea && (p.page ea).allows s.user k &&
    decide (((s.cacheOf side).ways (setOf ea)).filter (fun q => q.2.here (tagOf (p.page ea).ra)) = [(w, l)])

theorem block_hit {s : State} {side : Side} {ea : Word} {k : AccessKind} {p : TlbEntry} {w : Nat} {l : CacheLine}
    (h : blockHit s side ea k p w l = true) : BlockHit s side ea k p w l := by
  simp only [blockHit, Bool.and_eq_true, Bool.not_eq_true', decide_eq_true_eq] at h
  obtain ⟨⟨⟨⟨⟨h1, h2⟩, h3⟩, h4⟩, h5⟩, h6⟩ := h
  exact ⟨h1, h2, h3, hits_of_hitsOnly h4, h5, h6⟩

/-- The conditions of a block miss, checked. -/
def blockMiss (s : State) (side : Side) (ea : Word) (k : AccessKind) (p : TlbEntry) : Bool :=
  s.cacheOn side && !s.checkOn side && !s.tlbOpen s.msrDs s.pid && hitsOnly s s.msrDs p ea && (p.page ea).allows s.user k &&
    decide (((s.cacheOf side).ways (setOf ea)).filter (fun q => q.2.here (tagOf (p.page ea).ra)) = [])

theorem block_miss {s : State} {side : Side} {ea : Word} {k : AccessKind} {p : TlbEntry}
    (h : blockMiss s side ea k p = true) : BlockMiss s side ea k p := by
  simp only [blockMiss, Bool.and_eq_true, Bool.not_eq_true', decide_eq_true_eq] at h
  obtain ⟨⟨⟨⟨⟨h1, h2⟩, h3⟩, h4⟩, h5⟩, h6⟩ := h
  exact ⟨h1, h2, h3, hits_of_hitsOnly h4, h5, h6⟩

/-- Bytes of memory that answer, checked. -/
def ram (s : State) (ra : Word) (n : Nat) : Bool :=
  (List.range n).all fun j => decide (s.busErr (ra + BitVec.ofNat 32 j) = false ∧ s.onDevice (ra + BitVec.ofNat 32 j) = false)

theorem ram_from {s : State} {ra : Word} {n : Nat} (h : ram s ra n = true) : s.ramFrom ra n := by
  simp only [ram, List.all_eq_true, List.mem_range, decide_eq_true_eq] at h
  exact h

/-- No bit of zero is set. -/
theorem zero_bit (k : Nat) : (0#32).getLsbD k = false := BitVec.getLsbD_zero

/-- A state of the tests is idle and in no debug mode. -/
theorem undebugged_of (s : State) (h : s.env = [] ∧ s.pwr = (base false).pwr ∧ s.pins.halt = false ∧ s.pins.resetOnWrs = false ∧
    s.dbg = (base false).dbg ∧ s.pm = (base false).pm ∧ s.buf = (base false).buf ∧ s.sync = (base false).sync) : s.Undebugged := by
  obtain ⟨h1, h2, h3, h4, h5, h6, h7, h8⟩ := h
  refine ⟨⟨h1, ?_, ?_, ?_, ?_, ?_, ?_, ?_⟩, ?_⟩
  · rw [h2]; exact ⟨rfl, rfl, h3⟩
  · rw [h5]; rfl
  · rw [h5]; rfl
  · rw [h5]; rfl
  · rw [h6]; rfl
  · unfold State.resetAsked
    rw [h4, h5]
    simp [base, State.reset, State.resetWith]
  · unfold State.settled
    rw [h7, h8]
    exact ⟨rfl, rfl, rfl⟩
  · rw [h5]; exact ⟨rfl, rfl⟩

/-- It is steady where no urgent interrupt is pending. -/
theorem steady_of (s : State) (h : s.env = [] ∧ s.pwr = (base false).pwr ∧ s.pins.halt = false ∧ s.pins.resetOnWrs = false ∧
    s.dbg = (base false).dbg ∧ s.pm = (base false).pm ∧ s.buf = (base false).buf ∧ s.sync = (base false).sync)
    (h1 : s.ints.nmiPend = false) (h2 : s.ints.mcsr = 0#32) (h3 : s.pins.critint = false) (h4 : s.tmr.tsr.getLsbD 30 = false) :
    s.Steady :=
  ⟨undebugged_of s h, h1, .inl (by rw [h2]; rfl), .inl ⟨h3, .inl h4⟩⟩

/-- The states of the tests are calm. -/
theorem calm_put (vle : Bool) (pc : Word) (a : Nat) (l : List Nat) : ({ put (base vle) a l with pc := pc }).Calm :=
  ⟨steady_of _ ⟨rfl, rfl, rfl, rfl, by cases vle <;> rfl, rfl, rfl, rfl⟩ rfl rfl rfl (zero_bit ..),
    .inl ⟨rfl, .inl (zero_bit ..), .inl (zero_bit ..)⟩, rfl⟩

theorem witness_StepKeepsMemoryForm_StepKeepsRegisters :
    (put (base false) 0x1000 [0x60, 0, 0, 0]).mem.wf = true ∧ (put (base false) 0x1000 [0x60, 0, 0, 0]).regsWf ∧
      ∃ t, step (put (base false) 0x1000 [0x60, 0, 0, 0]) = .next t :=
  ⟨by decide +kernel, by unfold State.regsWf; decide +kernel, next_of_isNext (by decide +kernel)⟩

/-- An instruction of VLE pages, one of Book E pages, one of both. -/
theorem witness_EncodeDecode :
    ((Instr.seAddi 31 32).wellFormed = true ∧ pageKind (.seAddi 31 32) = some true) ∧
      ((Instr.addi 31 0 0xFFFF).wellFormed = true ∧ pageKind (.addi 31 0 0xFFFF) = some false) ∧
      ((Instr.tlbre).wellFormed = true ∧ pageKind .tlbre = none) := by
  decide

/-- The decoder reads the instruction. -/
noncomputable def decodes (vle : Bool) (b : List Byte) (i : Instr) : Bool :=
  match decode vle b with | .ok (j, []) => decide (j = i) | _ => false

theorem decode_of_decodes {vle : Bool} {b : List Byte} {i : Instr} (h : decodes vle b i = true) :
    decode vle b = .ok (i, []) := by
  unfold decodes at h
  split at h
  · rename_i j hj
    have : j = i := by simpa using h
    rw [hj, this]
  · cases h

/-- The instruction goes on and leaves the performance monitor alone. -/
noncomputable def runsPm (i : Instr) (s : State) : Bool := match exec i s with | .next t => decide (t.pm = s.pm) | _ => false

/-- A 16-bit VLE instruction, a 32-bit one whose halfwords stand in different pages of 1 KB, a Book E one. -/
theorem witness_StepRunsDecoded :
    (({ put (base true) 0x1000 [0x01, 0x43] with pc := 0x1000#32 }).Calm ∧
      PlainFetch { put (base true) 0x1000 [0x01, 0x43] with pc := 0x1000#32 } 2 (page true) ∧
      vleLong (BitVec.ofNat 16
        (bytesNat (({ put (base true) 0x1000 [0x01, 0x43] with pc := 0x1000#32 } : State).codeBytes 2 (page true)))) = false ∧
      decode true (({ put (base true) 0x1000 [0x01, 0x43] with pc := 0x1000#32 } : State).codeBytes 2 (page true)) =
        .ok (.seMr 3 4, []) ∧
      runsPm (.seMr 3 4) (({ put (base true) 0x1000 [0x01, 0x43] with pc := 0x1000#32 } : State).fetched true 0x01430000#32) =
        true) ∧
    (({ put (base true) 0x13FE [0x1C, 0x64, 0xFF, 0xFF] with pc := 0x13FE#32 }).Calm ∧
      PlainFetch { put (base true) 0x13FE [0x1C, 0x64, 0xFF, 0xFF] with pc := 0x13FE#32 } 4 (page true) ∧
      vleLong (BitVec.ofNat 16 (bytesNat
        (({ put (base true) 0x13FE [0x1C, 0x64, 0xFF, 0xFF] with pc := 0x13FE#32 } : State).codeBytes 2 (page true)))) = true ∧
      decode true (({ put (base true) 0x13FE [0x1C, 0x64, 0xFF, 0xFF] with pc := 0x13FE#32 } : State).codeBytes 4 (page true)) =
        .ok (.eAdd16i 3 4 0xFFFF, [])) ∧
    (({ put (base false) 0x1000 [0x60, 0x83, 0, 5] with pc := 0x1000#32 }).Calm ∧
      PlainFetch { put (base false) 0x1000 [0x60, 0x83, 0, 5] with pc := 0x1000#32 } 4 (page false) ∧
      (0x1000#32).getLsbD 1 = false ∧
      decode false (({ put (base false) 0x1000 [0x60, 0x83, 0, 5] with pc := 0x1000#32 } : State).codeBytes 4 (page false)) =
        .ok (.ori 3 4 5, [])) :=
  ⟨⟨calm_put .., plain_fetch (by decide +kernel), by decide +kernel, decode_of_decodes (by decide +kernel), by decide +kernel⟩,
    ⟨calm_put .., plain_fetch (by decide +kernel), by decide +kernel, decode_of_decodes (by decide +kernel)⟩,
    ⟨calm_put .., plain_fetch (by decide +kernel), rfl, decode_of_decodes (by decide +kernel)⟩⟩

/-- The stop of the second part of StepRunsDecoded. -/
theorem witness_StepRunsDecoded_fault :
    (match exec (.lwz 5 0 4) ((put (cached 0 true) 0x1000 [0x80, 0xA4, 0, 0]).fetched false 0x80A40000#32),
       step (put { cached 0 true with cache := { (cached 0 true).cache with l1csr1 := 0#32 } } 0x1000 [0x80, 0xA4, 0, 0]) with
     | .fault f, .fault g => decide (f = .cacheMultipleHit) && decide (g = .cacheMultipleHit)
     | _, _ => false) = true := by
  decide +kernel

/-- A word of a Book E page, a halfword and a word of a VLE page; a word of the double-precision operations. -/
theorem witness_StepIllegal :
    (({ put (base false) 0x1000 [0, 0, 0, 0] with pc := 0x1000#32 }).Calm ∧
      PlainFetch { put (base false) 0x1000 [0, 0, 0, 0] with pc := 0x1000#32 } 4 (page false) ∧ (page false).vle = false ∧
      (0x1000#32).getLsbD 1 = false ∧
      ∃ r, decode false (({ put (base false) 0x1000 [0, 0, 0, 0] with pc := 0x1000#32 } : State).codeBytes 4 (page false)) =
        .error r) ∧
    (({ put (base true) 0x1002 [0, 0xC] with pc := 0x1002#32 }).Calm ∧
      PlainFetch { put (base true) 0x1002 [0, 0xC] with pc := 0x1002#32 } 2 (page true) ∧ (page true).vle = true ∧
      vleLong (BitVec.ofNat 16
        (bytesNat (({ put (base true) 0x1002 [0, 0xC] with pc := 0x1002#32 } : State).codeBytes 2 (page true)))) = false ∧
      ∃ r, decode true (({ put (base true) 0x1002 [0, 0xC] with pc := 0x1002#32 } : State).codeBytes 2 (page true)) =
        .error r) ∧
    (({ put (base true) 0x1002 [0x7C, 0, 7, 0xFC] with pc := 0x1002#32 }).Calm ∧
      PlainFetch { put (base true) 0x1002 [0x7C, 0, 7, 0xFC] with pc := 0x1002#32 } 4 (page true) ∧
      vleLong (BitVec.ofNat 16 (bytesNat
        (({ put (base true) 0x1002 [0x7C, 0, 7, 0xFC] with pc := 0x1002#32 } : State).codeBytes 2 (page true)))) = true ∧
      ∃ r, decode true (({ put (base true) 0x1002 [0x7C, 0, 7, 0xFC] with pc := 0x1002#32 } : State).codeBytes 4 (page true)) =
        .error r) ∧
    (({ put (base false) 0x1000 [0x10, 0x64, 2, 0xE0] with pc := 0x1000#32 }).Calm ∧
      PlainFetch { put (base false) 0x1000 [0x10, 0x64, 2, 0xE0] with pc := 0x1000#32 } 4 (page false) ∧
      (base false).msr.getLsbD 25 = false ∧ (0x106402E0#32).extractLsb' 26 6 = 4#6 ∧ (0x106402E0#32).extractLsb' 5 6 = 0x17#6 ∧
      ∃ r, decode false (({ put (base false) 0x1000 [0x10, 0x64, 2, 0xE0] with pc := 0x1000#32 } : State).codeBytes 4
        (page false)) = .error r) :=
  ⟨⟨calm_put .., plain_fetch (by decide +kernel), rfl, rfl, .illegal, by rfl⟩,
    ⟨calm_put .., plain_fetch (by decide +kernel), rfl, by decide +kernel, .illegal, by rfl⟩,
    ⟨calm_put .., plain_fetch (by decide +kernel), by decide +kernel, .illegal, by rfl⟩,
    ⟨calm_put .., plain_fetch (by decide +kernel), by decide, by decide, by decide, .illegal, by rfl⟩⟩

/-- Ordinary operands, a zero divisor, the most negative number by -1. -/
theorem witness_MultiplyDivide :
    (let s := setW (setW (base false) 4 0x80000000) 5 1
     s.gprW 5 ≠ 0#32 ∧ ¬(s.gprW 4 = 0x80000000#32 ∧ s.gprW 5 = 0xFFFFFFFF#32)) ∧
    (setW (setW (base false) 4 7) 5 0).gprW 5 = 0#32 ∧
    (let s := setW (setW (base false) 4 0x80000000) 5 0xFFFFFFFF
     s.gprW 4 = 0x80000000#32 ∧ s.gprW 5 = 0xFFFFFFFF#32) := by
  decide +kernel

/-- The first and the last byte of an SCI8 immediate. -/
theorem witness_Compares_VleArithmetic_VleLogic :
    IsSci8 false 0#2 0xAB#8 0x000000AB#32 ∧ IsSci8 true 3#2 0x00#8 0x00FFFFFF#32 := by
  unfold IsSci8
  decide

/-- TO 0 never traps, TO 1 traps where RA is above RB, unsigned. -/
theorem witness_Traps :
    let s := setW (setW (base false) 4 0xFFFFFFFF) 5 0xFFFFFFFE
    let cond : BitVec 5 → Word → Word → Bool := fun tm a b =>
      (tm.getMsbD 0 && decide (a.toInt < b.toInt)) || (tm.getMsbD 1 && decide (b.toInt < a.toInt)) ||
        (tm.getMsbD 2 && decide (a = b)) || (tm.getMsbD 3 && decide (a.toNat < b.toNat)) ||
        (tm.getMsbD 4 && decide (b.toNat < a.toNat))
    cond 0 (s.gprW 4) (s.gprW 5) = false ∧ cond 1 (s.gprW 4) (s.gprW 5) = true ∧
      cond 0 (s.gprW 4) ((0xFFFE#16).signExtend 32) = false ∧ cond 1 (s.gprW 4) ((0xFFFE#16).signExtend 32) = true := by
  decide +kernel

/-- Supervisor and user mode, HID0[DAPUEN] set and clear. -/
theorem witness_Returns :
    (base false).msr.getLsbD 14 = false ∧ ({ base false with msr := 0x4000#32 } : State).msr.getLsbD 14 = true ∧
      (base false).hid.hid0.getLsbD 8 = false ∧
      ({ base false with hid := { (base false).hid with hid0 := 0x100#32 } } : State).hid.hid0.getLsbD 8 = true := by
  decide +kernel

/-- User mode; a privileged number; the first and last DCR of the signature unit, and a CDACNTL number. -/
theorem witness_PrivilegedInUser :
    ({ base false with msr := 0x4000#32 } : State).msr.getLsbD 14 = true ∧ (16#10).getLsbD 4 = true ∧
      (272 ≤ (272#10).toNat ∧ (272#10).toNat ≤ 278) ∧ (272 ≤ (278#10).toNat ∧ (278#10).toNat ≤ 278) ∧
      ({ base false with pins := { (base false).pins with dcrnCdacntl := some 5#10 } } : State).pins.dcrnCdacntl = some 5#10 := by
  decide +kernel

theorem witness_IllegalForms :
    2 < (3#5).toNat ∧ 2 < (31#5).toNat ∧ (base false).dbg.edbcr0.getLsbD 30 = false ∧ (base false).pins.enOnce = false ∧ (0#10).toNat ∉ readableSprs ∧
      (260#10).toNat ∉ writableSprs ∧ (1023#10).toNat ∉ writableSprs ∧ (4#10).toNat ∉ readablePmrs ∧
      (0#10).toNat ∉ writablePmrs ∧ (0#10).getLsbD 4 = false ∧ (base false).msr.getLsbD 14 = false ∧
      ¬(272 ≤ (279#10).toNat ∧ (279#10).toNat ≤ 278) ∧ ¬(272 ≤ (271#10).toNat ∧ (271#10).toNat ≤ 278) ∧
      (base false).pins.dcrnCdacntl ≠ some 279#10 ∧ (base false).pins.dcrnCdadata ≠ some 279#10 := by
  decide +kernel

/-- Supervisor mode, no external debugger; a number user mode may name; the conditions of the single clauses. -/
theorem witness_MfsprReads_MtsprWrites :
    (base false).msr.getLsbD 14 = false ∧ (9#10).getLsbD 4 = false ∧ (base false).dbg.dbcr0.getLsbD 31 = false ∧
      (base false).ints.esr &&& 0x000D0000#32 = 0#32 ∧ 0#32 &&& 0x102#32 = 0#32 ∧ (0x102#32).getLsbD 1 = true ∧
      (0x102#32).getLsbD 8 = true ∧ (0#32).extractLsb' 0 2 = 0#2 ∧ (3#32).extractLsb' 0 2 = 3#2 := by
  decide +kernel

/-- A modified line that a write of L1FINV0 flushes, way 2 of set 0; one of way 3 that is not there. -/
theorem witness_MtsprWrites :
    let s := cached 7 false
    s.buf.storeErrs = [] ∧ (0x02000001#32).extractLsb' 0 2 = 1#2 ∧ (0x03000002#32).extractLsb' 0 2 = 2#2 ∧
      s.cache.l1csr0.getLsbD 16 = false ∧ sparseWf CacheLine.zero 0 s.cache.dcache.lines = true ∧
      (s.cache.dcache.line 0 2).valid = true ∧ (s.cache.dcache.line 0 2).dirty ≠ 0#3 ∧
      s.ramFrom ((s.cache.dcache.line 0 2).tag ++ 0#10) 32 ∧ s.mem.wf = true ∧ (s.cache.dcache.line 0 3).valid = false :=
  ⟨by decide +kernel, by decide, by decide, by decide +kernel, by decide +kernel, by decide +kernel, by decide +kernel,
    ram_from (by decide +kernel), by decide +kernel, by decide +kernel⟩

/-- The clauses of a write that finds a bus error in the store buffer, of canonical lines of the instruction cache, and of a
command that L1FINV1 reserves. -/
theorem witness_MtsprWrites_flash :
    let s : State := { cached 7 false with buf := { (base false).buf with storeErrs := [0x9000#32] } }
    s.buf.storeErrs ≠ [] ∧ s.ints.mcsr.getLsbD 19 = false ∧ sparseWf CacheLine.zero 0 s.cache.icache.lines = true ∧
      s.msr.getLsbD 14 = false ∧ s.dbg.dbcr0.getLsbD 31 = false ∧ (1#32).extractLsb' 0 2 = 1#2 ∧ (2#32).extractLsb' 0 2 = 2#2 := by
  decide +kernel

/-- The straps of the debug access registers; the commands of CDACNTL: tag and data, read and write, a reserved one. -/
theorem witness_DcrAndPmr :
    let s : State := { cached 7 false with pins := { (base false).pins with dcrnCdacntl := some 5#10, dcrnCdadata := some 279#10 } }
    s.msr.getLsbD 14 = false ∧ ¬(272 ≤ (5#10).toNat ∧ (5#10).toNat ≤ 278) ∧ ¬(272 ≤ (279#10).toNat ∧ (279#10).toNat ≤ 278) ∧
      s.pins.dcrnCdacntl = some 5#10 ∧ s.pins.dcrnCdadata = some 279#10 ∧ s.pins.dcrnCdacntl ≠ some 279#10 ∧
      s.buf.storeErrs = [] ∧ (2#32).extractLsb' 0 2 ≠ 1#2 ∧ (0xA0000005#32).extractLsb' 0 2 = 1#2 ∧
      (0xA0000005#32).getLsbD 2 = true ∧ (0xA0000005#32).getLsbD 31 = true ∧ (0x20070001#32).getLsbD 2 = false ∧
      (0x20070001#32).getLsbD 31 = false ∧ (15 + 384 + 1 : Nat) = (400#10).toNat ∧
      (0x100#32).getLsbD 8 = true ∧ (0x1900#32 &&& 0x1800#32) ≠ 0x100#32 &&& 0x1800#32 := by
  decide +kernel

/-- An empty store buffer, and one with an error, an address logged in MCAR or not. -/
theorem witness_MsrInstructions_NoEffect : (base false).msr.getLsbD 14 = false ∧ (2#5).toNat ≤ 2 ∧
    (base false).buf.storeErrs = [] ∧
    ({ base false with buf := { (base false).buf with storeErrs := [0x2000#32] } } : State).buf.storeErrs ≠ [] := by
  decide +kernel

theorem witness_WaitAndHalt :
    let s : State :=
      { base false with dbg := (base false).dbg.setEdbcr0 0xC0000000#32, pins := { (base false).pins with enOnce := true } }
    s.dbg.edbcr0.getLsbD 30 = true ∧ s.pins.enOnce = true ∧ s.dbg.edbsrmsk0.getLsbD 29 = false ∧
      ({ s.dbg with edbsrmsk0 := 0x20000000#32 } : Debug).edbsrmsk0.getLsbD 29 = true := by
  decide +kernel

/-- The state of the access witnesses: SPE on, r4 at the last byte of the address space, r5 an offset. -/
def far : State := { setW (setW (base false) 4 0xFFFFFFFF) 5 0x2001 with msr := 0x02000000#32 }
/-- The same with r4 a multiple of 8, r5 zero, the reservation held. -/
def even : State := { setW (setW (base false) 4 0xFFFFFFC0) 5 0 with msr := 0x02000000#32, resv := true }

/-- The effective address of a base register and an offset. -/
def ea (s : State) (ra : Gpr) (off : Word) : Word := (if ra = 0#5 then 0#32 else s.gprW ra) + off

/-- Loads and stores of every size from the last byte of the address space on, and from an odd address, in every form. -/
theorem witness_Loads_Stores : far.mem.wf = true ∧ ∀ n ∈ [1, 2, 4],
    PlainAccess far (ea far 4 ((0#16).signExtend 32)) n .load (page false) ∧
      PlainAccess far (ea far 4 (far.gprW 5)) n .load (page false) ∧
      PlainAccess far (ea far 4 ((0#16).signExtend 32)) n .store (page false) ∧
      PlainAccess far (ea far 4 (far.gprW 5)) n .store (page false) := by
  refine ⟨by decide +kernel, fun n hn => ?_⟩
  simp only [List.mem_cons, List.not_mem_nil, or_false] at hn
  rcases hn with rfl | rfl | rfl <;>
    exact ⟨plain_access (by decide +kernel), plain_access (by decide +kernel), plain_access (by decide +kernel),
      plain_access (by decide +kernel)⟩

theorem witness_VleLoads_VleStores : far.mem.wf = true ∧ ∀ n ∈ [1, 2, 4],
    PlainAccess far (far.gprW 4 + BitVec.ofNat 32 (n * (15#4).toNat)) n .load (page false) ∧
      PlainAccess far (far.gprW 4 + BitVec.ofNat 32 (n * (15#4).toNat)) n .store (page false) ∧
      PlainAccess far (ea far 4 ((0x80#8).signExtend 32)) n .load (page false) ∧
      PlainAccess far (ea far 4 ((0x80#8).signExtend 32)) n .store (page false) := by
  refine ⟨by decide +kernel, fun n hn => ?_⟩
  simp only [List.mem_cons, List.not_mem_nil, or_false] at hn
  rcases hn with rfl | rfl | rfl <;>
    exact ⟨plain_access (by decide +kernel), plain_access (by decide +kernel), plain_access (by decide +kernel),
      plain_access (by decide +kernel)⟩

/-- From r31 alone, and from r0: the whole file. -/
theorem witness_Multiples :
    (([31#5] : List Gpr).length = 32 - (31#5 : Gpr).toNat ∧ ∀ k, (h : k < ([31#5] : List Gpr).length) →
      (([31#5] : List Gpr)[k]).toNat = (31#5 : Gpr).toNat + k) ∧
    (((List.range 32).map (BitVec.ofNat 5)).length = 32 - (0#5 : Gpr).toNat ∧
      ∀ k, (h : k < ((List.range 32).map (BitVec.ofNat 5)).length) →
        (((List.range 32).map (BitVec.ofNat 5))[k]).toNat = (0#5 : Gpr).toNat + k) ∧
    (ea even 4 ((0#16).signExtend 32)).toNat % 4 = 0 ∧ (ea even 4 ((0#8).signExtend 32)).toNat % 4 = 0 ∧
    even.mem.wf = true ∧ PlainAccess even (ea even 4 ((0#16).signExtend 32)) 128 .load (page false) ∧
    PlainAccess even (ea even 4 ((0#8).signExtend 32)) 128 .store (page false) := by
  refine ⟨⟨rfl, fun k h => ?_⟩, ⟨rfl, fun k h => ?_⟩, by decide +kernel, by decide +kernel, by decide +kernel,
    plain_access (by decide +kernel), plain_access (by decide +kernel)⟩
  · simp only [List.length_singleton] at h
    have : k = 0 := by omega
    subst this
    rfl
  · simp only [List.length_map, List.length_range] at h
    simp only [List.getElem_map, List.getElem_range, BitVec.toNat_ofNat]
    omega

theorem witness_VolatileContext :
    (ea even 4 ((0x7C#8).signExtend 32)).toNat % 4 = 0 ∧ even.msr.getLsbD 14 = false ∧ even.mem.wf = true ∧
      ∀ n ∈ [44, 16, 8], PlainAccess even (ea even 4 ((0x7C#8).signExtend 32)) n .load (page false) ∧
        PlainAccess even (ea even 4 ((0x7C#8).signExtend 32)) n .store (page false) := by
  refine ⟨by decide +kernel, by decide +kernel, by decide +kernel, fun n hn => ?_⟩
  simp only [List.mem_cons, List.not_mem_nil, or_false] at hn
  rcases hn with rfl | rfl | rfl <;> exact ⟨plain_access (by decide +kernel), plain_access (by decide +kernel)⟩

theorem witness_Reservations :
    (base false).resv = false ∧ even.resv = true ∧ even.pins.xfail = false ∧ even.mem.wf = true ∧
      (ea even 4 (even.gprW 5)).toNat % 4 = 0 ∧ ∀ n ∈ [1, 2, 4],
        PlainAccess even (ea even 4 (even.gprW 5)) n .load (page false) ∧
          PlainAccess even (ea even 4 (even.gprW 5)) n .store (page false) := by
  refine ⟨by decide +kernel, by decide +kernel, by decide +kernel, by decide +kernel, by decide +kernel, fun n hn => ?_⟩
  simp only [List.mem_cons, List.not_mem_nil, or_false] at hn
  rcases hn with rfl | rfl | rfl <;> exact ⟨plain_access (by decide +kernel), plain_access (by decide +kernel)⟩

/-- A search that hits the last byte of the page, one that misses, both forms of tlbivax. -/
theorem witness_TlbInstructions :
    (base false).msr.getLsbD 14 = false ∧ (base false).tlbOpen false 0#8 = false ∧
      (base false).tlbHits false 0#8 0xFFFFFFFF#32 = [(0, page false)] ∧
      ({ base false with mmu := State.reset.mmu } : State).tlbOpen false 0#8 = false ∧
      ({ base false with mmu := State.reset.mmu } : State).tlbHits false 0#8 0x7FFFFFFF#32 = [] ∧
      (4#32).getLsbD 2 = true ∧ (0xFFFFFFFB#32).getLsbD 2 = false ∧
      (List.range 32).all (fun k => decide ((State.reset.mmu.tlb.toList.getD k TlbEntry.zero).sizeOk = true)) = true := by
  decide +kernel

/-- The state of the misses: in set 0 of both caches four lines, with the lock bits `lk`, the one of way 2 modified, where the
replacement pointer is; the data cache in copyback mode but for the bits `csr` of L1CSR0, which way disables and CLOA are; r4 at
the last byte of a line of that set which is in no way; SPE on. -/
def missing (csr : Word) (lk : BitVec 4) : State :=
  let put (c : Cache) (w : Nat) : Cache :=
    c.put 0 w { line with tag := BitVec.ofNat 22 (4 * w + 16), lock := lk, dirty := if w = 2 then 7#3 else 0#3 }
  let c := { ([0, 1, 2, 3] : List Nat).foldl put (base false).cache.dcache with rp := 2#2 }
  { setW (base false) 4 0x301F with
    msr := 0x02000000#32
    cache := { (base false).cache with
      dcache := c, icache := c, l1csr0 := 0x00100001#32 ||| csr, l1csr1 := 1#32 ||| (csr &&& 0x80#32) } }

/-- The page with caching inhibited. -/
def inhibited : TlbEntry := { page false with i := true }

/-- The line is missed in both caches, whatever the page, the locks and the way disables. -/
theorem missing_misses : ∀ csr ∈ [0#32, 0x00080000#32, 0xFF000000#32, 0x00080080#32], ∀ lk ∈ [0#4, 15#4],
    ∀ q ∈ [(Side.data, AccessKind.load), (.data, .store), (.instr, .load), (.instr, .either)], ∀ p ∈ [page false, inhibited],
      let s : State := { missing csr lk with mmu := { (base false).mmu with tlb := (base false).mmu.tlb.set 0 p } }
      BlockMiss s q.1 0x301F#32 q.2 p := by
  intro csr hc lk hl q hq p hp
  have h : (([0#32, 0x00080000#32, 0xFF000000#32, 0x00080080#32] : List Word).all fun csr => ([0#4, 15#4] : List (BitVec 4)).all fun lk =>
      [(Side.data, AccessKind.load), (.data, .store), (.instr, .load), (.instr, .either)].all fun q =>
        [page false, inhibited].all fun p =>
          blockMiss { missing csr lk with mmu := { (base false).mmu with tlb := (base false).mmu.tlb.set 0 p } } q.1 0x301F#32 q.2 p) =
      true := by decide +kernel
  simp only [List.all_eq_true] at h
  exact block_miss (h csr hc lk hl q hq p hp)

/-- Way 2 is the victim where nothing is locked, and no way is one where all are locked, or disabled. -/
theorem missing_victim (side : Side) : (missing 0 0).victimIs side 0x301F#32 2 ∧
    (∀ k, k < 4 → ¬(missing 0x00080080#32 15).wayFree side 0x301F#32 k) ∧ (missing 0x00080080#32 15).wayOn side 0 ∧
    (∀ k, k < 4 → ¬(missing 0xFF000000#32 0).wayOn side k) := by
  have h (k : Nat) (hk : k < 4) : k = 0 ∨ k = 1 ∨ k = 2 ∨ k = 3 := by omega
  cases side <;>
    exact ⟨⟨0, by decide, by decide +kernel, ⟨by unfold State.wayOn; decide +kernel, by decide +kernel⟩,
        fun j hj => absurd hj (Nat.not_lt_zero j)⟩,
      fun k hk hf => absurd hf.2 (by rcases h k hk with rfl | rfl | rfl | rfl <;> decide +kernel),
      by unfold State.wayOn; decide +kernel,
      fun k hk => by unfold State.wayOn; rcases h k hk with rfl | rfl | rfl | rfl <;> decide +kernel⟩

/-- Every line of the set may be displaced, the modified one of way 2 by writing it to memory, and the missed line filled. -/
theorem missing_fills (side : Side) : ∀ lk ∈ [0#4, 15#4], ∀ csr ∈ [0#32, 0x00080000#32, 0x00080080#32],
    (missing csr lk).pushes .data 0x301F#32 2 = true ∧ (∀ w, w < 4 → (missing csr lk).mayDisplace side 0x301F#32 w) ∧
      (missing csr lk).mayFill side ((page false).page 0x301F#32).ra := by
  intro lk hl csr hc
  simp only [List.mem_cons, List.not_mem_nil, or_false] at hl hc
  have h (k : Nat) (hk : k < 4) : k = 0 ∨ k = 1 ∨ k = 2 ∨ k = 3 := by omega
  cases side <;> rcases hl with rfl | rfl <;> rcases hc with rfl | rfl | rfl <;>
    exact ⟨by decide +kernel,
      fun w hw => ⟨by decide +kernel, fun _ => by rcases h w hw with rfl | rfl | rfl | rfl <;> exact ram_from (by decide +kernel)⟩,
      ram_from (by decide +kernel), fun _ _ _ => rfl⟩

/-- A clean line, a modified line and an unmodified one of the instruction cache, at the last byte of the line; for the misses,
which `missing_misses`, `missing_victim` and `missing_fills` show, the mode and the lock overflow bit. -/
theorem witness_CacheBlocks :
    (∀ d ∈ [0#3, 7#3], ∀ k ∈ [AccessKind.load, AccessKind.store],
      BlockHit (cached d false) .data (ea (cached d false) 4 31#32) k (page false) 2 { line with dirty := d }) ∧
    (∀ k ∈ [AccessKind.load, AccessKind.either],
      BlockHit (cached 0 false) .instr (ea (cached 0 false) 4 31#32) k (page false) 2 { line with dirty := 0#3 }) ∧
    (cached 0 false).msr.getLsbD 14 = false ∧ (cached 0 false).cache.l1csr0.getLsbD 20 = true ∧ (page false).w = false ∧
    (base false).cache.l1csr0.getLsbD 0 = false ∧ (base false).cache.l1csr1.getLsbD 0 = false ∧ (1#4 : BitVec 4) ≠ 0#4 ∧
    (cached 7 false).mem.wf = true ∧
    (cached 7 false).ramFrom (lineBase ((page false).page (ea (cached 7 false) 4 31#32)).ra) 32 ∧
    (missing 0 0).gprW 4 = 0x301F#32 ∧ (missing 0 0).cache.l1csr0.getLsbD 20 = true ∧ inhibited.i = true ∧
    (∀ side ∈ [Side.data, .instr], ((missing 0x00080080#32 15).l1csr side).getLsbD 7 = true ∧
      ((missing 0 15).l1csr side).getLsbD 7 = false) := by
  refine ⟨fun d hd k hk => ?_, fun k hk => ?_, by decide +kernel, by decide +kernel, rfl, by decide +kernel,
    by decide +kernel, by decide, by decide +kernel, ram_from (by decide +kernel), by decide +kernel, by decide +kernel, rfl,
    by decide +kernel⟩
  · simp only [List.mem_cons, List.not_mem_nil, or_false] at hd hk
    rcases hd with rfl | rfl <;> rcases hk with rfl | rfl <;> exact block_hit (by decide +kernel)
  · simp only [List.mem_cons, List.not_mem_nil, or_false] at hk
    rcases hk with rfl | rfl <;> exact block_hit (by decide +kernel)

/-- The last bytes of the line, in elements of every size, in copyback mode (L1CSR0 bit 20) and in writethrough mode, SPE on;
the scaled offsets of the VLE and the SPE forms reach them too. -/
theorem witness_CachedAccesses : ∀ m ∈ [0x00100001#32, 1#32],
    let s : State := { cached 0 false with
      msr := 0x02000000#32, cache := { (cached 0 false).cache with l1csr0 := m } }
    s.msr.getLsbD 25 = true ∧ s.gprW 4 + BitVec.ofNat 32 (4 * (7#4).toNat) = ea s 4 28#32 ∧
      ea s 4 (BitVec.ofNat 32 (8 * (3#5).toNat)) = ea s 4 24#32 ∧
      ∀ n ∈ [1, 2, 4, 8], let a := ea s 4 (BitVec.ofNat 32 (32 - n))
        DataRead s a n (page false) ((({ line with dirty := 0#3 } : CacheLine).data.toList.drop (a.toNat % 32)).take n) s ∧
          DataWrite s a n (page false) (decide (m = 1#32)) 2 { line with dirty := 0#3 } s ∧
          a.toNat % 8 + n ≤ 8 ∧ s.pins.speBoundary .evldd n = n ∧ a.toNat % n = 0 := by
  intro m hm
  simp only [List.mem_cons, List.not_mem_nil, or_false] at hm
  rcases hm with rfl | rfl <;>
    (refine ⟨by decide +kernel, by decide +kernel, by decide +kernel, fun n hn => ?_⟩
     simp only [List.mem_cons, List.not_mem_nil, or_false] at hn
     rcases hn with rfl | rfl | rfl | rfl <;>
       exact ⟨.hit 2 _ (block_hit (by decide +kernel)),
         .hit 2 _ (block_hit (by decide +kernel)) (by unfold State.storesThrough; decide +kernel)
           (fun _ => ⟨by decide +kernel, ram_from (by decide +kernel), by decide +kernel⟩),
         by decide +kernel, by decide +kernel, by decide +kernel⟩)

/-- A load and a store that miss, at the last byte of a line: filled in way 2, whose modified line is displaced (the store under
DCWA 10); with every way locked, and for a store under DCWA 00, in memory alone. -/
theorem witness_CachedAccesses_miss :
    (∃ u, DataRead (missing 0 0) 0x301F#32 1 (page false) ((missing 0 0).mem.bytes ((page false).page 0x301F#32).ra 1) u) ∧
    (∃ u, DataRead (missing 0x00080080#32 15) 0x301F#32 1 (page false) ((missing 0x00080080#32 15).mem.bytes ((page false).page 0x301F#32).ra 1) u) ∧
    (∃ l u, DataWrite (missing 0x00080000#32 0) 0x301F#32 1 (page false) false 2 l u) ∧
    BusWrite (missing 0 0) 0x301F#32 1 (page false) false ∧ BusWrite (missing 0x00080080#32 15) 0x301F#32 1 (page false) false ∧
    (missing 0 0).gprW 4 = 0x301F#32 ∧ (missing 0 0).msr.getLsbD 25 = true := by
  have hs (csr : Word) (hc : csr ∈ [0#32, 0x00080000#32, 0xFF000000#32, 0x00080080#32]) (lk : BitVec 4) (hl : lk ∈ [0#4, 15#4])
      (k : AccessKind) (hk : (Side.data, k) ∈ [(Side.data, AccessKind.load), (.data, .store), (.instr, .load), (.instr, .either)]) :
      BlockMiss (missing csr lk) .data 0x301F#32 k (page false) :=
    missing_misses csr hc lk hl (.data, k) hk (page false) (by decide)
  have hv := missing_victim .data
  have hf := missing_fills .data
  have hm : (missing 0x00080000#32 0).victimIs .data 0x301F#32 2 :=
    ⟨0, by decide, by decide +kernel, ⟨by unfold State.wayOn; decide +kernel, by decide +kernel⟩,
      fun j hj => absurd hj (Nat.not_lt_zero j)⟩
  refine ⟨⟨_, .fill 2 (hs _ (by decide) _ (by decide) _ (by decide)) rfl hv.1 ((hf 0 (by decide) 0 (by decide)).2.1 2 (by decide))
      (hf 0 (by decide) 0 (by decide)).2.2⟩,
    ⟨_, .bus (hs _ (by decide) _ (by decide) _ (by decide)) (.inr hv.2.1) (ram_from (by decide +kernel)) (by decide +kernel)⟩,
    ⟨_, _, .fill 2 (hs _ (by decide) _ (by decide) _ (by decide)) (by unfold State.storesThrough; decide +kernel)
      (by simp only [State.allocates, if_true]; decide +kernel) hm ((hf 0 (by decide) _ (by decide)).2.1 2 (by decide))
      (hf 0 (by decide) _ (by decide)).2.2 (fun h => by cases h)⟩,
    ⟨hs _ (by decide) _ (by decide) _ (by decide), by unfold State.storesThrough; decide +kernel,
      .inl (by simp only [State.allocates, Bool.false_eq_true, if_false]; decide +kernel),
      by decide +kernel, ram_from (by decide +kernel), by decide +kernel⟩,
    ⟨hs _ (by decide) _ (by decide) _ (by decide), by unfold State.storesThrough; decide +kernel,
      .inr ⟨by simp only [State.allocates, if_true]; decide +kernel, hv.2.1⟩,
      by decide +kernel, ram_from (by decide +kernel), by decide +kernel⟩,
    by decide +kernel, by decide +kernel⟩

/-- The state of the storage interrupts: a user without MSR[UCLE] (or a supervisor), SPE on, the reservation held, both caches
on, r4 a multiple of 8, one page (none: `p` invalid). -/
def walled (msr : Word) (p : TlbEntry) : State :=
  { setW (setW (base false) 4 0xFFFFFFC0) 5 0 with
    msr := msr, resv := true, cache := { (base false).cache with l1csr0 := 1#32, l1csr1 := 1#32 }
    mmu := { (base false).mmu with tlb := (Vector.replicate 32 TlbEntry.zero).set 0 p } }

/-- The page without permissions. -/
def bar : TlbEntry := { page false with ur := false, uw := false, ux := false, sr := false, sw := false, sx := false }

/-- An address outside every page, and a page without permissions, in both modes; every form's alignment. -/
theorem witness_StorageInterrupts : ∀ m ∈ [0x02000000#32, 0x02004000#32],
    let a := ea (walled m bar) 4 ((walled m bar).gprW 5)
    ((walled m bar).tlbOpen false 0#8 = false ∧ (walled m TlbEntry.zero).tlbOpen false 0#8 = false ∧
      (walled m bar).tlbHits false 0#8 a = [(0, bar)] ∧ (walled m TlbEntry.zero).tlbHits false 0#8 a = []) ∧
    ((walled m bar).msrDs = false ∧ (walled m bar).pid = 0#8 ∧ a.toNat % 8 = 0 ∧ (walled m bar).gprW 4 = a) ∧
    (∀ k ∈ [AccessKind.load, .store, .either], (bar.page a).allows (walled m bar).user k = false) ∧
    ((walled m bar).resv = true ∧ (walled m bar).msr.getLsbD 25 = true ∧ (walled m bar).cache.l1csr0.getLsbD 0 = true ∧
      (walled m bar).cache.l1csr1.getLsbD 0 = true ∧ (walled m bar).msr.getLsbD 26 = false ∧
      (walled m bar).pins.speBoundary .evldd 8 = 8 ∧ (walled m bar).msr.getLsbD 14 = decide (m = 0x02004000#32)) := by
  intro m hm
  simp only [List.mem_cons, List.not_mem_nil, or_false] at hm
  rcases hm with rfl | rfl <;>
    exact ⟨⟨by decide +kernel, by decide +kernel, by decide +kernel, by decide +kernel⟩, by decide +kernel, by decide +kernel,
      by decide +kernel⟩

/-- An odd address in every form; the boundaries of the SPE forms; the reservation held; the cache off; supervisor mode. -/
theorem witness_AlignmentInterrupts :
    (ea even 4 ((1#16).signExtend 32)).toNat % 4 ≠ 0 ∧ (ea even 4 ((3#8).signExtend 32)).toNat % 4 ≠ 0 ∧
      (ea far 4 0#32).toNat % 2 ≠ 0 ∧ (ea far 4 0#32).toNat % 4 ≠ 0 ∧
      (∀ n ∈ [2, 4, 8], (ea far 4 0#32).toNat % far.pins.speBoundary .evlwhe n ≠ 0 ∧
        (ea far 4 (BitVec.ofNat 32 (n * (31#5).toNat))).toNat % far.pins.speBoundary .evstdd n ≠ 0) ∧
      even.resv = true ∧ far.cache.l1csr0.getLsbD 0 = false ∧ far.msr.getLsbD 25 = true ∧ far.msr.getLsbD 14 = false := by
  decide +kernel

theorem witness_SpeUnavailable : (base false).msr.getLsbD 25 = false := by decide +kernel

/-- SPE on and no floating-point exception enabled. -/
theorem witness_SpeSimple_SpeHalf_SpeHalfSaturate_SpeWord_Comparisons_EfpuScalar_EfpuVector :
    far.msr.getLsbD 25 = true ∧ far.fpQuiet := by
  unfold State.fpQuiet
  decide +kernel

theorem witness_SpeLoads_SpeStores : even.msr.getLsbD 25 = true ∧ even.mem.wf = true ∧ ∀ n ∈ [2, 4, 8],
    even.pins.speBoundary .evldd n = n ∧ (ea even 4 (even.gprW 5)).toNat % n = 0 ∧ (ea even 4 (BitVec.ofNat 32 (n * (31#5).toNat))).toNat % n = 0 ∧
      PlainAccess even (ea even 4 (even.gprW 5)) n .load (page false) ∧
      PlainAccess even (ea even 4 (BitVec.ofNat 32 (n * (31#5).toNat))) n .load (page false) ∧
      PlainAccess even (ea even 4 (even.gprW 5)) n .store (page false) ∧
      PlainAccess even (ea even 4 (BitVec.ofNat 32 (n * (31#5).toNat))) n .store (page false) := by
  refine ⟨by decide +kernel, by decide +kernel, fun n hn => ?_⟩
  simp only [List.mem_cons, List.not_mem_nil, or_false] at hn
  rcases hn with rfl | rfl | rfl <;>
    exact ⟨by decide +kernel, by decide +kernel, by decide +kernel, plain_access (by decide +kernel),
      plain_access (by decide +kernel), plain_access (by decide +kernel), plain_access (by decide +kernel)⟩

/-- An infinity in r4 and a NaN in r5, in both words: invalid operands of arithmetic, conversions and compares, with FINVE; 1/3
and the conversions of 3 * 2^24 + 1 and of 1 + 2^-23 are not exact, with FINXE. -/
theorem witness_FpExceptions :
    (let s : State := { setD (setD (base false) 4 0x7F8000007F800000) 5 0x7FC000007FC00000 with
       spefscr := 0x20#32, msr := 0x02000000#32 }
     s.msr.getLsbD 25 = true ∧
       ∀ o ∈ [fAdd s.frmc (s.gprW 4) (s.gprW 5), fMul s.frmc (s.gprW 4) (s.gprW 5), fDiv s.frmc (s.gprW 4) (s.gprW 5),
           fSqrt s.frmc (s.gprW 4), fMAdd s.frmc .nmsub (s.gprW 4) (s.gprW 5) (s.gprW 3), fMinMax true (s.gprW 4) (s.gprW 5),
           fCvtTo s.frmc .uf (s.gprW 5), fToHalf s.frmc (s.gprW 4), FpOut.plain (fSpecial (s.gprW 4) || fSpecial (s.gprW 5)) 0#32],
         s.fpTraps FpOut.none o = true ∧ s.fpTraps o o = true) ∧
    (let s : State := { setD (setD (base false) 4 0x3F8000003F800000) 5 0x4040000040400000 with
       spefscr := 0x40#32, msr := 0x02000000#32 }
     s.msr.getLsbD 25 = true ∧ s.spefscr.getLsbD 6 = true ∧
       ∀ o ∈ [fDiv s.frmc (s.gprW 4) (s.gprW 5), fCvtFrom s.frmc .ui 0x03000001#32, fCvtTo s.frmc .si 0x3F800001#32,
           fToHalf s.frmc 0x3F800001#32],
         s.fpTraps FpOut.none o = false ∧ s.fpTraps o o = false ∧ (FpOut.none.inexact || o.inexact) = true ∧
           o.trunc.isSome = true) := by
  decide +kernel

/-- The numbers 1 and -1, and their values. -/
theorem witness_fpValue : fpValue 0x3F800000#32 = 1 ∧ fpValue 0xBF800000#32 = -1 := by
  have h1 : fpE 0x3F800000#32 = 127 ∧ fpF 0x3F800000#32 = 0 ∧ (0x3F800000#32).msb = false := by decide
  have h2 : fpE 0xBF800000#32 = 127 ∧ fpF 0xBF800000#32 = 0 ∧ (0xBF800000#32).msb = true := by decide
  unfold fpValue
  rw [h1.1, h1.2.1, h1.2.2, h2.1, h2.2.1, h2.2.2]
  norm_num

/-- A normalized number, a zero, a denormalized number, an infinity; sums that vanish and that do not, a product-sum likewise. -/
theorem witness_FpArithmetic :
    fpNorm 0x3F800000#32 ∧ fpNorm 0xBF800000#32 ∧ (fpE 0#32 = 0 ∧ fpF 0#32 = 0) ∧ (fpE 1#32 = 0 ∧ fpF 1#32 ≠ 0) ∧
      fpE 0xFF800000#32 = 255 ∧ (0x3F800000#32).msb = false ∧ (0xBF800000#32).msb = true ∧
      fpValue 0x3F800000#32 + fpValue 0xBF800000#32 = 0 ∧ fpValue 0x3F800000#32 + fpValue 0x3F800000#32 ≠ 0 ∧
      fpValue 0x3F800000#32 * fpValue 0x3F800000#32 + fpValue 0xBF800000#32 = 0 ∧
      fpValue 0x3F800000#32 * fpValue 0x3F800000#32 + 0 ≠ 0 := by
  rw [witness_fpValue.1, witness_fpValue.2]
  unfold fpNorm
  exact ⟨by decide, by decide, by decide, by decide, by decide, by decide, by decide, by norm_num, by norm_num, by norm_num,
    by norm_num⟩

/-- The numbers 2^31, -2^31, -2^31 - 256 and 2^32, an infinity of each sign, a NaN; the exponents of half precision. -/
theorem witness_FpConversions :
    fpValue 0x4F000000#32 = 2 ^ 31 ∧ fpValue 0xCF000000#32 = -2 ^ 31 ∧ fpValue 0xCF000001#32 = -2 ^ 31 - 256 ∧
      fpValue 0x4F800000#32 = 2 ^ 32 ∧ fpNorm 0x4F000000#32 ∧ fpNorm 0xCF000000#32 ∧ fpNorm 0xCF000001#32 ∧
      fpNorm 0x4F800000#32 ∧ |fpValue 0x3F800000#32 * 1| < 2 ^ 31 ∧ (fpE 0x7F800000#32 = 255 ∧ fpF 0x7F800000#32 = 0) ∧
      fpNan 0x7FC00000#32 = true ∧ fpE 0#32 = 0 ∧ ((0x0001#16).extractLsb' 10 5).toNat = 0 ∧
      ((0x7C00#16).extractLsb' 10 5).toNat = 31 ∧ ((0x3C00#16).extractLsb' 10 5).toNat = 15 := by
  have h1 : fpE 0x4F000000#32 = 158 ∧ fpF 0x4F000000#32 = 0 ∧ (0x4F000000#32).msb = false := by decide
  have h2 : fpE 0xCF000000#32 = 158 ∧ fpF 0xCF000000#32 = 0 ∧ (0xCF000000#32).msb = true := by decide
  have h3 : fpE 0xCF000001#32 = 158 ∧ fpF 0xCF000001#32 = 1 ∧ (0xCF000001#32).msb = true := by decide
  have h4 : fpE 0x4F800000#32 = 159 ∧ fpF 0x4F800000#32 = 0 ∧ (0x4F800000#32).msb = false := by decide
  refine ⟨?_, ?_, ?_, ?_, ?_, ?_, ?_, ?_, ?_, ?_, by decide, by decide, by decide, by decide, by decide⟩
  · unfold fpValue; rw [h1.1, h1.2.1, h1.2.2]; norm_num
  · unfold fpValue; rw [h2.1, h2.2.1, h2.2.2]; norm_num
  · unfold fpValue; rw [h3.1, h3.2.1, h3.2.2]; norm_num
  · unfold fpValue; rw [h4.1, h4.2.1, h4.2.2]; norm_num
  · unfold fpNorm; decide
  · unfold fpNorm; decide
  · unfold fpNorm; decide
  · unfold fpNorm; decide
  · rw [witness_fpValue.1]; norm_num
  · decide

/-- A steady state with MSR[EE] set, and each pending interrupt. -/
theorem witness_AsynchronousInterrupts :
    (∀ x ∈ [true, false], ∀ v ∈ [true, false],
      ({ base false with msr := 0x8000#32, pins := { (base false).pins with extint := x, avec := v } } : State).Steady ∧
        ({ base false with msr := 0x8000#32, pins := { (base false).pins with extint := x, avec := v } } : State).msr.getLsbD
          15 = true) ∧
    (∀ q ∈ [0x04800000#32, 0x08000000#32],
      ({ base false with msr := 0x8000#32, tmr := { (base false).tmr with tsr := q, tcr := 0x04800000#32 } } : State).Steady) ∧
    ((0x04800000#32).getLsbD 26 && (0x04800000#32).getLsbD 23) = true ∧
    ((0x08000000#32).getLsbD 26 && (0x04800000#32).getLsbD 23) = false ∧
    ((0x08000000#32).getLsbD 27 && (0x04800000#32).getLsbD 26) = true := by
  refine ⟨fun x _ v _ => ⟨steady_of _ ⟨rfl, rfl, rfl, rfl, rfl, rfl, rfl, rfl⟩ rfl rfl rfl (zero_bit ..),
      (by decide : (0x8000#32).getLsbD 15 = true)⟩, fun q hq => ?_, by decide, by decide, by decide⟩
  simp only [List.mem_cons, List.not_mem_nil, or_false] at hq
  rcases hq with rfl | rfl
  · exact steady_of _ ⟨rfl, rfl, rfl, rfl, rfl, rfl, rfl, rfl⟩ rfl rfl rfl (by decide : (0x04800000#32).getLsbD 30 = false)
  · exact steady_of _ ⟨rfl, rfl, rfl, rfl, rfl, rfl, rfl, rfl⟩ rfl rfl rfl (by decide : (0x08000000#32).getLsbD 30 = false)

/-- A latched NMI; a machine check condition, enabled and not; a Critical Input and a Watchdog time-out with MSR[CE] set. -/
theorem witness_UrgentInterrupts :
    (∀ n ∈ [true, false], ∀ m ∈ [0x80000000#32, 0x08000000#32], ∀ c ∈ [true, false], ∀ v ∈ [true, false],
      ({ base false with
        msr := 0x21000#32
        ints := { (base false).ints with nmiPend := n, mcsr := m }
        pins := { (base false).pins with critint := c, avec := v }
        tmr := { (base false).tmr with tsr := 0xC0000000#32, tcr := 0x08000000#32 } } : State).Undebugged) ∧
    0x80000000#32 &&& 0xF611E03C#32 ≠ 0#32 ∧ 0x08000000#32 &&& 0xF611E03C#32 = 0#32 ∧ (0x21000#32).getLsbD 12 = true ∧
    (0x21000#32).getLsbD 17 = true ∧ (0xC0000000#32).getLsbD 30 = true ∧ (0x08000000#32).getLsbD 27 = true :=
  ⟨fun _ _ _ _ _ _ _ _ => undebugged_of _ ⟨rfl, rfl, rfl, rfl, rfl, rfl, rfl, rfl⟩, by decide, by decide, by decide, by decide,
    by decide, by decide⟩

/-- SPEFSCR[MODE] reads 0 whatever is written (45_efpu_scalar.md R1102): `mtspr SPEFSCR,r3` of all ones. -/
theorem test_spefscr_mode :
    (match exec (.mtspr 512#10 3) { setW (base false) 3 0xFFFFFFFF with msr := 0x02000000#32 } with
     | .next t => t.spefscr == 0xFF3EFF7F#32
     | _ => false) = true := by
  decide +kernel

/-- Command 00 of L1FINV0 clears V and L, not D (22_cache.md R433). -/
theorem test_finv0_keeps_dirty :
    (match (base false).putLine .data 5 1 { CacheLine.zero with valid := true, lock := 15#4, dirty := 7#3 } |>.finv0
        0x010000A0#32 with
     | .ok _ t => t.cache.dcache.line 5 1 == { CacheLine.zero with dirty := 7#3 }
     | _ => false) = true := by
  decide +kernel

/-- A pc that is no multiple of 4 on a Book E page is a misaligned fetch, ESR[MIF], though the page is not executable (10_state.md
R57). -/
theorem test_misaligned_fetch_first :
    (match step { base false with
        pc := 0x1002#32
        mmu := { (base false).mmu with tlb := (base false).mmu.tlb.set 0 { page false with sx := false } } } with
     | .next t => t.ints.esr == 0x2#32 && t.ints.srr0 == 0x1002#32
     | _ => false) = true := by
  decide +kernel

/-- What a TLB miss writes to MAS2 stays at the end of a step that worked with an old value of it (21_mmu.md R340), and MAS4,
which it does not write, takes its new value. -/
theorem test_miss_writes_mas :
    (let y : Sync := { old := [(.mas2, 0x77#32), (.mas4, 0x30#32)], new := [(.mas2, 0x99#32), (.mas4, 0x31#32)] }
     let t := (raiseDataTlb 0x4000#32 0#32 { base false with sync := y }).endSync y false false
     decide (t.mmu.mas2 = 0x4000#32 ∧ t.mmu.mas4 = 0x31#32 ∧ t.sync = Sync.none)) = true := by
  decide +kernel

/-- `stwcx.` and `wait` empty the store buffer first: its bus error is reported (22_cache.md R430; 62_perfmon_power.md R2351). -/
theorem test_stores_drained :
    let s : State := { setW (base false) 4 0x2000 with
      resv := true, buf := { (base false).buf with storeErrs := [0x9000#32], entries := [⟨0x2000#32, [(0x2000, 1#8)]⟩] } }
    ([(.stwcxDot 5 0 4 : Instr), .wait].all fun i =>
      match exec i s with
      | .next t => decide (t.buf.storeErrs = [] ∧ t.buf.entries = [] ∧ t.ints.mcar = 0x9000#32 ∧ t.ints.mcsr.getLsbD 2 = true)
      | _ => false) = true := by
  decide +kernel

/-- A bus error and a device inside one 1 KB page of memory (92_eei_decisions.md D58). -/
theorem test_map_inside_page :
    let s : State := { base false with
      pins := { (base false).pins with memMap := [⟨0x2010#32, 0x2013#32, .busError⟩, ⟨0x2014#32, 0x2014#32, .device⟩] } }
    s.busErrIn 0x200C#32 4 = false ∧ s.busErrIn 0x200D#32 4 = true ∧ s.busErr 0x2014#32 = false ∧ s.onDevice 0x2014#32 = true ∧
      s.onDevice 0x2015#32 = false := by
  decide +kernel

/-- A fetch may read the byte that a store replaced until a context synchronizing event that comes after an `msync`
(20_memory.md R246; 22_cache.md R434). -/
theorem test_older_bytes :
    let s := (base false).putMem true 0x2000#32 [1#8]
    s.buf.olds 0x2000#32 = [0#8] ∧ s.buf.synced.olds 0x2000#32 = [0#8] ∧ s.flushBuffers.buf.synced.olds 0x2000#32 = [0#8] ∧
      s.syncBuffers.buf.olds 0x2000#32 = [0#8] ∧ s.syncBuffers.buf.synced.olds 0x2000#32 = [] := by
  decide +kernel

/-- A fill of the instruction cache may bring in the byte that a store replaced, after an `msync` too, until an `icbi` of its line,
present or not, and no longer (22_cache.md R434); an `icbi` of another line does not end that. -/
theorem test_fill_after_icbi :
    ([(cached 0 false, 0x2008#32), (missing 0 0, 0x3008#32)].all fun q =>
      let s := q.1.putMem true q.2 [1#8]
      match exec (.icbi 0 4) { s with buf := s.syncBuffers.buf.synced }, exec (.icbi 0 0) s with
      | .next t, .next u => decide (cellsAt s.syncBuffers.buf.synced.unpurged q.2 = [0#8] ∧ cellsAt t.buf.unpurged q.2 = [] ∧
          (t.memLine .instr q.2).get 8 = 1#8 ∧ cellsAt u.buf.unpurged q.2 = [0#8])
      | _, _ => false) = true := by
  decide +kernel

/-- A ring of four chained counters at their last values: the rollover of the first, which an `mtpmr` makes, comes round and counts
in it too (62_perfmon_power.md R2332). -/
theorem test_chain_ring :
    (let ring : PerfMon := { (base false).pm with
       pmgc0 := 0#32, pmlca := (((Vector.replicate 4 0#32).set 0 0x640000#32).set 1 0x610000#32 |>.set 2 0x620000#32).set 3 0x630000#32 }
     let v : List Word := [0#32, 0xFFFFFFFF#32, 0xFFFFFFFF#32, 0xFFFFFFFF#32]
     ring.chain false false 4 v [true, false, false, false] = [1#32, 0#32, 0#32, 0#32]) := by
  decide +kernel

/-- The bits of the MSR that a step saw as old go into the save/restore pair that HID0[DAPUEN] selected for that step
(60_exceptions.md R2067): DAPUEN was seen as 0, and is 1 after the step. -/
theorem test_saved_pair :
    let y : Sync := { old := [(.hid0, 0#32), (.msr, 0#32)], new := [(.hid0, 0x100#32), (.msr, 0x02000000#32)] }
    let s : State := { base false with
      sync := y
      hid := { (base false).hid with hid0 := 0#32 }
      ints := { (base false).ints with csrr1 := 0#32, dsrr1 := 0#32 }
      ev := { (base false).ev with ints := [.debug] } }
    let t := s.endView y false
    t.ints.csrr1 = 0x02000000#32 ∧ t.ints.dsrr1 = 0#32 ∧ t.hid.hid0 = 0x100#32 := by
  decide +kernel

/-- The beats of an access that the Parallel Signature Unit accumulates: one within a double word, two across, and its lanes
(64_external_debug_psu.md R2281). -/
theorem test_beats :
    busBeats 0x1002#32 [1, 2] = [(0x1002#32, [1, 2])] ∧ busBeats 0x1006#32 [1, 2, 3, 4] = [(0x1006#32, [1, 2]), (0x1008#32, [3, 4])] ∧
      laneWord 0x1002#32 [1, 2] 0 = 0x00000102#32 ∧ laneWord 0x1002#32 [1, 2] 1 = 0#32 ∧ laneWord 0x1006#32 [1, 2] 1 = 0x00000102#32 := by
  decide

/-- On a cacheable miss with a tag error in the set, a clean line with a lock error is invalidated all the same
(23_cache_errors_coherency.md R464). -/
theorem test_lock_error_dropped :
    let c := ((base false).cache.dcache.put 0 0 { line with tag := 1#22, lock := 1#4 }).put 0 1 { line with tag := 2#22, tagErr := 3#6 }
    let r := c.lookup true false false .access 0 3#22
    r.1 = .mc true ∧ (r.2.line 0 0).valid = false ∧ (r.2.line 0 1).valid = true := by
  decide +kernel

/-- The old DBCR1 is seen whole (93_implementation_defined.md U5); the open half-precision result has 16 bits (45_efpu_scalar.md
R1155). -/
theorem test_old_dbcr1_open_half :
    (((base false).syncPut (.dbcr 1) 0xC0000000#32).dbg.dbcr1 = 0xC0000000#32) ∧
      (fToHalf 0#2 0x387FFFFF#32).trunc = none ∧ (fToHalf 0#2 0x387FFFFF#32).openBits = 0xFFFF#32 := by
  decide +kernel

/-- A state of the tests with other debug control registers and MSR[DE] set: `ori r3,r4,5` at the pc. -/
def watched (d : Debug) : State := { put (base false) 0x1000 [0x60, 0x83, 0, 5] with msr := 0x200#32, dbg := d }
/-- The same with jd_en_once asserted. -/
def onceOn (s : State) : State := { s with pins := { s.pins with enOnce := true } }

/-- The instruction that sets MSR[DE] while DBCR0[ICMP] is 1 has no ICMP event, with DBCR0[EDM] set either; one that finds MSR[DE]
set has (61_debug.md R2209). -/
theorem test_icmp_sets_de :
    (let s := watched { (base false).dbg with dbcr0 := 0x88000000#32 }
     icmpCounts { s with msr := 0#32 } s = false ∧ icmpCounts s s = true ∧ icmpCounts { s with msr := 0#32 } { s with msr := 0#32 } = true) := by
  decide +kernel

/-- With jd_en_once negated an unmasked event of EDBSR0 halts nothing, the debugger's writes are lost, and `dnh` is illegal
(64_external_debug_psu.md R2253, R2254, R2263). -/
theorem test_once_negated :
    (let s := watched { (base false).dbg with dbcr0 := 0x80000000#32, edbsr0 := 0x40000000#32, edbcr0 := 0xC0000000#32 }
     s.haltPending = false ∧ (onceOn s).haltPending = true ∧ (s.arrive (.setEdbcr0 0#32)).dbg.edbcr0 = 0xC0000000#32 ∧
       ((onceOn s).arrive (.setEdbcr0 0#32)).dbg.edbcr0 ≠ 0xC0000000#32 ∧ s.debugOn = false ∧ (onceOn s).debugOn = true) := by
  decide +kernel

/-- It is idle when no session and no window is open, none has just been left, and no reset is asked for. -/
theorem idle_watched (d : Debug) (h1 : d.halted = false) (h4 : d.exiting = false) (h2 : d.dvcPend = none)
    (h3 : (watched d).resetAsked = false) : (watched d).Idle :=
  ⟨rfl, ⟨rfl, rfl, rfl⟩, h1, h4, h2, by rfl, h3, ⟨rfl, rfl, rfl⟩⟩

/-- Leaving a debug session blocks a non-maskable interrupt until the instruction at the pc begins (64_external_debug_psu.md R2261):
it runs, and the interrupt is still latched. -/
theorem test_exit_blocks_nmi :
    (let s := watched { (base false).dbg with halted := true }
     after { onceOn s with env := [[.nmi true, .debugExit 0x1000#32]] } fun t =>
       t.pc == 0x1004#32 && t.ints.nmiPend && !t.dbg.exiting) = true := by
  decide +kernel

/-- The Debug interrupt of CIRPT with MSR[DE] cleared is due with the Debug APU alone (10_state.md R82; 61_debug.md R2202), and a
machine check before it ends that. -/
theorem test_cirpt_due :
    (let s (h : Word) : State :=
       { watched { (base false).dbg with dbcr0 := 0x40000040#32 } with hid := { (base false).hid with hid0 := h } }
     ((s 0x400#32).owesCirpt true).dbg.cirptDue = false ∧ ((s 0x100#32).owesCirpt true).dbg.cirptDue = false ∧
       ((s 0x500#32).owesCirpt true).dbg.cirptDue = true ∧ (takeNmi ((s 0x500#32).owesCirpt true)).dbg.cirptDue = false) := by
  decide +kernel

/-- On the way to Halted the bus error of a store is logged while the snoop that a synchronization forces at the same boundary is
still due (60_exceptions.md R2039). -/
theorem test_store_error_first :
    (let b : State := { base false with
       buf := { (base false).buf with storeErrs := [0x5000#32], snoops := [0x6000#32] } }
     let t := { b with env := [[.snoopSync, .halt true]] }.takeInputs.powerStep
     t.ints.mcar = 0x5000#32 ∧ t.buf.snoops = [0x6000#32] ∧ t.snoopsDue = 1 ∧ t.pwr.halted = true) := by
  decide +kernel

/-- A flush by set and way of a line with a tag error that is dirty is a machine check and leaves it, whatever its valid bit
(23_cache_errors_coherency.md R466). -/
theorem test_flush_tag_error :
    (let l : CacheLine := { CacheLine.zero with dirty := 7, tagErr := 3 }
     let s : State := { base false with
       cache := { (base false).cache with l1csr0 := 0x10001#32, dcache := (base false).cache.dcache.put 0 0 l } }
     (match s.finvFlush 0 0 true with
       | .exc t => decide (t.cache.dcache.line 0 0 = l ∧ t.ev.ints = [.machineCheck])
       | _ => false) = true) := by
  decide +kernel

/-- The instruction completes in the state that a debug mode hands it and leaves the debug registers and the monitor. -/
noncomputable def runsQuiet (i : Instr) (s : State) : Bool :=
  match exec i s with | .next t => decide (t.ev.ints = [] ∧ t.dbg = s.dbg ∧ t.pm = s.pm) | _ => false

/-- A recorded event in internal debug mode; ICMP and IAC1 enabled alone; EDM and ICMP with
jd_en_once negated; an event of the external debugger; a session. -/
theorem witness_DebugInterrupts :
    (let d : Debug := { (base false).dbg with dbcr0 := 0x40000000#32, dbsr := 0x40000000#32 }
     (watched d).Idle ∧ d.dbcr3 = 0#32 ∧ d.dbcr0.getLsbD 30 = true ∧ (watched d).msr.getLsbD 9 = true ∧
       d.dbsr &&& 0xCFFFFFE0#32 ≠ 0#32 ∧ (watched d).ints.nmiPend = false ∧ (watched d).ints.mcsr &&& 0xF611E03C#32 = 0#32) ∧
    (∀ b ∈ [0x48000000#32, 0x40800000#32, 0x88000000#32],
      let d : Debug := { (base false).dbg with dbcr0 := b, iac := (base false).dbg.iac.set 0 0x1000#32 }
      let s := watched d
      { s with dbg := { s.dbg with dbcr0 := 0#32 } }.Steady ∧ { s with dbg := { s.dbg with dbcr0 := 0#32 } }.pwr.waiting = false ∧
        s.msr.getLsbD 15 = false ∧ d.dbcr3 = 0#32 ∧ d.dbsr &&& 0xCFFFFFE0#32 = 0#32 ∧ s.msr.getLsbD 9 = true ∧ PlainFetch s 4 (page false) ∧
        s.pc.getLsbD 1 = false ∧ decode false (s.codeBytes 4 (page false)) = .ok (.ori 3 4 5, []) ∧
        runsQuiet (.ori 3 4 5) (s.fetched false 0x60830005#32) = true ∧ d.dbcr1 = 0#32 ∧ d.dbcr6 = 0#32 ∧
        d.dbcr2.getLsbD 21 = false ∧ d.iac.get 0 = s.pc ∧ s.tlbOpen s.msrIs s.pid = false ∧
        s.tlbHits s.msrIs s.pid s.pc = [(0, page false)] ∧ s.pins.enOnce = false) ∧
    (let d : Debug := { (base false).dbg with dbcr0 := 0x80000000#32, edbsr0 := 0x40000000#32 }
     (onceOn (watched d)).Idle ∧ d.dbcr0.getLsbD 31 = true ∧ d.dbcr0.getLsbD 30 = false ∧ (onceOn (watched d)).pins.enOnce = true ∧
       d.edbsr0 &&& ~~~d.edbsrmsk0 &&& 0x6FFF87E0#32 ≠ 0#32 ∧ (watched d).ints.nmiPend = false ∧
       (watched d).ints.mcsr &&& 0xF611E03C#32 = 0#32) ∧
    (let s := watched { (base false).dbg with halted := true }
     s.dbg.halted = true ∧ s.env = [] ∧ s.settled ∧ s.dbg.dvcPend = none ∧ s.pm.quiet = true ∧ s.resetAsked = false) := by
  refine ⟨⟨idle_watched _ rfl rfl rfl (by decide +kernel), by decide +kernel⟩, fun b hb => ?_,
    ⟨⟨rfl, ⟨rfl, rfl, rfl⟩, rfl, rfl, rfl, by rfl, by decide +kernel, ⟨rfl, rfl, rfl⟩⟩, by decide +kernel⟩, rfl, rfl, ⟨rfl, rfl, rfl⟩,
    rfl, by rfl, by decide +kernel⟩
  simp only [List.mem_cons, List.not_mem_nil, or_false] at hb
  rcases hb with rfl | rfl | rfl <;>
    exact ⟨⟨⟨⟨rfl, ⟨rfl, rfl, rfl⟩, rfl, rfl, rfl, by rfl, by decide +kernel, ⟨rfl, rfl, rfl⟩⟩, ⟨rfl, rfl⟩⟩, rfl, .inl rfl,
        .inr (by decide +kernel)⟩, rfl,
      by decide +kernel, by decide +kernel, by decide +kernel, by decide +kernel, plain_fetch (by decide +kernel), rfl,
      decode_of_decodes (by decide +kernel), by decide +kernel, by decide +kernel, by decide +kernel, by decide +kernel,
      by decide +kernel, by decide +kernel, by decide +kernel, rfl⟩

/-- The time base on and off; the decrementer at 0, at 1 and above. -/
theorem witness_TimerTick :
    let s (dec : Word) : State := { base false with
      hid := { (base false).hid with hid0 := 0x4000#32 }
      tmr := { (base false).tmr with dec := dec } }
    ((base false).hid.hid0.getLsbD 14 && !(base false).pins.tbdisable) = false ∧
      ((s 0#32).hid.hid0.getLsbD 14 && !(s 0#32).pins.tbdisable) = true ∧ (s 0#32).dbg.dbcr0.getLsbD 0 = false ∧
      (s 0#32).dbg.halted = false ∧ (s 0#32).tmr.dec = 0#32 ∧ (s 1#32).tmr.dec = 1#32 ∧
      (s 2#32).tmr.dec ≠ 0#32 ∧ (s 2#32).tmr.dec ≠ 1#32 := by
  decide +kernel

theorem witness_UserIsolation :
    ({ base false with msr := 0x4000#32 } : State).msr.getLsbD 14 = true ∧
      ∃ t, exec .tlbwe { base false with msr := 0x4000#32 } = .next t :=
  ⟨by decide, next_of_isNext (by decide +kernel)⟩

end Sys2Proof.Tests
end

section
/-! PROOF. The register invariant `State.regsWf` under the operations of the model: registers, interrupts, debug, MMU and
cache. -/

namespace Sys2Proof.Machine

/-! The invariant, and what it says of outcomes. -/

/-- Every state a result carries keeps the register invariant. -/
def Res.RegsWf {α : Type} : Res α → Prop
  | .ok _ s => s.regsWf
  | .exc s => s.regsWf
  | .stop _ => True

/-- Every state a fill carries keeps the register invariant. -/
def Fill.RegsWf : Fill → Prop
  | .noWay => True
  | .mc s => s.regsWf
  | .busErr s => s.regsWf
  | .ok _ s => s.regsWf

/-- The next state of an outcome, if it has one, keeps the register invariant. -/
def OutWf : Host.Outcome State Fault Refusal → Prop
  | .next s => s.regsWf
  | .fault _ => True
  | .refused _ => True

theorem OutWf.of_eq {o : Host.Outcome State Fault Refusal} {t : State} (h : OutWf o) (ho : o = .next t) : t.regsWf := by
  subst ho; exact h

theorem regsWf_ite {c : Prop} [Decidable c] {s t : State} (hs : s.regsWf) (ht : t.regsWf) :
    (if c then s else t).regsWf := by split <;> assumption

theorem Res.regsWf_ite {α : Type} {c : Prop} [Decidable c] {r q : Res α} (hr : r.RegsWf) (hq : q.RegsWf) :
    (if c then r else q).RegsWf := by split <;> assumption

theorem OutWf.ite {c : Prop} [Decidable c] {o q : Host.Outcome State Fault Refusal} (ho : OutWf o) (hq : OutWf q) :
    OutWf (if c then o else q) := by split <;> assumption

theorem Res.andThen_regsWf {α β : Type} {r : Res α} {k : α → State → Res β} (hr : r.RegsWf)
    (hk : ∀ a s, s.regsWf → (k a s).RegsWf) : (r.andThen k).RegsWf := by
  cases r with
  | ok a s => exact hk a s hr
  | exc s => exact hr
  | stop f => trivial

theorem Res.finish_regsWf {α : Type} {r : Res α} {k : α → State → State} (hr : r.RegsWf)
    (hk : ∀ a s, s.regsWf → (k a s).regsWf) : OutWf (r.finish k) := by
  cases r with
  | ok a s => exact hk a s hr
  | exc s => exact hr
  | stop f => trivial

/-! Bits. -/

theorem and_and_eq_zero {w n : Word} (m : Word) (h : w &&& n = 0#32) : (w &&& m) &&& n = 0#32 := by
  rw [BitVec.and_assoc, BitVec.and_comm m n, ← BitVec.and_assoc, h, BitVec.zero_and]

theorem or_and_eq_zero {w v n : Word} (hw : w &&& n = 0#32) (hv : v &&& n = 0#32) : (w ||| v) &&& n = 0#32 := by
  rw [BitVec.and_comm, BitVec.and_or_distrib_left, BitVec.and_comm n, BitVec.and_comm n, hw, hv, BitVec.or_zero]

theorem and_mask_eq_zero (w : Word) {m n : Word} (h : m &&& n = 0#32) : (w &&& m) &&& n = 0#32 := by
  rw [BitVec.and_assoc, h, BitVec.and_zero]

theorem insertBits_and_eq_zero {w n : Word} (m v : Word) (hw : w &&& n = 0#32) (hm : m &&& n = 0#32) :
    insertBits w m v &&& n = 0#32 :=
  or_and_eq_zero (and_and_eq_zero _ hw) (and_mask_eq_zero _ hm)

theorem putBits_and_eq_zero {w n : Word} (m : Word) (b : Bool) (hw : w &&& n = 0#32) (hm : m &&& n = 0#32) :
    putBits w m b &&& n = 0#32 := by
  cases b
  · exact and_and_eq_zero _ hw
  · exact or_and_eq_zero hw hm

theorem even_and (a : Word) {m : Word} (h : m.getLsbD 0 = false) : (a &&& m).getLsbD 0 = false := by
  rw [BitVec.getLsbD_and, h, Bool.and_false]

theorem even_or {a b : Word} (ha : a.getLsbD 0 = false) (hb : b.getLsbD 0 = false) : (a ||| b).getLsbD 0 = false := by
  rw [BitVec.getLsbD_or, ha, hb, Bool.or_false]

theorem even_add {a b : Word} (ha : a.getLsbD 0 = false) (hb : b.getLsbD 0 = false) : (a + b).getLsbD 0 = false := by
  have low (x : Word) : x.getLsbD 0 = decide (x.toNat % 2 = 1) := by simp [BitVec.getLsbD]
  rw [low] at ha hb ⊢
  simp only [decide_eq_false_iff_not, BitVec.toNat_add] at ha hb ⊢
  omega

/-! Setting one of the four registers. -/

theorem State.regsWf.setPc {s : State} (h : s.regsWf) {a : Word} (ha : a.getLsbD 0 = false) :
    { s with pc := a }.regsWf := by
  obtain ⟨hm, hx, hf, -⟩ := h
  exact ⟨hm, hx, hf, ha⟩

theorem State.regsWf.setMsr {s : State} (h : s.regsWf) {v : Word} (hv : v &&& ~~~msrMask = 0#32) :
    { s with msr := v }.regsWf := by
  obtain ⟨-, hx, hf, hp⟩ := h
  exact ⟨hv, hx, hf, hp⟩

theorem State.regsWf.setXer {s : State} (h : s.regsWf) {v : Word} (hv : v &&& ~~~xerMask = 0#32) :
    { s with xer := v }.regsWf := by
  obtain ⟨hm, -, hf, hp⟩ := h
  exact ⟨hm, hv, hf, hp⟩

theorem State.regsWf.setSpefscr {s : State} (h : s.regsWf) {v : Word} (hv : v &&& ~~~0xFF3EFF7F#32 = 0#32) :
    { s with spefscr := v }.regsWf := by
  obtain ⟨hm, hx, -, hp⟩ := h
  exact ⟨hm, hx, hv, hp⟩

section
variable {s : State}

/-! Interrupts and returns. -/

theorem vector_even (s : State) (t : IntType) : (s.vector t).getLsbD 0 = false := by
  have base (a : Word) : (a &&& 0xFFFF0000#32).getLsbD 0 = false := even_and a rfl
  have off (a : Word) : (a &&& 0x0000FFF0#32).getLsbD 0 = false := even_and a rfl
  unfold State.vector
  split
  · exact even_or (base _) (by split <;> exact off _)
  · exact even_or (base _) (by split <;> exact off _)
  · exact even_or (base _) (off _)

theorem takeInterrupt_regsWf (t : IntType) (save : Word) (h : s.regsWf) : (takeInterrupt t save s).regsWf := by
  obtain ⟨hm, hx, hf, -⟩ := h
  exact ⟨and_and_eq_zero _ hm, hx, hf, vector_even s t⟩

theorem raiseSync_regsWf (t : IntType) (esr : Word) (h : s.regsWf) : (raiseSync t esr s).regsWf :=
  takeInterrupt_regsWf t _ (s := s.setEsr _) h

theorem raiseAlignment_regsWf (ea bits : Word) (h : s.regsWf) : (raiseAlignment ea bits s).regsWf :=
  raiseSync_regsWf _ _ (s := s.setDear _) h

theorem raiseSystemCall_regsWf (len : Nat) (h : s.regsWf) : (raiseSystemCall len s).regsWf :=
  takeInterrupt_regsWf _ _ (s := s.setEsr _) h

theorem returnFrom_regsWf (r0 r1 : Word) (h : s.regsWf) : (returnFrom r0 r1 s).regsWf :=
  (h.setMsr (and_mask_eq_zero r1 (by decide))).setPc (even_and r0 (by decide))

theorem logMcar_regsWf (a : Word) (ea : Bool) (h : s.regsWf) : (s.logMcar a ea).regsWf :=
  regsWf_ite h h

theorem asyncMcheck_regsWf (bits a : Word) (ea : Bool) (h : s.regsWf) : (s.asyncMcheck bits a ea).regsWf :=
  logMcar_regsWf a ea h

theorem errorReport_regsWf (bits : Word) (h : s.regsWf) : (errorReport bits s).regsWf :=
  takeInterrupt_regsWf _ _ (s := s.orMcsr _) h

theorem privileged_regsWf {k : State → Host.Outcome State Fault Refusal} (h : s.regsWf)
    (hk : s.regsWf → OutWf (k s)) : OutWf (privileged s k) :=
  .ite (raiseSync_regsWf _ _ h) (hk h)

theorem speAvail_regsWf {k : State → Host.Outcome State Fault Refusal} (h : s.regsWf)
    (hk : s.regsWf → OutWf (k s)) : OutWf (speAvail s k) :=
  .ite (hk h) (raiseSync_regsWf _ _ h)

/-! Debug. -/

theorem postEvent_regsWf (own bits : Word) (vle : Option Bool) (de : Bool) (h : s.regsWf) :
    (s.postEvent own bits vle de).regsWf :=
  regsWf_ite (regsWf_ite h h) h

theorem postIf_regsWf (en own bits : Word) (vle : Option Bool) (de : Bool) (h : s.regsWf) :
    (s.postIf en own bits vle de).regsWf :=
  regsWf_ite (postEvent_regsWf own bits vle de h) h

theorem takeDebug_regsWf (h : s.regsWf) : (takeDebug s).regsWf :=
  takeInterrupt_regsWf (s := { s with dbg := _ }) _ _ h

theorem postIacFrom_regsWf (vle : Bool) (n : Nat) (l : List Bool) (h : s.regsWf) :
    (s.postIacFrom vle n l).regsWf := by
  induction l generalizing n s with
  | nil => exact h
  | cons b l ih => exact ih _ (regsWf_ite (postIf_regsWf _ _ _ _ _ h) h)

theorem setOfst_regsWf (soft hard : Bool) (v : Word) (h : s.regsWf) : (s.setOfst soft hard v).regsWf := by
  have soft_wf : (if soft && s.dbg.idm then s.mapDbsr fun w => insertBits w 0xE#32 v else s).regsWf := regsWf_ite h h
  exact regsWf_ite soft_wf soft_wf

theorem postDac_regsWf (d : DacHits) (imprecise de : Bool) (h : s.regsWf) : (s.postDac d imprecise de).regsWf :=
  have one {t : State} (own bits ide : Word) (soft : Bool) (ht : t.regsWf) :
      (if bits == 0#32 then t
        else (t.postEvent own (bits ||| ide) (some t.cur.vle) de).setOfst soft (!soft) 0#32).regsWf :=
    regsWf_ite ht (setOfst_regsWf _ _ _ (postEvent_regsWf _ _ _ _ ht))
  one _ _ _ _ (one _ _ _ _ h)

theorem triggerCount_regsWf (h : s.regsWf) : s.triggerCount.regsWf := regsWf_ite h h

theorem countDebug_regsWf (old : Debug) (e : DbgEvents) (imprecise de : Bool) (h : s.regsWf) :
    (s.countDebug old e imprecise de).2.regsWf := by
  unfold State.countDebug
  split
  · exact h
  · refine regsWf_ite (postEvent_regsWf _ _ _ _ ?_) ?_ <;>
      exact regsWf_ite (postEvent_regsWf _ _ _ _ (regsWf_ite (triggerCount_regsWf h) h))
        (regsWf_ite (triggerCount_regsWf h) h)

/-! Translation and the TLB. -/

theorem lookupPage_regsWf (hits : List (Nat × TlbEntry)) (ea : Word) (h : s.regsWf) :
    (s.lookupPage hits ea).2.regsWf := by
  unfold State.lookupPage
  split <;> exact h

theorem translate_regsWf (as : Bool) (ea : Word) (h : s.regsWf) : (s.translate as ea).2.regsWf := by
  unfold State.translate
  split
  · dsimp only
    split
    · exact h
    · exact lookupPage_regsWf (s := { s with free := _ }) _ ea h
  · exact lookupPage_regsWf _ ea h

theorem raiseDataTlb_regsWf (ea bits : Word) (h : s.regsWf) : (raiseDataTlb ea bits s).regsWf :=
  raiseSync_regsWf _ _ (s := (s.missMas _ _).setDear _) h

theorem raiseDsi_regsWf (ea bits : Word) (h : s.regsWf) : (raiseDsi ea bits s).regsWf :=
  raiseSync_regsWf _ _ (s := s.setDear _) h

theorem raiseInstrTlb_regsWf (ea : Word) (mif : Bool) (h : s.regsWf) : (raiseInstrTlb ea mif s).regsWf :=
  takeInterrupt_regsWf _ _ (s := (s.missMas _ _).setEsr _) h

theorem raiseIsi_regsWf (bits : Word) (h : s.regsWf) : (raiseIsi bits s).regsWf :=
  takeInterrupt_regsWf _ _ (s := s.setEsr _) h

theorem searchBy_regsWf (hits : List (Nat × TlbEntry)) (ea : Word) (h : s.regsWf) : (s.searchBy hits ea).regsWf := by
  unfold State.searchBy
  split <;> exact h

theorem tlbSearch_regsWf (ea : Word) (h : s.regsWf) : (s.tlbSearch ea).regsWf :=
  regsWf_ite (searchBy_regsWf (s := { s with free := _ }) _ _ h) (searchBy_regsWf _ _ h)

/-! Cache lines, buffers and memory. -/

theorem setCache_regsWf (side : Side) (c : Cache) (h : s.regsWf) : (s.setCache side c).regsWf := by
  cases side <;> exact h

theorem setCsrBits_regsWf (side : Side) (v : Word) (h : s.regsWf) : (s.setCsrBits side v).regsWf := by
  cases side <;> exact h

theorem putLine_regsWf (side : Side) (set w : Nat) (l : CacheLine) (h : s.regsWf) : (s.putLine side set w l).regsWf :=
  setCache_regsWf side _ h

theorem pointAt_regsWf (side : Side) (w : Nat) (h : s.regsWf) : (s.pointAt side w).regsWf := setCache_regsWf side _ h

theorem lookup_regsWf (side : Side) (ci : Bool) (op : LookOp) (ea ra : Word) (h : s.regsWf) :
    (s.lookup side ci op ea ra).2.regsWf := setCache_regsWf side _ h

theorem drawIf_regsWf (b : Bool) (n : Nat) (h : s.regsWf) : (s.drawIf b n).regsWf := regsWf_ite h h

theorem awaitIndex_regsWf (side : Side) (ra : Word) (h : s.regsWf) : (s.awaitIndex side ra).regsWf := by
  cases side <;> exact h

theorem staleLine_regsWf (set : Nat) (l : CacheLine) (h : s.regsWf) : (s.staleLine set l).regsWf := regsWf_ite h h

theorem staleAll_regsWf (l : List (Nat × CacheLine)) (h : s.regsWf) : (s.staleAll l).regsWf := by
  induction l generalizing s with
  | nil => exact h
  | cons p l ih => exact ih (staleLine_regsWf _ _ h)

theorem reportAll_regsWf (l : List Word) (h : s.regsWf) : (s.reportAll l).regsWf := by
  induction l generalizing s with
  | nil => exact h
  | cons ra l ih => exact ih (asyncMcheck_regsWf _ _ _ h)

theorem flushBuffers_regsWf (h : s.regsWf) : s.flushBuffers.regsWf := reportAll_regsWf _ h

theorem syncBuffers_regsWf (h : s.regsWf) : s.syncBuffers.regsWf := flushBuffers_regsWf h

theorem putMem_regsWf (late : Bool) (ra : Word) (b : List Byte) (h : s.regsWf) : (s.putMem late ra b).regsWf := h

theorem push_regsWf (quiet : Bool) (set : Nat) (l : CacheLine) (h : s.regsWf) : (s.push quiet set l).2.regsWf := by
  have written (b : Bool) (bytes : List Byte) :
      ((if b then s.asyncMcheck 0x20000000#32 (lineAddr set l) false else s).putMem false (lineAddr set l) bytes).regsWf :=
    putMem_regsWf _ _ _ (regsWf_ite (asyncMcheck_regsWf _ _ _ h) h)
  simp only [State.push, apply_ite Prod.snd]
  exact regsWf_ite (asyncMcheck_regsWf _ _ _ (written _ _)) (written _ _)

theorem replace_regsWf (side : Side) (set w : Nat) (l : CacheLine) (h : s.regsWf) : (s.replace side set w l).regsWf :=
  setCache_regsWf side _ (regsWf_ite (push_regsWf _ _ _ h) h)

theorem fillWay_regsWf (side : Side) (set w : Nat) (ra : Word) (h : s.regsWf) : (s.fillWay side set w ra).RegsWf := by
  have awaited := awaitIndex_regsWf side ra h
  unfold State.fillWay
  dsimp only
  split
  · exact pointAt_regsWf _ _ h
  · split
    · exact pointAt_regsWf _ _ (setCache_regsWf _ _ (regsWf_ite (push_regsWf _ _ _ awaited) awaited))
    · exact drawIf_regsWf _ _ (replace_regsWf _ _ _ _ awaited)

theorem fill_regsWf (side : Side) (ea ra : Word) (h : s.regsWf) : (s.fill side ea ra).RegsWf := by
  unfold State.fill
  split
  · trivial
  · exact fillWay_regsWf _ _ _ _ h

theorem finvFlush_regsWf (set w : Nat) (inv : Bool) (h : s.regsWf) : (s.finvFlush set w inv).RegsWf := by
  have put {t : State} (l : CacheLine) (ht : t.regsWf) := putLine_regsWf .data set w l ht
  have first (l : CacheLine) := put l h
  have pushed (l : CacheLine) := push_regsWf false set l (first l)
  have left (l : CacheLine) : (if inv then (s.putLine .data set w l).putLine .data set w l.discard
      else s.putLine .data set w l).regsWf := regsWf_ite (put _ (first l)) (first l)
  unfold State.finvFlush
  dsimp only
  refine Res.regsWf_ite (Res.regsWf_ite ?_ (left _)) (Res.regsWf_ite ?_ (left _))
  · exact errorReport_regsWf _ (asyncMcheck_regsWf _ _ _ (first _))
  · exact regsWf_ite (regsWf_ite (put _ (pushed _)) (put _ (pushed _)))
      (regsWf_ite (pushed _) (regsWf_ite (pushed _) (regsWf_ite (put _ (pushed _)) (put _ (pushed _)))))

theorem finv0_regsWf (v : Word) (h : s.regsWf) : (s.finv0 v).RegsWf := by
  unfold State.finv0
  dsimp only
  split
  · exact putLine_regsWf _ _ _ _ h
  · exact finvFlush_regsWf _ _ _ h
  · exact finvFlush_regsWf _ _ _ h
  · exact setCache_regsWf .data _ h

theorem finv1_regsWf (v : Word) (h : s.regsWf) : (s.finv1 v).regsWf := by
  have inv (l : CacheLine) :
      (((if l.valid then (s.staleLine (finvSet v) l).purge (lineAddr (finvSet v) l) else s)).putLine .instr (finvSet v)
        (finvWay v) l.discard).regsWf :=
    putLine_regsWf _ _ _ _ (regsWf_ite (staleLine_regsWf _ _ h) h)
  unfold State.finv1
  dsimp only
  split
  · exact inv _
  · exact setCache_regsWf _ _ h
  · exact regsWf_ite (inv _) h

/-! Snoops and the other work in the buffers. -/

theorem snoopInvalidate_regsWf (ra : Word) (h : s.regsWf) : (s.snoopInvalidate ra).regsWf := by
  have drawn (n : Nat) : (if n ≤ 1 then ((0, s) : Nat × State) else s.drawBelow n).2.regsWf := by split <;> exact h
  unfold State.snoopInvalidate
  refine regsWf_ite h ?_
  dsimp only
  split
  · exact regsWf_ite (asyncMcheck_regsWf _ _ _ (drawn _)) (drawn _)
  · exact regsWf_ite (asyncMcheck_regsWf _ _ _ (setCsrBits_regsWf _ _ (putLine_regsWf _ _ _ _ (drawn _))))
      (putLine_regsWf _ _ _ _ (drawn _))

theorem snoopSome_regsWf (k : Nat) (h : s.regsWf) : (State.snoopSome k s).regsWf := by
  induction k generalizing s with
  | zero => exact h
  | succ k ih =>
    unfold State.snoopSome
    split
    · exact h
    · exact ih (snoopInvalidate_regsWf (s := { s with buf := _ }) _ h)

theorem queueSnoop_regsWf (ra : Word) (h : s.regsWf) : (s.queueSnoop ra).regsWf := regsWf_ite h h

theorem syncSnoops_regsWf (h : s.regsWf) : s.syncSnoops.regsWf := regsWf_ite h h

theorem reportSome_regsWf (k : Nat) (h : s.regsWf) : (s.reportSome k).regsWf := reportAll_regsWf _ h

theorem settleBuffers_regsWf (h : s.regsWf) : s.settleBuffers.regsWf :=
  regsWf_ite h (snoopSome_regsWf _ (reportSome_regsWf (s := { s with free := _ }) _ h))

theorem writeCdacntl_regsWf (v : Word) (h : s.regsWf) : (s.writeCdacntl v).regsWf :=
  regsWf_ite (regsWf_ite (flushBuffers_regsWf h) (putLine_regsWf _ _ _ _ (flushBuffers_regsWf h))) h

end
end Sys2Proof.Machine
end

section
/-! PROOF. The register invariant under the memory accesses and the cache block operations. -/

namespace Sys2Proof.Machine

section
variable {s : State}

/-! Parts of an access. -/

theorem failReport_regsWf {α : Type} (bits : Word) (h : s.regsWf) : (failReport bits s : Res α).RegsWf :=
  errorReport_regsWf bits (s := s.markFail) h

theorem logBytes_regsWf (b : List Byte) (h : s.regsWf) : (s.logBytes b).regsWf := by
  unfold State.logBytes
  split <;> exact h

theorem psuBeat_regsWf (store : Bool) (ea : Word) (b : List Byte) (h : s.regsWf) : (s.psuBeat store ea b).regsWf :=
  regsWf_ite (t := s) h h

theorem psuReadError_regsWf (h : s.regsWf) : s.psuReadError.regsWf := regsWf_ite h h

/-- What a failed read leaves before its report, in either cache. -/
theorem sideReadError_regsWf (side : Side) (h : s.regsWf) :
    (match side with | .instr => s | .data => s.psuReadError : State).regsWf := by
  cases side
  · exact h
  · exact psuReadError_regsWf h

theorem lookupFail_regsWf {α : Type} (side : Side) (ra : Word) (lk : Bool) (report : Word) (h : s.regsWf) :
    (s.lookupFail side ra lk report : Res α).RegsWf :=
  failReport_regsWf _ (asyncMcheck_regsWf _ _ _ h)

/-! Reads. -/

theorem busRead_regsWf (side : Side) (p : Page) (n : Nat) (h : s.regsWf) : (s.busRead side p n).RegsWf := by
  have flushed : (match side with | .instr => s | .data => s.flushBuffers : State).regsWf := by
    cases side
    · exact h
    · exact flushBuffers_regsWf h
  exact Res.regsWf_ite (failReport_regsWf _ (asyncMcheck_regsWf _ _ _ (sideReadError_regsWf side flushed)))
    (drawIf_regsWf _ _ flushed)

theorem readDataError_regsWf (side : Side) (ea : Word) (p : Page) (n w : Nat) (h : s.regsWf) :
    (s.readDataError side ea p n w).RegsWf := by
  have awaited := awaitIndex_regsWf side p.ra h
  exact Res.regsWf_ite (busRead_regsWf _ _ _ h) <|
    Res.regsWf_ite (failReport_regsWf _ (asyncMcheck_regsWf _ _ _ h)) <|
    Res.regsWf_ite
      (failReport_regsWf _ (asyncMcheck_regsWf _ _ _ (putLine_regsWf _ _ _ _ (sideReadError_regsWf side awaited))))
      (drawIf_regsWf _ _ (putLine_regsWf _ _ _ _ awaited))

theorem readMiss_regsWf (side : Side) (ea : Word) (p : Page) (n : Nat) (h : s.regsWf) :
    (s.readMiss side ea p n).RegsWf := by
  have filled := fill_regsWf side ea p.ra h
  unfold State.readMiss
  refine Res.regsWf_ite (busRead_regsWf _ _ _ h) ?_
  generalize s.fill side ea p.ra = f at filled ⊢
  cases f with
  | noWay => exact busRead_regsWf _ _ _ h
  | mc t => exact lookupFail_regsWf _ _ _ _ filled
  | busErr t => exact failReport_regsWf _ (asyncMcheck_regsWf _ _ _ (sideReadError_regsWf side filled))
  | ok w t => exact filled

theorem readBeat_regsWf (side : Side) (ea : Word) (p : Page) (n : Nat) (h : s.regsWf) :
    (s.readBeat side ea p n).RegsWf := by
  have looked (op : LookOp) := lookup_regsWf side p.i op ea p.ra h
  unfold State.readBeat
  refine Res.regsWf_ite (busRead_regsWf _ _ _ h) ?_
  dsimp only
  split
  · trivial
  · exact lookupFail_regsWf _ _ _ _ (looked _)
  · exact Res.regsWf_ite (readDataError_regsWf _ _ _ _ _ (looked _)) (looked _)
  · exact readMiss_regsWf _ _ _ _ (looked _)

theorem loadBeat_regsWf (ea : Word) (p : Page) (n : Nat) (h : s.regsWf) : (s.loadBeat ea p n).RegsWf :=
  Res.andThen_regsWf (readBeat_regsWf _ _ _ _ h) fun _ _ ht => psuBeat_regsWf _ _ _ ht

theorem loadBeats_regsWf (l : List Beat) (h : s.regsWf) : (s.loadBeats l).RegsWf := by
  induction l generalizing s with
  | nil => exact h
  | cons b l ih =>
    exact Res.andThen_regsWf (loadBeat_regsWf _ _ _ h) fun _ _ ht => Res.andThen_regsWf (ih ht) fun _ _ hu => hu

/-! Writes. -/

theorem awaitStores_regsWf (p : Page) (h : s.regsWf) : (s.awaitStores p).regsWf :=
  regsWf_ite (flushBuffers_regsWf h) (regsWf_ite h h)

theorem busWrite_regsWf (p : Page) (b : List Byte) (h : s.regsWf) : (s.busWrite p b).RegsWf := by
  have awaited := awaitStores_regsWf p h
  have marked := asyncMcheck_regsWf 0x4#32 p.ra false awaited
  exact Res.regsWf_ite (Res.regsWf_ite (failReport_regsWf _ marked) (Res.regsWf_ite awaited marked))
    (putMem_regsWf _ _ _ awaited)

theorem drawDcwa_regsWf (h : s.regsWf) : s.drawDcwa.regsWf := regsWf_ite h h

theorem writeLine_regsWf (ea : Word) (w : Nat) (b : List Byte) (wt : Bool) (h : s.regsWf) :
    (s.writeLine ea w b wt).regsWf := putLine_regsWf _ _ _ _ h

theorem storeIn_regsWf (ea : Word) (p : Page) (w : Nat) (b : List Byte) (h : s.regsWf) :
    (s.storeIn ea p w b).RegsWf :=
  have written := writeLine_regsWf ea w b _ h
  Res.regsWf_ite (busWrite_regsWf _ _ written) written

theorem storeMiss_regsWf (ea : Word) (p : Page) (b : List Byte) (h : s.regsWf) : (s.storeMiss ea p b).RegsWf := by
  have around {t : State} (ht : t.regsWf) : ((t.psuBeat true ea b).busWrite p b).RegsWf :=
    busWrite_regsWf _ _ (psuBeat_regsWf _ _ _ ht)
  have drawn := drawDcwa_regsWf h
  have filled := fill_regsWf .data ea p.ra drawn
  unfold State.storeMiss
  refine Res.regsWf_ite ?_ (around drawn)
  generalize s.drawDcwa.fill .data ea p.ra = f at filled ⊢
  cases f with
  | noWay => exact around drawn
  | mc t => exact lookupFail_regsWf _ _ _ _ filled
  | busErr t => exact around (asyncMcheck_regsWf _ _ _ filled)
  | ok w t => exact storeIn_regsWf _ _ _ _ (psuBeat_regsWf _ _ _ filled)

theorem storeBeat_regsWf (ea : Word) (p : Page) (b : List Byte) (h : s.regsWf) : (s.storeBeat ea p b).RegsWf := by
  have looked := lookup_regsWf .data p.i .access ea p.ra h
  unfold State.storeBeat
  refine Res.regsWf_ite (busWrite_regsWf _ _ (psuBeat_regsWf _ _ _ h)) ?_
  dsimp only
  split
  · trivial
  · exact lookupFail_regsWf _ _ _ _ looked
  · exact storeIn_regsWf _ _ _ _ (psuBeat_regsWf _ _ _ looked)
  · exact storeMiss_regsWf _ _ _ looked

theorem storeBeats_regsWf (l : List Beat) (b : List Byte) (h : s.regsWf) : (s.storeBeats l b).RegsWf := by
  induction l generalizing s b with
  | nil => exact h
  | cons t l ih =>
    exact Res.andThen_regsWf (storeBeat_regsWf _ _ _ h) fun _ _ ht => Res.regsWf_ite (ih _ ht) ht

/-! Whole accesses. -/

theorem beats_regsWf (k : AccessKind) (esr ea : Word) (n : Nat) {part : Page → State → State} (h : s.regsWf)
    (hp : ∀ p t, t.regsWf → (part p t).regsWf) : (s.beats k esr ea n part).RegsWf := by
  have first := translate_regsWf s.msrDs ea h
  have dsi {t : State} (ea esr : Word) (ht : t.regsWf) : (Res.exc (α := List Beat) (raiseDsi ea esr t.markFail)).RegsWf :=
    raiseDsi_regsWf _ _ (s := t.markFail) ht
  have miss {t : State} (ea : Word) (ht : t.regsWf) : (Res.exc (α := List Beat) (raiseDataTlb ea esr t.markFail)).RegsWf :=
    raiseDataTlb_regsWf _ _ (s := t.markFail) ht
  unfold State.beats
  dsimp only
  split
  · exact miss _ first
  next p1 _ =>
    refine Res.regsWf_ite (Res.regsWf_ite first (dsi _ _ first)) ?_
    have second (as : Bool) (ea : Word) := translate_regsWf as ea first
    have half {t : State} (c : Bool) (ht : t.regsWf) : (if c then part p1 t else t).regsWf := regsWf_ite (hp p1 t ht) ht
    split
    · exact miss _ (half _ (second _ _))
    · exact Res.regsWf_ite (dsi _ _ (second _ _)) <| Res.regsWf_ite (dsi _ _ (half _ (second _ _))) <|
        Res.regsWf_ite (dsi _ _ (half _ (second _ _))) (second _ _)

theorem load_regsWf (esr ea : Word) (n el : Nat) (h : s.regsWf) : (s.load esr ea n el).RegsWf :=
  Res.andThen_regsWf (beats_regsWf _ _ _ _ (s := s.logAccess ea false n) h fun _ _ ht => ht) fun _ _ ht =>
    Res.andThen_regsWf (loadBeats_regsWf _ ht) fun _ _ hu => logBytes_regsWf _ hu

theorem storePart_regsWf (ea : Word) (el : Nat) (b : List Byte) (p : Page) (h : s.regsWf) :
    (storePart ea el b p s).regsWf := by
  have stored := storeBeat_regsWf (s := { s with free := s.free + 1 }) ea p ((elemOrder p.e el b).take (room ea)) h
  unfold storePart
  refine regsWf_ite ?_ h
  split
  next heq => rw [heq] at stored; exact stored
  · exact h
  · exact h

theorem storeDone_regsWf (esr ea : Word) (el : Nat) (b : List Byte) (h : s.regsWf) : (s.storeDone esr ea el b).RegsWf :=
  Res.andThen_regsWf
    (beats_regsWf _ _ _ _ (s := s.logAccess ea true b.length) h fun _ _ ht => storePart_regsWf _ _ _ _ ht)
    fun _ _ ht => storeBeats_regsWf _ _ (logBytes_regsWf _ ht)

theorem store_regsWf (esr ea : Word) (el : Nat) (b : List Byte) (h : s.regsWf) : (s.store esr ea el b).RegsWf :=
  Res.andThen_regsWf (storeDone_regsWf _ _ _ _ h) fun _ _ ht => ht

/-! Reservation accesses. -/

theorem atomicFlush_regsWf (ea : Word) (p : Page) (report : Word) (h : s.regsWf) :
    (s.atomicFlush ea p report).RegsWf := by
  have looked := lookup_regsWf .data p.i .atomic ea p.ra h
  have put {t : State} (w : Nat) (l : CacheLine) (ht : t.regsWf) := putLine_regsWf .data (setOf ea) w l ht
  unfold State.atomicFlush
  refine Res.regsWf_ite h ?_
  dsimp only
  split
  · trivial
  · exact lookupFail_regsWf _ _ _ _ looked
  · exact looked
  · have pushed (l : CacheLine) := push_regsWf p.i (setOf ea) l looked
    exact Res.regsWf_ite (lookupFail_regsWf _ _ _ _ looked) <| Res.regsWf_ite
      (Res.regsWf_ite (put _ _ (pushed _)) <|
        Res.regsWf_ite (failReport_regsWf _ (put _ _ (pushed _))) (failReport_regsWf _ (put _ _ (pushed _)))) looked

theorem loadReserve_regsWf (ea : Word) (n : Nat) (h : s.regsWf) : (s.loadReserve ea n).RegsWf :=
  Res.andThen_regsWf (beats_regsWf _ _ _ _ (s := s.logAccess ea false n) h fun _ _ ht => ht) fun l t ht => by
    cases l with
    | nil => exact ht
    | cons b l =>
      exact Res.andThen_regsWf (atomicFlush_regsWf _ _ _ ht) fun _ _ hu =>
        Res.andThen_regsWf (busRead_regsWf _ _ _ hu) fun _ _ hv => logBytes_regsWf _ (psuBeat_regsWf _ _ _ hv)

theorem storeConditional_regsWf (ea : Word) (b : List Byte) (h : s.regsWf) : (s.storeConditional ea b).RegsWf := by
  refine Res.andThen_regsWf (beats_regsWf _ _ _ _ (s := s.logAccess ea true b.length) h fun _ _ ht => ht)
    fun l t ht => ?_
  cases l with
  | nil => exact ht
  | cons q l =>
    refine Res.andThen_regsWf (atomicFlush_regsWf _ _ _ ht) fun hit u hu => ?_
    have ready (b : List Byte) := logBytes_regsWf b (psuBeat_regsWf true ea b (flushBuffers_regsWf hu))
    refine Res.regsWf_ite (failReport_regsWf _ (asyncMcheck_regsWf _ _ _ (ready _))) (Res.regsWf_ite (ready _) ?_)
    cases hit with
    | none => exact ready _
    | some w => exact writeLine_regsWf ea w (elemOrder q.page.e b.length b) true (ready _)

/-! Cache block operations. -/

theorem blockPage_regsWf (k : AccessKind) (ea : Word) (h : s.regsWf) : (s.blockPage k ea).RegsWf := by
  have paged := translate_regsWf (s := s.logAccess ea (k == .store) 0) s.msrDs ea h
  unfold State.blockPage
  dsimp only
  split
  · exact raiseDataTlb_regsWf _ _ (s := State.markFail _) paged
  · exact Res.regsWf_ite paged (raiseDsi_regsWf _ _ (s := State.markFail _) paged)

theorem blockLook_regsWf (side : Side) (op : LookOp) (ea : Word) (p : Page) (report : Word) (h : s.regsWf) :
    (s.blockLook side op ea p report).RegsWf := by
  have looked := lookup_regsWf side p.i op ea p.ra h
  unfold State.blockLook
  dsimp only
  split
  · trivial
  · exact lookupFail_regsWf _ _ _ _ looked
  · exact looked
  · exact looked

theorem blockFlush_regsWf (ea : Word) (inv : Bool) (h : s.regsWf) : (s.blockFlush ea inv).RegsWf := by
  refine Res.regsWf_ite h (Res.andThen_regsWf (blockPage_regsWf _ _ h) fun p t ht =>
    Res.andThen_regsWf (blockLook_regsWf _ _ _ _ _ ht) fun hit u hu => ?_)
  cases hit with
  | none => exact hu
  | some w =>
    have pushed (c : Bool) (l : CacheLine) : (if c then u.push false (setOf ea) l else (true, u)).2.regsWf := by
      cases c
      · exact hu
      · exact push_regsWf _ _ _ hu
    exact Res.regsWf_ite hu (putLine_regsWf _ _ _ _ (pushed _ _))

theorem blockDiscard_regsWf (side : Side) (ea : Word) (h : s.regsWf) : (s.blockDiscard side ea).RegsWf := by
  refine Res.regsWf_ite h (Res.andThen_regsWf (blockPage_regsWf _ _ h) fun p t ht =>
    Res.andThen_regsWf (blockLook_regsWf _ _ _ _ _ ht) fun hit u hu => ?_)
  cases hit <;> cases side
  case none.instr => exact hu
  case none.data => exact hu
  case some.instr => exact putLine_regsWf _ _ _ _ (staleLine_regsWf _ _ hu)
  case some.data => exact putLine_regsWf _ _ _ _ hu

theorem blockZero_regsWf (ea : Word) (h : s.regsWf) : (s.blockZero ea).RegsWf := by
  refine Res.regsWf_ite (raiseAlignment_regsWf _ _ h) (Res.andThen_regsWf (blockPage_regsWf _ _ h) fun p t ht =>
    Res.regsWf_ite (raiseAlignment_regsWf _ _ ht) (Res.andThen_regsWf (blockLook_regsWf _ _ _ _ _ ht) fun hit u hu => ?_))
  cases hit with
  | some w => exact putLine_regsWf _ _ _ _ hu
  | none =>
    refine Res.regsWf_ite (raiseAlignment_regsWf _ _ hu) ?_
    split
    · exact raiseAlignment_regsWf _ _ hu
    · exact Res.regsWf_ite (lookupFail_regsWf _ _ _ _ (pointAt_regsWf _ _ hu)) (replace_regsWf _ _ _ _ hu)

theorem lockPage_regsWf (side : Side) (ea : Word) (h : s.regsWf) : (s.lockPage side ea).RegsWf := by
  have paged := translate_regsWf (s := s.logAccess ea false 0) s.msrDs ea h
  unfold State.lockPage
  dsimp only
  split
  · exact raiseDataTlb_regsWf _ _ (s := State.markFail _) paged
  · exact Res.regsWf_ite (raiseSync_regsWf _ _ (s := State.markFail _) paged) <|
      Res.regsWf_ite paged (raiseDsi_regsWf _ _ (s := State.markFail _) paged)

theorem lockFill_regsWf (side : Side) (ea : Word) (p : Page) {f : Fill} (h : s.regsWf) (hf : f.RegsWf) :
    (s.lockFill side ea p f).RegsWf := by
  cases f with
  | noWay => exact h
  | mc t => exact lookupFail_regsWf _ _ _ _ hf
  | busErr t => exact failReport_regsWf _ (asyncMcheck_regsWf _ _ _ hf)
  | ok w t => exact putLine_regsWf _ _ _ _ hf

theorem blockLock_regsWf (side : Side) (ct : BitVec 4) (ea : Word) (h : s.regsWf) : (s.blockLock side ct ea).RegsWf := by
  refine Res.regsWf_ite (setCsrBits_regsWf _ _ h) (Res.andThen_regsWf (lockPage_regsWf _ _ h) fun p t ht =>
    Res.andThen_regsWf (blockLook_regsWf _ _ _ _ _ ht) fun hit u hu => ?_)
  cases hit with
  | some w => exact putLine_regsWf _ _ _ _ hu
  | none =>
    refine Res.regsWf_ite (setCsrBits_regsWf _ _ hu) ?_
    split
    · exact lockFill_regsWf _ _ _ hu (fillWay_regsWf _ _ _ _ hu)
    · have noted := setCsrBits_regsWf side 0x200#32 hu
      exact Res.regsWf_ite
        (lockFill_regsWf (s := { u.setCsrBits side 0x200#32 with free := _ }) _ _ _ noted (fillWay_regsWf _ _ _ _ noted))
        noted

theorem blockUnlock_regsWf (side : Side) (ct : BitVec 4) (ea : Word) (h : s.regsWf) :
    (s.blockUnlock side ct ea).RegsWf := by
  refine Res.regsWf_ite h (Res.andThen_regsWf (lockPage_regsWf _ _ h) fun p t ht =>
    Res.andThen_regsWf (blockLook_regsWf _ _ _ _ _ ht) fun hit u hu => ?_)
  cases hit with
  | none => exact hu
  | some w => exact putLine_regsWf _ _ _ _ hu

end
end Sys2Proof.Machine
end

section
/-! PROOF. The register invariant under synchronization, the timers, the special purpose registers and the shared shapes of
integer, load and store instructions. -/

namespace Sys2Proof.Machine

section
variable {s : State}

/-! Synchronization. -/

theorem syncPut_regsWf (r : SyncReg) (v : Word) (h : s.regsWf) : (s.syncPut r v).regsWf := by
  obtain ⟨hm, -, hf, -⟩ := id h
  unfold State.syncPut
  dsimp only
  split
  case h_1 => exact h.setMsr (insertBits_and_eq_zero _ _ hm (by decide))
  case h_3 => exact h.setSpefscr (insertBits_and_eq_zero _ _ hf (by decide))
  all_goals exact h

theorem viewOld_regsWf (l : List (SyncReg × Word)) (h : s.regsWf) : (s.viewOld l).regsWf := by
  induction l generalizing s with
  | nil => exact h
  | cons p l ih =>
    exact regsWf_ite (ih (syncPut_regsWf (s := { s with free := _, sync := _ }) _ _ h)) (ih (s := { s with free := _ }) h)

theorem restore_regsWf (y : Sync) (l : List (SyncReg × Word)) (h : s.regsWf) : (s.restore y l).regsWf := by
  induction l generalizing s with
  | nil => exact h
  | cons p l ih => exact ih (regsWf_ite (syncPut_regsWf _ _ h) h)

theorem endView_regsWf (y : Sync) (back : Bool) (h : s.regsWf) : (s.endView y back).regsWf := by
  have settled (b : Bool) : (if b then s.settleMas missFields else s).regsWf := regsWf_ite h h
  unfold State.endView
  dsimp only
  split
  · exact restore_regsWf _ _ (settled _)
  · split <;> exact restore_regsWf _ _ (settled _)

theorem endSync_regsWf (y : Sync) (csi back : Bool) (h : s.regsWf) : (s.endSync y csi back).regsWf := by
  have viewed : (if y.new.isEmpty then s else s.endView y back).regsWf := regsWf_ite h (endView_regsWf y back h)
  exact regsWf_ite viewed viewed

/-! Timers. -/

theorem setTb_regsWf (tb : DWord) (h : s.regsWf) : (s.setTb tb).regsWf := h

theorem tick_regsWf (h : s.regsWf) : s.tick.regsWf := by
  have counted : (if s.tbHeld then s else s.setTb (s.tmr.tb + 1#64)).regsWf := regsWf_ite h (setTb_regsWf _ h)
  exact regsWf_ite (regsWf_ite counted counted) h

/-! Special purpose registers. -/

theorem mfspr_regsWf (r : Spr) (rt : Gpr) (h : s.regsWf) : (s.mfspr r rt).regsWf := by
  have drawn (b : Bool) (n : Nat) : (if b then s else { s with free := s.free + n }).regsWf := regsWf_ite h h
  unfold State.mfspr
  dsimp only
  split <;> exact drawn _ _

theorem writeL1csr_regsWf (side : Side) (v : Word) (h : s.regsWf) : (s.writeL1csr side v).regsWf := by
  cases side with
  | data => exact flushBuffers_regsWf h
  | instr => exact regsWf_ite (s := (s.staleAll s.cache.icache.lines).purgeAll) (staleAll_regsWf _ h) h

theorem writeDbg_regsWf (r : Spr) (v : Word) (h : s.regsWf) : (s.writeDbg r v).regsWf := by
  unfold State.writeDbg
  dsimp only
  split <;> exact h

theorem writeSpr_regsWf (r : Spr) (v : Word) (h : s.regsWf) : (s.writeSpr r v).RegsWf := by
  cases r
  case xer => exact h.setXer (and_mask_eq_zero v (by decide))
  case spefscr => exact h.setSpefscr (and_mask_eq_zero v (by decide))
  case l1finv1 => exact finv1_regsWf v h
  case l1csr0 => exact writeL1csr_regsWf .data v h
  case l1csr1 => exact writeL1csr_regsWf .instr v h
  case mmucsr0 => exact regsWf_ite h h
  case l1finv0 => exact Res.andThen_regsWf (finv0_regsWf v h) fun _ _ ht => ht
  case dbcr0 | dbcr1 | dbcr2 | dbcr3 | dbcr4 | dbcr5 | dbcr6 | dbcnt | iac | dac1 | dac2 | devent | ddam =>
    exact writeDbg_regsWf _ v h
  all_goals exact h

theorem mtspr_regsWf (r : Spr) (rs : Gpr) (h : s.regsWf) : (s.mtspr r rs).RegsWf := by
  have owed (o : Option SyncReg) : (match o with | none => s | some q => s.owe q : State).regsWf := by
    cases o <;> exact h
  unfold State.mtspr
  split
  · exact regsWf_ite h h
  · exact regsWf_ite h h
  · exact writeSpr_regsWf _ _ (owed _)

theorem badSpr_regsWf (n : BitVec 10) (h : s.regsWf) : (badSpr n s).regsWf :=
  regsWf_ite (raiseSync_regsWf _ _ h) (raiseSync_regsWf _ _ h)

theorem writeDcr_regsWf (r : Dcr) (v : Word) (h : s.regsWf) : (s.writeDcr r v).regsWf := by
  cases r
  case cdacntl => exact writeCdacntl_regsWf v h
  all_goals exact h

/-! Integer results. -/

theorem advance_regsWf (n : Nat) (hn : n % 2 = 0) (h : s.regsWf) : (s.advance n).regsWf := by
  obtain ⟨-, -, -, hp⟩ := id h
  refine h.setPc (even_add hp ?_)
  rw [BitVec.getLsbD_ofNat, Nat.testBit_zero, hn]
  rfl

theorem putCa_regsWf (ca : Option Bool) (h : s.regsWf) : (s.putCa ca).regsWf := by
  obtain ⟨-, hx, -, -⟩ := id h
  cases ca with
  | none => exact h
  | some c => exact h.setXer (putBits_and_eq_zero _ c hx (by decide))

theorem putOv_regsWf (ov : Option Bool) (h : s.regsWf) : (s.putOv ov).regsWf := by
  obtain ⟨-, hx, -, -⟩ := id h
  cases ov with
  | none => exact h
  | some v =>
    refine h.setXer (or_and_eq_zero (putBits_and_eq_zero _ v hx (by decide)) ?_)
    cases v <;> decide

theorem recordIf_regsWf (rc : Bool) (r : Word) (h : s.regsWf) : (s.recordIf rc r).regsWf := by
  cases rc <;> exact h

theorem result_regsWf (n : Nat) (rt : Gpr) (r : Word) (ca ov : Option Bool) (rc : Bool) (hn : n % 2 = 0) (h : s.regsWf) :
    (s.result n rt r ca ov rc).regsWf :=
  advance_regsWf n hn (recordIf_regsWf _ _ (putOv_regsWf _ (putCa_regsWf _ (s := s.setGprW rt r) h)))

theorem resultCr_regsWf (n : Nat) (f : CrField) (v : BitVec 4) (hn : n % 2 = 0) (h : s.regsWf) :
    (s.resultCr n f v).regsWf := advance_regsWf n hn h

theorem resultOpen_regsWf (rt : Gpr) (oe rc : Bool) (h : s.regsWf) : (s.resultOpen rt oe rc).regsWf := by
  have written (ov : Option Bool) : (({ s with free := s.free + 2 }.setGprW rt (Config.freeWord s.free)).putOv ov).regsWf :=
    putOv_regsWf ov h
  exact advance_regsWf 4 rfl (regsWf_ite (written _) (written _))

/-! Loads and stores. -/

theorem setBase_regsWf (u : Option Gpr) (ea : Word) (h : s.regsWf) : (s.setBase u ea).regsWf := by
  cases u <;> exact h

theorem loadTo_regsWf (len n : Nat) (rt : Gpr) (u : Option Gpr) (f : List Byte → Word) (ea : Word) (hn : len % 2 = 0)
    (h : s.regsWf) : OutWf (s.loadTo len n rt u f ea) :=
  Res.finish_regsWf (load_regsWf _ _ _ _ h) fun _ _ ht => advance_regsWf len hn (setBase_regsWf u ea ht)

theorem storeFrom_regsWf (len : Nat) (b : List Byte) (u : Option Gpr) (ea : Word) (hn : len % 2 = 0) (h : s.regsWf) :
    OutWf (s.storeFrom len b u ea) :=
  Res.finish_regsWf (store_regsWf _ _ _ _ h) fun _ _ ht => advance_regsWf len hn (setBase_regsWf u ea ht)

/-- Writing a loaded word where it goes keeps the register invariant. -/
def PutsWf (l : List (State → Word → State)) : Prop := ∀ put ∈ l, ∀ s w, s.regsWf → (put s w).regsWf

theorem putsWf_cons {put : State → Word → State} {l : List (State → Word → State)}
    (hp : ∀ s w, s.regsWf → (put s w).regsWf) (hl : PutsWf l) : PutsWf (put :: l) := by
  intro q hq
  rcases List.mem_cons.mp hq with rfl | hq
  · exact hp
  · exact hl q hq

theorem putsWf_nil : PutsWf [] := fun _ hp => absurd hp List.not_mem_nil

theorem putsWf_intoGprs (l : List Gpr) : PutsWf (intoGprs l) := by
  induction l with
  | nil => exact putsWf_nil
  | cons r l ih => exact putsWf_cons (fun _ _ h => h) ih

theorem loadWords_regsWf (ea : Word) {l : List (State → Word → State)} (hl : PutsWf l) (h : s.regsWf) :
    (s.loadWords ea l).RegsWf := by
  induction l generalizing s ea with
  | nil => exact h
  | cons put l ih =>
    exact Res.andThen_regsWf (load_regsWf _ _ _ _ h) fun _ _ ht =>
      ih _ (fun q hq => hl q (List.mem_cons_of_mem _ hq)) (hl put List.mem_cons_self _ _ ht)

theorem storeWords_regsWf (ea : Word) (l : List Word) (h : s.regsWf) : (s.storeWords ea l).RegsWf := by
  induction l generalizing s ea with
  | nil => exact h
  | cons w l ih => exact Res.andThen_regsWf (storeDone_regsWf _ _ _ _ h) fun _ _ ht => Res.regsWf_ite (ih _ ht) ht

theorem loadMultiple_regsWf (ea : Word) {l : List (State → Word → State)} (hl : PutsWf l) (h : s.regsWf) :
    OutWf (s.loadMultiple ea l) :=
  .ite (Res.finish_regsWf (loadWords_regsWf ea hl h) fun _ _ ht => advance_regsWf 4 rfl ht) (raiseAlignment_regsWf _ _ h)

theorem storeMultiple_regsWf (ea : Word) (l : List Word) (h : s.regsWf) : OutWf (s.storeMultiple ea l) :=
  .ite (Res.finish_regsWf (storeWords_regsWf ea l h) fun _ _ ht => advance_regsWf 4 rfl ht) (raiseAlignment_regsWf _ _ h)

theorem loadReserved_regsWf (n : Nat) (rt ra rb : Gpr) (h : s.regsWf) : OutWf (s.loadReserved n rt ra rb) :=
  .ite (Res.finish_regsWf (loadReserve_regsWf _ _ h) fun _ _ ht => advance_regsWf 4 rfl ht) (raiseAlignment_regsWf _ _ h)

theorem storeReserved_regsWf (b : List Byte) (ra rb : Gpr) (h : s.regsWf) : OutWf (s.storeReserved b ra rb) :=
  .ite (advance_regsWf 4 rfl h) <|
    .ite (Res.finish_regsWf (storeConditional_regsWf _ _ h) fun _ _ ht => advance_regsWf 4 rfl ht)
      (raiseAlignment_regsWf _ _ h)

end
end Sys2Proof.Machine
end

section
/-! PROOF. The register invariant under every instruction. -/

namespace Sys2Proof.Machine

section
variable {s : State}

/-! Branches. -/

/-- The target of a branch is a multiple of 2. -/
def Br.Even (r : Br) : Prop := r.target.getLsbD 0 = false

theorem regTarget_even (r : Word) : (regTarget r).getLsbD 0 = false := even_and r (by decide)

/-- A displacement in halfwords is a multiple of 2. -/
theorem displacement_even {n k : Nat} (d : BitVec n) (hk : 0 < k) :
    ((d ++ 0#k : BitVec (n + k)).signExtend 32).getLsbD 0 = false := by
  rw [BitVec.getLsbD_signExtend, BitVec.getLsbD_append]
  simp [hk]

theorem relTarget_even (h : s.regsWf) (aa : Bool) {d : Word} (hd : d.getLsbD 0 = false) :
    (s.relTarget aa d).getLsbD 0 = false := by
  obtain ⟨-, -, -, hp⟩ := h
  cases aa
  · exact even_add hp hd
  · exact hd

theorem nextPc_even (h : s.regsWf) {n : Nat} (hn : n % 2 = 0) : (s.nextPc n).getLsbD 0 = false := by
  obtain ⟨-, -, -, hp⟩ := advance_regsWf n hn h
  exact hp

theorem branch_regsWf (n : Nat) (lk : Bool) {r : Br} (hn : n % 2 = 0) (hr : r.Even) (h : s.regsWf) :
    (s.branch n lk r).regsWf := by
  have target : (if r.taken then r.target else s.nextPc n).getLsbD 0 = false := by
    split
    · exact hr
    · exact nextPc_even h hn
  exact h.setPc (s := { s with lr := _, ctr := _ }) target

/-! Floating point. -/

theorem spefscr_status (o : FpOut) : o.status &&& ~~~0xFF3EFF7F#32 = 0#32 := by
  unfold FpOut.status
  generalize o.g = g, o.x = x, o.inv = inv, o.dbz = dbz, o.unf = unf, o.ovf = ovf
  revert g x inv dbz unf ovf
  decide

theorem spefscr_statusHigh (o : FpOut) : (o.status <<< 16) &&& ~~~0xFF3EFF7F#32 = 0#32 := by
  unfold FpOut.status
  generalize o.g = g, o.x = x, o.inv = inv, o.dbz = dbz, o.unf = unf, o.ovf = ovf
  revert g x inv dbz unf ovf
  decide

theorem spefscr_sticky (o : FpOut) : o.sticky &&& ~~~0xFF3EFF7F#32 = 0#32 := by
  unfold FpOut.sticky
  generalize o.inv = inv, o.dbz = dbz, o.unf = unf, o.ovf = ovf
  revert inv dbz unf ovf
  decide

theorem withStatus_reserved {f : Word} (oh ol : FpOut) (h : f &&& ~~~0xFF3EFF7F#32 = 0#32) :
    withStatus f oh ol &&& ~~~0xFF3EFF7F#32 = 0#32 :=
  or_and_eq_zero (or_and_eq_zero (or_and_eq_zero (or_and_eq_zero (and_and_eq_zero _ h) (spefscr_statusHigh oh))
    (spefscr_status ol)) (spefscr_sticky oh)) (spefscr_sticky ol)

theorem fpFinish_regsWf (oh ol : FpOut) {write : Word → Word → State → State} (h : s.regsWf)
    (hw : ∀ a b t, t.regsWf → (write a b t).regsWf) : OutWf (s.fpFinish oh ol write) := by
  obtain ⟨-, -, hf, -⟩ := id h
  have status := withStatus_reserved oh ol hf
  have inexact : { s with spefscr := withStatus s.spefscr oh ol ||| 0x00200000#32 }.regsWf :=
    h.setSpefscr (or_and_eq_zero status (by decide))
  refine .ite ?_ (.ite (.ite ?_ ?_) ?_)
  · exact raiseSync_regsWf _ _ (h.setSpefscr (and_and_eq_zero _ status))
  · exact takeInterrupt_regsWf _ _ (s := State.setEsr _ _) (hw _ _ { s with spefscr := _, free := _ } inexact)
  · exact advance_regsWf 4 rfl (hw _ _ _ inexact)
  · exact advance_regsWf 4 rfl (hw _ _ _ (h.setSpefscr status))

theorem fpScalar_regsWf (rd : Gpr) (o : FpOut) (h : s.regsWf) : OutWf (s.fpScalar rd o) :=
  fpFinish_regsWf _ _ h fun _ _ _ ht => ht

theorem fpVector_regsWf (rd : Gpr) (oh ol : FpOut) (h : s.regsWf) : OutWf (s.fpVector rd oh ol) :=
  speAvail_regsWf h fun h => fpFinish_regsWf _ _ h fun _ _ _ ht => ht

theorem fpCompare_regsWf (crf : CrField) (f : Word → Word → Bool) (a b : Word) (h : s.regsWf) :
    OutWf (s.fpCompare crf f a b) := fpFinish_regsWf _ _ h fun _ _ _ ht => ht

theorem fpCompareV_regsWf (crf : CrField) (f : Word → Word → Bool) (a b : DWord) (h : s.regsWf) :
    OutWf (s.fpCompareV crf f a b) := speAvail_regsWf h fun h => fpFinish_regsWf _ _ h fun _ _ _ ht => ht

theorem fpCr_regsWf (crf : CrField) (c : Bool) (h : s.regsWf) : (s.fpCr crf c).regsWf := h

/-! The SPE. -/

theorem speWrite_regsWf (rd : Gpr) (v : DWord) (toAcc : Bool) (h : s.regsWf) : (s.speWrite rd v toAcc).regsWf := by
  refine advance_regsWf 4 rfl ?_
  cases toAcc <;> exact h

theorem spe_regsWf (rd : Gpr) (v : DWord) (h : s.regsWf) : OutWf (s.spe rd v) :=
  speAvail_regsWf h fun h => speWrite_regsWf _ _ _ h

theorem speMul_regsWf (rd : Gpr) (v : DWord) (toAcc : Bool) (h : s.regsWf) : OutWf (s.speMul rd v toAcc) :=
  speAvail_regsWf h fun h => speWrite_regsWf _ _ _ h

theorem setOv_reserved {f : Word} (h l : Bool) (hf : f &&& ~~~0xFF3EFF7F#32 = 0#32) :
    setOv f h l &&& ~~~0xFF3EFF7F#32 = 0#32 := by
  refine or_and_eq_zero (or_and_eq_zero (and_and_eq_zero _ hf) ?_) ?_
  · cases h <;> decide
  · cases l <;> decide

theorem speOv_regsWf (rd : Gpr) (v : DWord) (ovh ov toAcc : Bool) (h : s.regsWf) : OutWf (s.speOv rd v ovh ov toAcc) := by
  obtain ⟨-, -, hf, -⟩ := id h
  exact speAvail_regsWf h fun h => speWrite_regsWf _ _ _ (h.setSpefscr (setOv_reserved _ _ hf))

theorem speCompare_regsWf (crf : CrField) (a b : Bool) (h : s.regsWf) : OutWf (s.speCompare crf a b) :=
  speAvail_regsWf h fun h => resultCr_regsWf 4 _ _ rfl h

theorem speLoad_regsWf (form : SpeForm) (n el : Nat) (rd : Gpr) (f : List Byte → DWord) (ea : Word) (h : s.regsWf) :
    OutWf (s.speLoad form n el rd f ea) :=
  speAvail_regsWf h fun h => .ite (Res.finish_regsWf (load_regsWf _ _ _ _ h) fun _ _ ht => advance_regsWf 4 rfl ht)
    (raiseAlignment_regsWf _ _ h)

theorem speStore_regsWf (form : SpeForm) (el : Nat) (b : List Byte) (ea : Word) (h : s.regsWf) :
    OutWf (s.speStore form el b ea) :=
  speAvail_regsWf h fun h => .ite (Res.finish_regsWf (store_regsWf _ _ _ _ h) fun _ _ ht => advance_regsWf 4 rfl ht)
    (raiseAlignment_regsWf _ _ h)

/-! System instructions. -/

theorem crLogic_regsWf (a b c : CrBit) (f : Bool → Bool → Bool) (h : s.regsWf) : (s.crLogic a b c f).regsWf :=
  advance_regsWf 4 rfl (s := { s with cr := _ }) h

theorem setEe_regsWf (b : Bool) (h : s.regsWf) : (s.setEe b).regsWf := by
  obtain ⟨hm, -, -, -⟩ := id h
  exact h.setMsr (putBits_and_eq_zero _ b hm (by decide))

theorem notifyHalt_regsWf (n : Nat) (vle : Bool) (dui : BitVec 5) (duis : BitVec 10) (hn : n % 2 = 0) (h : s.regsWf) :
    (s.notifyHalt n vle dui duis).regsWf := by
  refine regsWf_ite (raiseSync_regsWf _ _ h) ?_
  have noted (bits : Word) :
      (if s.dbg.edm then { s with dbg := { s.dbg with edbsr0 := s.dbg.edbsr0 ||| bits } } else s).regsWf := regsWf_ite h h
  exact regsWf_ite (noted _) (advance_regsWf n hn (noted _))

theorem return_regsWf (r0 r1 : State → Word) (h : s.regsWf) :
    OutWf (privileged s fun s => .next (returnFrom (r0 s) (r1 s) s)) :=
  privileged_regsWf h fun h => returnFrom_regsWf _ _ h

theorem execRfdi_regsWf (h : s.regsWf) : OutWf (execRfdi s) :=
  .ite (raiseSync_regsWf _ _ h) (return_regsWf _ _ h)

theorem execMcrxr_regsWf (crf : CrField) (h : s.regsWf) : OutWf (execMcrxr crf s) := by
  obtain ⟨-, hx, -, -⟩ := id h
  exact resultCr_regsWf 4 _ _ rfl (h.setXer (and_and_eq_zero _ hx))

theorem execMfspr_regsWf (rt : Gpr) (n : BitVec 10) (h : s.regsWf) : OutWf (execMfspr rt n s) := by
  unfold execMfspr
  split
  · exact badSpr_regsWf n h
  · exact .ite (badSpr_regsWf n h) (.ite (raiseSync_regsWf _ _ h) (advance_regsWf 4 rfl (mfspr_regsWf _ _ h)))

theorem execMtspr_regsWf (n : BitVec 10) (rs : Gpr) (h : s.regsWf) : OutWf (execMtspr n rs s) := by
  unfold execMtspr
  split
  · exact badSpr_regsWf n h
  · exact .ite (badSpr_regsWf n h) (.ite (raiseSync_regsWf _ _ h)
      (Res.finish_regsWf (mtspr_regsWf _ _ h) fun _ _ ht => advance_regsWf 4 rfl ht))

theorem execMfdcr_regsWf (rt : Gpr) (n : BitVec 10) (h : s.regsWf) : OutWf (execMfdcr rt n s) := by
  unfold execMfdcr
  split
  · exact raiseSync_regsWf _ _ h
  · exact privileged_regsWf h fun h => advance_regsWf 4 rfl (s := s.setGprW rt _) h

theorem execMtdcr_regsWf (n : BitVec 10) (rs : Gpr) (h : s.regsWf) : OutWf (execMtdcr n rs s) := by
  unfold execMtdcr
  split
  · exact raiseSync_regsWf _ _ h
  · exact privileged_regsWf h fun h => advance_regsWf 4 rfl (writeDcr_regsWf _ _ h)

theorem execMfpmr_regsWf (rd : Gpr) (n : BitVec 10) (h : s.regsWf) : OutWf (execMfpmr rd n s) := by
  refine .ite (raiseSync_regsWf _ _ h) ?_
  split
  · exact raiseSync_regsWf _ _ h
  · exact advance_regsWf 4 rfl (s := s.setGprW rd _) h

theorem writePmr_regsWf (r : Pmr) (v : Word) (h : s.regsWf) : (s.writePmr r v).regsWf := regsWf_ite h h

theorem execMtpmr_regsWf (n : BitVec 10) (rs : Gpr) (h : s.regsWf) : OutWf (execMtpmr n rs s) := by
  refine .ite (raiseSync_regsWf _ _ h) ?_
  split
  · exact advance_regsWf 4 rfl (writePmr_regsWf _ _ h)
  · exact raiseSync_regsWf _ _ h
  · exact raiseSync_regsWf _ _ h

/-- A part of an instruction that ends with the pc past its four bytes. -/
theorem finish_advance_regsWf {α : Type} {r : Res α} (h : r.RegsWf) : OutWf (r.finish fun _ s => s.advance 4) :=
  Res.finish_regsWf h fun _ _ ht => advance_regsWf 4 rfl ht

theorem loadXer_regsWf (w : Word) (h : s.regsWf) : { s with xer := w &&& xerMask }.regsWf :=
  h.setXer (and_mask_eq_zero w (by decide))

/-- A load of two words into registers the invariant does not speak of, in supervisor mode. -/
theorem loadPair_regsWf {p q : State → Word → State} (ea : State → Word) (h : s.regsWf)
    (hp : ∀ s w, s.regsWf → (p s w).regsWf) (hq : ∀ s w, s.regsWf → (q s w).regsWf) :
    OutWf (privileged s fun s => s.loadMultiple (ea s) [p, q]) :=
  privileged_regsWf h fun h => loadMultiple_regsWf _ (putsWf_cons hp (putsWf_cons hq putsWf_nil)) h

/-! Every instruction. -/

theorem exec_regsWf (i : Instr) (h : s.regsWf) : OutWf (exec i s) := by
  cases i
  case tlbre | tlbwe | tlbivax | tlbsync | mfmsr =>
    simp only [exec_tlbre, exec_tlbwe, exec_tlbivax, exec_tlbsync, exec_mfmsr]
    exact privileged_regsWf h fun h => advance_regsWf 4 rfl h
  case tlbsx =>
    rw [exec_tlbsx]
    exact privileged_regsWf h fun h => advance_regsWf 4 rfl (tlbSearch_regsWf _ h)
  case mtmsr rs =>
    rw [exec_mtmsr]
    exact privileged_regsWf h fun h =>
      advance_regsWf 4 rfl (h.setMsr (s := s.owe .msr) (and_mask_eq_zero (m := msrMask) (s.gprW rs) (by decide)))
  case wrtee | wrteei =>
    simp only [exec_wrtee, exec_wrteei]
    exact privileged_regsWf h fun h => advance_regsWf 4 rfl (setEe_regsWf _ h)
  case icbt | dcba | dcbt | dcbtst | isync => exact advance_regsWf 4 rfl h
  case seIsync => exact advance_regsWf 2 rfl h
  case icbi => exact finish_advance_regsWf (blockDiscard_regsWf _ _ h)
  case dcbi =>
    rw [exec_dcbi]
    exact privileged_regsWf h fun h => finish_advance_regsWf (blockDiscard_regsWf _ _ h)
  case dcbf | dcbst => exact finish_advance_regsWf (blockFlush_regsWf _ _ h)
  case dcbz => exact finish_advance_regsWf (blockZero_regsWf _ h)
  case dcbtls | dcbtstls | icbtls => exact finish_advance_regsWf (blockLock_regsWf _ _ _ h)
  case dcblc | icblc => exact finish_advance_regsWf (blockUnlock_regsWf _ _ _ h)
  case addi | addis | mulli | neg | mulhw | mulhwu | andiDot | andisDot | ori | oris | xori | xoris | and | andc | or | orc
      | xor | nand | nor | eqv | extsb | extsh | cntlzw | rlwinm | rlwimi | rlwnm | slw | srw | srawi | eAdd16i | eAddi
      | eMulli | eAndi | eOri | eXori | eLi | eAdd2iDot | eAdd2is | eMull2i | eOr2i | eAnd2iDot | eOr2is | eLis
      | eAnd2isDot | eRlwimi | eRlwinm | eSlwi | eRlw | eRlwi | eSrwi | mullw | sraw | addic | addicDot | subfic | add
      | addc | adde | addme | addze | subf | subfc | subfe | subfme | subfze | eAddic | eSubfic =>
    exact result_regsWf 4 _ _ _ _ _ rfl h
  case seNot | seNeg | seMflr | seMfctr | seExtzb | seExtsb | seExtzh | seExtsh | seMr | seMtar | seMfar | seAdd | seMullw
      | seSub | seSubf | seSrw | seSlw | seOr | seAndc | seAnd | seAddi | seSubi | seBmaski | seAndi | seBclri | seBgeni
      | seBseti | seSrwi | seSrawi | seSlwi | seLi | seSraw =>
    exact result_regsWf 2 _ _ _ _ _ rfl h
  case divw | divwu => exact .ite (resultOpen_regsWf _ _ _ h) (result_regsWf 4 _ _ _ _ _ rfl h)
  case cmpi | cmp | cmpli | cmpl | mcrf | eCmpi | eCmpli | eCmp16i | eCmpl16i | eCmph16i | eCmphl16i | eCmph | eCmphl
      | eMcrf =>
    exact resultCr_regsWf 4 _ _ rfl h
  case seCmp | seCmpl | seCmph | seCmphl | seCmpli | seCmpi | seBtsti => exact resultCr_regsWf 2 _ _ rfl h
  case lbz | lbzu | lhz | lhzu | lha | lhau | lwz | lwzu | lbzx | lbzux | lhzx | lhzux | lhax | lhaux | lwzx | lwzux
      | lhbrx | lwbrx | eLbz | eLha | eLwz | eLhz | eLbzu | eLhzu | eLwzu | eLhau =>
    exact loadTo_regsWf 4 _ _ _ _ _ rfl h
  case seLbz | seLhz | seLwz => exact loadTo_regsWf 2 _ _ _ _ _ rfl h
  case stb | stbu | sth | sthu | stw | stwu | stbx | stbux | sthx | sthux | stwx | stwux | sthbrx | stwbrx | eStb | eStw
      | eSth | eStbu | eSthu | eStwu =>
    exact storeFrom_regsWf 4 _ _ _ rfl h
  case seStb | seSth | seStw => exact storeFrom_regsWf 2 _ _ _ rfl h
  case lmw | eLmvgprw | eLmw => exact loadMultiple_regsWf _ (putsWf_intoGprs _) h
  case eLmvsprw =>
    exact loadMultiple_regsWf _ (putsWf_cons (fun _ _ h => h) <| putsWf_cons (fun _ _ h => h) <|
      putsWf_cons (fun _ _ h => h) <| putsWf_cons (fun _ w h => loadXer_regsWf w h) putsWf_nil) h
  case eLmvsrrw | eLmvcsrrw | eLmvdsrrw | eLmvmcsrrw =>
    simp only [exec_eLmvsrrw, exec_eLmvcsrrw, exec_eLmvdsrrw, exec_eLmvmcsrrw]
    exact loadPair_regsWf _ h (fun _ _ h => h) fun _ _ h => h
  case stmw | eStmvgprw | eStmvsprw | eStmw => exact storeMultiple_regsWf _ _ h
  case eStmvsrrw | eStmvcsrrw | eStmvdsrrw | eStmvmcsrrw =>
    simp only [exec_eStmvsrrw, exec_eStmvcsrrw, exec_eStmvdsrrw, exec_eStmvmcsrrw]
    exact privileged_regsWf h fun h => storeMultiple_regsWf _ _ h
  case b li aa lk | bc li aa lk => exact branch_regsWf 4 _ rfl (relTarget_even h _ (displacement_even _ (by decide))) h
  case bclr | bcctr => exact branch_regsWf 4 _ rfl (regTarget_even _) h
  case seBlr | seBctr => exact branch_regsWf 2 _ rfl (regTarget_even _) h
  case eB | eBc => exact branch_regsWf 4 _ rfl (relTarget_even h false (displacement_even _ (by decide))) h
  case seB | seBc => exact branch_regsWf 2 _ rfl (relTarget_even h false (displacement_even _ (by decide))) h
  case crand | crandc | creqv | crnand | crnor | cror | crorc | crxor | eCrnor | eCrandc | eCrxor | eCrnand | eCrand
      | eCreqv | eCrorc | eCror =>
    exact crLogic_regsWf _ _ _ _ h
  case mcrxr => exact execMcrxr_regsWf _ h
  case mfcr | mtcrf | isel | brinc => exact advance_regsWf 4 rfl h
  case seMtlr | seMtctr => exact advance_regsWf 2 rfl h
  case tw | twi => exact .ite (raiseSync_regsWf _ _ h) (advance_regsWf 4 rfl h)
  case sc | seSc => exact raiseSystemCall_regsWf _ h
  case seIllegal => exact raiseSync_regsWf _ _ h
  case rfi | rfci | rfmci | seRfi | seRfci | seRfmci =>
    simp only [exec_rfi, exec_rfci, exec_rfmci, exec_seRfi, exec_seRfci, exec_seRfmci]
    exact return_regsWf _ _ h
  case rfdi | seRfdi => exact execRfdi_regsWf h
  case mfspr => exact execMfspr_regsWf _ _ h
  case mtspr => exact execMtspr_regsWf _ _ h
  case dnh | eDnh => exact notifyHalt_regsWf 4 _ _ _ rfl h
  case seDnh => exact notifyHalt_regsWf 2 _ _ _ rfl h
  case wait | msync => exact advance_regsWf 4 rfl (flushBuffers_regsWf h)
  case mbar => exact .ite (raiseSync_regsWf _ _ h) (advance_regsWf 4 rfl (flushBuffers_regsWf h))
  case mfdcr => exact execMfdcr_regsWf _ _ h
  case mtdcr => exact execMtdcr_regsWf _ _ h
  case lbarx | lharx | lwarx => exact loadReserved_regsWf _ _ _ _ h
  case stbcxDot | sthcxDot | stwcxDot => exact storeReserved_regsWf _ _ _ h
  case efsabs | efsnabs | efsneg | efsadd | efssub | efsmul | efsdiv | efsmadd | efsmsub | efsnmadd | efsnmsub | efssqrt
      | efsmax | efsmin | efscfsi | efscfui | efscfsf | efscfuf | efsctsi | efsctsiz | efsctui | efsctuiz | efsctsf
      | efsctuf | efscfh | efscth =>
    exact fpScalar_regsWf _ _ h
  case efscmpgt | efscmplt | efscmpeq => exact fpCompare_regsWf _ _ _ _ h
  case efststgt | efststlt | efststeq => exact advance_regsWf 4 rfl (fpCr_regsWf _ _ h)
  case evfsabs | evfsnabs | evfsneg | evfsadd | evfssub | evfsaddsub | evfssubadd | evfsaddx | evfssubx | evfsaddsubx
      | evfssubaddx | evfssum | evfsdiff | evfssumdiff | evfsdiffsum | evfsmul | evfsmule | evfsmulo | evfsmulx | evfsdiv
      | evfssqrt | evfsmadd | evfsmsub | evfsnmadd | evfsnmsub | evfsmax | evfsmin | evfscfsi | evfscfui | evfscfsf
      | evfscfuf | evfsctsi | evfsctsiz | evfsctui | evfsctuiz | evfsctsf | evfsctuf | evfscfh | evfscth =>
    exact fpVector_regsWf _ _ _ h
  case evfscmpgt | evfscmplt | evfscmpeq => exact fpCompareV_regsWf _ _ _ _ h
  case evfststgt | evfststlt | evfststeq =>
    simp only [exec_evfststgt, exec_evfststlt, exec_evfststeq]
    exact speAvail_regsWf h fun h => resultCr_regsWf 4 _ _ rfl h
  case evabs | evaddiw | evaddw | evand | evandc | evcntlsw | evcntlzw | eveqv | evextsb | evextsh | evmergehi
      | evmergehilo | evmergelo | evmergelohi | evnand | evneg | evnor | evor | evorc | evrlw | evrlwi | evrndw | evslw
      | evslwi | evsplatfi | evsplati | evsrwis | evsrwiu | evsrws | evsrwu | evsubfw | evsubifw | evxor | evsel =>
    exact spe_regsWf _ _ h
  case evcmpeq | evcmpgts | evcmpgtu | evcmplts | evcmpltu => exact speCompare_regsWf _ _ _ h
  case evmra | evmhegsmfaa | evmhegsmfan | evmhegsmiaa | evmhegsmian | evmhegumiaa | evmhegumian | evmhesmf | evmhesmfa
      | evmhesmi | evmhesmia | evmheumi | evmheumia | evmhogsmfaa | evmhogsmfan | evmhogsmiaa | evmhogsmian | evmhogumiaa
      | evmhogumian | evmhosmf | evmhosmfa | evmhosmi | evmhosmia | evmhoumi | evmhoumia | evmwhsmf | evmwhsmfa | evmwhsmi
      | evmwhsmia | evmwhumi | evmwhumia | evmwlumi | evmwlumia | evmwsmf | evmwsmfa | evmwsmfaa | evmwsmfan | evmwsmi
      | evmwsmia | evmwsmiaa | evmwsmian | evmwumi | evmwumia | evmwumiaa | evmwumian | evmhesmfaaw | evmhesmfanw
      | evmhesmiaaw | evmhesmianw | evmheumiaaw | evmheumianw | evmhosmfaaw | evmhosmfanw | evmhosmiaaw | evmhosmianw
      | evmhoumiaaw | evmhoumianw | evmwlsmiaaw | evmwlsmianw | evmwlumiaaw | evmwlumianw | evaddsmiaaw | evaddumiaaw
      | evsubfsmiaaw | evsubfumiaaw =>
    exact speMul_regsWf _ _ _ h
  case evdivws | evdivwu | evmhessf | evmhessfa | evmhossf | evmhossfa | evmwhssf | evmwhssfa | evmhessfaaw | evmhessfanw
      | evmhessiaaw | evmhessianw | evmheusiaaw | evmheusianw | evmhossfaaw | evmhossfanw | evmhossiaaw | evmhossianw
      | evmhousiaaw | evmhousianw | evmwlssiaaw | evmwlssianw | evmwlusiaaw | evmwlusianw | evaddssiaaw | evaddusiaaw
      | evsubfssiaaw | evsubfusiaaw | evmwssf | evmwssfa | evmwssfaa | evmwssfan =>
    exact speOv_regsWf _ _ _ _ _ h
  case evldd | evlddx | evldw | evldwx | evldh | evldhx | evlhhesplat | evlhhesplatx | evlhhousplat | evlhhousplatx
      | evlhhossplat | evlhhossplatx | evlwhe | evlwhex | evlwhou | evlwhoux | evlwhos | evlwhosx | evlwwsplat
      | evlwwsplatx | evlwhsplat | evlwhsplatx =>
    exact speLoad_regsWf _ _ _ _ _ _ h
  case evstdd | evstddx | evstdw | evstdwx | evstdh | evstdhx | evstwhe | evstwhex | evstwho | evstwhox | evstwwe
      | evstwwex | evstwwo | evstwwox =>
    exact speStore_regsWf _ _ _ _ h
  case mfpmr => exact execMfpmr_regsWf _ _ h
  case mtpmr => exact execMtpmr_regsWf _ _ h

end
end Sys2Proof.Machine
end

section
/-! PROOF. The register invariant under the inputs, the fetch, the debug events and the end of a step, and so under every
step. -/

namespace Sys2Proof.Machine

section
variable {s : State}

/-! Inputs, resets and power states. -/

theorem revert_regsWf (l : List Host.Cell) (h : s.regsWf) : (s.revert l).regsWf := by
  induction l generalizing s with
  | nil => exact h
  | cons c l ih => exact ih (s := { s with mem := _, free := _ }) h

/-- The reset vector is a multiple of 4. -/
theorem resetPc_even (p : Pins) : (State.resetWith p).pc.getLsbD 0 = false := by
  change (p.rstbase ++ 0#2).getLsbD 0 = false
  rw [BitVec.getLsbD_append]
  rfl

theorem processorReset_regsWf (s : State) : s.processorReset.regsWf :=
  ⟨BitVec.zero_and, BitVec.zero_and, BitVec.zero_and, resetPc_even s.pins⟩

theorem powerOn_regsWf (s : State) : s.powerOn.regsWf :=
  ⟨BitVec.zero_and, BitVec.zero_and, BitVec.zero_and, resetPc_even s.pins⟩

theorem devtEvent_regsWf (wp : Nat) (bit : Word) (h : s.regsWf) : (s.devtEvent wp bit).regsWf :=
  regsWf_ite (postIf_regsWf (s := { s with ev := _ }) _ _ _ _ _ h) h

theorem onced_regsWf {t : State} (hs : s.regsWf) (ht : t.regsWf) : (s.onced t).regsWf := regsWf_ite ht hs

theorem arrive_regsWf (e : EnvEvent) (h : s.regsWf) : (s.arrive e).regsWf := by
  cases e
  case tick => exact tick_regsWf h
  case mcp => exact regsWf_ite h h
  case ude on => exact regsWf_ite (postEvent_regsWf (s := { s with pins := _ }) _ _ _ _ h) h
  case devt1 | devt2 => exact regsWf_ite (devtEvent_regsWf (s := { s with pins := _ }) _ _ h) h
  case pmEvent => exact regsWf_ite h h
  case snoopInv ra => exact queueSnoop_regsWf ra h
  case snoopSync => exact syncSnoops_regsWf h
  case powerOn => exact powerOn_regsWf s
  case reset => exact processorReset_regsWf _
  case debugRequest | setEdbcr0 | setDberc0 | clearEdbsr0 => exact onced_regsWf h h
  case setEdbsrmsk0 => exact onced_regsWf h (regsWf_ite h h)
  case debugExit pc => exact onced_regsWf h (regsWf_ite (h.setPc (s := { s with dbg := _ }) (even_and pc (by decide))) h)
  all_goals exact h

theorem arriveAll_regsWf (l : List EnvEvent) (h : s.regsWf) : (s.arriveAll l).regsWf := by
  induction l generalizing s with
  | nil => exact h
  | cons e l ih => exact ih (arrive_regsWf e h)

theorem powerStep_regsWf (h : s.regsWf) : s.powerStep.regsWf :=
  have stopped : s.toStopped.regsWf := snoopSome_regsWf _ h
  have halted : s.toHalted.regsWf := flushBuffers_regsWf h
  regsWf_ite h <| regsWf_ite (regsWf_ite h h) <| regsWf_ite (regsWf_ite stopped (regsWf_ite h h)) (regsWf_ite halted h)

theorem takeInputs_regsWf (h : s.regsWf) : s.takeInputs.regsWf := by
  unfold State.takeInputs
  split
  · exact h
  · exact arriveAll_regsWf (s := { s with env := _ }) _ h

theorem begin_regsWf (h : s.regsWf) : s.begin.regsWf :=
  regsWf_ite (processorReset_regsWf _)
    (settleBuffers_regsWf (powerStep_regsWf (takeInputs_regsWf (s := s.clearEvents) h)))

/-! Fetching. -/

/-- Every state a fetch carries keeps the register invariant. -/
def Fetched.RegsWf : Fetched → Prop
  | .instr _ s => s.regsWf
  | .illegal s => s.regsWf
  | .done s => s.regsWf
  | .stop _ => True

theorem Fetched.regsWf_ite {c : Prop} [Decidable c] {f g : Fetched} (hf : f.RegsWf) (hg : g.RegsWf) :
    (if c then f else g).RegsWf := by split <;> assumption

theorem fetchMiss_regsWf (first : Bool) (ea : Word) (mif : Bool) (h : s.regsWf) : (fetchMiss first ea mif s).regsWf :=
  Machine.regsWf_ite (errorReport_regsWf _ (asyncMcheck_regsWf _ _ _ h)) (raiseInstrTlb_regsWf _ _ h)

theorem fetchBarred_regsWf (first : Bool) (ra bits : Word) (h : s.regsWf) : (fetchBarred first ra bits s).regsWf :=
  Machine.regsWf_ite (errorReport_regsWf _ (asyncMcheck_regsWf _ _ _ h)) (raiseIsi_regsWf _ h)

theorem fetchBytes_regsWf (first : Bool) (ea : Word) (p : Page) (n : Nat) (h : s.regsWf) :
    (s.fetchBytes first ea p n).RegsWf := by
  have beat := readBeat_regsWf .instr ea p n h
  unfold State.fetchBytes
  generalize s.readBeat .instr ea p n = r at beat ⊢
  cases r with
  | ok b t => exact drawIf_regsWf _ _ beat
  | exc t => exact Machine.regsWf_ite beat beat
  | stop f => trivial

theorem decodeFetched_regsWf (vle : Bool) (b : List Byte) (h : s.regsWf) : (decodeFetched vle b s).RegsWf := by
  unfold decodeFetched
  split <;> exact h

theorem secondPage_regsWf (p : Page) (ea : Word) (h : s.regsWf) : (s.secondPage p ea).2.regsWf := by
  unfold State.secondPage
  split
  · exact translate_regsWf _ _ h
  · exact h

theorem fetchSecond_regsWf (first : Bool) (p : Page) (b : List Byte) (h : s.regsWf) :
    (s.fetchSecond first p b).RegsWf := by
  have paged := secondPage_regsWf p (s.pc + 2#32) h
  unfold State.fetchSecond
  dsimp only
  generalize s.secondPage p (s.pc + 2#32) = r at paged ⊢
  obtain ⟨q, t⟩ := r
  cases q with
  | none => exact fetchMiss_regsWf _ _ _ paged
  | some q =>
    refine Fetched.regsWf_ite (fetchBarred_regsWf _ _ _ paged) (Fetched.regsWf_ite (fetchBarred_regsWf _ _ _ paged) ?_)
    have bytes := fetchBytes_regsWf first (s.pc + 2#32) q 2 paged
    dsimp only
    generalize t.fetchBytes first (s.pc + 2#32) q 2 = f at bytes ⊢
    cases f with
    | ok b' u => exact decodeFetched_regsWf _ _ (s := { u with cur := _ }) bytes
    | exc u => exact bytes
    | stop f => trivial

theorem fetchVle_regsWf (first : Bool) (p : Page) (h : s.regsWf) : (s.fetchVle first p).RegsWf := by
  have bytes := fetchBytes_regsWf first s.pc p 2 h
  refine Fetched.regsWf_ite (fetchBarred_regsWf _ _ _ h) ?_
  generalize s.fetchBytes first s.pc p 2 = f at bytes ⊢
  cases f with
  | ok b t => exact Fetched.regsWf_ite (fetchSecond_regsWf _ _ _ bytes) (decodeFetched_regsWf _ _ (s := { t with cur := _ }) bytes)
  | exc t => exact bytes
  | stop f => trivial

theorem fetchBookE_regsWf (first : Bool) (p : Page) (h : s.regsWf) : (s.fetchBookE first p).RegsWf := by
  have bytes := fetchBytes_regsWf first s.pc p 4 h
  unfold State.fetchBookE
  generalize s.fetchBytes first s.pc p 4 = f at bytes ⊢
  cases f with
  | ok b t => exact decodeFetched_regsWf _ _ (s := { t with cur := _ }) bytes
  | exc t => exact bytes
  | stop f => trivial

theorem fetch_regsWf (p : Option Page) (h : s.regsWf) : (s.fetch p).RegsWf := by
  have begun : { s with ints := { s.ints with handlerFetch := false } }.regsWf := h
  unfold State.fetch
  cases p with
  | none => exact fetchMiss_regsWf _ _ _ begun
  | some p =>
    exact Fetched.regsWf_ite (fetchBarred_regsWf _ _ _ begun) <|
      Fetched.regsWf_ite (fetchBarred_regsWf _ _ _ begun) <|
      Fetched.regsWf_ite (fetchVle_regsWf _ _ begun) (fetchBookE_regsWf _ _ begun)

/-! Asynchronous interrupts. -/

theorem takeCheck_regsWf (h : s.regsWf) : (takeCheck s).regsWf :=
  takeInterrupt_regsWf _ _ (s := { s with dbg := _ }) h

theorem takeNmi_regsWf (h : s.regsWf) : (takeNmi s).regsWf :=
  takeCheck_regsWf (s := { s with ints := _, resv := _ }) h

theorem takePerf_regsWf (h : s.regsWf) : (takePerf s).regsWf :=
  takeInterrupt_regsWf _ _ (s := { s with pm := _ }) h

/-- The state an interrupt leads to, if there is one, keeps the register invariant. -/
def MaybeWf (o : Option State) : Prop := ∀ t ∈ o, t.regsWf

theorem MaybeWf.none : MaybeWf none := fun _ ht => absurd ht (by simp)

theorem MaybeWf.some {t : State} (ht : t.regsWf) : MaybeWf (some t) := fun _ hu => Option.mem_some.mp hu ▸ ht

theorem MaybeWf.ite {c : Prop} [Decidable c] {o q : Option State} (ho : MaybeWf o) (hq : MaybeWf q) :
    MaybeWf (if c then o else q) := by split <;> assumption

theorem urgent_regsWf (h : s.regsWf) : MaybeWf s.urgent :=
  .ite (.some (takeNmi_regsWf h)) (.ite (.some (takeCheck_regsWf h)) .none)

theorem maskable_regsWf (h : s.regsWf) : MaybeWf s.maskable :=
  have int (t : IntType) : MaybeWf (some (takeInterrupt t s.pc s)) := .some (takeInterrupt_regsWf t _ h)
  .ite (.some (takeDebug_regsWf h)) <| .ite (int _) <| .ite (int _) <| .ite (int _) <| .ite (int _) <| .ite (int _) <|
    .ite (.some (takePerf_regsWf h)) .none

theorem foremost_regsWf (h : s.regsWf) : MaybeWf s.foremost :=
  .ite (.ite (.some (takeDebug_regsWf h)) .none) (maskable_regsWf h)

/-! Debug events round an instruction. -/

theorem closeDvc_regsWf (w : DvcWindow) (h : s.regsWf) : (s.closeDvc w).regsWf := setOfst_regsWf _ _ _ h

theorem settleDvc_regsWf (h : s.regsWf) : s.settleDvc.regsWf := by
  unfold State.settleDvc
  split
  · exact h
  · exact regsWf_ite (closeDvc_regsWf _ h) h

theorem preDebug_regsWf (i : Instr) (h : s.regsWf) : (preDebug i s).regsWf := by
  have post {t : State} (c : Bool) (en own bits : Word) (vle : Option Bool) (de : Bool) (ht : t.regsWf) :
      (if c then t.postIf en own bits vle de else t).regsWf := regsWf_ite (postIf_regsWf _ _ _ _ _ ht) ht
  unfold preDebug
  refine regsWf_ite h ?_
  dsimp only
  split
  · exact postIf_regsWf (s := { State.mk .. with ev := _ }) _ _ _ _ _ (post _ _ _ _ _ _ (post _ _ _ _ _ _ h))
  · exact postIf_regsWf _ _ _ _ _ (post _ _ _ _ _ _ (post _ _ _ _ _ _ h))
  · exact post _ _ _ _ _ _ (post _ _ _ _ _ _ h)

theorem undoFail_regsWf {s0 : State} (h0 : s0.regsWf) (h : s.regsWf) : (undoFail s0 s).regsWf := by
  obtain ⟨hm, -, -, hp⟩ := h0
  obtain ⟨-, hx, hf, -⟩ := h
  exact ⟨hm, hx, hf, hp⟩

theorem completedDac_regsWf (s0 : State) (d : DacHits) (h : s.regsWf) : (completedDac s0 d s).regsWf := by
  have posted (de : Bool) := postDac_regsWf d false de h
  exact regsWf_ite h <| regsWf_ite (regsWf_ite (posted _) (setOfst_regsWf _ _ _ (posted _))) (posted _)

theorem owesCirpt_regsWf (de : Bool) (h : s.regsWf) : (s.owesCirpt de).regsWf := regsWf_ite h h

theorem postTaken_regsWf (irpt cirpt de : Bool) (h : s.regsWf) : (postTaken irpt cirpt de s).regsWf := by
  have first : (if irpt then s.postIf 0x02000000#32 0x02000000#32 dbIrpt none de else s).regsWf :=
    regsWf_ite (postIf_regsWf _ _ _ _ _ h) h
  exact regsWf_ite (owesCirpt_regsWf _ (postEvent_regsWf _ _ _ _ first)) first

theorem postIcmp_regsWf (s0 : State) (h : s.regsWf) : (postIcmp s0 s).regsWf :=
  regsWf_ite (postEvent_regsWf _ _ _ _ h) h

theorem failedDac_regsWf {s0 : State} (en : DacHits) (e : DbgEvents) (h0 : s0.regsWf) (h : s.regsWf) :
    (failedDac s0 en e s).regsWf := by
  have posted (c : Bool) : (if c then s.postDac en true s0.msrDe else s).regsWf := regsWf_ite (postDac_regsWf _ _ _ h) h
  have counted := countDebug_regsWf s0.dbg { e with irpt := false, cirpt := false } true s0.msrDe (posted en.any)
  have undone := undoFail_regsWf h0 counted
  exact regsWf_ite (takeDebug_regsWf (s := { undoFail s0 _ with dbg := _ }) undone) <|
    regsWf_ite undone (countDebug_regsWf _ _ _ _ (postTaken_regsWf _ _ _ counted))

theorem normalDebug_regsWf (s0 : State) (en : DacHits) (e : DbgEvents) (done : Bool) (h : s.regsWf) :
    (normalDebug s0 en e done s).regsWf := by
  have dac : (if done then completedDac s0 en s else s).regsWf := regsWf_ite (completedDac_regsWf s0 en h) h
  have taken := postTaken_regsWf e.irpt e.cirpt s0.msrDe dac
  exact countDebug_regsWf _ _ _ _ (regsWf_ite (postIcmp_regsWf s0 taken) taken)

/-! The end of a step. -/

theorem endDebug_regsWf {s0 : State} (ran : Ran) (hits : List Bool) (h0 : s0.regsWf) (h : s.regsWf) :
    (endDebug s0 ran hits s).regsWf := by
  refine regsWf_ite (regsWf_ite h h) ?_
  exact regsWf_ite (failedDac_regsWf _ _ h0 h) (normalDebug_regsWf s0 _ _ _ h)

theorem countPerf_regsWf (old : PerfMon) (pr pmm : Bool) (st : PmStep) (h : s.regsWf) :
    (s.countPerf old pr pmm st).regsWf := regsWf_ite h h

theorem endPerf_regsWf (s0 : State) (ran : Ran) (h : s.regsWf) : (endPerf s0 ran s).regsWf := countPerf_regsWf _ _ _ _ h

theorem endWindow_regsWf {s0 : State} (ran : Ran) (hits : List Bool) (h0 : s0.regsWf) (h : s.regsWf) :
    (endWindow s0 ran hits s).regsWf := by
  unfold endWindow
  split
  · exact endPerf_regsWf _ _ (endDebug_regsWf _ _ h0 h)
  · exact regsWf_ite (endPerf_regsWf _ _ (endDebug_regsWf (s := { s0 with dbg := _, free := _ }) _ _ h0 h0))
      (endPerf_regsWf _ _ (endDebug_regsWf _ _ h0 h))

theorem endStep_regsWf {s0 : State} (ran : Ran) (hits : List Bool) (h0 : s0.regsWf) (h : s.regsWf) :
    (endStep s0 ran hits s).regsWf := endSync_regsWf _ _ _ (endWindow_regsWf ran hits h0 h)

/-! A step, given the meanings of the instructions. -/

/-- The meanings of the instructions keep the register invariant. -/
def Meaning.RegsWf (ex : Meaning) : Prop := ∀ i s, s.regsWf → OutWf (ex i s)

theorem executeWith_regsWf {ex : Meaning} {s0 : State} (hits : List Bool) (i : Instr) (hex : ex.RegsWf) (h0 : s0.regsWf)
    (h : s.regsWf) : OutWf (executeWith ex s0 hits i s) := by
  have recorded := preDebug_regsWf i h
  refine .ite (endStep_regsWf _ _ h0 (takeDebug_regsWf recorded)) (.ite (endStep_regsWf _ _ h0 recorded) ?_)
  have run := hex i _ recorded
  generalize ex i (preDebug i s) = o at run ⊢
  cases o with
  | next t => exact endStep_regsWf _ _ h0 run
  | fault f => trivial
  | refused r => trivial

theorem raiseRefused_regsWf (h : s.regsWf) : (raiseRefused s).regsWf :=
  regsWf_ite (raiseSync_regsWf _ _ h) (raiseSync_regsWf _ _ h)

theorem started_regsWf (h : s.regsWf) : s.started.regsWf := regsWf_ite h h

theorem runInstr_regsWf {ex : Meaning} (hex : ex.RegsWf) (h : s.regsWf) : OutWf (runInstr ex s) := by
  have looked (vle : Bool) (hits : List Bool) := postIacFrom_regsWf vle 0 hits (translate_regsWf s.msrIs s.pc h)
  unfold runInstr
  refine .ite (endStep_regsWf _ _ h (takeDebug_regsWf (looked _ _))) (.ite (endStep_regsWf _ _ h (looked _ _)) ?_)
  have fetched (vle : Bool) (hits : List Bool) (p : Option Page) := fetch_regsWf p (started_regsWf (looked vle hits))
  split
  next heq => exact endStep_regsWf _ _ h (heq ▸ fetched _ _ _ : (Fetched.done _).RegsWf)
  next heq => exact endStep_regsWf _ _ h (raiseRefused_regsWf (heq ▸ fetched _ _ _ : (Fetched.illegal _).RegsWf))
  · trivial
  next heq => exact executeWith_regsWf _ _ hex h (heq ▸ fetched _ _ _ : (Fetched.instr _ _).RegsWf)

theorem awake_regsWf (h : s.regsWf) : s.awake.regsWf := regsWf_ite h h

theorem stepCalm_regsWf {ex : Meaning} (hex : ex.RegsWf) (h : s.regsWf) : OutWf (stepCalm ex s) := by
  have ends {t : State} (ht : t.regsWf) : OutWf (.next (endStep s none [] t)) := endStep_regsWf _ _ h ht
  have first := foremost_regsWf h
  refine .ite (.ite (ends (takeDebug_regsWf h)) (ends (t := s.enterHalt) h)) <| .ite (ends h) <|
    .ite (runInstr_regsWf hex h) ?_
  split
  next t ht => exact ends (first t ht)
  · exact .ite (ends (started_regsWf h)) (runInstr_regsWf hex (awake_regsWf h))

theorem stepFrom_regsWf {ex : Meaning} (hex : ex.RegsWf) (h : s.regsWf) : OutWf (stepFrom ex s) := by
  have first (c : Bool) : MaybeWf (if c then none else s.urgent) := .ite .none (urgent_regsWf h)
  refine .ite (endStep_regsWf _ _ h h) ?_
  split
  next t ht => exact endStep_regsWf (s0 := s.noWindow) (s := t.noWindow) _ _ h (first _ t ht)
  · exact stepCalm_regsWf hex h

theorem stepNow_regsWf {ex : Meaning} (hex : ex.RegsWf) (h : s.regsWf) : OutWf (stepNow ex s) :=
  stepFrom_regsWf hex (viewOld_regsWf _ h)

theorem cutShort_regsWf {t : State} (hs : s.regsWf) (ht : t.regsWf) : (s.cutShort t).regsWf := by
  obtain ⟨hm, hx, hf, hp⟩ : (if Config.freeBit t.free then t else s).regsWf := regsWf_ite ht hs
  simp only [State.cutShort, State.regsWf]
  exact ⟨hm, hx, hf, hp⟩

theorem interrupted_regsWf {ex : Meaning} (hex : ex.RegsWf) (h : s.regsWf) : (s.interrupted ex).regsWf := by
  refine regsWf_ite ?_ h
  have run := stepNow_regsWf hex (settleDvc_regsWf (begin_regsWf (s := { s with env := [] }) h))
  split
  next heq => exact cutShort_regsWf h (run.of_eq heq)
  · exact h
  · exact h

theorem stepWith_regsWf {ex : Meaning} (hex : ex.RegsWf) (h : s.regsWf) : OutWf (stepWith ex s) :=
  stepNow_regsWf hex (settleDvc_regsWf (begin_regsWf (interrupted_regsWf hex h)))

end

/-- Settles O4: each part of a step keeps the register invariant, and so do the 528 instructions, each through the shared
operation that it is a case of. -/
theorem stepKeepsRegisters : Obligations.StepKeepsRegisters := by
  intro s t h hstep
  exact (stepWith_regsWf (fun i _ hs => exec_regsWf i hs) h).of_eq hstep

end Sys2Proof.Machine
end

section
/-! PROOF. `mfspr` and `mtspr`: which register a number names, what software owns of the debug registers, and the values that
are read (O26). -/

namespace Sys2Proof.Machine

/-! Ownership without an external debugger (61_debug.md R2201). -/

/-- The bits of a debug register that software owns while DBCR0[EDM] is 0; all ones for other registers. -/
def Spr.softMask : Spr → Word
  | .dbcr0 => 0x7FFFFFE1#32
  | .dbcr1 => 0xFFC0FFC0#32
  | .dbcr4 => 0x5000FF00#32
  | .dbcr5 => 0xFFC0FFC0#32
  | .devent => 0xFF0000FF#32
  | _ => 0xFFFFFFFF#32

theorem softOwns_of_not_edm {d : Debug} (h : d.edm = false) (own : Word) : d.softOwns own = true := by
  simp [Debug.softOwns, h]

theorem ownMask_of_not_edm {d : Debug} (h : d.edm = false) (r : Spr) : d.ownMask r = r.softMask := by
  cases r <;>
    simp [Debug.ownMask, Debug.ownPairs, Debug.ownBits, Debug.ownDbcr0, Spr.softMask, softOwns_of_not_edm h, h]

theorem implMask_softMask (d : Debug) (r : Spr) : d.implMask r = r.softMask :=
  ownMask_of_not_edm (d := { d with dbcr0 := 0#32 }) (by simp [Debug.edm]) r

/-! Reading. -/

section
variable {s : State}

theorem sprOpen_of_owned (h : s.dbg.edm = false) {r : Spr} (hesr : r ≠ .esr) (hdev : r ≠ .devent) : s.sprOpen r = 0#32 := by
  have owned : ~~~s.dbg.ownMask r &&& s.dbg.implMask r = 0#32 := by
    rw [ownMask_of_not_edm h, implMask_softMask, BitVec.and_comm, BitVec.and_not_self]
    rfl
  unfold State.sprOpen
  split
  · exact absurd rfl hesr
  · rfl
  · exact absurd rfl hdev
  · exact owned

theorem sprOpen_devent (h : s.dbg.edm = false) : s.sprOpen .devent = 0xFF#32 := by
  simp [State.sprOpen, ownMask_of_not_edm h, implMask_softMask, Spr.softMask]

/-- `mfspr` of a number that names a readable register, where the mode allows it. -/
theorem exec_mfspr_of_named {n : BitVec 10} {e : SprEntry} (rt : Gpr) (hn : sprNamed n.toNat = some e)
    (hr : e.readable = true) (hp : n.getLsbD 4 = false ∨ s.msr.getLsbD 14 = false) :
    exec (.mfspr rt n) s = .next ((s.mfspr e.reg rt).advance 4) := by
  have allowed : (sprPrivileged n && s.user) = false := Bool.and_eq_false_iff.mpr hp
  simp [execMfspr, hn, hr, allowed]

theorem mfspr_word {r : Spr} (rt : Gpr) (ho : s.sprOpen r = 0#32) (hh : s.sprHigh r = none) :
    s.mfspr r rt = s.setGprW rt (s.sprValue r) := by
  simp [State.mfspr, ho, hh]

/-- Writing the low word of a register and going on is an integer result without flags. -/
theorem setGprW_advance_spec (s : State) (rt : Gpr) (v : Word) :
    IntResult 4 rt v none none false s ((s.setGprW rt v).advance 4) := result_spec s 4 rt v none none false

/-- What `mfspr` does with a register of 32 bits none of which reads as any value. -/
theorem runs_mfspr_word {n : BitVec 10} {e : SprEntry} {v : Word} (rt : Gpr) (hn : sprNamed n.toNat = some e)
    (hr : e.readable = true) (hp : n.getLsbD 4 = false ∨ s.msr.getLsbD 14 = false) (ho : s.sprOpen e.reg = 0#32)
    (hh : s.sprHigh e.reg = none) (hv : s.sprValue e.reg = v) :
    Runs (.mfspr rt n) s (IntResult 4 rt v none none false s) := by
  refine ⟨_, exec_mfspr_of_named rt hn hr hp, ?_⟩
  rw [mfspr_word rt ho hh, hv]
  exact setGprW_advance_spec s rt v

/-- The number `p.1` names a readable register, of 32 bits of which none is the debugger's or reads as any value, and `p.2` is
its value. -/
def State.ReadsAs (s : State) (p : Nat × Word) : Prop :=
  ∃ e, sprNamed p.1 = some e ∧ e.readable = true ∧ e.reg ≠ .esr ∧ e.reg ≠ .devent ∧ s.sprHigh e.reg = none ∧
    s.sprValue e.reg = p.2

theorem runs_mfspr_of_readsAs {n : BitVec 10} {p : Nat × Word} (rt : Gpr) (hd : s.dbg.edm = false)
    (hp : n.getLsbD 4 = false ∨ s.msr.getLsbD 14 = false) (h : s.ReadsAs p) (hn : n.toNat = p.1) :
    Runs (.mfspr rt n) s (IntResult 4 rt p.2 none none false s) := by
  obtain ⟨e, he, hr, hesr, hdev, hh, hv⟩ := h
  exact runs_mfspr_word rt (hn ▸ he) hr hp (sprOpen_of_owned hd hesr hdev) hh hv

theorem reservation_ats (b : Bool) : (if b then 0x80#32 else 0#32) = boolWord b <<< 7 := by cases b <;> rfl

theorem mfspr_devent (hd : s.dbg.edm = false) (rt : Gpr) :
    s.mfspr .devent rt =
      { s with free := s.free + 2 }.setGprW rt (insertBits s.dbg.devent 0xFF#32 (Config.freeWord s.free)) := by
  rw [State.mfspr, sprOpen_devent hd]
  rfl

theorem hiW_append_loW (d : DWord) : hiW d ++ loW d = d := by
  rw [hiW, loW, BitVec.extractLsb'_append_extractLsb'_eq_extractLsb' (by rfl), BitVec.extractLsb'_eq_self]

theorem mfspr_pair {r : Spr} {d : DWord} (rt : Gpr) (ho : s.sprOpen r = 0#32) (hh : s.sprHigh r = some (hiW d))
    (hl : s.sprValue r = loW d) : s.mfspr r rt = s.setGprD rt d := by
  simp [State.mfspr, ho, hh, hl, hiW_append_loW]

/-- What `mfspr` does with DVC1 and DVC2. -/
theorem runs_mfspr_pair {n : BitVec 10} {r : Spr} {d : DWord} (rt : Gpr) (hn : sprNamed n.toNat = some ⟨r, true, true⟩)
    (hp : n.getLsbD 4 = false ∨ s.msr.getLsbD 14 = false) (ho : s.sprOpen r = 0#32) (hh : s.sprHigh r = some (hiW d))
    (hl : s.sprValue r = loW d) :
    Runs (.mfspr rt n) s fun t => t.gprD rt = d ∧ SameGprsBut rt s t ∧ Past 4 s t ∧ t.cr = s.cr ∧ t.xer = s.xer ∧
      SameLinks s t ∧ SameSystem s t := by
  refine ⟨_, exec_mfspr_of_named rt hn rfl hp, ?_⟩
  rw [mfspr_pair rt ho hh hl]
  refine ⟨setGprD_gprD_self s rt d, fun q hq => setGprD_gprD_ne s rt q d hq, rfl, rfl, rfl, ?_, ?_⟩
  · simp [SameLinks]
  · simp [SameSystem]

end

/-- Settles O26: a number names a register, which reads as its value but for the bits of ESR and DEVENT that are free; a table
gives each number its register. -/
theorem mfsprReads : Obligations.MfsprReads := by
  intro s rt n hp hd
  refine ⟨fun p hmem => runs_mfspr_of_readsAs rt hd hp ?_, ?_, ?_, ?_⟩
  · revert p
    rw [reservation_ats]
    simp only [List.forall_mem_append, List.forall_mem_cons, List.not_mem_nil, IsEmpty.forall_iff, implies_true, and_true]
    and_intros
    all_goals exact ⟨_, rfl, rfl, by decide, by decide, rfl, rfl⟩
  · rintro rfl hfree
    exact runs_mfspr_word rt rfl rfl hp hfree rfl rfl
  · rintro rfl
    refine ⟨insertBits s.dbg.devent 0xFF#32 (Config.freeWord s.free), fun k hk => ?_,
      _, exec_mfspr_of_named rt (e := ⟨.devent, true, true⟩) rfl rfl hp, ?_⟩
    · have outside : (0xFF#32).getLsbD k = false := BitVec.getLsbD_of_ge 0xFF#8 k hk
      rw [insertBits_getLsbD, outside]
      rfl
    · rw [mfspr_devent hd]
      exact setGprW_advance_spec { s with free := s.free + 2 } rt _
  · simp only [List.forall_mem_cons, List.not_mem_nil, IsEmpty.forall_iff, implies_true, and_true]
    constructor <;> intro hn
    · exact runs_mfspr_pair rt (r := .dvc1) (hn ▸ rfl) hp (sprOpen_of_owned hd (by decide) (by decide)) rfl rfl
    · exact runs_mfspr_pair rt (r := .dvc2) (hn ▸ rfl) hp (sprOpen_of_owned hd (by decide) (by decide)) rfl rfl

end Sys2Proof.Machine
end

section
/-! PROOF. `mtspr`: which write a number asks for, and the registers with a plain write (O27). -/

namespace Sys2Proof.Machine

section
variable {s : State}

/-! Which write a number asks for. -/

/-- `mtspr` of a number that names a writable register, where the mode allows it. -/
theorem exec_mtspr_of_named {n : BitVec 10} {e : SprEntry} (rs : Gpr) (hn : sprNamed n.toNat = some e)
    (hw : e.writable = true) (hp : n.getLsbD 4 = false ∨ s.msr.getLsbD 14 = false) :
    exec (.mtspr n rs) s = (s.mtspr e.reg rs).finish fun _ s => s.advance 4 := by
  have allowed : (sprPrivileged n && s.user) = false := Bool.and_eq_false_iff.mpr hp
  simp [execMtspr, hn, hw, allowed]

/-- What a write that ends well leaves, once the pc is past it. -/
theorem runs_mtspr {n : BitVec 10} {e : SprEntry} {rs : Gpr} {u : State} {P : State → Prop}
    (hn : sprNamed n.toNat = some e) (hw : e.writable = true) (hp : n.getLsbD 4 = false ∨ s.msr.getLsbD 14 = false)
    (hu : s.mtspr e.reg rs = .ok () u) (hP : P (u.advance 4)) : Runs (.mtspr n rs) s P :=
  ⟨_, by rw [exec_mtspr_of_named rs hn hw hp, hu]; rfl, hP⟩

/-! Registers with a plain write. -/

theorem insertBits_ones (old v : Word) : insertBits old 0xFFFFFFFF#32 v = v := by
  apply BitVec.eq_of_getLsbD_eq
  intro i hi
  have bit : (0xFFFFFFFF#32).getLsbD i = true := by
    rw [show 0xFFFFFFFF#32 = BitVec.allOnes 32 from rfl, BitVec.getLsbD_allOnes, decide_eq_true hi]
  rw [insertBits_getLsbD, bit, if_pos rfl]

/-- The debug registers after a write of `v` to one of them by software, while no debugger owns any. -/
def Debug.put (d : Debug) (r : Spr) (v : Word) : Debug :=
  match r with
  | .dbcr0 => { d with dbcr0 := (d.dbcr0 &&& 0x8000001E#32) ||| (v &&& 0x7FFFFFE1#32) }
  | .dbcr1 => { d with dbcr1 := (d.dbcr1 &&& 0x003F003F#32) ||| (v &&& 0xFFC0FFC0#32) }
  | .dbcr2 => { d with dbcr2 := v }
  | .dbcr3 => { d with dbcr3 := v }
  | .dbcr4 => { d with dbcr4 := (d.dbcr4 &&& 0xAFFF00FF#32) ||| (v &&& 0x5000FF00#32) }
  | .dbcr5 => { d with dbcr5 := (d.dbcr5 &&& 0x003F003F#32) ||| (v &&& 0xFFC0FFC0#32) }
  | .dbcr6 => { d with dbcr6 := v }
  | .dbcnt => { d with dbcnt := v }
  | .iac n => { d with iac := d.iac.set n.val v n.isLt }
  | .dac1 => { d with dac1 := v }
  | .dac2 => { d with dac2 := v }
  | .ddam => { d with ddam := v }
  | .devent => { d with devent := (d.devent &&& 0x00FFFF00#32) ||| (v &&& 0xFF0000FF#32) }
  | _ => d

theorem writeDbg_dbg (hd : s.dbg.edm = false) (r : Spr) (v : Word) : (s.writeDbg r v).dbg = s.dbg.put r v := by
  cases r
  case dbcr2 | dbcr3 | dbcr6 | dbcnt | iac | dac1 | dac2 | ddam =>
    simp [State.writeDbg, Debug.put, ownMask_of_not_edm hd, Spr.softMask, insertBits_ones]
  case dbcr0 | dbcr1 | dbcr4 | dbcr5 | devent =>
    simp [State.writeDbg, Debug.put, ownMask_of_not_edm hd, Spr.softMask, insertBits]
  all_goals rfl

/-- It changes nothing else but the record of the step. -/
theorem writeDbg_rest (r : Spr) (v : Word) :
    s.writeDbg r v = { s with dbg := (s.writeDbg r v).dbg, ev := (s.writeDbg r v).ev } := by
  cases r <;> rfl

/-- The number `p.1` names a writable register, and the write leaves `p.2` but for the pc. -/
def State.WritesTo (s : State) (rs : Gpr) (p : Nat × State) : Prop :=
  ∃ e u, sprNamed p.1 = some e ∧ e.writable = true ∧ s.mtspr e.reg rs = .ok () u ∧ OnlyPc 4 p.2 (u.advance 4)

theorem runs_mtspr_of_writesTo {n : BitVec 10} {rs : Gpr} {p : Nat × State}
    (hp : n.getLsbD 4 = false ∨ s.msr.getLsbD 14 = false) (h : s.WritesTo rs p) (hn : n.toNat = p.1) :
    Runs (.mtspr n rs) s (OnlyPc 4 p.2) := by
  obtain ⟨e, u, he, hw, hu, hP⟩ := h
  exact runs_mtspr (hn ▸ he) hw hp hu hP

/-- `mtspr` of the registers that software may own in part, while it owns all of them; as `State.mtspr` for the others. -/
def State.softMtspr (s : State) (r : Spr) (rs : Gpr) : Res Unit :=
  let v := s.gprW rs
  let written (t : State) (r : Spr) : Res Unit := .ok () { t with dbg := s.dbg.put r v, ev := (t.writeDbg r v).ev }
  match r with
  | .dvc1 => .ok () { s with dbg := { s.dbg with dvc1 := s.gprD rs } }
  | .dvc2 => .ok () { s with dbg := { s.dbg with dvc2 := s.gprD rs } }
  | .mas3 => .ok () { s.owe .mas3 with mmu := { s.mmu with mas3 := v } }
  | .dbcr0 => written (s.owe (.dbcr 0)) .dbcr0
  | .dbcr1 => written (s.owe (.dbcr 1)) .dbcr1
  | .dbcr2 => written (s.owe (.dbcr 2)) .dbcr2
  | .dbcr3 => written (s.owe (.dbcr 3)) .dbcr3
  | .dbcr4 => written (s.owe (.dbcr 4)) .dbcr4
  | .dbcr5 => written (s.owe (.dbcr 5)) .dbcr5
  | .dbcr6 => written (s.owe (.dbcr 6)) .dbcr6
  | .iac n => written s (.iac n)
  | .dac1 => written s .dac1
  | .dac2 => written s .dac2
  | .ddam => written s .ddam
  | .devent => written s .devent
  | r => s.mtspr r rs

theorem writeDbg_soft (hd : s.dbg.edm = false) (r : Spr) (v : Word) :
    s.writeDbg r v = { s with dbg := s.dbg.put r v, ev := (s.writeDbg r v).ev } := by
  rw [← writeDbg_dbg hd]
  exact writeDbg_rest r v

theorem mtspr_soft (hd : s.dbg.edm = false) (r : Spr) (rs : Gpr) : s.mtspr r rs = s.softMtspr r rs := by
  have owed (q : SyncReg) (r : Spr) := writeDbg_soft (s := s.owe q) hd r (s.gprW rs)
  have plain (r : Spr) := writeDbg_soft hd r (s.gprW rs)
  cases r
  case dvc1 | dvc2 => simp [State.mtspr, State.softMtspr, softOwns_of_not_edm hd]
  case mas3 =>
    have ones : s.gprW rs &&& 0xFFFFFFFF#32 = s.gprW rs := BitVec.and_allOnes
    change Res.ok () { s.owe .mas3 with mmu := { s.mmu with mas3 := s.gprW rs &&& 0xFFFFFFFF#32 } } = _
    rw [ones]
    rfl
  case dbcr0 | dbcr1 | dbcr2 | dbcr3 | dbcr4 | dbcr5 | dbcr6 => exact congrArg (Res.ok ()) (owed _ _)
  case iac | dac1 | dac2 | ddam | devent => exact congrArg (Res.ok ()) (plain _)
  all_goals rfl

/-- DBCNT is owed while a count is enabled in a debug mode. -/
theorem writesTo_dbcnt (hd : s.dbg.edm = false) (rs : Gpr) :
    s.WritesTo rs (562, (if s.dbg.dbcr0.getLsbD 30 && s.dbg.dbcr3 &&& 0xFFFFFF00#32 != 0#32
      then fun t => { t with sync := { t.sync with old := (.dbcnt, s.dbg.dbcnt) :: t.sync.old } } else id)
        { s with dbg := { s.dbg with dbcnt := s.gprW rs } }) := by
  have counting : (s.dbg.dbcr0.getLsbD 30 && s.dbg.dbcr3 &&& 0xFFFFFF00#32 != 0#32) = s.dbg.counting := by
    simp [Debug.counting, Debug.active, Debug.idm, hd]
  rw [counting]
  cases hc : s.dbg.counting with
  | true =>
    have owes : s.owes .dbcnt = some .dbcnt := by simp [State.owes, Spr.owes, hc]
    have written : s.mtspr .dbcnt rs = .ok () ((s.owe .dbcnt).writeDbg .dbcnt (s.gprW rs)) := by
      simp [State.mtspr, owes, State.writeSpr]
    rw [writeDbg_soft (s := s.owe .dbcnt) hd] at written
    exact ⟨⟨.dbcnt, true, true⟩, _, rfl, rfl, written, advance_spec _ 4⟩
  | false =>
    have owes : s.owes .dbcnt = none := by simp [State.owes, Spr.owes, hc]
    have written : s.mtspr .dbcnt rs = .ok () (s.writeDbg .dbcnt (s.gprW rs)) := by
      simp [State.mtspr, owes, State.writeSpr]
    rw [writeDbg_soft hd] at written
    exact ⟨⟨.dbcnt, true, true⟩, _, rfl, rfl, written, advance_spec _ 4⟩

/-! The timers. -/

theorem tcrWrite_bits (old v : Word) :
    tcrWrite old v = if old &&& 0x30000000#32 = 0#32 then v &&& 0xFFDFE000#32
      else (old &&& 0x30000000#32) ||| (v &&& 0xCFDFE000#32) := by
  unfold tcrWrite
  dsimp only
  simp only [beq_iff_eq]
  split
  · rfl
  · rw [insertBits, BitVec.and_assoc, BitVec.or_comm]
    rfl

end
end Sys2Proof.Machine
end

section
/-! PROOF. `mtspr` of the cache control registers and of MMUCSR0 (O27). -/

namespace Sys2Proof.Machine

section
variable {s : State}

/-! L1CSR0 and L1CSR1. -/

theorem writeL1csr_data_spec (s : State) (v : Word) {t : State} (ht : t = (s.writeL1csr .data v).advance 4) :
    OnlyPc 4
        { s with
          ints := t.ints
          cache := { s.cache with dcache := t.cache.dcache, l1csr0 := v &&& 0xFF1DBEED#32 }
          buf := { s.buf with storeErrs := [], entries := [] } } t ∧
      StoreErrsReported s t ∧ FlashDone v .data s t := by
  rw [writeL1csr_data] at ht
  subst ht
  exact ⟨advance_spec _ 4, flushBuffers_reported s, flash_done _ _ _ _ rfl⟩

/-- The buffers after a write of L1CSR1. -/
theorem writeL1csr_instr_buf (s : State) (v : Word) :
    (s.writeL1csr .instr v).buf =
      { s.buf with
        stale := (s.writeL1csr .instr v).buf.stale
        unsynced := (s.writeL1csr .instr v).buf.unsynced
        unpurged := (s.writeL1csr .instr v).buf.unpurged } := by
  have stale := congrArg State.buf (staleAll_old s.cache.icache.lines s).2
  rw [writeL1csr_instr]
  dsimp only
  split
  · rw [stale]
  · rfl

theorem writeL1csr_instr_spec (s : State) (v : Word) {t : State} (ht : t = (s.writeL1csr .instr v).advance 4) :
    OnlyPc 4
        { s with
          cache := { s.cache with icache := t.cache.icache, l1csr1 := v &&& 0x0001B6E5#32 }
          buf := { s.buf with stale := t.buf.stale, unsynced := t.buf.unsynced, unpurged := t.buf.unpurged } } t ∧
      FlashDone v .instr s t ∧ (v.getLsbD 1 = false → t.buf = s.buf) ∧ (v.getLsbD 1 = true → t.buf.unpurged = []) ∧
      (v.getLsbD 1 = true → sparseWf CacheLine.zero 0 s.cache.icache.lines = true →
        AheadBytes (fun c => ∃ k w, w < 4 ∧ LineDiffers s k (s.cache.icache.line k w) c) s t) := by
  have buf : t.buf = { s.buf with stale := t.buf.stale, unsynced := t.buf.unsynced, unpurged := t.buf.unpurged } := by
    rw [ht]
    exact writeL1csr_instr_buf s v
  rw [← buf]
  rw [writeL1csr_instr] at ht
  subst ht
  refine ⟨advance_spec _ 4, flash_done _ _ _ _ rfl, fun hv => ?_, fun hv => ?_, fun hv hw => ?_⟩
  · simp [hv, -BitVec.getLsbD_eq_getElem]
  · simp [hv, -BitVec.getLsbD_eq_getElem]
  · intro c
    simpa [hv, -BitVec.getLsbD_eq_getElem] using staleAll_cache s s.cache.icache hw c

/-! L1FINV0 (22_cache.md R433). -/

/-- `mtspr` of L1FINV0, whose command ends well. -/
theorem mtspr_l1finv0 {rs : Gpr} {u : State} (hu : s.finv0 (s.gprW rs) = .ok () u) :
    s.mtspr .l1finv0 rs = .ok () { u with cache := { u.cache with l1finv0 := s.gprW rs &&& 0x03000FE3#32 } } := by
  change (s.finv0 (s.gprW rs)).andThen _ = _
  rw [hu]
  rfl

theorem finv0_drop {v : Word} (h : v.extractLsb' 0 2 = 0#2) :
    s.finv0 v = .ok () (s.putLine .data (finvSet v) (finvWay v) (s.cache.dcache.line (finvSet v) (finvWay v)).release) := by
  simp [State.finv0, h]

theorem finv0_flush {v : Word} (h : v.extractLsb' 0 2 = 1#2 ∨ v.extractLsb' 0 2 = 2#2) :
    s.finv0 v = s.finvFlush (finvSet v) (finvWay v) (decide (v.extractLsb' 0 2 = 2#2)) := by
  rcases h with h | h <;> simp [State.finv0, h]

theorem finv0_point {v : Word} (h : v.extractLsb' 0 2 = 3#2) :
    s.finv0 v = .ok () (s.setCache .data { s.cache.dcache with rp := BitVec.ofNat 2 (finvWay v) }) := by
  simp [State.finv0, h]

/-- A push of a line whose memory answers, with error checking off, writes its 32 bytes. -/
theorem push_plain {set : Nat} {l : CacheLine} (hc : s.checkOn .data = false) (hram : s.ramFrom (lineAddr set l) 32) :
    s.push false set l = (true, s.putMem false (lineAddr set l) l.data.toList) := by
  have noErr (k : Nat) (hk : k < 4) : s.busErrIn (lineAddr set l + BitVec.ofNat 32 (8 * k)) 8 = false :=
    busErrIn_false fun j hj => by
      rw [BitVec.add_assoc, ← BitVec.ofNat_add]
      exact (hram (8 * k + j) (by omega)).1
  have whole : s.pushLength (lineAddr set l) = 32 := by
    have h0 := noErr 0 (by omega)
    have h1 := noErr 1 (by omega)
    have h2 := noErr 2 (by omega)
    have h3 := noErr 3 (by omega)
    simp only [State.pushLength, List.takeWhile, h0, h1, h2, h3]
    rfl
  have fails : s.pushFails set l = false := by simp [State.pushFails, whole]
  have all : l.data.toList.take 32 = l.data.toList := List.take_of_length_le (by simp)
  simp [State.push, hc, whole, fails, all]

/-! A flush by set and way (22_cache.md R433). -/

/-- A line of a canonical cache after a write of one. -/
theorem line_put {c : Cache} (h : sparseWf CacheLine.zero 0 c.lines = true) (l : CacheLine) {a b set w : Nat} (hb : b < 4)
    (hw : w < 4) : (c.put set w l).line a b = if a = set ∧ b = w then l else c.line a b := by
  have key : a * 4 + b = set * 4 + w ↔ a = set ∧ b = w := by omega
  unfold Cache.put Cache.line
  rw [sparseGet_sparsePut _ _ 0 _ _ _ h]
  simp only [key]

theorem put_wf {c : Cache} (h : sparseWf CacheLine.zero 0 c.lines = true) (set w : Nat) (l : CacheLine) :
    sparseWf CacheLine.zero 0 (c.put set w l).lines = true :=
  sparseWf_sparsePut _ _ 0 _ _ h (Nat.zero_le _)

/-- The line that a flush leaves. -/
def CacheLine.flushed (l : CacheLine) (inv : Bool) : CacheLine :=
  if inv then l.discard else if l.valid && l.dirtyAny then { l with dirty := 0 } else l

/-- A flush of a line that is valid and modified, with error checking off, writes its bytes. -/
theorem finvFlush_pushed {set w : Nat} {inv : Bool} {l : CacheLine} (hl : s.cache.dcache.line set w = l)
    (hc : s.checkOn .data = false) (hd : (l.valid && l.dirtyAny) = true) (hram : s.ramFrom (lineAddr set l) 32) :
    s.finvFlush set w inv =
      .ok () (((s.putLine .data set w l).putMem false (lineAddr set l) l.data.toList).putLine .data set w (l.flushed inv)) := by
  have push : (s.putLine .data set w l).push false set l = _ := push_plain hc hram
  cases inv <;> simp [State.finvFlush, hl, hc, hd, push, CacheLine.flushed]

/-- Of any other line it writes nothing. -/
theorem finvFlush_kept {set w : Nat} {inv : Bool} {l : CacheLine} (hl : s.cache.dcache.line set w = l)
    (hc : s.checkOn .data = false) (hd : (l.valid && l.dirtyAny) = false) :
    s.finvFlush set w inv =
      .ok () (if inv then (s.putLine .data set w l).putLine .data set w (l.flushed inv) else s.putLine .data set w l) := by
  cases inv <;> simp [State.finvFlush, hl, hc, hd, CacheLine.flushed]

/-- WHAT A FLUSH LEAVES, with error checking off and a canonical cache. -/
structure FlushLeaves (s : State) (set w : Nat) (inv : Bool) (l : CacheLine) (u : State) : Prop where
  rest : u = { s with
    cache := { s.cache with dcache := u.cache.dcache }
    mem := if l.valid && l.dirtyAny then s.mem.putBytes (lineAddr set l) l.data.toList else s.mem
    buf := u.buf }
  buffers : BuffersAfter s u
  kept : (l.valid && l.dirtyAny) = false → u.buf = s.buf
  rp : u.cache.dcache.rp = s.cache.dcache.rp
  lines : ∀ a b, b < 4 →
    u.cache.dcache.line a b = if a = set ∧ b = w then l.flushed inv else s.cache.dcache.line a b

theorem finvFlush_leaves {set w : Nat} (inv : Bool) (hw : w < 4) (hc : s.checkOn .data = false)
    (hwf : sparseWf CacheLine.zero 0 s.cache.dcache.lines = true) (hm : s.mem.wf = true) {l : CacheLine}
    (hl : s.cache.dcache.line set w = l) (hram : (l.valid && l.dirtyAny) = true → s.ramFrom (lineAddr set l) 32) :
    ∃ u, s.finvFlush set w inv = .ok () u ∧ FlushLeaves s set w inv l u := by
  have twice (l' : CacheLine) (a b : Nat) (hb : b < 4) :
      ((s.cache.dcache.put set w l).put set w l').line a b = if a = set ∧ b = w then l' else s.cache.dcache.line a b := by
    rw [line_put (put_wf hwf _ _ _) _ hb hw, line_put hwf _ hb hw]
    split <;> rfl
  by_cases hd : (l.valid && l.dirtyAny) = true
  · have plain (j : Nat) (hj : j < l.data.toList.length) :=
      (hram hd j (by simpa using hj)).2
    have records := putMem_records false (s.putLine .data set w l) (lineAddr set l) l.data.toList hm (by simp) plain
    refine ⟨_, finvFlush_pushed hl hc hd (hram hd), ?_, ⟨records.snoops, records.errs, records.old⟩, ?_, rfl, twice _⟩
    · rw [hd, if_pos rfl, putMem_ram (s := s.putLine .data set w l) plain]
      rfl
    · simp [hd]
  · have hd := Bool.eq_false_of_not_eq_true hd
    have same {u : State} (hm : u.mem = s.mem) (hb : u.buf = s.buf) : BuffersAfter s u :=
      ⟨congrArg Buffers.snoops hb, congrArg Buffers.storeErrs hb,
        OldBytes.same hm (congrArg Buffers.stale hb) (congrArg Buffers.unsynced hb) (congrArg Buffers.unpurged hb)⟩
    cases inv with
    | false =>
      refine ⟨_, finvFlush_kept hl hc hd, by simp only [hd]; rfl, same rfl rfl, fun _ => rfl, rfl, fun a b hb => ?_⟩
      have stays : l.flushed false = l := by simp [CacheLine.flushed, hd]
      rw [stays]
      exact line_put hwf _ hb hw
    | true =>
      exact ⟨_, finvFlush_kept hl hc hd, by simp only [hd]; rfl, same rfl rfl, fun _ => rfl, rfl, twice _⟩

/-! L1FINV1 (22_cache.md R433). -/

/-- A line of the instruction cache is dropped by set and way. -/
def State.dropInstr (s : State) (set w : Nat) : State :=
  let l := s.cache.icache.line set w
  (if l.valid then (s.staleLine set l).purge (lineAddr set l) else s).putLine .instr set w l.discard

theorem dropInstr_rest (set w : Nat) :
    s.dropInstr set w =
      { s with
        cache := { s.cache with icache := s.cache.icache.put set w (s.cache.icache.line set w).discard }
        buf :=
          { s.buf with
            stale := (s.dropInstr set w).buf.stale
            unsynced := (s.dropInstr set w).buf.unsynced
            unpurged := (s.dropInstr set w).buf.unpurged } } := by
  unfold State.dropInstr State.staleLine
  dsimp only
  split <;> rfl

theorem dropInstr_of_valid {set w : Nat} {l : CacheLine} (hl : s.cache.icache.line set w = l) (hv : l.valid = true) :
    s.dropInstr set w = ((s.staleLine set l).purge (lineAddr set l)).putLine .instr set w l.discard := by
  simp only [State.dropInstr, hl, hv, if_true]

theorem dropInstr_of_not_valid {set w : Nat} {l : CacheLine} (hl : s.cache.icache.line set w = l) (hv : l.valid = false) :
    s.dropInstr set w = s.putLine .instr set w l.discard := by
  simp only [State.dropInstr, hl, hv, Bool.false_eq_true, if_false]

theorem dropInstr_ahead {set w : Nat} {l : CacheLine} (hl : s.cache.icache.line set w = l) :
    AheadBytes (LineDiffers s set l) s (s.dropInstr set w) := by
  cases hv : l.valid with
  | true =>
    rw [dropInstr_of_valid hl hv]
    exact staleLine_old s set l
  | false =>
    rw [dropInstr_of_not_valid hl hv]
    have none (c : Host.Cell) : ¬LineDiffers s set l c := fun h => Bool.false_ne_true (hv.symm.trans h.1)
    exact fun c => ⟨(or_iff_left (none c)).symm, (or_iff_left (none c)).symm⟩

theorem dropInstr_purged {set w : Nat} {l : CacheLine} (hl : s.cache.icache.line set w = l) :
    if l.valid then Purged (lineAddr set l) s (s.dropInstr set w)
      else (s.dropInstr set w).buf.unpurged = s.buf.unpurged := by
  cases hv : l.valid with
  | true =>
    have kept : (s.staleLine set l).buf.unpurged = s.buf.unpurged := by rw [staleLine_rest]
    have purged := purge_done (s.staleLine set l) (lineAddr set l)
    rw [Purged, kept] at purged
    rw [dropInstr_of_valid hl hv]
    exact purged
  | false =>
    rw [dropInstr_of_not_valid hl hv]
    rfl

theorem mtspr_l1finv1 (rs : Gpr) :
    s.mtspr .l1finv1 rs = .ok ()
      { s.finv1 (s.gprW rs) with cache := { (s.finv1 (s.gprW rs)).cache with l1finv1 := s.gprW rs &&& 0x03000FE3#32 } } := rfl

theorem finv1_drop {v : Word} (h : v.extractLsb' 0 2 = 0#2) : s.finv1 v = s.dropInstr (finvSet v) (finvWay v) := by
  simp [State.finv1, h, State.dropInstr]

theorem finv1_point {v : Word} (h : v.extractLsb' 0 2 = 3#2) :
    s.finv1 v = s.setCache .instr { s.cache.icache with rp := BitVec.ofNat 2 (finvWay v) } := by
  simp [State.finv1, h]

theorem finv1_reserved {v : Word} (h : v.extractLsb' 0 2 = 1#2 ∨ v.extractLsb' 0 2 = 2#2) :
    s.finv1 v =
      { (if Config.freeBit s.free then s.dropInstr (finvSet v) (finvWay v) else s) with free := s.free + 1 } := by
  rcases h with h | h <;> simp [State.finv1, h, State.dropInstr]

/-! MMUCSR0 (21_mmu.md R341). -/

theorem mapFrom_getElem {α : Type} (f : Nat → α → α) (i k : Nat) (l : List α) (hk : k < l.length) :
    (mapFrom f i l)[k]'(by rw [length_mapFrom]; exact hk) = f (i + k) l[k] := by
  induction l generalizing i k with
  | nil => exact absurd hk (Nat.not_lt_zero k)
  | cons a l ih =>
    cases k with
    | zero => rfl
    | succ k =>
      rw [show i + (k + 1) = (i + 1) + k by omega]
      exact ih (i + 1) k (Nat.lt_of_succ_lt_succ hk)

theorem vmap_get {α : Type} {n : Nat} (f : Nat → α → α) (v : Vector α n) (k : Fin n) :
    (vmap f v).get k = f k (v.get k) := by
  have key := mapFrom_getElem f 0 k v.toList (by simp)
  rw [Nat.zero_add] at key
  exact key

theorem flashInvalidate_get (m : Mmu) (k : Fin 32) :
    m.flashInvalidate.tlb.get k = { m.tlb.get k with v := (m.tlb.get k).v && (m.tlb.get k).iprot } := by
  have key : m.flashInvalidate.tlb.get k = _ := vmap_get _ m.tlb k
  rw [key]
  generalize m.tlb.get k = e
  cases h : e.iprot with
  | true =>
    cases e
    simp_all
  | false => simp [h]

theorem mtspr_mmucsr0 (rs : Gpr) :
    s.mtspr .mmucsr0 rs =
      .ok () (if (s.gprW rs).getLsbD 1 then { s with mmu := s.mmu.flashInvalidate } else s) := by
  rfl

theorem settleMas_nil : s.settleMas [] = s := by
  have keep : s.withFields [] = id := rfl
  unfold State.settleMas
  rw [keep, List.map_id, List.map_id]

end
end Sys2Proof.Machine
end

section
/-! PROOF. `mtspr` of every writable register (O27). -/

namespace Sys2Proof.Machine

section
variable {s : State}

/-- L1FINV0 with CCMD 01 or 10, error checking off. -/
theorem mtspr_l1finv0_flush {rs : Gpr} {set w : Nat} {l : CacheLine} (hset : finvSet (s.gprW rs) = set)
    (hway : finvWay (s.gprW rs) = w) (hl : s.cache.dcache.line set w = l)
    (command : (s.gprW rs).extractLsb' 0 2 = 1#2 ∨ (s.gprW rs).extractLsb' 0 2 = 2#2) (hc : s.checkOn .data = false)
    (hwf : sparseWf CacheLine.zero 0 s.cache.dcache.lines = true) (hm : s.mem.wf = true)
    (hram : (l.valid && l.dirtyAny) = true → s.ramFrom (lineAddr set l) 32) :
    ∃ u, s.mtspr .l1finv0 rs = .ok () u ∧ u.cache.l1finv0 = s.gprW rs &&& 0x03000FE3#32 ∧
      FlushLeaves { s with cache := { s.cache with l1finv0 := u.cache.l1finv0 } } set w
        (decide ((s.gprW rs).extractLsb' 0 2 = 2#2)) l u := by
  subst hset hway
  have hw : finvWay (s.gprW rs) < 4 := BitVec.isLt _
  obtain ⟨u, hu, leaves⟩ := finvFlush_leaves (decide ((s.gprW rs).extractLsb' 0 2 = 2#2)) hw hc hwf hm hl hram
  refine ⟨_, mtspr_l1finv0 ((finv0_flush command).trans hu), rfl, ?_, leaves.buffers, leaves.kept, leaves.rp, leaves.lines⟩
  conv_lhs => rw [leaves.rest]

/-- What a write of L1FINV1 leaves that drops its line. -/
def InstrDropped (v : Word) (set : Nat) (w : Nat) (l : CacheLine) (s t : State) : Prop :=
  OnlyPc 4 { s with
    cache := { s.cache with icache := s.cache.icache.put set w l.discard, l1finv1 := v &&& 0x03000FE3#32 }
    buf := { s.buf with stale := t.buf.stale, unsynced := t.buf.unsynced, unpurged := t.buf.unpurged } } t ∧
    AheadBytes (LineDiffers s set l) s t ∧
    if l.valid then Purged (lineAddr set l) s t else t.buf.unpurged = s.buf.unpurged

theorem dropInstr_dropped (v : Word) (set w free : Nat) {t : State}
    (ht : t = { s.dropInstr set w with
      cache := { (s.dropInstr set w).cache with l1finv1 := v &&& 0x03000FE3#32 }
      free := free }) :
    InstrDropped v set w (s.cache.icache.line set w) s (t.advance 4) := by
  subst ht
  refine ⟨?_, dropInstr_ahead rfl, dropInstr_purged rfl⟩
  conv_rhs => rw [dropInstr_rest]
  exact advance_spec _ 4

end

/-- Settles O27: each number names a register, and what its write leaves is a lemma of the register: a list entry each for the
plain ones, and those about the timers, the cache control registers, a flush, a dropped line and MMUCSR0. -/
theorem mtsprWrites : Obligations.MtsprWrites := by
  intro s rs n hp hd
  dsimp only
  refine ⟨fun p hmem => runs_mtspr_of_writesTo hp ?_, ?_, ?_, ?_, ?_, ?_, ?_, ?_, ?_, ?_, ?_, ?_, ?_, ?_⟩
  · revert p
    simp only [List.forall_mem_append, List.forall_mem_cons, List.not_mem_nil, IsEmpty.forall_iff, implies_true, and_true]
    and_intros
    pick_goal 59
    · exact writesTo_dbcnt hd rs
    all_goals exact ⟨_, _, rfl, rfl, mtspr_soft hd _ _, advance_spec _ 4⟩
  · rintro rfl
    refine runs_mtspr (e := ⟨.tcr, true, true⟩) rfl rfl hp rfl ?_
    rw [← tcrWrite_bits]
    exact advance_spec { s with tmr := { s.tmr with tcr := _ } } 4
  · rintro rfl
    exact runs_mtspr (e := ⟨.tbl, false, true⟩) rfl rfl hp rfl (setTb_written s _)
  · rintro rfl
    exact runs_mtspr (e := ⟨.tbu, false, true⟩) rfl rfl hp rfl (setTb_written s _)
  · rintro rfl
    exact runs_mtspr (e := ⟨.l1csr0, true, true⟩) rfl rfl hp rfl (writeL1csr_data_spec (s.owe .l1csr0) _ rfl)
  · rintro rfl
    exact runs_mtspr (e := ⟨.l1csr1, true, true⟩) rfl rfl hp rfl (writeL1csr_instr_spec (s.owe .l1csr1) _ rfl)
  · rintro rfl command
    exact runs_mtspr (e := ⟨.l1finv0, true, true⟩) rfl rfl hp (mtspr_l1finv0 (finv0_drop command)) (advance_spec _ 4)
  · rintro rfl command unchecked wf memWf ram
    obtain ⟨u, hu, bits, leaves⟩ := mtspr_l1finv0_flush rfl rfl rfl command unchecked wf memWf ram
    refine runs_mtspr (e := ⟨.l1finv0, true, true⟩) rfl rfl hp hu
      ⟨?_, leaves.buffers, leaves.kept, leaves.rp, fun c w _ hw => ?_⟩
    · rw [← bits]
      conv_rhs => rw [leaves.rest]
      exact advance_spec _ 4
    · refine (leaves.lines c w hw).trans ?_
      simp only [CacheLine.flushed, decide_eq_true_eq]
      rfl
  · rintro rfl command
    exact runs_mtspr (e := ⟨.l1finv0, true, true⟩) rfl rfl hp (mtspr_l1finv0 (finv0_point command)) (advance_spec _ 4)
  · rintro rfl command
    refine runs_mtspr (e := ⟨.l1finv1, true, true⟩) rfl rfl hp (mtspr_l1finv1 rs) ?_
    rw [finv1_drop command]
    exact dropInstr_dropped _ _ _ _ rfl
  · rintro rfl command
    refine runs_mtspr (e := ⟨.l1finv1, true, true⟩) rfl rfl hp (mtspr_l1finv1 rs) ?_
    rw [finv1_reserved command]
    cases Config.freeBit s.free with
    | true => exact .inl (dropInstr_dropped _ _ _ _ rfl)
    | false => exact .inr (advance_spec _ 4)
  · rintro rfl command
    refine runs_mtspr (e := ⟨.l1finv1, true, true⟩) rfl rfl hp (mtspr_l1finv1 rs) ?_
    rw [finv1_point command]
    exact advance_spec _ 4
  · rintro rfl kept
    refine runs_mtspr (e := ⟨.mmucsr0, true, true⟩) rfl rfl hp (mtspr_mmucsr0 rs) ?_
    rw [kept]
    exact advance_spec s 4
  · rintro rfl all
    refine runs_mtspr (e := ⟨.mmucsr0, true, true⟩) rfl rfl hp (mtspr_mmucsr0 rs) ?_
    rw [all]
    refine ⟨?_, rfl, flashInvalidate_get s.mmu⟩
    rw [OnlyMmu, settleMas_nil]
    exact advance_spec _ 4

end Sys2Proof.Machine
end

section
/-! PROOF. The reservation instructions, and the numbers that the bytes of a register stand for (O37). -/

namespace Sys2Proof.Machine

section
variable {s : State}

/-! The bytes of a register. -/

theorem bytesNat_storeByte (r : Gpr) : bytesNat (s.storeByte r) = (s.gprW r).toNat % 256 := by
  rw [State.storeByte, bytesNat_byte, BitVec.extractLsb'_toNat, Nat.shiftRight_zero]

theorem bytesNat_storeHalf (r : Gpr) : bytesNat (s.storeHalf r) = (s.gprW r).toNat % 65536 := by
  rw [State.storeHalf, bytesNat_halfBytes, BitVec.extractLsb'_toNat, Nat.shiftRight_zero]

theorem bytesNat_storeWord (r : Gpr) : bytesNat (s.storeWord r) = (s.gprW r).toNat % 4294967296 := by
  rw [State.storeWord, bytesNat_wordBytes, Nat.mod_eq_of_lt (s.gprW r).isLt]

/-! Reservation accesses (43_apu_misc.md R919 to R925). -/

theorem aligned_of_mod {ea : Word} {n : Nat} (h : ea.toNat % n = 0) : aligned ea n = true := beq_iff_eq.mpr h

/-- CR0 of a store that was performed, as a word. -/
theorem withCrField_performed (cr : Word) (so : Bool) :
    withCrField cr 0#3 (crBits false false true so) =
      (cr &&& 0x0FFFFFFF#32) ||| 0x20000000#32 ||| (if so then 0x10000000#32 else 0#32) := by
  cases so
  · exact (BitVec.or_zero).symm
  · exact (BitVec.or_assoc (cr &&& 0x0FFFFFFF#32) 0x20000000#32 0x10000000#32).symm

/-- The state that a store conditional which is performed stores into: the reservation gone, CR0 written. -/
def State.performed (s : State) : State :=
  { s with
    resv := false
    cr := (s.cr &&& 0x0FFFFFFF#32) ||| 0x20000000#32 ||| (if s.xer.getLsbD 31 then 0x10000000#32 else 0#32) }

theorem setCrField_performed :
    { s with resv := false }.setCrField 0#3 (crBits false false true s.xerSo) = s.performed := by
  rw [State.setCrField, withCrField_performed]
  rfl

section
variable {i : Instr} {n : Nat} {r ra rb : Gpr} {p : TlbEntry} {b : List Byte} {v : Nat}

theorem runs_loadReserved (hi : exec i s = s.loadReserved n r ra rb) (hn : n = 1 ∨ n = 2 ∨ n = 4)
    (ha : (s.eaX ra rb).toNat % n = 0) (h : PlainAccess s (s.eaX ra rb) n .load p) :
    Runs i s (LoadResult 4 r none (BitVec.ofNat 32 (s.elem p.e (p.page (s.eaX ra rb)).ra n)) (s.eaX ra rb)
      (s.mem.bytes (p.page (s.eaX ra rb)).ra n) { s with resv := true }) := by
  rw [Runs, hi]
  exact loadReserved_plain hn r ra rb (aligned_of_mod ha) h

theorem runs_storeReserved_none (hi : exec i s = s.storeReserved b ra rb) (hv : s.resv = false) :
    Runs i s (CrResult 4 0#3 false false false (s.xer.getLsbD 31) s) := by
  rw [Runs, hi]
  exact storeReserved_none b ra rb hv

theorem runs_storeReserved (hi : exec i s = s.storeReserved b ra rb) (hl : b.length = n) (hb : bytesNat b = v)
    (hn : n = 1 ∨ n = 2 ∨ n = 4) (hv : s.resv = true) (hx : s.pins.xfail = false) (hm : s.mem.wf = true)
    (ha : (s.eaX ra rb).toNat % n = 0) (h : PlainAccess s (s.eaX ra rb) n .store p) :
    Runs i s (StoreResult 4 n p.e (p.page (s.eaX ra rb)).ra [v] none (s.eaX ra rb) s.performed) := by
  rw [Runs, hi, ← hb, ← setCrField_performed]
  exact storeReserved_plain b hl hn ra rb hv hx hm (aligned_of_mod ha) h

end
end

/-- Settles O37: each width is the shared access of its size, which a plain access lets through. -/
theorem reservations : Obligations.Reservations := by
  intro s r ra rb p
  have one : 1 = 1 ∨ 1 = 2 ∨ 1 = 4 := .inl rfl
  have two : 2 = 1 ∨ 2 = 2 ∨ 2 = 4 := .inr (.inl rfl)
  have four : 4 = 1 ∨ 4 = 2 ∨ 4 = 4 := .inr (.inr rfl)
  refine ⟨?lbarx, ?lharx, ?lwarx, ?stbcxNone, ?sthcxNone, ?stwcxNone, ?stbcx, ?sthcx, ?stwcx⟩
  case lbarx => exact runs_loadReserved (exec_lbarx s r ra rb) one
  case lharx => exact runs_loadReserved (exec_lharx s r ra rb) two
  case lwarx => exact runs_loadReserved (exec_lwarx s r ra rb) four
  case stbcxNone => exact runs_storeReserved_none (exec_stbcxDot s r ra rb)
  case sthcxNone => exact runs_storeReserved_none (exec_sthcxDot s r ra rb)
  case stwcxNone => exact runs_storeReserved_none (exec_stwcxDot s r ra rb)
  case stbcx => exact runs_storeReserved (exec_stbcxDot s r ra rb) rfl (bytesNat_storeByte r) one
  case sthcx => exact runs_storeReserved (exec_sthcxDot s r ra rb) rfl (bytesNat_storeHalf r) two
  case stwcx => exact runs_storeReserved (exec_stwcxDot s r ra rb) rfl (bytesNat_storeWord r) four

end Sys2Proof.Machine
end

section
/-! PROOF. The TLB instructions in supervisor mode, and the words of fields that they write to the MAS registers (O38). -/

namespace Sys2Proof.Machine

/-! Words of fields. -/

/-- The word with `x` in its bits from `k` on and the others zero. -/
def fieldAt {n : Nat} (k : Nat) (x : BitVec n) : Word := x.setWidth 32 <<< k

section
variable {n k i l : Nat}

theorem fieldAt_getLsbD (k : Nat) (x : BitVec n) (i : Nat) :
    (fieldAt k x).getLsbD i = (decide (i < 32) && !decide (i < k) && x.getLsbD (i - k)) := by
  by_cases h : i < 32
  · have inside : i - k < 32 := by omega
    simp only [fieldAt, BitVec.getLsbD_shiftLeft, BitVec.getLsbD_setWidth, inside, decide_true, Bool.true_and]
  · simp [BitVec.getLsbD_of_ge _ i (Nat.le_of_not_lt h), h]

theorem fieldAt_getLsbD_other (x : BitVec n) (h : i < k ∨ k + n ≤ i) : (fieldAt k x).getLsbD i = false := by
  rw [fieldAt_getLsbD]
  rcases h with below | above
  · simp [below]
  · simp [BitVec.getLsbD_of_ge x (i - k) (by omega)]

theorem fieldAt_getLsbD_ofBool (b : Bool) (h : k < 32) : (fieldAt k (BitVec.ofBool b)).getLsbD k = b := by
  rw [fieldAt_getLsbD]
  simp [h]

theorem fieldAt_extract_self (x : BitVec n) (h : k + n ≤ 32) : (fieldAt k x).extractLsb' k n = x := by
  ext i hi
  rw [BitVec.getElem_extractLsb', fieldAt_getLsbD, Nat.add_sub_cancel_left, BitVec.getLsbD_eq_getElem hi]
  simp [show k + i < 32 by omega]

theorem fieldAt_extract_other (x : BitVec n) (h : i + l ≤ k ∨ k + n ≤ i) : (fieldAt k x).extractLsb' i l = 0#l := by
  ext j hj
  rw [BitVec.getElem_extractLsb', fieldAt_getLsbD_other x (by omega), BitVec.getElem_zero]

/-- A mask of the bits of a field keeps the field. -/
theorem and_eq_fieldAt (w : Word) {m : Word} (h : m = fieldAt k (BitVec.allOnes n)) :
    w &&& m = fieldAt k (w.extractLsb' k n) := by
  subst h
  ext i hi
  simp only [← BitVec.getLsbD_eq_getElem, BitVec.getLsbD_and, fieldAt_getLsbD, BitVec.getLsbD_allOnes,
    BitVec.getLsbD_extractLsb', hi, decide_true, Bool.true_and]
  by_cases low : i < k
  · simp [low]
  · simp [low, Nat.add_sub_cancel' (Nat.le_of_not_lt low), Bool.and_comm]

/-- A mask without the bits of a field drops the field. -/
theorem fieldAt_and_eq_zero (x : BitVec n) {m : Word} (h : fieldAt k (BitVec.allOnes n) &&& m = 0#32) :
    fieldAt k x &&& m = 0#32 := by
  have own : fieldAt k x &&& fieldAt k (BitVec.allOnes n) = fieldAt k x := by
    rw [fieldAt, fieldAt, ← BitVec.shiftLeft_and_distrib, ← BitVec.setWidth_and, BitVec.and_allOnes]
  rw [← own]
  exact and_mask_eq_zero _ h

theorem boolWord_shift (b : Bool) (k : Nat) : boolWord b <<< k = fieldAt k (BitVec.ofBool b) := by
  cases b <;> rfl

theorem boolWord_eq_fieldAt (b : Bool) : boolWord b = fieldAt 0 (BitVec.ofBool b) := by
  cases b <;> rfl

theorem append_eq_fieldAt (x : BitVec 22) : (x ++ 0#10 : Word) = fieldAt 10 x := by
  ext i hi
  rw [← BitVec.getLsbD_eq_getElem, ← BitVec.getLsbD_eq_getElem, fieldAt_getLsbD, BitVec.getLsbD_append]
  by_cases low : i < 10 <;> simp [low, hi]

end

section
variable (e : TlbEntry)

/-! The MAS registers as words of fields (21_mmu.md R320 to R323). -/

theorem TlbEntry.mas1_eq :
    e.mas1 = fieldAt 31 (BitVec.ofBool e.v) ||| fieldAt 30 (BitVec.ofBool e.iprot) ||| fieldAt 16 e.tid |||
      fieldAt 12 (BitVec.ofBool e.ts) ||| fieldAt 7 e.size := by
  simp only [TlbEntry.mas1, boolWord_shift]
  rfl

theorem TlbEntry.mas2_eq :
    e.mas2 = fieldAt 10 e.epn ||| fieldAt 5 (BitVec.ofBool e.vle) ||| fieldAt 4 (BitVec.ofBool e.w) |||
      fieldAt 3 (BitVec.ofBool e.i) ||| fieldAt 2 (BitVec.ofBool e.m) ||| fieldAt 1 (BitVec.ofBool e.g) |||
      fieldAt 0 (BitVec.ofBool e.e) := by
  simp only [TlbEntry.mas2, boolWord_shift, append_eq_fieldAt]
  rw [boolWord_eq_fieldAt]

theorem TlbEntry.mas3_eq :
    e.mas3 = fieldAt 10 e.rpn ||| fieldAt 6 e.u ||| fieldAt 5 (BitVec.ofBool e.ux) ||| fieldAt 4 (BitVec.ofBool e.sx) |||
      fieldAt 3 (BitVec.ofBool e.uw) ||| fieldAt 2 (BitVec.ofBool e.sw) ||| fieldAt 1 (BitVec.ofBool e.ur) |||
      fieldAt 0 (BitVec.ofBool e.sr) := by
  simp only [TlbEntry.mas3, boolWord_shift, append_eq_fieldAt]
  rw [boolWord_eq_fieldAt]
  rfl

theorem entryHolds_mas : EntryHolds e e.mas1 e.mas2 e.mas3 := by
  simp (disch := omega) only [EntryHolds, TlbEntry.mas1_eq, TlbEntry.mas2_eq, TlbEntry.mas3_eq, BitVec.getLsbD_or,
    BitVec.extractLsb'_or, fieldAt_getLsbD_ofBool, fieldAt_getLsbD_other, fieldAt_extract_self, fieldAt_extract_other,
    Bool.or_false, Bool.false_or, BitVec.or_zero, BitVec.zero_or, and_self]

theorem entryHolds_ofMas (m1 m2 m3 : Word) : EntryHolds (TlbEntry.ofMas m1 m2 m3) m1 m2 m3 := by
  and_intros <;> rfl

/-- The reserved bits of MAS1. -/
theorem TlbEntry.mas1_reserved : e.mas1 &&& 0x3F00E07F#32 = 0#32 := by
  rw [TlbEntry.mas1_eq]
  refine or_and_eq_zero (or_and_eq_zero (or_and_eq_zero (or_and_eq_zero ?_ ?_) ?_) ?_) ?_ <;>
    exact fieldAt_and_eq_zero _ rfl

/-- The reserved bits of MAS2. -/
theorem TlbEntry.mas2_reserved : e.mas2 &&& 0x3C0#32 = 0#32 := by
  rw [TlbEntry.mas2_eq]
  refine or_and_eq_zero (or_and_eq_zero (or_and_eq_zero (or_and_eq_zero (or_and_eq_zero (or_and_eq_zero ?_ ?_) ?_) ?_) ?_)
    ?_) ?_ <;> exact fieldAt_and_eq_zero _ rfl

end

theorem mas0With_eq (mas0 : Word) (sel : BitVec 2) (esel : BitVec 5) :
    mas0With mas0 sel esel = fieldAt 0 (mas0.extractLsb' 0 5) ||| fieldAt 28 sel ||| fieldAt 16 esel := by
  have nv : mas0 &&& 0x1F#32 = fieldAt 0 (mas0.extractLsb' 0 5) := and_eq_fieldAt mas0 rfl
  rw [mas0With, nv]
  rfl

/-- MAS0 keeps NV and takes TLBSEL and ESEL; its other bits are reserved. -/
theorem mas0With_spec (mas0 : Word) (sel : BitVec 2) (esel : BitVec 5) :
    (mas0With mas0 sel esel).extractLsb' 28 2 = sel ∧ (mas0With mas0 sel esel).extractLsb' 16 5 = esel ∧
      (mas0With mas0 sel esel).extractLsb' 0 5 = mas0.extractLsb' 0 5 ∧
      mas0With mas0 sel esel &&& 0xCFE0FFE0#32 = 0#32 := by
  rw [mas0With_eq]
  refine ⟨?_, ?_, ?_, ?reserved⟩
  case reserved =>
    exact or_and_eq_zero (or_and_eq_zero (fieldAt_and_eq_zero _ rfl) (fieldAt_and_eq_zero _ rfl))
      (fieldAt_and_eq_zero _ rfl)
  all_goals
    simp (disch := omega) only [BitVec.extractLsb'_or, fieldAt_extract_self, fieldAt_extract_other, BitVec.or_zero,
      BitVec.zero_or]

/-! The defaults that a miss loads (21_mmu.md R332). -/

section
variable (m : Mmu) (tid : Byte) (as : Bool) (ea : Word)

theorem loadDefaults_mas1_eq :
    (m.loadDefaults false tid as ea).mas1 =
      fieldAt 16 tid ||| fieldAt 12 (BitVec.ofBool as) ||| fieldAt 7 (m.mas4.extractLsb' 7 5) := by
  have tsize : m.mas4 &&& 0x00000F80#32 = fieldAt 7 (m.mas4.extractLsb' 7 5) := and_eq_fieldAt m.mas4 rfl
  have invalid : boolWord false <<< 31 ||| tid.zeroExtend 32 <<< 16 = fieldAt 16 tid := BitVec.zero_or
  rw [← tsize, ← boolWord_shift, ← invalid]
  rfl

theorem loadDefaults_mas1_spec :
    let mas1 := (m.loadDefaults false tid as ea).mas1
    mas1.extractLsb' 30 2 = 0#2 ∧ mas1.extractLsb' 16 8 = tid ∧ mas1.getLsbD 12 = as ∧
      mas1.extractLsb' 7 5 = m.mas4.extractLsb' 7 5 ∧ mas1 &&& 0x3F00E07F#32 = 0#32 := by
  dsimp only
  rw [loadDefaults_mas1_eq]
  refine ⟨?_, ?_, ?_, ?_, ?reserved⟩
  case reserved =>
    exact or_and_eq_zero (or_and_eq_zero (fieldAt_and_eq_zero _ rfl) (fieldAt_and_eq_zero _ rfl))
      (fieldAt_and_eq_zero _ rfl)
  all_goals
    simp (disch := omega) only [BitVec.getLsbD_or, BitVec.extractLsb'_or, fieldAt_getLsbD_ofBool, fieldAt_getLsbD_other,
      fieldAt_extract_self, fieldAt_extract_other, Bool.or_false, Bool.false_or, BitVec.or_zero, BitVec.zero_or]

theorem loadDefaults_mas2_eq (valid : Bool) :
    (m.loadDefaults valid tid as ea).mas2 = fieldAt 10 (ea.extractLsb' 10 22) ||| fieldAt 0 (m.mas4.extractLsb' 0 6) := by
  have epn : ea &&& 0xFFFFFC00#32 = fieldAt 10 (ea.extractLsb' 10 22) := and_eq_fieldAt ea rfl
  have defaults : m.mas4 &&& 0x0000003F#32 = fieldAt 0 (m.mas4.extractLsb' 0 6) := and_eq_fieldAt m.mas4 rfl
  rw [← epn, ← defaults]
  rfl

theorem loadDefaults_mas2_spec (valid : Bool) :
    let mas2 := (m.loadDefaults valid tid as ea).mas2
    mas2.extractLsb' 10 22 = ea.extractLsb' 10 22 ∧ mas2.extractLsb' 6 4 = 0#4 ∧
      mas2.extractLsb' 0 6 = m.mas4.extractLsb' 0 6 := by
  simp (disch := omega) only [loadDefaults_mas2_eq, BitVec.extractLsb'_or, fieldAt_extract_self, fieldAt_extract_other,
    BitVec.or_zero, BitVec.zero_or, and_self]

end

/-! The entries after a write and after an invalidation. -/

section
variable (m : Mmu)

theorem writeEntry_get_esel : m.writeEntry.tlb.get m.esel = TlbEntry.ofMas m.mas1 m.mas2 m.mas3 :=
  Vector.getElem_set_self m.esel.isLt

theorem writeEntry_get_other {k : Fin 32} (h : k ≠ m.esel) : m.writeEntry.tlb.get k = m.tlb.get k :=
  Vector.getElem_set_ne m.esel.isLt k.isLt fun same => h (Fin.ext same.symm)

theorem invalidate_get (f : Nat → TlbEntry → Bool) (k : Fin 32) :
    (m.invalidate f).tlb.get k =
      { m.tlb.get k with v := (m.tlb.get k).v && ((m.tlb.get k).iprot || !f k (m.tlb.get k)) } := by
  have key : (m.invalidate f).tlb.get k = _ := vmap_get _ m.tlb k
  rw [key]
  generalize m.tlb.get k = e
  have kept : (e.iprot || !f k e) = !(!e.iprot && f k e) := by rw [Bool.not_and, Bool.not_not]
  rw [kept]
  cases !e.iprot && f k e with
  | true => simp
  | false => simp

end

section
variable {s : State}

/-! The instructions in supervisor mode. -/

theorem privileged_supervisor (h : s.msr.getLsbD 14 = false) (k : State → Host.Outcome State Fault Refusal) :
    privileged s k = k s :=
  if_neg (Bool.eq_false_iff.mp h)

/-- A new MMU, the fields that were written settled, and free bits drawn. -/
theorem onlyMmu_advance (mas : List (SyncReg × Word)) (m : Mmu) (n : Nat) :
    OnlyMmu mas s (({ s with mmu := m, free := n }.settleMas mas).advance 4) :=
  advance_spec _ 4

theorem onlyMmu_nil_advance (m : Mmu) (n : Nat) : OnlyMmu [] s ({ s with mmu := m, free := n }.advance 4) := by
  have key := onlyMmu_advance (s := s) [] m n
  rwa [settleMas_nil] at key

theorem tlbSearch_eq_searchBy {ea : Word}
    (known : s.tlbOpen (s.mmu.mas6.getLsbD 0) (s.mmu.mas6.extractLsb' 16 8) = false) :
    s.tlbSearch ea = s.searchBy (s.tlbHits (s.mmu.mas6.getLsbD 0) (s.mmu.mas6.extractLsb' 16 8) ea) ea := by
  simp only [State.tlbSearch, known, Bool.false_eq_true, if_false]

theorem exec_tlbwe_supervisor (h : s.msr.getLsbD 14 = false) :
    exec .tlbwe s = .next ({ s with mmu := s.mmu.writeEntry }.advance 4) := by
  rw [exec_tlbwe, execTlbwe, privileged_supervisor h]

theorem exec_tlbre_supervisor (h : s.msr.getLsbD 14 = false) :
    exec .tlbre s = .next (({ s with mmu := s.mmu.readEntry }.settleMas readFields).advance 4) := by
  rw [exec_tlbre, execTlbre, privileged_supervisor h]

theorem exec_tlbsx_supervisor (ra rb : Gpr) (h : s.msr.getLsbD 14 = false)
    (known : s.tlbOpen (s.mmu.mas6.getLsbD 0) (s.mmu.mas6.extractLsb' 16 8) = false)
    {hits : List (Nat × TlbEntry)}
    (found : s.tlbHits (s.mmu.mas6.getLsbD 0) (s.mmu.mas6.extractLsb' 16 8) (s.eaX ra rb) = hits) :
    exec (.tlbsx ra rb) s = .next (((s.searchBy hits (s.eaX ra rb)).settleMas searchFields).advance 4) := by
  rw [exec_tlbsx, execTlbsx, privileged_supervisor h, tlbSearch_eq_searchBy known, found]

theorem exec_tlbivax_supervisor (ra rb : Gpr) (h : s.msr.getLsbD 14 = false) :
    exec (.tlbivax ra rb) s = .next ((s.tlbInvalidate (s.eaX ra rb)).advance 4) := by
  rw [exec_tlbivax, execTlbivax, privileged_supervisor h]

/-- Bit 29 of the command word: every unprotected entry becomes invalid. -/
theorem tlbInvalidate_get_all {ea : Word} (all : ea.getLsbD 2 = true) (k : Fin 32) :
    (s.tlbInvalidate ea).mmu.tlb.get k =
      { s.mmu.tlb.get k with v := (s.mmu.tlb.get k).v && (s.mmu.tlb.get k).iprot } := by
  refine (invalidate_get s.mmu _ k).trans ?_
  simp only [all, Bool.true_or, Bool.not_true, Bool.or_false]

/-- No bit 29: the unprotected entries whose page holds the address become invalid. -/
theorem tlbInvalidate_get_page {ea : Word} (one : ea.getLsbD 2 = false) {k : Fin 32}
    (sized : (s.mmu.tlb.get k).sizeOk = true) :
    (s.tlbInvalidate ea).mmu.tlb.get k =
      { s.mmu.tlb.get k with
        v := (s.mmu.tlb.get k).v && ((s.mmu.tlb.get k).iprot || !(s.mmu.tlb.get k).epnMatch ea) } := by
  refine (invalidate_get s.mmu _ k).trans ?_
  simp only [one, sized, Bool.false_or, if_true]
  cases (s.mmu.tlb.get k).v <;> rfl

end

/-- Settles O38: each instruction in supervisor mode changes the MMU alone, and what it makes of the MMU is a lemma about the
entry or about the MAS registers as words of fields. -/
theorem tlbInstructions : Obligations.TlbInstructions := by
  intro s ra rb supervisor
  dsimp only
  refine ⟨?tlbwe, ?tlbre, ?hit, ?miss, ?all, ?page⟩
  case tlbwe =>
    refine ⟨_, exec_tlbwe_supervisor supervisor, onlyMmu_nil_advance _ s.free, ?_, rfl,
      fun k other => writeEntry_get_other s.mmu other⟩
    exact (writeEntry_get_esel s.mmu).symm ▸ entryHolds_ofMas _ _ _
  case tlbre =>
    exact ⟨_, exec_tlbre_supervisor supervisor, onlyMmu_advance _ _ s.free, entryHolds_mas _,
      TlbEntry.mas1_reserved _, TlbEntry.mas2_reserved _, rfl⟩
  case hit =>
    intro k e known found
    obtain ⟨tlbsel, esel, nv, -⟩ := mas0With_spec s.mmu.mas0 1#2 (BitVec.ofNat 5 k)
    exact ⟨_, exec_tlbsx_supervisor ra rb supervisor known found, onlyMmu_advance _ _ s.free,
      (congrArg BitVec.toNat esel).trans (BitVec.toNat_ofNat k 5), tlbsel, nv, entryHolds_mas e, rfl⟩
  case miss =>
    intro known found
    obtain ⟨tlbsel, esel, nv, reserved⟩ :=
      mas0With_spec s.mmu.mas0 (s.mmu.mas4.extractLsb' 28 2) (s.mmu.mas0.extractLsb' 0 5)
    obtain ⟨invalid, tid, ts, tsize, reserved1⟩ :=
      loadDefaults_mas1_spec s.mmu (s.mmu.mas6.extractLsb' 16 8) (s.mmu.mas6.getLsbD 0) (s.eaX ra rb)
    exact ⟨_, exec_tlbsx_supervisor ra rb supervisor known found, onlyMmu_advance _ _ s.free, rfl, tlbsel, esel, nv,
      reserved, invalid, tid, ts, tsize, reserved1, loadDefaults_mas2_spec s.mmu _ _ _ false⟩
  case all =>
    intro all
    exact ⟨_, exec_tlbivax_supervisor ra rb supervisor, onlyMmu_nil_advance _ _, rfl, tlbInvalidate_get_all all⟩
  case page =>
    intro one sized
    exact ⟨_, exec_tlbivax_supervisor ra rb supervisor, onlyMmu_nil_advance _ _, rfl,
      fun k => tlbInvalidate_get_page one (sized k)⟩

end Sys2Proof.Machine
end

section
/-! PROOF. The synchronising instructions and the cache hints (O29). -/

namespace Sys2Proof.Machine

section
variable {s : State}

theorem runs_advance {i : Instr} {len : Nat} (hi : exec i s = .next (s.advance len)) : Runs i s (OnlyPc len s) :=
  ⟨_, hi, advance_spec s len⟩

theorem exec_tlbsync_supervisor (h : s.msr.getLsbD 14 = false) : exec .tlbsync s = .next (s.advance 4) := by
  rw [exec_tlbsync, execTlbsync, privileged_supervisor h]

theorem exec_mbar_of_le {k : BitVec 5} (h : k.toNat ≤ 2) : exec (.mbar k) s = .next (s.flushBuffers.advance 4) := by
  rw [exec_mbar, execMbar, if_neg (Nat.not_lt.mpr h)]

/-- Emptying the store buffer, as `mbar` does and, with what no `msync` has waited for, `msync`. -/
theorem storesDrained_flush (s : State) : StoresDrained false s (s.flushBuffers.advance 4) := by
  refine ⟨?_, flushBuffers_reported s⟩
  conv_rhs => rw [flushBuffers_rest]
  exact advance_spec _ 4

theorem storesDrained_sync (s : State) : StoresDrained true s (s.syncBuffers.advance 4) := by
  have reported : StoreErrsReported s (s.syncBuffers.advance 4) := flushBuffers_reported s
  refine ⟨?_, reported⟩
  conv_rhs => rw [syncBuffers_rest]
  exact advance_spec _ 4

end

/-- Settles O29: the hints go on as they are, and the two barriers empty the store buffer first. -/
theorem noEffect : Obligations.NoEffect := by
  intro s k ct r q
  refine ⟨?hints, runs_advance (exec_seIsync s), fun h => runs_advance (exec_tlbsync_supervisor h), ?msync, ?mbar⟩
  case hints =>
    simp only [List.forall_mem_cons, List.not_mem_nil, IsEmpty.forall_iff, implies_true, and_true]
    exact ⟨runs_advance (exec_isync s), runs_advance (exec_icbt s ct r q), runs_advance (exec_dcbt s ct r q),
      runs_advance (exec_dcbtst s ct r q), runs_advance (exec_dcba s r q)⟩
  case msync => exact ⟨_, exec_msync s, storesDrained_sync s⟩
  case mbar => exact fun h => ⟨_, exec_mbar_of_le h, storesDrained_flush s⟩

end Sys2Proof.Machine
end

section
/-! PROOF. Cache lines by their addresses, lookups without error checking, and fills (O39, O40). -/

namespace Sys2Proof.Machine

/-! Addresses. -/

section
variable {ea ra : Word}

theorem fieldAt_toNat {n k : Nat} (x : BitVec n) (h : k + n ≤ 32) : (fieldAt k x).toNat = x.toNat * 2 ^ k := by
  have small : x.toNat < 2 ^ 32 := x.isLt.trans_le (Nat.pow_le_pow_right (by decide) (by omega))
  have fits : x.toNat * 2 ^ k < 2 ^ 32 :=
    calc x.toNat * 2 ^ k < 2 ^ n * 2 ^ k := Nat.mul_lt_mul_of_pos_right x.isLt (Nat.two_pow_pos k)
      _ = 2 ^ (k + n) := by rw [← Nat.pow_add, Nat.add_comm]
      _ ≤ 2 ^ 32 := Nat.pow_le_pow_right (by decide) h
  rw [fieldAt, BitVec.toNat_shiftLeft, BitVec.toNat_setWidth, Nat.shiftLeft_eq, Nat.mod_eq_of_lt small,
    Nat.mod_eq_of_lt fits]

theorem lineBase_toNat (a : Word) : (lineBase a).toNat = a.toNat / 32 * 32 := by
  have field : lineBase a = fieldAt 5 (a.extractLsb' 5 27) := and_eq_fieldAt a rfl
  have := a.isLt
  rw [field, fieldAt_toNat _ (by decide), BitVec.extractLsb'_toNat, Nat.shiftRight_eq_div_pow]
  omega

theorem lineBase_add_toNat (a : Word) {j : Nat} (hj : j < 32) :
    (lineBase a + BitVec.ofNat 32 j).toNat = (lineBase a).toNat + j := by
  have := a.isLt
  rw [BitVec.toNat_add, BitVec.toNat_ofNat, lineBase_toNat]
  omega

theorem lineBase_add_offset (a : Word) : lineBase a + BitVec.ofNat 32 (a.toNat % 32) = a := by
  apply BitVec.eq_of_toNat_eq
  rw [lineBase_add_toNat a (Nat.mod_lt _ (by decide)), lineBase_toNat]
  omega

theorem setOf_eq (ea : Word) : setOf ea = ea.toNat / 32 % 128 := by
  rw [setOf, BitVec.extractLsb'_toNat, Nat.shiftRight_eq_div_pow]

theorem tagOf_toNat (ra : Word) : (tagOf ra).toNat = ra.toNat / 1024 := by
  have := ra.isLt
  rw [tagOf, BitVec.extractLsb'_toNat, Nat.shiftRight_eq_div_pow]
  omega

theorem lineOff_eq (ea : Word) : lineOff ea = ea.toNat % 32 := by
  rw [lineOff, BitVec.extractLsb'_toNat, Nat.shiftRight_zero]

theorem lineDw_eq (ea : Word) : lineDw ea = ea.toNat % 32 / 8 := by
  rw [lineDw, BitVec.extractLsb'_toNat, Nat.shiftRight_eq_div_pow]
  omega

theorem lineAddr_toNat (set : Nat) (l : CacheLine) : (lineAddr set l).toNat = l.tag.toNat * 1024 + set % 32 * 32 := by
  have narrow : BitVec.ofNat 32 (set % 32) = (BitVec.ofNat 5 set).setWidth 32 := by
    apply BitVec.eq_of_toNat_eq
    rw [BitVec.toNat_setWidth, BitVec.toNat_ofNat, BitVec.toNat_ofNat]
  have index : BitVec.ofNat 32 (set % 32) <<< 5 = fieldAt 5 (BitVec.ofNat 5 set) := by rw [narrow]; rfl
  have apart : fieldAt 10 l.tag &&& fieldAt 5 (BitVec.ofNat 5 set) = 0#32 := by
    ext i hi
    rw [← BitVec.getLsbD_eq_getElem, ← BitVec.getLsbD_eq_getElem, BitVec.getLsbD_and, BitVec.getLsbD_zero]
    by_cases low : i < 10
    · rw [fieldAt_getLsbD_other l.tag (.inl low), Bool.false_and]
    · rw [fieldAt_getLsbD_other (BitVec.ofNat 5 set) (.inr (Nat.le_of_not_lt low)), Bool.and_false]
  have tag := l.tag.isLt
  rw [lineAddr, append_eq_fieldAt, index, ← BitVec.add_eq_or_of_and_eq_zero _ _ apart, BitVec.toNat_add,
    fieldAt_toNat _ (by decide), fieldAt_toNat _ (by decide), BitVec.toNat_ofNat]
  omega

/-- A page keeps the low ten bits of an address: no page is smaller than 1 KB (21_mmu.md R304). -/
theorem page_ra_mod (p : TlbEntry) (ea : Word) : (p.page ea).ra.toNat % 1024 = ea.toNat % 1024 := by
  have low : (p.page ea).ra.extractLsb' 0 10 = ea.extractLsb' 0 10 := by
    ext i hi
    have inside : i < 32 := by omega
    have offset : i < 10 + p.size.toNat := by omega
    simp [TlbEntry.page, pageMask, offset, inside]
  simpa using congrArg BitVec.toNat low

/-- The line that is present for an address belongs to the real addresses of its line. -/
theorem lineAddr_eq_lineBase {l : CacheLine} (tag : l.tag = tagOf ra) (low : ra.toNat % 1024 = ea.toNat % 1024) :
    lineAddr (setOf ea) l = lineBase ra := by
  apply BitVec.eq_of_toNat_eq
  rw [lineAddr_toNat, lineBase_toNat, tag, tagOf_toNat, setOf_eq]
  omega

end

/-! Lines of a cache. -/

section
variable {c : Cache} {set w : Nat} {l : CacheLine}

/-- A keyed list read where it was written, whatever its form. -/
theorem sparseGet_sparsePut_self {α : Type} [DecidableEq α] {d x : α} (hx : x ≠ d) (l : List (Nat × α)) (a : Nat) :
    sparseGet d (sparsePut d l a x) a = x := by
  induction l with
  | nil => simp [sparsePut, sparseGet, hx]
  | cons p t ih =>
    obtain ⟨k, v⟩ := p
    rw [sparsePut]
    split
    · simp [sparseGet]
    · split
      · simp [sparseGet]
      · next other => simp [sparseGet, other, ih]

/-- A line that is valid reads back where it was put. -/
theorem line_put_self (hl : l.valid = true) (c : Cache) (set w : Nat) : (c.put set w l).line set w = l :=
  sparseGet_sparsePut_self (fun zero => Bool.false_ne_true ((congrArg CacheLine.valid zero).symm.trans hl)) _ _

/-- The one way of a set that a filter leaves. -/
theorem ways_filter_one {f : Nat × CacheLine → Bool} (h : (c.ways set).filter f = [(w, l)]) :
    l = c.line set w ∧ w < 4 ∧ f (w, l) = true := by
  have hit : (w, l) ∈ (c.ways set).filter f := by rw [h]; exact List.mem_singleton_self _
  obtain ⟨way, holds⟩ := List.mem_filter.mp hit
  simp only [Cache.ways, List.mem_cons, Prod.mk.injEq, List.not_mem_nil, or_false] at way
  rcases way with ⟨rfl, rfl⟩ | ⟨rfl, rfl⟩ | ⟨rfl, rfl⟩ | ⟨rfl, rfl⟩ <;> exact ⟨rfl, by decide, holds⟩

/-- Each way of a set that no filter leaves. -/
theorem ways_filter_nil {f : Nat × CacheLine → Bool} (h : (c.ways set).filter f = []) (hw : w < 4) :
    f (w, c.line set w) = false := by
  have way : (w, c.line set w) ∈ c.ways set := by
    unfold Cache.ways
    interval_cases w <;> simp
  exact Bool.eq_false_of_not_eq_true (List.filter_eq_nil_iff.mp h _ way)

end

section
variable {s : State} {side : Side} {ea : Word} {k : AccessKind} {p : TlbEntry} {w : Nat} {l : CacheLine}

/-! Lookups without error checking. -/

theorem setCache_cacheOf (s : State) (side : Side) : s.setCache side (s.cacheOf side) = s := by cases side <;> rfl

theorem cacheOf_setCache (s : State) (side : Side) (c : Cache) : (s.setCache side c).cacheOf side = c := by
  cases side <;> rfl

theorem lookup_unchecked (h : s.checkOn side = false) (ci : Bool) (op : LookOp) (ea ra : Word) :
    s.lookup side ci op ea ra =
      (hitWay (((s.cacheOf side).ways (setOf ea)).filter fun q => q.2.here (tagOf ra)), s) := by
  simp only [State.lookup, Cache.lookup, h, Bool.not_false, if_true, setCache_cacheOf]

theorem BlockHit.lookup (h : BlockHit s side ea k p w l) (op : LookOp) :
    s.lookup side (p.page ea).i op ea (p.page ea).ra = (.hit w, s) := by
  rw [lookup_unchecked h.unchecked, h.here]
  rfl

theorem BlockMiss.lookup (h : BlockMiss s side ea k p) (op : LookOp) :
    s.lookup side (p.page ea).i op ea (p.page ea).ra = (.miss, s) := by
  rw [lookup_unchecked h.unchecked, h.absent]
  rfl

theorem BlockHit.line (h : BlockHit s side ea k p w l) : (s.cacheOf side).line (setOf ea) w = l :=
  (ways_filter_one h.here).1.symm

theorem BlockHit.present (h : BlockHit s side ea k p w l) : l.valid = true ∧ l.tag = tagOf (p.page ea).ra := by
  have here := (ways_filter_one h.here).2.2
  simpa [CacheLine.here] using here

theorem BlockHit.lineAddr (h : BlockHit s side ea k p w l) : lineAddr (setOf ea) l = lineBase (p.page ea).ra :=
  lineAddr_eq_lineBase h.present.2 (page_ra_mod p ea)

/-- Both hold whatever the records of the instruction are. -/
theorem BlockHit.logAccess (h : BlockHit s side ea k p w l) (a : Word) (store : Bool) (n : Nat) :
    BlockHit (s.logAccess a store n) side ea k p w l :=
  ⟨h.on, h.unchecked, h.known, h.maps, h.allowed, h.here⟩

theorem BlockMiss.logAccess (h : BlockMiss s side ea k p) (a : Word) (store : Bool) (n : Nat) :
    BlockMiss (s.logAccess a store n) side ea k p :=
  ⟨h.on, h.unchecked, h.known, h.maps, h.allowed, h.absent⟩

/-- Nothing stands in the way of the translation of an address. -/
structure Translates (s : State) (ea : Word) (k : AccessKind) (p : TlbEntry) : Prop where
  known : s.tlbOpen s.msrDs s.pid = false
  maps : ∃ i, s.tlbHits s.msrDs s.pid ea = [(i, p)]
  allowed : (p.page ea).allows s.user k = true

theorem BlockHit.translates (h : BlockHit s side ea k p w l) : Translates s ea k p := ⟨h.known, h.maps, h.allowed⟩

theorem BlockMiss.translates (h : BlockMiss s side ea k p) : Translates s ea k p := ⟨h.known, h.maps, h.allowed⟩

theorem Translates.translate (h : Translates s ea k p) : s.translate s.msrDs ea = (some (p.page ea), s) := by
  obtain ⟨i, hits⟩ := h.maps
  exact translate_one h.known hits

theorem Translates.logAccess (h : Translates s ea k p) (a : Word) (store : Bool) (n : Nat) :
    Translates (s.logAccess a store n) ea k p := ⟨h.known, h.maps, h.allowed⟩

/-! The way that a fill takes (22_cache.md R424). -/

theorem pickWay_eq_find (rp : BitVec 2) (f : Nat → Bool) :
    pickWay rp f = ((List.range 4).map fun j => (rp.toNat + j) % 4).find? f := by
  have first : (rp.toNat + 0) % 4 = rp.toNat := Nat.mod_eq_of_lt rp.isLt
  rw [pickWay, List.range_succ_eq_map]
  simp only [List.map_cons, first, BitVec.toNat_add]
  rfl

theorem pickWay_some {rp : BitVec 2} {f : Nat → Bool} {j : Nat} (hj : j < 4) (yes : f ((rp.toNat + j) % 4) = true)
    (no : ∀ i, i < j → f ((rp.toNat + i) % 4) = false) : pickWay rp f = some ((rp.toNat + j) % 4) := by
  rw [pickWay_eq_find, List.find?_map, Option.map_eq_some_iff]
  refine ⟨j, ?_, rfl⟩
  rw [List.find?_range_eq_some]
  exact ⟨yes, List.mem_range.mpr hj, fun i hi => by simp [no i hi]⟩

theorem pickWay_none {rp : BitVec 2} {f : Nat → Bool} (no : ∀ w, w < 4 → f w = false) : pickWay rp f = none := by
  rw [pickWay_eq_find, List.find?_eq_none]
  intro w hw
  obtain ⟨j, -, rfl⟩ := List.mem_map.mp hw
  exact Bool.eq_false_iff.mp (no _ (Nat.mod_lt _ (by decide)))

theorem wayOff_eq_false_iff {w : Nat} : s.wayOff side w = false ↔ s.wayOn side w := by cases side <;> exact Iff.rfl

theorem available_iff {w : Nat} : s.available side (setOf ea) w = true ↔ s.wayFree side ea w := by
  rw [State.available, State.wayFree, Bool.and_eq_true, Bool.not_eq_true', wayOff_eq_false_iff, beq_iff_eq]

theorem pickWay_victim (h : s.victimIs side ea w) :
    pickWay (s.cacheOf side).rp (s.available side (setOf ea)) = some w := by
  obtain ⟨j, hj, rfl, free, before⟩ := h
  exact pickWay_some hj (available_iff.mpr free)
    fun i hi => Bool.eq_false_iff.mpr fun yes => before i hi (available_iff.mp yes)

theorem pickWay_full (h : ∀ w, w < 4 → ¬s.wayFree side ea w) :
    pickWay (s.cacheOf side).rp (s.available side (setOf ea)) = none :=
  pickWay_none fun w hw => Bool.eq_false_iff.mpr fun yes => h w hw (available_iff.mp yes)

/-! A line put in a way. -/

/-- `t`, which comes after `s`, is `u` but for what waits in the buffers, the record of the instruction and the values drawn. -/
structure Buffered (s u t : State) : Prop where
  rest : t = { u with buf := t.buf, ev := t.ev, free := t.free }
  buffers : BuffersAfter s t

/-- A record made before it does not matter. -/
theorem Buffered.of_logAccess {t : State} {a : Word} {store : Bool} {n : Nat}
    (h : Buffered (s.logAccess a store n) ((s.logAccess a store n).withLine side ea w l) t) :
    Buffered s (s.withLine side ea w l) t := by
  obtain ⟨rest, buffers⟩ := h
  exact ⟨by cases side <;> exact rest, buffers⟩

theorem BuffersAfter.of_entries {t : State} (hm : t.mem = s.mem) (hb : t.buf = { s.buf with entries := t.buf.entries }) :
    BuffersAfter s t :=
  ⟨by rw [hb], by rw [hb], OldBytes.same hm (by rw [hb]) (by rw [hb]) (by rw [hb])⟩

/-- The cache of a side with a line put in a way and the replacement pointer past it. -/
def Cache.putNext (c : Cache) (set w : Nat) (l : CacheLine) : Cache := { c.put set w l with rp := BitVec.ofNat 2 (w + 1) }

theorem replace_kept (h : s.pushes side ea w = false) (l : CacheLine) :
    s.replace side (setOf ea) w l = s.setCache side ((s.cacheOf side).putNext (setOf ea) w l) := by
  have clean : (side == .data && ((s.cacheOf side).line (setOf ea) w).valid &&
    ((s.cacheOf side).line (setOf ea) w).dirtyAny) = false := h
  simp only [State.replace, clean, Bool.false_eq_true, if_false, Cache.putNext]

theorem replace_pushed (hc : s.checkOn .data = false) (h : s.pushes .data ea w = true)
    (hram : s.ramFrom (lineAddr (setOf ea) (s.cache.dcache.line (setOf ea) w)) 32) (l : CacheLine) :
    s.replace .data (setOf ea) w l =
      (s.putMem false (lineAddr (setOf ea) (s.cache.dcache.line (setOf ea) w))
        (s.cache.dcache.line (setOf ea) w).data.toList).setCache .data (s.cache.dcache.putNext (setOf ea) w l) := by
  have modified : (Side.data == .data && (s.cache.dcache.line (setOf ea) w).valid &&
    (s.cache.dcache.line (setOf ea) w).dirtyAny) = true := h
  simp only [State.replace, State.cacheOf, modified, if_true, push_plain hc hram]
  rfl

/-- Bytes written to memory past the store buffer. -/
theorem putMem_buffered (hm : s.mem.wf = true) {ra : Word} {b : List Byte} (hl : b.length = 32) (hram : s.ramFrom ra 32) :
    Buffered s { s with mem := s.mem.putBytes ra b } (s.putMem false ra b) := by
  have plain (j : Nat) (hj : j < b.length) : s.onDevice (ra + BitVec.ofNat 32 j) = false := (hram j (hl ▸ hj)).2
  have records := putMem_records false s ra b hm (by omega) plain
  exact ⟨putMem_ram plain, records.snoops, records.errs, records.old⟩

/-- PUTTING A LINE IN A WAY: the one displaced is written to memory where it was modified. -/
theorem replace_buffered (hc : s.checkOn side = false) (hd : s.mayDisplace side ea w) (l : CacheLine) :
    Buffered s (s.withLine side ea w l) (s.replace side (setOf ea) w l) := by
  obtain ⟨memWf, ram⟩ := hd
  cases pushes : s.pushes side ea w with
  | false =>
    rw [replace_kept pushes, State.withLine]
    simp only [pushes]
    cases side <;> exact ⟨rfl, .of_entries rfl rfl⟩
  | true =>
    cases side with
    | instr => cases pushes
    | data =>
      have ram : s.ramFrom (lineAddr (setOf ea) (s.cache.dcache.line (setOf ea) w)) 32 := ram pushes
      obtain ⟨pushed, buffers⟩ := putMem_buffered memWf Vector.length_toList ram
      rw [replace_pushed hc pushes ram, State.withLine]
      refine ⟨?_, buffers⟩
      simp only [pushes, if_true]
      conv_lhs => rw [pushed]
      rfl

/-! A line filled from memory (22_cache.md R423, R424). -/

variable {ra : Word}

theorem vec32_bytes (m : Memory) (ra : Word) :
    vec32 (m.bytes (lineBase ra) 32) = Vector.ofFn fun j : Fin 32 => m.byte ((lineBase ra).toNat + j.val) := by
  refine congrArg Vector.ofFn (funext fun j => ?_)
  exact (Memory.bytes_getD m _ 32 j.val j.isLt).trans (congrArg m.byte (lineBase_add_toNat ra j.isLt))

/-- The older bytes that a fill might bring in: there is none. -/
theorem fillOlds_none (h : s.mayFill side ra) {j : Nat} (hj : j < 32) :
    cellsAt (s.fillOlds side) (lineBase ra + BitVec.ofNat 32 j) = [] := by
  cases side with
  | data => rfl
  | instr => exact h.2 rfl j hj

theorem newLine_filled (h : s.mayFill side ra) :
    newLine ra (s.memLine side ra) (s.fillErr side) = s.filledLine side ra := by
  have read : s.busBytes 0 (lineBase ra) 32 = s.mem.bytes (lineBase ra) 32 := (busBytes_plain fun j hj => (h.1 j hj).2).1
  have seen : s.memLine side ra = vec32 (s.mem.bytes (lineBase ra) 32) := by
    rw [State.memLine, read, seenBytes_plain fun j hj => fillOlds_none h (by simpa using hj)]
  rw [seen, vec32_bytes]
  rfl

theorem drawLine_plain (h : s.mayFill side ra) : s.drawLine side ra = s := by
  rw [State.drawLine, anyFrom_false fun j hj => (h.1 j hj).2, anyOlder_false fun j hj => fillOlds_none h hj]
  rfl

theorem mayFill_replace (hc : s.checkOn side = false) (hd : s.mayDisplace side ea w) (h : s.mayFill side ra)
    (l : CacheLine) : (s.replace side (setOf ea) w l).mayFill side ra := by
  obtain ⟨ram, olds⟩ := h
  have pins : (s.replace side (setOf ea) w l).pins = s.pins := by
    rw [(replace_buffered hc hd l).rest]
    cases side <;> rfl
  refine ⟨fun j hj => by simpa [State.busErr, State.onDevice, State.region, pins] using ram j hj, ?_⟩
  rintro rfl
  rw [replace_kept rfl]
  exact olds rfl

theorem awaitIndex_rest (s : State) (side : Side) (ra : Word) :
    s.awaitIndex side ra =
      { s with buf := { s.buf with entries := (s.awaitIndex side ra).buf.entries } } := by cases side <;> rfl

/-- A FILL puts the line of memory in the way, and writes the line displaced to memory where it was modified. -/
theorem fillWay_buffered (hc : s.checkOn side = false) (hd : s.mayDisplace side ea w) (hf : s.mayFill side ra) :
    ∃ t, s.fillWay side (setOf ea) w ra = .ok w t ∧ Buffered s (s.withLine side ea w (s.filledLine side ra)) t := by
  obtain ⟨e, waited⟩ : ∃ e, s.awaitIndex side ra = { s with buf := { s.buf with entries := e } } :=
    ⟨_, awaitIndex_rest s side ra⟩
  have answers : State.fillFails { s with buf := { s.buf with entries := e } } ra = false :=
    busErrIn_false fun j hj => (hf.1 j hj).1
  have fills : State.mayFill { s with buf := { s.buf with entries := e } } side ra := hf
  have put := replace_buffered (s := { s with buf := { s.buf with entries := e } }) hc hd (s.filledLine side ra)
  have drawn := drawLine_plain (mayFill_replace (s := { s with buf := { s.buf with entries := e } }) hc hd fills
    (s.filledLine side ra))
  refine ⟨_, ?_, ?_, ⟨put.buffers.1, put.buffers.2.1, put.buffers.2.2⟩⟩
  · simp only [State.fillWay, hc, Bool.false_and, Bool.false_eq_true, if_false, waited, answers, newLine_filled fills]
    exact congrArg (Fill.ok w) drawn
  · conv_lhs => rw [put.rest]
    cases side <;> rfl

end
end Sys2Proof.Machine
end

section
/-! PROOF. The cache block instructions (O39). -/

namespace Sys2Proof.Machine

section
variable {s : State} {side : Side} {ea : Word} {k : AccessKind} {p : TlbEntry} {w : Nat} {l : CacheLine}

/-! What a block operation leaves, from the state it ends in. -/

theorem runs_block {i : Instr} {r : Res Unit} {t : State} {P : State → Prop}
    (hi : exec i s = r.finish fun _ s => s.advance 4) (hr : r = .ok () t) (ht : P (t.advance 4)) : Runs i s P :=
  ⟨_, by rw [hi, hr]; rfl, ht⟩

theorem runs_block_exc {i : Instr} {r : Res Unit} {t : State} {P : State → Prop}
    (hi : exec i s = r.finish fun _ s => s.advance 4) (hr : r = .exc t) (ht : P t) : Runs i s P :=
  ⟨_, by rw [hi, hr]; rfl, ht⟩

theorem putLine_lineResult (s : State) (side : Side) (ea : Word) (w : Nat) (l : CacheLine) :
    LineResult side ea w l s ((s.putLine side (setOf ea) w l).advance 4) := by
  cases side <;>
    exact ⟨rfl, rfl, fun _ => rfl, rfl, rfl, ⟨rfl, rfl, rfl, rfl⟩, by simp [SameSystem, State.putLine, State.setCache], rfl⟩

theorem Buffered.onlyPc {u t : State} (h : Buffered s u t) :
    OnlyPc 4 { u with buf := (t.advance 4).buf } (t.advance 4) ∧ BuffersAfter s (t.advance 4) := by
  obtain ⟨rest, buffers⟩ := h
  refine ⟨?_, buffers⟩
  generalize t.buf = b, t.ev = e, t.free = n at rest
  subst rest
  exact advance_spec { u with buf := b, ev := e, free := n } 4

theorem Buffered.lineResult {u t : State} (h : Buffered s u t) (side : Side) (ea : Word) (w : Nat) (l : CacheLine) :
    LineResult side ea w l { u with buf := ((t.putLine side (setOf ea) w l).advance 4).buf }
        ((t.putLine side (setOf ea) w l).advance 4) ∧
      BuffersAfter s ((t.putLine side (setOf ea) w l).advance 4) := by
  obtain ⟨rest, buffers⟩ := h
  generalize t.buf = b, t.ev = e, t.free = n at rest
  subst rest
  have done := putLine_lineResult { u with buf := b, ev := e, free := n } side ea w l
  cases side <;> exact ⟨done, buffers⟩

/-! The parts of a block operation (22_cache.md R440). -/

theorem Translates.blockPage (h : Translates s ea k p) :
    s.blockPage k ea = .ok (p.page ea) (s.logAccess ea (k == .store) 0) := by
  have found : (s.logAccess ea (k == .store) 0).translate s.msrDs ea = _ := (h.logAccess ea (k == .store) 0).translate
  have allowed : (p.page ea).allows (s.logAccess ea (k == .store) 0).user k = true := h.allowed
  simp only [State.blockPage, found, allowed, if_true]

/-- What a lock instruction asks of its page. -/
def Side.lockKind : Side → AccessKind
  | .instr => .either
  | .data => .load

theorem Translates.lockPage (h : Translates s ea side.lockKind p) (may : s.user = false ∨ s.msrUcle = true) :
    s.lockPage side ea = .ok (p.page ea) (s.logAccess ea false 0) := by
  have found : (s.logAccess ea false 0).translate s.msrDs ea = _ := (h.logAccess ea false 0).translate
  have free : ((s.logAccess ea false 0).user && !(s.logAccess ea false 0).msrUcle) = false := by
    show (s.user && !s.msrUcle) = false
    rcases may with h | h <;> simp [h]
  have allowed : (p.page ea).allows (s.logAccess ea false 0).user
      (match side with | .instr => .either | .data => .load) = true := by
    have := h.allowed
    cases side <;> exact this
  simp only [State.lockPage, found, free, Bool.false_eq_true, if_false]
  cases side <;> exact if_pos allowed

theorem BlockHit.blockLook (h : BlockHit s side ea k p w l) (op : LookOp) (report : Word) :
    s.blockLook side op ea (p.page ea) report = .ok (some w) s := by
  rw [State.blockLook, h.lookup]

theorem BlockMiss.blockLook (h : BlockMiss s side ea k p) (op : LookOp) (report : Word) :
    s.blockLook side op ea (p.page ea) report = .ok none s := by
  rw [State.blockLook, h.lookup]

/-! `icbi` and `dcbi` (22_cache.md R440, R444). -/

theorem blockDiscard_off (h : s.cacheOn side = false) : s.blockDiscard side ea = .ok () s := by
  simp only [State.blockDiscard, h, Bool.not_false, if_true]

theorem lineBase_lineBase (a : Word) : lineBase (lineBase a) = lineBase a := by
  apply BitVec.eq_of_toNat_eq
  simp only [lineBase_toNat]
  omega

theorem blockDiscard_instr (h : BlockHit s .instr ea .load p w l) :
    s.blockDiscard .instr ea = .ok () ((s.logAccess ea false 0).dropInstr (setOf ea) w) := by
  have line : (s.logAccess ea false 0).cache.icache.line (setOf ea) w = l := h.line
  have same (t : State) : t.purge (lineBase (p.page ea).ra) = t.purge (p.page ea).ra := by
    rw [State.purge, lineBase_lineBase]
    rfl
  have on : s.cacheOn .instr = true := h.on
  rw [dropInstr_of_valid line h.present.1, h.lineAddr, same]
  simp only [State.blockDiscard, on, Bool.not_true, Bool.false_eq_true, if_false, h.translates.blockPage, Res.andThen]
  have look := (h.logAccess ea (AccessKind.load == .store) 0).blockLook .purge 0#32
  simp only [look]
  rw [(h.logAccess ea (AccessKind.load == .store) 0).line]
  rfl

theorem blockDiscard_data (h : BlockHit s .data ea .store p w l) :
    s.blockDiscard .data ea = .ok () ((s.logAccess ea true 0).putLine .data (setOf ea) w l.discard) := by
  have on : s.cacheOn .data = true := h.on
  have look := (h.logAccess ea (AccessKind.store == .store) 0).blockLook .discard 0#32
  simp only [State.blockDiscard, on, Bool.not_true, Bool.false_eq_true, if_false, h.translates.blockPage, Res.andThen, look]
  rw [(h.logAccess ea (AccessKind.store == .store) 0).line]
  rfl

theorem blockDiscard_instr_miss (h : BlockMiss s .instr ea .load p) :
    s.blockDiscard .instr ea = .ok () ((s.logAccess ea false 0).purge (p.page ea).ra) := by
  have on : s.cacheOn .instr = true := h.on
  have look := (h.logAccess ea (AccessKind.load == .store) 0).blockLook .purge 0#32
  simp only [State.blockDiscard, on, Bool.not_true, Bool.false_eq_true, if_false, h.translates.blockPage, Res.andThen, look]
  rfl

theorem blockDiscard_data_miss (h : BlockMiss s .data ea .store p) :
    s.blockDiscard .data ea = .ok () (s.logAccess ea true 0) := by
  have on : s.cacheOn .data = true := h.on
  have look := (h.logAccess ea (AccessKind.store == .store) 0).blockLook .discard 0#32
  simp only [State.blockDiscard, on, Bool.not_true, Bool.false_eq_true, if_false, h.translates.blockPage, Res.andThen, look]
  rfl

/-! `dcbf` and `dcbst` (22_cache.md R443, R445). -/

/-- The line that `dcbf` (`inv`) or `dcbst` leaves. -/
def CacheLine.blockFlushed (l : CacheLine) (inv : Bool) : CacheLine := if inv then l.discard else { l with dirty := 0 }

theorem blockFlush_off (h : s.cacheOn .data = false) (inv : Bool) : s.blockFlush ea inv = .ok () s := by
  simp only [State.blockFlush, h, Bool.not_false, if_true]

theorem blockFlush_miss (h : BlockMiss s .data ea .load p) (inv : Bool) :
    s.blockFlush ea inv = .ok () (s.logAccess ea false 0) := by
  have on : s.cacheOn .data = true := h.on
  have look := (h.logAccess ea (AccessKind.load == .store) 0).blockLook (if inv then .flush else .clean) 0x8000#32
  simp only [State.blockFlush, on, Bool.not_true, Bool.false_eq_true, if_false, h.translates.blockPage, Res.andThen, look]
  rfl

/-- A flush of the line that is present: its bytes are written to memory where it is modified. -/
theorem blockFlush_hit (h : BlockHit s .data ea .load p w l) (inv : Bool)
    (hram : l.dirtyAny = true → s.ramFrom (lineBase (p.page ea).ra) 32) :
    s.blockFlush ea inv = .ok ()
      ((if l.dirtyAny then (s.logAccess ea false 0).putMem false (lineBase (p.page ea).ra) l.data.toList
        else s.logAccess ea false 0).putLine .data (setOf ea) w (l.blockFlushed inv)) := by
  have on : s.cacheOn .data = true := h.on
  have h' := h.logAccess ea (AccessKind.load == .store) 0
  have line : (s.logAccess ea (AccessKind.load == .store) 0).cache.dcache.line (setOf ea) w = l := h'.line
  have good : (s.logAccess ea (AccessKind.load == .store) 0).pushBad l = false := by
    simp only [State.pushBad, h'.unchecked, Bool.false_and]
  simp only [State.blockFlush, on, Bool.not_true, Bool.false_eq_true, if_false, h.translates.blockPage, Res.andThen,
    h'.blockLook, line, good, Bool.and_false]
  cases modified : l.dirtyAny with
  | false => cases inv <;> rfl
  | true =>
    have push := push_plain (s := s.logAccess ea (AccessKind.load == .store) 0) (set := setOf ea) (l := l) h'.unchecked
      (by rw [h.lineAddr]; exact hram modified)
    rw [h.lineAddr] at push
    simp only [if_true, push]
    cases inv <;> rfl

theorem runs_blockFlush_clean {i : Instr} {inv : Bool} (hi : exec i s = (s.blockFlush ea inv).finish fun _ s => s.advance 4)
    (h : BlockHit s .data ea .load p w l) (clean : l.dirty = 0#3) :
    Runs i s (LineResult .data ea w (l.blockFlushed inv) s) := by
  have kept : l.dirtyAny = false := by simp [CacheLine.dirtyAny, clean]
  refine runs_block hi (blockFlush_hit h inv fun modified => ?_) ?_
  · exact absurd modified (by simp [kept])
  · simp only [kept]
    exact putLine_lineResult (s.logAccess ea false 0) .data ea w _

theorem runs_blockFlush_dirty {i : Instr} {inv : Bool} (hi : exec i s = (s.blockFlush ea inv).finish fun _ s => s.advance 4)
    (h : BlockHit s .data ea .load p w l) (dirty : l.dirty ≠ 0#3) (hm : s.mem.wf = true)
    (hram : s.ramFrom (lineBase (p.page ea).ra) 32) :
    Runs i s fun t =>
      LineResult .data ea w (l.blockFlushed inv)
          { s with mem := s.mem.putBytes (lineBase (p.page ea).ra) l.data.toList, buf := t.buf } t ∧ BuffersAfter s t := by
  have modified : l.dirtyAny = true := by simp [CacheLine.dirtyAny, dirty]
  refine runs_block hi (blockFlush_hit h inv fun _ => hram) ?_
  simp only [modified, if_true]
  exact (putMem_buffered (s := s.logAccess ea false 0) hm Vector.length_toList hram).lineResult .data ea w _

/-! `dcbz` (22_cache.md R448). -/

theorem storeThrough_page (s : State) (p : TlbEntry) (ea : Word) :
    s.storeThrough (p.page ea) = true ↔ s.cache.l1csr0.getLsbD 20 = false ∨ p.w = true := by
  simp [State.storeThrough, State.writeThrough, TlbEntry.page, -BitVec.getLsbD_eq_getElem]

/-- An Alignment interrupt of `dcbz`. -/
theorem raiseAlignment_takes (s : State) (ea : Word) :
    TakesNonCritical .alignment s.pc (0x00800000#32 ||| (if s.cur.vle then 0x20#32 else 0#32)) s
        (raiseAlignment ea esrSt s) ∧
      (raiseAlignment ea esrSt s).ints.dear = ea ∧ (raiseAlignment ea esrSt s).mmu = s.mmu := by
  refine ⟨?_, rfl, rfl⟩
  simp [TakesNonCritical, raiseAlignment, raiseSync, takeInterrupt, State.saveIn, IntType.cls, State.setEsr, State.setDear,
    State.keepMask, State.vector, State.vlemi, SameGprs, SameLinks, State.gprD, esrSt]
  rfl

/-- The line of zeros that `dcbz` establishes. -/
def State.zeroedLine (s : State) (ra : Word) : CacheLine :=
  { s.filledLine .data ra with data := Vector.replicate 32 0#8, dirty := 7#3, dataErr := s.newMarks .data }

theorem zeroLine_newLine (s : State) (ra : Word) :
    zeroLine (newLine ra (Vector.replicate 32 0) 0) (s.inject .data) = s.zeroedLine ra := rfl

theorem blockZero_through (h : BlockMiss s .data ea .store p) (through : s.storeThrough (p.page ea) = true) :
    s.blockZero ea = .exc (raiseAlignment ea esrSt (s.logAccess ea true 0)) := by
  have on : s.cacheOn .data = true := h.on
  have through : (s.logAccess ea (AccessKind.store == .store) 0).storeThrough (p.page ea) = true := through
  simp only [State.blockZero, on, Bool.not_true, Bool.false_eq_true, if_false, h.translates.blockPage, Res.andThen, through,
    if_true]
  rfl

theorem blockZero_hit (h : BlockHit s .data ea .store p w l) (back : s.storeThrough (p.page ea) = false) :
    s.blockZero ea = .ok () ((s.logAccess ea true 0).putLine .data (setOf ea) w (zeroLine l (s.inject .data))) := by
  have on : s.cacheOn .data = true := h.on
  have back : (s.logAccess ea (AccessKind.store == .store) 0).storeThrough (p.page ea) = false := back
  have h' := h.logAccess ea (AccessKind.store == .store) 0
  have line : (s.logAccess ea (AccessKind.store == .store) 0).cache.dcache.line (setOf ea) w = l := h'.line
  simp only [State.blockZero, on, Bool.not_true, Bool.false_eq_true, if_false, h.translates.blockPage, Res.andThen, back,
    h'.blockLook, line]
  rfl

theorem blockZero_noWay (h : BlockMiss s .data ea .store p) (back : s.storeThrough (p.page ea) = false)
    (none : p.i = true ∨ ∀ w, w < 4 → ¬s.wayFree .data ea w) :
    s.blockZero ea = .exc (raiseAlignment ea esrSt (s.logAccess ea true 0)) := by
  have on : s.cacheOn .data = true := h.on
  have back : (s.logAccess ea (AccessKind.store == .store) 0).storeThrough (p.page ea) = false := back
  have look := (h.logAccess ea (AccessKind.store == .store) 0).blockLook .alloc 0x4000#32
  simp only [State.blockZero, on, Bool.not_true, Bool.false_eq_true, if_false, h.translates.blockPage, Res.andThen, back, look]
  rcases none with inhibited | full
  · have inhibited : (p.page ea).i = true := inhibited
    rw [if_pos inhibited]
    rfl
  · have full : pickWay (s.logAccess ea (AccessKind.store == .store) 0).cache.dcache.rp
        ((s.logAccess ea (AccessKind.store == .store) 0).available .data (setOf ea)) = Option.none := pickWay_full full
    simp only [full, ite_self]
    rfl

theorem blockZero_miss (h : BlockMiss s .data ea .store p) (back : s.storeThrough (p.page ea) = false) (cached : p.i = false)
    (victim : s.victimIs .data ea w) :
    s.blockZero ea = .ok () ((s.logAccess ea true 0).replace .data (setOf ea) w (s.zeroedLine (p.page ea).ra)) := by
  have on : s.cacheOn .data = true := h.on
  have cached : (p.page ea).i = false := cached
  have back : (s.logAccess ea (AccessKind.store == .store) 0).storeThrough (p.page ea) = false := back
  have h' := h.logAccess ea (AccessKind.store == .store) 0
  have found : pickWay (s.logAccess ea (AccessKind.store == .store) 0).cache.dcache.rp
      ((s.logAccess ea (AccessKind.store == .store) 0).available .data (setOf ea)) = some w := pickWay_victim victim
  simp only [State.blockZero, on, Bool.not_true, Bool.false_eq_true, if_false, h.translates.blockPage, Res.andThen, back,
    h'.blockLook, cached, found, h'.unchecked, Bool.false_and, zeroLine_newLine]
  rfl

/-! The lock instructions (22_cache.md R449 to R453). -/

theorem blockLock_off {ct : BitVec 4} (h : ct ≠ 0#4 ∨ s.cacheOn side = false) :
    s.blockLock side ct ea = .ok () (s.setCsrBits side 0x400#32) := by
  have off : (ct != 0#4 || !s.cacheOn side) = true := by
    rcases h with h | h <;> simp [h]
  simp only [State.blockLock, off, if_true]

theorem blockUnlock_off {ct : BitVec 4} (h : ct ≠ 0#4 ∨ s.cacheOn side = false) :
    s.blockUnlock side ct ea = .ok () s := by
  have off : (ct != 0#4 || !s.cacheOn side) = true := by
    rcases h with h | h <;> simp [h]
  simp only [State.blockUnlock, off, if_true]

theorem blockLock_hit (h : BlockHit s side ea side.lockKind p w l) (may : s.user = false ∨ s.msrUcle = true) :
    s.blockLock side 0#4 ea = .ok () ((s.logAccess ea false 0).putLine side (setOf ea) w { l with lock := 15 }) := by
  have h' := h.logAccess ea false 0
  simp only [State.blockLock, h.on, bne_self_eq_false, Bool.not_true, Bool.or_false, Bool.false_eq_true, if_false,
    h.translates.lockPage may, Res.andThen, h'.blockLook, State.lockWay, h'.line]

theorem blockUnlock_hit (h : BlockHit s side ea side.lockKind p w l) (may : s.user = false ∨ s.msrUcle = true) :
    s.blockUnlock side 0#4 ea = .ok () ((s.logAccess ea false 0).putLine side (setOf ea) w { l with lock := 0 }) := by
  have h' := h.logAccess ea false 0
  simp only [State.blockUnlock, h.on, bne_self_eq_false, Bool.not_true, Bool.or_false, Bool.false_eq_true, if_false,
    h.translates.lockPage may, Res.andThen, h'.blockLook, h'.line]

theorem blockUnlock_miss (h : BlockMiss s side ea side.lockKind p) (may : s.user = false ∨ s.msrUcle = true) :
    s.blockUnlock side 0#4 ea = .ok () (s.logAccess ea false 0) := by
  have h' := h.logAccess ea false 0
  simp only [State.blockUnlock, h.on, bne_self_eq_false, Bool.not_true, Bool.or_false, Bool.false_eq_true, if_false,
    h.translates.lockPage may, Res.andThen, h'.blockLook]

/-- The ways that are enabled for fills. -/
def State.waysOn (s : State) (side : Side) : List Nat := [0, 1, 2, 3].filter fun w => !s.wayOff side w

theorem mem_waysOn : w ∈ s.waysOn side ↔ w < 4 ∧ s.wayOn side w := by
  have below : w ∈ [0, 1, 2, 3] ↔ w < 4 := by
    simp only [List.mem_cons, List.not_mem_nil, or_false]
    omega
  rw [State.waysOn, List.mem_filter, below, Bool.not_eq_true', wayOff_eq_false_iff]

theorem waysOn_isEmpty_iff : (s.waysOn side).isEmpty = true ↔ ∀ w, w < 4 → ¬s.wayOn side w := by
  rw [List.isEmpty_iff, List.eq_nil_iff_forall_not_mem]
  simp only [mem_waysOn, not_and]

/-- The state in which a lock instruction replaces a locked line: CLO is set, and which line is drawn. -/
def State.overlocking (s : State) (side : Side) : State := { s.setCsrBits side 0x200#32 with free := s.free + 1 }

/-- What a lock instruction does once its line is in no way. -/
def State.lockMissed (s : State) (side : Side) (ea : Word) (q : Page) : Res Unit :=
  if q.i || (s.waysOn side).isEmpty then .ok () (s.setCsrBits side 0x400#32)
  else
    match pickWay (s.cacheOf side).rp (s.available side (setOf ea)) with
    | some w => s.lockFill side ea q (s.fillWay side (setOf ea) w q.ra)
    | none =>
      if ((s.setCsrBits side 0x200#32).l1csr side).getLsbD 7 then
        (s.overlocking side).lockFill side ea q ((s.overlocking side).fillWay side (setOf ea)
          ((s.waysOn side).getD (Config.freeNat s.free % (s.waysOn side).length) 0) q.ra)
      else .ok () (s.setCsrBits side 0x200#32)

theorem blockLock_miss (h : BlockMiss s side ea side.lockKind p) (may : s.user = false ∨ s.msrUcle = true) :
    s.blockLock side 0#4 ea = (s.logAccess ea false 0).lockMissed side ea (p.page ea) := by
  have h' := h.logAccess ea false 0
  simp only [State.blockLock, h.on, bne_self_eq_false, Bool.not_true, Bool.or_false, Bool.false_eq_true, if_false,
    h.translates.lockPage may, Res.andThen, h'.blockLook]
  cases side <;> rfl

theorem lockMissed_unlockable {q : Page} (h : q.i = true ∨ ∀ w, w < 4 → ¬s.wayOn side w) :
    s.lockMissed side ea q = .ok () (s.setCsrBits side 0x400#32) := by
  have unlockable : (q.i || (s.waysOn side).isEmpty) = true := by
    rw [Bool.or_eq_true, waysOn_isEmpty_iff]
    exact h
  rw [State.lockMissed, if_pos unlockable]

/-- Some way is enabled, and the page allows caching. -/
theorem not_unlockable {q : Page} (cached : q.i = false) (on : ∃ w, w < 4 ∧ s.wayOn side w) :
    ¬(q.i || (s.waysOn side).isEmpty) = true := by
  obtain ⟨w, hw, way⟩ := on
  rw [cached, Bool.false_or, waysOn_isEmpty_iff]
  exact fun none => none w hw way

theorem l1csr_overflow_bit (s : State) (side : Side) :
    ((s.setCsrBits side 0x200#32).l1csr side).getLsbD 7 = (s.l1csr side).getLsbD 7 := by
  cases side <;> exact (BitVec.getLsbD_or ..).trans (Bool.or_false _)

theorem victim_lt (h : s.victimIs side ea w) : w < 4 := by
  obtain ⟨j, -, rfl, -⟩ := h
  exact Nat.mod_lt _ (by decide)

theorem victim_on (h : s.victimIs side ea w) : s.wayOn side w := by
  obtain ⟨j, -, -, free, -⟩ := h
  exact free.1

/-- A fill that locks what it fills. -/
theorem lockFill_filled {q : Page} {t : State} {ra : Word} (h : Buffered s (s.withLine side ea w (s.filledLine side ra)) t)
    (u : State) :
    u.lockFill side ea q (.ok w t) =
      .ok () (t.putLine side (setOf ea) w { s.filledLine side ra with lock := 15 }) := by
  have line : (t.cacheOf side).line (setOf ea) w = s.filledLine side ra := by
    rw [h.rest]
    cases side <;> exact line_put_self rfl _ _ _
  rw [State.lockFill, State.lockWay, line]

/-- The line is filled and locked in the way that is due. -/
theorem lockMissed_filled {q : Page} (cached : q.i = false) (hc : s.checkOn side = false) (victim : s.victimIs side ea w)
    (hd : s.mayDisplace side ea w) (hf : s.mayFill side q.ra) :
    ∃ t, Buffered s (s.withLine side ea w (s.filledLine side q.ra)) t ∧
      s.lockMissed side ea q = .ok () (t.putLine side (setOf ea) w { s.filledLine side q.ra with lock := 15 }) := by
  obtain ⟨t, fill, filled⟩ := fillWay_buffered hc hd hf
  refine ⟨t, filled, ?_⟩
  rw [State.lockMissed, if_neg (not_unlockable cached ⟨w, victim_lt victim, victim_on victim⟩), pickWay_victim victim]
  simp only [fill]
  exact lockFill_filled filled s

theorem lockMissed_full {q : Page} (cached : q.i = false) (on : ∃ w, w < 4 ∧ s.wayOn side w)
    (full : ∀ w, w < 4 → ¬s.wayFree side ea w) (keep : (s.l1csr side).getLsbD 7 = false) :
    s.lockMissed side ea q = .ok () (s.setCsrBits side 0x200#32) := by
  rw [State.lockMissed, if_neg (not_unlockable cached on), pickWay_full full]
  simp only [l1csr_overflow_bit, keep, Bool.false_eq_true, if_false]

/-- With every enabled way locked, one of these is filled and locked where CLOA is set. -/
theorem lockMissed_overlock {q : Page} (cached : q.i = false) (hc : s.checkOn side = false)
    (on : ∃ w, w < 4 ∧ s.wayOn side w) (full : ∀ w, w < 4 → ¬s.wayFree side ea w) (cloa : (s.l1csr side).getLsbD 7 = true)
    (hd : ∀ w, w < 4 → s.wayOn side w → s.mayDisplace side ea w) (hf : s.mayFill side q.ra) :
    ∃ w t, w < 4 ∧ s.wayOn side w ∧
      Buffered (s.overlocking side) ((s.overlocking side).withLine side ea w (s.filledLine side q.ra)) t ∧
      s.lockMissed side ea q = .ok () (t.putLine side (setOf ea) w { s.filledLine side q.ra with lock := 15 }) := by
  have checks : (s.overlocking side).checkOn side = false := by
    cases side <;> exact ((BitVec.getLsbD_or ..).trans (Bool.or_false _)).trans hc
  have marks : (s.overlocking side).filledLine side q.ra = s.filledLine side q.ra := by
    have inject : ((s.overlocking side).l1csr side).getLsbD 15 = (s.l1csr side).getLsbD 15 := by
      cases side <;> exact (BitVec.getLsbD_or ..).trans (Bool.or_false _)
    have mem : (s.overlocking side).mem = s.mem := by cases side <;> rfl
    simp only [State.filledLine, State.newMarks, inject, mem]
  have fills : (s.overlocking side).mayFill side q.ra := by cases side <;> exact hf
  have displaces {w : Nat} (h : s.mayDisplace side ea w) : (s.overlocking side).mayDisplace side ea w := by
    cases side <;> exact h
  have some_way : (s.waysOn side).length ≠ 0 := fun none =>
    not_unlockable cached on (by rw [List.eq_nil_of_length_eq_zero none]; simp)
  have drawn := Nat.mod_lt (Config.freeNat s.free) (Nat.pos_of_ne_zero some_way)
  obtain ⟨w, chosen⟩ : ∃ w, (s.waysOn side).getD (Config.freeNat s.free % (s.waysOn side).length) 0 = w := ⟨_, rfl⟩
  have way : w ∈ s.waysOn side := by
    rw [← chosen, List.getD_eq_getElem _ _ drawn]
    exact List.getElem_mem _
  obtain ⟨hw, enabled⟩ := mem_waysOn.mp way
  obtain ⟨t, fill, filled⟩ := fillWay_buffered checks (displaces (hd w hw enabled)) fills
  have locked := lockFill_filled (q := q) filled (s.overlocking side)
  rw [marks] at filled locked
  refine ⟨w, t, hw, enabled, filled, ?_⟩
  rw [State.lockMissed, if_neg (not_unlockable cached on), pickWay_full full]
  simp only [l1csr_overflow_bit, cloa, if_true, chosen, fill]
  exact locked

/-! What the instructions leave. -/

variable {i : Instr}

theorem dropInstr_lineResult (hl : s.cache.icache.line (setOf ea) w = l) {t : State}
    (ht : t = (s.dropInstr (setOf ea) w).advance 4) :
    LineResult .instr ea w l.discard
      { s with buf := { s.buf with stale := t.buf.stale, unsynced := t.buf.unsynced, unpurged := t.buf.unpurged } } t := by
  subst ht hl
  conv_rhs => rw [dropInstr_rest]
  exact putLine_lineResult { s with buf := _ } .instr ea w _

theorem runs_icbi_hit (hi : exec i s = (s.blockDiscard .instr ea).finish fun _ s => s.advance 4)
    (h : BlockHit s .instr ea .load p w l) :
    Runs i s fun t =>
      LineResult .instr ea w l.discard
          { s with buf := { s.buf with stale := t.buf.stale, unsynced := t.buf.unsynced, unpurged := t.buf.unpurged } } t ∧
        AheadBytes (LineDiffers s (setOf ea) l) s t ∧ Purged (p.page ea).ra s t := by
  have line : (s.logAccess ea false 0).cache.icache.line (setOf ea) w = l := h.line
  have purged := dropInstr_purged line
  rw [if_pos h.present.1, h.lineAddr, Purged, lineBase_lineBase] at purged
  exact runs_block hi (blockDiscard_instr h) ⟨dropInstr_lineResult line rfl, dropInstr_ahead line, purged⟩

theorem runs_icbi_miss (hi : exec i s = (s.blockDiscard .instr ea).finish fun _ s => s.advance 4)
    (h : BlockMiss s .instr ea .load p) :
    Runs i s fun t => OnlyPc 4 { s with buf := { s.buf with unpurged := t.buf.unpurged } } t ∧ Purged (p.page ea).ra s t :=
  runs_block hi (blockDiscard_instr_miss h)
    ⟨advance_spec ((s.logAccess ea false 0).purge (p.page ea).ra) 4, purge_done (s.logAccess ea false 0) (p.page ea).ra⟩

theorem runs_dcbz_hit (hi : exec i s = (s.blockZero ea).finish fun _ s => s.advance 4) (h : BlockHit s .data ea .store p w l)
    (back : s.storeThrough (p.page ea) = false) :
    Runs i s (LineResult .data ea w
      { l with data := Vector.replicate 32 0#8, dirty := 7#3, dataErr := s.newMarks .data } s) :=
  runs_block hi (blockZero_hit h back) (putLine_lineResult (s.logAccess ea true 0) .data ea w _)

theorem runs_dcbz_miss (hi : exec i s = (s.blockZero ea).finish fun _ s => s.advance 4) (h : BlockMiss s .data ea .store p)
    (back : s.storeThrough (p.page ea) = false) (cached : p.i = false) (victim : s.victimIs .data ea w)
    (hd : s.mayDisplace .data ea w) :
    Runs i s fun t =>
      OnlyPc 4 { s.withLine .data ea w (s.zeroedLine (p.page ea).ra) with buf := t.buf } t ∧ BuffersAfter s t := by
  have put :=
    replace_buffered (s := s.logAccess ea true 0) (side := .data) h.unchecked hd (s.zeroedLine (p.page ea).ra)
  exact runs_block hi (blockZero_miss h back cached victim) put.of_logAccess.onlyPc

theorem runs_dcbz_misaligned (hi : exec i s = (s.blockZero ea).finish fun _ s => s.advance 4)
    (stops : s.blockZero ea = .exc (raiseAlignment ea esrSt (s.logAccess ea true 0))) :
    Runs i s fun t =>
      TakesNonCritical .alignment s.pc (0x00800000#32 ||| (if s.cur.vle then 0x20#32 else 0#32)) s t ∧ t.ints.dear = ea ∧
        t.mmu = s.mmu :=
  runs_block_exc hi stops (raiseAlignment_takes (s.logAccess ea true 0) ea)

theorem runs_unlock_hit (hi : exec i s = (s.blockUnlock side 0#4 ea).finish fun _ s => s.advance 4)
    (may : s.user = false ∨ s.msrUcle = true) (h : BlockHit s side ea side.lockKind p w l) :
    Runs i s (LineResult side ea w { l with lock := 0#4 } s) := by
  refine runs_block hi (blockUnlock_hit h may) ?_
  have done := putLine_lineResult (s.logAccess ea false 0) side ea w { l with lock := 0#4 }
  cases side <;> exact done

section
variable (hi : exec i s = (s.blockLock side 0#4 ea).finish fun _ s => s.advance 4)
  (may : s.user = false ∨ s.msrUcle = true)
include hi may

theorem runs_lock_hit (h : BlockHit s side ea side.lockKind p w l) :
    Runs i s (LineResult side ea w { l with lock := 15#4 } s) := by
  refine runs_block hi (blockLock_hit h may) ?_
  have done := putLine_lineResult (s.logAccess ea false 0) side ea w { l with lock := 15#4 }
  cases side <;> exact done

variable (h : BlockMiss s side ea side.lockKind p)
include h

theorem runs_lock_unlockable (none : p.i = true ∨ ∀ w, w < 4 → ¬s.wayOn side w) :
    Runs i s (OnlyPc 4 (s.setCsrBits side 0x400#32)) := by
  have missed : (s.logAccess ea false 0).lockMissed side ea (p.page ea) = _ := lockMissed_unlockable none
  refine runs_block hi ((blockLock_miss h may).trans missed) ?_
  have done := advance_spec ((s.logAccess ea false 0).setCsrBits side 0x400#32) 4
  cases side <;> exact done

theorem runs_lock_filled (cached : p.i = false) (victim : s.victimIs side ea w) (hd : s.mayDisplace side ea w)
    (hf : s.mayFill side (p.page ea).ra) :
    Runs i s fun t =>
      LineResult side ea w { s.filledLine side (p.page ea).ra with lock := 15#4 }
          { s.withLine side ea w (s.filledLine side (p.page ea).ra) with buf := t.buf } t ∧
        BuffersAfter s t := by
  obtain ⟨t, filled, missed⟩ := lockMissed_filled (s := s.logAccess ea false 0) (q := p.page ea) cached h.unchecked victim
    hd hf
  refine runs_block hi ((blockLock_miss h may).trans missed) ?_
  exact filled.of_logAccess.lineResult side ea w { s.filledLine side (p.page ea).ra with lock := 15#4 }

theorem runs_lock_full (cached : p.i = false) (on : ∃ w, w < 4 ∧ s.wayOn side w)
    (full : ∀ w, w < 4 → ¬s.wayFree side ea w) (keep : (s.l1csr side).getLsbD 7 = false) :
    Runs i s (OnlyPc 4 (s.setCsrBits side 0x200#32)) := by
  have missed : (s.logAccess ea false 0).lockMissed side ea (p.page ea) = _ := lockMissed_full cached on full keep
  refine runs_block hi ((blockLock_miss h may).trans missed) ?_
  have done := advance_spec ((s.logAccess ea false 0).setCsrBits side 0x200#32) 4
  cases side <;> exact done

theorem runs_lock_overlock (cached : p.i = false) (on : ∃ w, w < 4 ∧ s.wayOn side w)
    (full : ∀ w, w < 4 → ¬s.wayFree side ea w) (cloa : (s.l1csr side).getLsbD 7 = true)
    (hd : ∀ w, w < 4 → s.wayOn side w → s.mayDisplace side ea w) (hf : s.mayFill side (p.page ea).ra) :
    Runs i s fun t => ∃ k, k < 4 ∧ s.wayOn side k ∧ BuffersAfter s t ∧
      let u := (s.setCsrBits side 0x200#32).withLine side ea k (s.filledLine side (p.page ea).ra)
      LineResult side ea k { s.filledLine side (p.page ea).ra with lock := 15#4 }
        { u.setCache side { u.cacheOf side with rp := (t.cacheOf side).rp } with buf := t.buf } t := by
  obtain ⟨w, t, hw, way, filled, missed⟩ := lockMissed_overlock (s := s.logAccess ea false 0) (q := p.page ea) cached
    h.unchecked on full cloa hd hf
  refine runs_block hi ((blockLock_miss h may).trans missed) ⟨w, hw, way, ?_⟩
  obtain ⟨done, buffers⟩ := filled.lineResult side ea w { s.filledLine side (p.page ea).ra with lock := 15#4 }
  have rest := filled.rest
  generalize t.buf = b, t.ev = e, t.free = n at rest
  subst rest
  cases side <;> exact ⟨buffers, done⟩

end
end

/-- The touch-and-lock and the unlock instructions are the shared operations of their side. -/
theorem exec_locks (s : State) (ct : BitVec 4) (ra rb : Gpr) :
    (∀ q ∈ ([(.dcbtls ct ra rb, .data, .load), (.dcbtstls ct ra rb, .data, .load), (.icbtls ct ra rb, .instr, .either)] :
        List (Instr × Side × AccessKind)),
      (exec q.1 s = (s.blockLock q.2.1 ct (s.eaX ra rb)).finish fun _ s => s.advance 4) ∧ q.2.2 = q.2.1.lockKind) ∧
    ∀ q ∈ ([(.dcblc ct ra rb, .data, .load), (.icblc ct ra rb, .instr, .either)] : List (Instr × Side × AccessKind)),
      (exec q.1 s = (s.blockUnlock q.2.1 ct (s.eaX ra rb)).finish fun _ s => s.advance 4) ∧ q.2.2 = q.2.1.lockKind := by
  simp only [List.forall_mem_cons, List.not_mem_nil, IsEmpty.forall_iff, implies_true, and_true]
  exact ⟨⟨⟨rfl, rfl⟩, ⟨rfl, rfl⟩, rfl, rfl⟩, ⟨rfl, rfl⟩, rfl, rfl⟩

/-- Settles O39: each instruction is the block operation of its side, and what that leaves where the line is in one way, in none,
or the cache is off is a lemma of the operation. -/
theorem cacheBlocks : Obligations.CacheBlocks := by
  intro s ct ra rb p w l ea user mayLock gone copyback base pushed zeros csr misaligned touches unlocks
  obtain ⟨isTouch, isUnlock⟩ : (∀ q ∈ touches, _) ∧ ∀ q ∈ unlocks, _ := exec_locks s ct ra rb
  have csr_eq (side : Side) (bits : Word) : csr side bits = s.setCsrBits side bits := by cases side <;> rfl
  have back : copyback ↔ s.storeThrough (p.page ea) = false := by
    rw [← Bool.not_eq_true, storeThrough_page, not_or, Bool.not_eq_false, Bool.not_eq_true]
  refine ⟨?icbiHit, ?dcbiHit, ?flushClean, ?flushDirty, ?zeroHit, ?lockHit, ?unlockHit, ?icbiMiss, ?dcbiMiss, ?flushMiss,
    ?unlockMiss, ?zeroMiss, ?zeroThrough, ?lockMiss, ?dataOff, ?instrOff, ?flushOff, ?icbiOff⟩
  case icbiHit => exact fun h => runs_icbi_hit (exec_icbi s ra rb) h
  case dcbiHit =>
    exact fun supervisor h => runs_block ((exec_dcbi s ra rb).trans (privileged_supervisor supervisor _))
      (blockDiscard_data h) (putLine_lineResult (s.logAccess ea true 0) .data ea w _)
  case flushClean =>
    intro h clean
    have same : l.blockFlushed false = l := by
      rw [CacheLine.blockFlushed]
      cases l
      cases clean
      rfl
    have dcbst := runs_blockFlush_clean (exec_dcbst s ra rb) h clean
    rw [same] at dcbst
    exact ⟨runs_blockFlush_clean (exec_dcbf s ra rb) h clean, dcbst⟩
  case flushDirty =>
    exact fun h dirty memWf ram => ⟨runs_blockFlush_dirty (exec_dcbf s ra rb) h dirty memWf ram,
      runs_blockFlush_dirty (exec_dcbst s ra rb) h dirty memWf ram⟩
  case zeroHit => exact fun h mode => runs_dcbz_hit (exec_dcbz s ra rb) h (back.mp mode)
  case lockHit =>
    rintro rfl may q hq h
    obtain ⟨hi, kind⟩ := isTouch q hq
    rw [kind] at h
    exact runs_lock_hit hi may h
  case unlockHit =>
    rintro rfl may q hq h
    obtain ⟨hi, kind⟩ := isUnlock q hq
    rw [kind] at h
    exact runs_unlock_hit hi may h
  case icbiMiss => exact runs_icbi_miss (exec_icbi s ra rb)
  case dcbiMiss =>
    exact fun supervisor h => runs_block ((exec_dcbi s ra rb).trans (privileged_supervisor supervisor _))
      (blockDiscard_data_miss h) (advance_spec (s.logAccess ea true 0) 4)
  case flushMiss =>
    exact fun h => ⟨runs_block (exec_dcbf s ra rb) (blockFlush_miss h true) (advance_spec (s.logAccess ea false 0) 4),
      runs_block (exec_dcbst s ra rb) (blockFlush_miss h false) (advance_spec (s.logAccess ea false 0) 4)⟩
  case unlockMiss =>
    rintro rfl may q hq h
    obtain ⟨hi, kind⟩ := isUnlock q hq
    rw [kind] at h
    exact runs_block hi (blockUnlock_miss h may) (advance_spec (s.logAccess ea false 0) 4)
  case zeroMiss =>
    exact fun h mode =>
      ⟨fun cached victim displaces => runs_dcbz_miss (exec_dcbz s ra rb) h (back.mp mode) cached victim displaces,
        fun none => runs_dcbz_misaligned (exec_dcbz s ra rb) (blockZero_noWay h (back.mp mode) none)⟩
  case zeroThrough =>
    intro h mode
    rw [back, Bool.not_eq_false] at mode
    exact runs_dcbz_misaligned (exec_dcbz s ra rb) (blockZero_through h mode)
  case lockMiss =>
    rintro rfl may q hq h
    obtain ⟨hi, kind⟩ := isTouch q hq
    rw [kind] at h
    simp only [csr_eq]
    exact ⟨runs_lock_filled hi may h, runs_lock_unlockable hi may h, fun cached on full =>
      ⟨runs_lock_full hi may h cached on full, runs_lock_overlock hi may h cached on full⟩⟩
  case dataOff =>
    intro off
    simp only [csr_eq, List.forall_mem_cons, List.not_mem_nil, IsEmpty.forall_iff, implies_true, and_true]
    exact ⟨⟨runs_block (exec_dcbtls s ct ra rb) (blockLock_off off) (advance_spec _ 4),
      runs_block (exec_dcbtstls s ct ra rb) (blockLock_off off) (advance_spec _ 4)⟩,
      runs_block (exec_dcblc s ct ra rb) (blockUnlock_off off) (advance_spec s 4)⟩
  case instrOff =>
    intro off
    exact ⟨runs_block (exec_icbtls s ct ra rb) (blockLock_off off) (advance_spec _ 4),
      runs_block (exec_icblc s ct ra rb) (blockUnlock_off off) (advance_spec s 4)⟩
  case flushOff =>
    exact fun off => ⟨runs_block (exec_dcbf s ra rb) (blockFlush_off off true) (advance_spec s 4),
      runs_block (exec_dcbst s ra rb) (blockFlush_off off false) (advance_spec s 4), fun supervisor =>
        runs_block ((exec_dcbi s ra rb).trans (privileged_supervisor supervisor _)) (blockDiscard_off off)
          (advance_spec s 4)⟩
  case icbiOff => exact fun off => runs_block (exec_icbi s ra rb) (blockDiscard_off off) (advance_spec s 4)

end Sys2Proof.Machine
end

section
/-! PROOF. Bytes stored in a line of the data cache and in memory, as elements (O40). -/

namespace Sys2Proof.Machine

/-! Elements (20_memory.md R210, R211). -/

/-- The bytes `m`, as they lie in memory, are elements of `n` bytes of the values `v`, each in the byte order `e`. -/
structure Elements (e : Bool) (n : Nat) (v : List Nat) (m : List Byte) : Prop where
  length : m.length = n * v.length
  value : ∀ k, k < v.length → bytesNat (endian e ((m.drop (n * k)).take n)) = v.getD k 0

section
variable {e : Bool} {n : Nat} {v : List Nat} {m : List Byte}

theorem mul_add_le {n k len : Nat} (h : k < len) : n * k + n ≤ n * len := Nat.mul_le_mul_left n h

/-- One element, whose bytes the instruction reverses or not before the page does. -/
theorem elements_endian (e rev : Bool) {b : List Byte} (hb : b.length = n) :
    Elements (Bool.xor e rev) n [bytesNat b] (endian e (endian rev b)) := by
  have twice : endian (Bool.xor e rev) (endian e (endian rev b)) = b := by cases e <;> cases rev <;> simp [endian]
  have length : (endian e (endian rev b)).length = n := by cases e <;> cases rev <;> simp [endian, hb]
  refine ⟨by simp [length], fun k hk => ?_⟩
  obtain rfl : k = 0 := by simpa using hk
  rw [Nat.mul_zero, List.drop_zero, List.take_of_length_le (Nat.le_of_eq length), twice]
  rfl

/-- Elements given most significant byte first, put in the order of the page. -/
theorem Elements.elemOrder (h : Elements false n v m) (hn : 0 < n) (e : Bool) : Elements e n v (elemOrder e n m) := by
  refine ⟨(elemOrder_length e n m hn).trans h.length, fun k hk => ?_⟩
  rw [elemOrder_chunk e n k m hn (h.length ▸ mul_add_le hk), endian_endian]
  exact h.value k hk

/-- Elements in memory once they are written. -/
theorem Elements.elem_putBytes (h : Elements e n v m) {mem : Memory} (hm : mem.wf = true) (hl : m.length ≤ 2 ^ 32) {ra : Word}
    {t : State} (ht : t.mem = mem.putBytes ra m) {k : Nat} (hk : k < v.length) :
    t.elem e (ra + BitVec.ofNat 32 (n * k)) n = v.getD k 0 := by
  have part := bytes_part t.mem ra m.length (n * k) n (h.length ▸ mul_add_le hk)
  rw [ht, Memory.bytes_putBytes mem hm ra m hl, ← ht] at part
  rw [State.elem, ← part]
  exact h.value k hk

theorem Elements.outside_putBytes (h : Elements e n v m) {s t : State} (hm : s.mem.wf = true) {ra : Word}
    (ht : t.mem = s.mem.putBytes ra m) : SameMemOutside ra (n * v.length) s t := by
  intro a outside
  rw [ht]
  exact Memory.byte_putBytes_outside _ hm ra m a (h.length ▸ outside)

end

/-! A line with bytes stored (22_cache.md R422; 23_cache_errors_coherency.md R469). -/

theorem vec32_toList {b : List Byte} (h : b.length = 32) : (vec32 b).toList = b := by
  apply List.ext_getElem
  · rw [Vector.length_toList, h]
  · intro j h1 h2
    simp [vec32, h2]

/-- The line with bytes stored, modified unless they go to memory too. -/
def CacheLine.stored (l : CacheLine) (ea : Word) (m : List Byte) (wt inj : Bool) : CacheLine :=
  if wt then l.write ea m inj else { l.write ea m inj with dirty := 7 }

section
variable {l : CacheLine} {ea : Word} {m : List Byte} {inj : Bool}

theorem write_rest (l : CacheLine) (ea : Word) (m : List Byte) (inj : Bool) :
    ∃ data dataErr, l.write ea m inj = { l with data := data, dataErr := dataErr } := ⟨_, _, rfl⟩

theorem write_bytes (inside : ea.toNat % 32 + m.length ≤ 32) :
    (l.write ea m inj).data.toList =
      l.data.toList.take (ea.toNat % 32) ++ m ++ l.data.toList.drop (ea.toNat % 32 + m.length) := by
  rw [← lineOff_eq] at inside ⊢
  refine vec32_toList ?_
  simp
  omega

theorem write_bytes_inside (inside : ea.toNat % 32 + m.length ≤ 32) (a n : Nat) (part : a + n ≤ m.length) :
    ((l.write ea m inj).data.toList.drop (ea.toNat % 32 + a)).take n = (m.drop a).take n := by
  have first : (l.data.toList.take (ea.toNat % 32)).length = ea.toNat % 32 := by simp; omega
  rw [write_bytes inside, List.append_assoc, List.drop_append, first, Nat.add_sub_cancel_left,
    List.drop_eq_nil_of_le (by omega), List.nil_append, List.drop_append_of_le_length (by omega),
    List.take_append_of_le_length (by simp; omega)]

theorem write_get_outside (inside : ea.toNat % 32 + m.length ≤ 32) (j : Fin 32)
    (outside : ¬(ea.toNat % 32 ≤ j.val ∧ j.val < ea.toNat % 32 + m.length)) :
    (l.write ea m inj).data.get j = l.data.get j := by
  have get (d : Vector Byte 32) : d.toList[j.val]? = some (d.get j) := by simp [Vector.get]
  have first : (l.data.toList.take (ea.toNat % 32)).length = ea.toNat % 32 := by simp; omega
  refine Option.some.inj ?_
  rw [← get, ← get, write_bytes inside, List.append_assoc]
  by_cases before : j.val < ea.toNat % 32
  · rw [List.getElem?_append_left (by omega), List.getElem?_take_of_lt before]
  · rw [List.getElem?_append_right (by omega), List.getElem?_append_right (by omega), List.getElem?_drop, first]
    congr 1
    omega

/-- The lanes of the bytes in their doubleword. -/
theorem laneMask_getMsbD {n j : Nat} (fits : ea.toNat % 8 + n ≤ 8) (hj : j < 8) :
    (laneMask ea n).getMsbD j = decide (ea.toNat % 8 ≤ j ∧ j < ea.toNat % 8 + n) := by
  have lane : (ea.extractLsb' 0 3).toNat = ea.toNat % 8 := by
    rw [BitVec.extractLsb'_toNat, Nat.shiftRight_zero]
  have ones (i : Nat) : (0xFF#8).getMsbD i = decide (i < 8) := BitVec.getMsbD_allOnes (v := 8)
  rw [laneMask, lane, BitVec.getMsbD_ushiftRight, BitVec.getMsbD_shiftLeft, ones]
  by_cases before : j < ea.toNat % 8
  · simp [before]
  · have shifted : j - ea.toNat % 8 + (8 - n) < 8 ↔ j < ea.toNat % 8 + n := by omega
    simp only [before, hj, decide_false, decide_true, Bool.not_false, Bool.true_and, shifted, Nat.le_of_not_lt before,
      true_and]

theorem byteErr_eq (l : CacheLine) (j : Fin 32) :
    l.byteErr j.val = (l.dataErr.get ⟨j.val / 8, by omega⟩).getMsbD (j.val % 8) := by
  have below : j.val / 8 < l.dataErr.toList.length := by simp; omega
  rw [CacheLine.byteErr, List.getD_eq_getElem _ _ below]
  rfl

theorem write_dataErr (i : Fin 4) :
    (l.write ea m inj).dataErr.get i =
      if i.val = ea.toNat % 32 / 8 then
        (l.dataErr.get i &&& ~~~laneMask ea m.length) ||| (if inj then laneMask ea m.length else 0#8)
      else l.dataErr.get i := by
  have get : (l.write ea m inj).dataErr.get i =
      if i.val = lineDw ea then (l.errAt ea &&& ~~~laneMask ea m.length) ||| (if inj then laneMask ea m.length else 0#8)
      else l.dataErr.get i := by
    simp [CacheLine.write, Vector.get]
    rfl
  rw [get, lineDw_eq]
  split
  · next here =>
    have below : i.val < l.dataErr.toList.length := by simp
    rw [CacheLine.errAt, lineDw_eq, ← here, List.getD_eq_getElem _ _ below]
    rfl
  · rfl

theorem write_byteErr (fits : ea.toNat % 8 + m.length ≤ 8) (j : Fin 32) :
    (l.write ea m inj).byteErr j.val =
      if ea.toNat % 32 ≤ j.val ∧ j.val < ea.toNat % 32 + m.length then inj else l.byteErr j.val := by
  have lane := laneMask_getMsbD fits (Nat.mod_lt j.val (by decide : 0 < 8))
  rw [byteErr_eq, byteErr_eq, write_dataErr]
  split
  · next here =>
    have here : j.val / 8 = ea.toNat % 32 / 8 := here
    have same : (ea.toNat % 8 ≤ j.val % 8 ∧ j.val % 8 < ea.toNat % 8 + m.length) ↔
        ea.toNat % 32 ≤ j.val ∧ j.val < ea.toNat % 32 + m.length := by omega
    rw [BitVec.getMsbD_or, BitVec.getMsbD_and, BitVec.getMsbD_not, lane]
    by_cases stored : ea.toNat % 32 ≤ j.val ∧ j.val < ea.toNat % 32 + m.length
    · have mark : BitVec.getMsbD (if inj then laneMask ea m.length else 0#8) (j.val % 8) = inj := by
        cases inj <;> simp [lane, same, stored]
      simp [mark, same, stored]
    · have mark : BitVec.getMsbD (if inj then laneMask ea m.length else 0#8) (j.val % 8) = false := by
        cases inj <;> simp [lane, same, stored]
      simp [mark, same, stored, Nat.mod_lt]
  · next other =>
    have other : ¬j.val / 8 = ea.toNat % 32 / 8 := other
    rw [if_neg (by omega)]

/-- The dirty bits of such a line may be others. -/
theorem LineStored.withDirty {n : Nat} {e : Bool} {v : List Nat} {dirty : BitVec 3} {l' : CacheLine}
    (h : LineStored l ea n e v dirty inj l') (d : BitVec 3) : LineStored l ea n e v d inj { l' with dirty := d } := by
  obtain ⟨tag, valid, lock, tagErr, -, values, bytes⟩ := h
  exact ⟨tag, valid, lock, tagErr, rfl, values, bytes⟩

theorem line_stored {e : Bool} {n : Nat} {v : List Nat} (h : Elements e n v m) (fits : ea.toNat % 8 + m.length ≤ 8)
    (wt : Bool) :
    LineStored l ea n e v (if wt then l.dirty else 7#3) inj (l.stored ea m wt inj) := by
  have inside : ea.toNat % 32 + m.length ≤ 32 := by omega
  have written : LineStored l ea n e v l.dirty inj (l.write ea m inj) := by
    obtain ⟨data, dataErr, rest⟩ := write_rest l ea m inj
    refine ⟨by rw [rest], by rw [rest], by rw [rest], by rw [rest], by rw [rest], fun k hk => ?_, fun j => ?_⟩
    · rw [write_bytes_inside inside _ _ (h.length ▸ mul_add_le hk)]
      exact h.value k hk
    · rw [write_byteErr fits, ← h.length]
      split
      · rfl
      · next outside => exact ⟨write_get_outside inside j outside, rfl⟩
  cases wt with
  | true => exact written
  | false => exact written.withDirty 7#3

theorem stored_bytes (fits : ea.toNat % 8 + m.length ≤ 8) (wt : Bool) :
    ((l.stored ea m wt inj).data.toList.drop (ea.toNat % 32)).take m.length = m := by
  have data : (l.stored ea m wt inj).data = (l.write ea m inj).data := by cases wt <;> rfl
  have written := write_bytes_inside (l := l) (inj := inj) (m := m) (ea := ea) (by omega) 0 m.length (by omega)
  rw [data]
  simpa using written

end
end Sys2Proof.Machine
end

section
/-! PROOF. Loads and stores with the data cache on: what they read, and what they leave in the cache and in memory (O40). -/

namespace Sys2Proof.Machine

section
variable {s u : State} {ea : Word} {n : Nat} {k : AccessKind} {p : TlbEntry} {w : Nat} {l : CacheLine} {b m : List Byte}
  {wt : Bool}

/-! Records. -/

theorem Buffered.refl (s : State) : Buffered s s s := ⟨rfl, .of_entries rfl rfl⟩

/-- A record made before it does not matter. -/
theorem Buffered.of_withEv {ev : Ev} {t : State} (h : Buffered { s with ev := ev } { u with ev := ev } t) : Buffered s u t :=
  ⟨h.rest, h.buffers⟩

theorem BlockHit.withEv {side : Side} (h : BlockHit s side ea k p w l) (ev : Ev) :
    BlockHit { s with ev := ev } side ea k p w l := ⟨h.on, h.unchecked, h.known, h.maps, h.allowed, h.here⟩

theorem BlockMiss.withEv {side : Side} (h : BlockMiss s side ea k p) (ev : Ev) : BlockMiss { s with ev := ev } side ea k p :=
  ⟨h.on, h.unchecked, h.known, h.maps, h.allowed, h.absent⟩

/-- The buffers of the end may be taken for those of the start. -/
theorem OnlyRecords.rebase {store : Bool} {beats : List (Word × List Byte)} {mem : Memory} {t : State}
    (h : OnlyRecords store beats mem s t) : OnlyRecords store beats mem { s with buf := t.buf } t where
  rest := h.rest
  psu := h.psu
  snoops := rfl
  errs := rfl
  old := by
    cases store with
    | false => exact ⟨rfl, rfl, rfl⟩
    | true =>
      obtain ⟨ahead, unpurged⟩ := h.old
      exact ⟨fun c => ⟨⟨.inl, (·.elim id fun o => (ahead c).1.mpr (.inr o))⟩,
        ⟨.inl, (·.elim id fun o => (ahead c).2.mpr (.inr o))⟩⟩,
        fun c => ⟨.inl, (·.elim id fun o => (unpurged c).mpr (.inr o))⟩⟩

/-- A change of a line of the data cache goes with records that are made with it. -/
theorem OnlyRecords.putLine {store : Bool} {beats : List (Word × List Byte)} {mem : Memory} {t : State}
    (h : OnlyRecords store beats mem s t) (set w : Nat) (l : CacheLine) :
    OnlyRecords store beats mem (s.putLine .data set w l) (t.putLine .data set w l) := by
  obtain ⟨rest, psu, snoops, errs, old⟩ := h
  refine ⟨?_, psu, snoops, errs, old⟩
  generalize t.ev = ev, t.psu = psu, t.buf = buf at rest
  subst rest
  rfl

theorem BuffersAfter.read {beats : List (Word × List Byte)} {t : State} (h : BuffersAfter s u)
    (g : OnlyRecords false beats u.mem u t) : BuffersAfter s t := by
  obtain ⟨snoops, errs, old, unpurged⟩ := h
  obtain ⟨stale, unsynced, purge⟩ := g.old
  have overwritten (c : Host.Cell) : Overwritten s t c ↔ Overwritten s u c := by rw [Overwritten, Overwritten, g.mem]
  refine ⟨g.snoops.trans snoops, g.errs.trans errs, fun c => ?_, fun c => ?_⟩
  · rw [stale, unsynced, overwritten]
    exact old c
  · rw [purge, overwritten]
    exact unpurged c

theorem BuffersAfter.write {beats : List (Word × List Byte)} {mem : Memory} {t : State} (h : BuffersAfter s u)
    (g : OnlyRecords true beats mem u t) (apart : ∀ a, u.mem.byte a = s.mem.byte a ∨ mem.byte a = u.mem.byte a) :
    BuffersAfter s t := by
  obtain ⟨snoops, errs, old⟩ := h
  exact ⟨g.snoops.trans snoops, g.errs.trans errs, OldBytes.trans old g.old (g.mem ▸ apart)⟩

/-! Beats of an access inside a doubleword. -/

theorem Translates.beats (h : Translates s ea k p) (hn : n ≤ room ea) (esr : Word) (part : Page → State → State) :
    s.beats k esr ea n part = .ok [⟨p.page ea, ea, n⟩] s := by
  simp only [State.beats, h.translate, hn, if_true, h.allowed]

/-- The bytes of the line of memory from an address on. -/
theorem filledLine_read (s : State) (side : Side) {ra : Word} (low : ra.toNat % 1024 = ea.toNat % 1024)
    (fits : ea.toNat % 8 + n ≤ 8) : (s.filledLine side ra).read ea n = s.mem.bytes ra n := by
  have line : (s.filledLine side ra).data.toList = s.mem.bytes (lineBase ra) 32 := by
    rw [← vec32_toList (Memory.bytes_length s.mem (lineBase ra) 32), vec32_bytes]
    rfl
  have offset : lineBase ra + BitVec.ofNat 32 (ea.toNat % 32) = ra := by
    rw [show ea.toNat % 32 = ra.toNat % 32 by omega]
    exact lineBase_add_offset ra
  rw [CacheLine.read, line, lineOff_eq, bytes_part s.mem (lineBase ra) 32 _ _ (by omega), offset]

theorem read_eq (l : CacheLine) (ea : Word) (n : Nat) : l.read ea n = (l.data.toList.drop (ea.toNat % 32)).take n := by
  rw [CacheLine.read, lineOff_eq]

/-- A fill of the line of an address in the data cache. -/
theorem fill_buffered (hc : s.checkOn .data = false) (victim : s.victimIs .data ea w) (hd : s.mayDisplace .data ea w)
    {ra : Word} (hf : s.mayFill .data ra) :
    ∃ t, s.fill .data ea ra = .ok w t ∧ Buffered s (s.withLine .data ea w (s.filledLine .data ra)) t ∧
      t.cache.dcache.line (setOf ea) w = s.filledLine .data ra := by
  obtain ⟨t, fill, filled⟩ := fillWay_buffered hc hd hf
  refine ⟨t, ?_, filled, ?_⟩
  · rw [State.fill, pickWay_victim victim]
    exact fill
  · rw [filled.rest]
    exact line_put_self rfl _ _ _

/-! Loads. -/

theorem DataRead.length (h : DataRead s ea n p b u) (fits : ea.toNat % 8 + n ≤ 8) : b.length = n := by
  cases h with
  | hit => simp; omega
  | fill => simp
  | bus => simp

theorem DataRead.translates (h : DataRead s ea n p b u) : Translates s ea .load p := by
  cases h with
  | hit _ _ here => exact here.translates
  | fill _ absent => exact absent.translates
  | bus absent => exact absent.translates

theorem DataRead.withEv (h : DataRead s ea n p b u) (ev : Ev) :
    DataRead { s with ev := ev } ea n p b { u with ev := ev } := by
  cases h with
  | hit w l here => exact .hit w l (here.withEv ev)
  | fill w absent cached victim displaces fills => exact .fill w (absent.withEv ev) cached victim displaces fills
  | bus absent none ram errs => exact .bus (absent.withEv ev) none ram errs

theorem busRead_plain {q : Page} (ram : s.ramFrom q.ra n) (errs : s.buf.storeErrs = []) :
    ∃ t, s.busRead .data q n = .ok (s.mem.bytes q.ra n) t ∧ Buffered s s t := by
  have empty := flushBuffers_empty errs
  have answers : s.flushBuffers.busErrIn q.ra n = false := busErrIn_false fun j hj => by
    rw [empty]
    exact (ram j hj).1
  obtain ⟨bytes, drawn⟩ := busBytes_plain (s := s.flushBuffers) (k := 0) (ra := q.ra) (n := n) fun j hj => by
    rw [empty]
    exact (ram j hj).2
  refine ⟨s.flushBuffers, ?_, ?_⟩
  · simp only [State.busRead, answers, Bool.false_eq_true, if_false, bytes, drawn, flushBuffers_mem]
  · have records := flushBuffers_records true errs
    exact ⟨by rw [empty], records.snoops, records.errs, records.old⟩

/-- WHAT A BEAT READS with the data cache on. -/
theorem readBeat_cached (h : DataRead s ea n p b u) (fits : ea.toNat % 8 + n ≤ 8) :
    ∃ t, s.readBeat .data ea (p.page ea) n = .ok b t ∧ Buffered s u t := by
  cases h with
  | hit w l here =>
    refine ⟨s, ?_, .refl s⟩
    simp only [State.readBeat, here.on, Bool.not_true, Bool.false_eq_true, if_false, here.lookup, here.unchecked,
      Bool.false_and, State.lineBytes, here.line, read_eq]
  | fill w absent cached victim displaces fills =>
    obtain ⟨t, fill, filled, line⟩ := fill_buffered absent.unchecked victim displaces fills
    have cached : (p.page ea).i = false := cached
    have look := absent.lookup .access
    refine ⟨t, ?_, filled⟩
    simp only [State.readBeat, absent.on, Bool.not_true, Bool.false_eq_true, if_false, look, State.readMiss]
    simp only [cached, Bool.false_eq_true, if_false, fill, State.lineBytes]
    rw [State.cacheOf, line, filledLine_read s .data (page_ra_mod p ea) fits]
  | bus absent none ram errs =>
    obtain ⟨t, read, after⟩ := busRead_plain ram errs
    refine ⟨t, ?_, after⟩
    simp only [State.readBeat, absent.on, Bool.not_true, Bool.false_eq_true, if_false, absent.lookup, State.readMiss]
    rcases none with inhibited | full
    · have inhibited : (p.page ea).i = true := inhibited
      rw [if_pos inhibited, read]
    · simp only [State.fill, pickWay_full full, ite_self]
      exact read

/-- A CACHED LOAD gives its bytes in the order of the page. -/
theorem load_cached (h : DataRead s ea n p b u) (fits : ea.toNat % 8 + n ≤ 8) (esr : Word) (el : Nat) :
    ∃ v t, Buffered s u v ∧ s.load esr ea n el = .ok (elemOrder p.e el b) t ∧ OnlyRecords false (busBeats ea b) u.mem v t := by
  obtain ⟨v, read, reached⟩ := readBeat_cached (h.withEv (s.logAccess ea false n).ev) fits
  have read : (s.logAccess ea false n).readBeat .data ea (p.page ea) n = .ok b v := read
  have hl := h.length fits
  have room : n ≤ room ea := (room_fits ea n).mp fits
  have beats := (h.translates.logAccess ea false n).beats room esr fun _ s => s
  have mem : v.mem = u.mem := by rw [reached.rest]
  have beat := psuBeat_records v false ea b (by omega)
  have logged := logBytes_records false (v.psuBeat false ea b) (b.take n)
  rw [beat.mem] at logged
  refine ⟨v, (v.psuBeat false ea b).logBytes (b.take n), reached.of_withEv, ?_, ?_⟩
  · simp only [State.load, beats, Res.andThen, State.loadBeats, State.loadBeat, read, List.append_nil]
    rfl
  · rw [busBeats_eq, hl, if_pos room, ← mem]
    exact beat.trans logged

end
end Sys2Proof.Machine
end

section
/-! PROOF. Stores with the data cache on: what they leave in the cache and in memory (O40). -/

namespace Sys2Proof.Machine

section
variable {s u : State} {ea : Word} {n : Nat} {k : AccessKind} {p : TlbEntry} {w : Nat} {l : CacheLine} {m : List Byte}
  {wt : Bool}

/-! Writes to memory. -/

theorem OnlyRecords.mayStore {store : Bool} {beats : List (Word × List Byte)} {t : State} {ra : Word}
    (h : OnlyRecords store beats s.mem s t) (may : s.mayStore ra n) : t.mayStore ra n := by
  obtain ⟨wf, ram, errs⟩ := may
  refine ⟨h.mem ▸ wf, fun j hj => ?_, h.errs.trans errs⟩
  simpa [State.busErr, State.onDevice, State.region, h.pins] using ram j hj

/-- A write on the bus to memory that can be stored to. -/
theorem busWrite_plain {q : Page} (may : s.mayStore q.ra m.length) (small : m.length ≤ 2 ^ 32) :
    ∃ t, s.busWrite q m = .ok true t ∧ OnlyRecords true [] (s.mem.putBytes q.ra m) s t := by
  have waited := awaitStores_records q may.2.2
  obtain ⟨wf, ram, -⟩ := waited.mayStore may
  have answers : (s.awaitStores q).busErrIn q.ra m.length = false := busErrIn_false fun j hj => (ram j hj).1
  have put := putMem_records ((s.awaitStores q).buffers q) _ q.ra m wf small fun j hj => (ram j hj).2
  rw [waited.mem] at put
  refine ⟨_, ?_, waited.trans put⟩
  simp only [State.busWrite, answers, Bool.false_eq_true, if_false]

/-- The memory of a store: written to, or not. -/
def Memory.storedIf (mem : Memory) (wt : Bool) (ra : Word) (m : List Byte) : Memory := if wt then mem.putBytes ra m else mem

/-! A store into a line that is present (22_cache.md R422). -/

theorem storeIn_cached {q : Page} (fits : ea.toNat % 8 + m.length ≤ 8) (mode : s.storeThrough q = wt)
    (may : wt = true → s.mayStore q.ra m.length) (line : s.cache.dcache.line (setOf ea) w = l) :
    ∃ t, (s.psuBeat true ea m).storeIn ea q w m = .ok true t ∧
      OnlyRecords true [(ea, m)] (s.mem.storedIf wt q.ra m)
        (s.putLine .data (setOf ea) w (l.stored ea m wt (s.inject .data))) t := by
  have beat := psuBeat_records s true ea m fits
  obtain ⟨v, beaten⟩ : ∃ v, s.psuBeat true ea m = v := ⟨_, rfl⟩
  rw [beaten] at beat ⊢
  have through : v.storeThrough q = wt := by rw [← mode, State.storeThrough, State.writeThrough, beat.cache]; rfl
  have written : v.writeLine ea w m wt = v.putLine .data (setOf ea) w (l.stored ea m wt (s.inject .data)) := by
    have inject : v.inject .data = s.inject .data := by rw [State.inject, State.l1csr, beat.cache]; rfl
    rw [State.writeLine, beat.cache, line, inject]
    rfl
  have put := beat.putLine (setOf ea) w (l.stored ea m wt (s.inject .data))
  simp only [State.storeIn, through, written]
  cases wt with
  | false => exact ⟨_, rfl, put⟩
  | true =>
    obtain ⟨t, write, records⟩ := busWrite_plain (s := v.putLine .data (setOf ea) w (l.stored ea m true (s.inject .data)))
      (beat.mayStore (may rfl)) (by omega)
    rw [put.mem] at records
    exact ⟨t, write, put.trans records⟩

/-! The mode of a store. -/

theorem storesThrough_mode (h : s.storesThrough p wt) : s.storeThrough (p.page ea) = wt := by
  have mode : s.storeThrough (p.page ea) = true ↔ wt = true := (storeThrough_page s p ea).trans h
  cases wt <;> simpa using mode

/-- An allocation choice that is made by DCWA, or by the page. -/
theorem storeAllocates_eq {yes : Bool} (mode : s.storesThrough p wt) (h : s.allocates p wt yes) :
    s.storeAllocates (p.page ea) = yes := by
  have through := storesThrough_mode (ea := ea) mode
  cases yes with
  | true =>
    obtain ⟨inhibits, guarded, dcwa⟩ := h
    have inhibits : (p.page ea).i = false := inhibits
    have guarded : (p.page ea).g = false := guarded
    rcases dcwa with dcwa | ⟨dcwa, rfl⟩ <;>
      simp [State.storeAllocates, State.dcwa, dcwa, inhibits, guarded, through]
  | false =>
    rcases h with inhibits | guarded | dcwa | ⟨dcwa, rfl⟩
    · have inhibits : (p.page ea).i = true := inhibits
      simp [State.storeAllocates, inhibits]
    · have guarded : (p.page ea).g = true := guarded
      simp [State.storeAllocates, guarded]
    · simp [State.storeAllocates, State.dcwa, dcwa]
    · simp [State.storeAllocates, State.dcwa, dcwa, through]

theorem drawDcwa_allocates (h : s.allocates p wt true) : s.drawDcwa = s := by
  obtain ⟨-, -, dcwa⟩ := h
  rcases dcwa with dcwa | ⟨dcwa, -⟩ <;> simp [State.drawDcwa, State.dcwa, dcwa]

theorem drawDcwa_rest (s : State) : ∃ f, s.drawDcwa = { s with free := f } := by
  rw [State.drawDcwa]
  split
  · exact ⟨_, rfl⟩
  · exact ⟨s.free, rfl⟩

/-! A beat that changes a line of the cache. -/

theorem DataWrite.translates (h : DataWrite s ea n p wt w l u) : Translates s ea .store p := by
  cases h with
  | hit _ here => exact here.translates
  | fill absent => exact absent.translates

theorem DataWrite.withEv (h : DataWrite s ea n p wt w l u) (ev : Ev) :
    DataWrite { s with ev := ev } ea n p wt w l { u with ev := ev } := by
  cases h with
  | hit l here mode may => exact .hit w l (here.withEv ev) mode may
  | fill absent mode allocates victim displaces fills may =>
    exact .fill w (absent.withEv ev) mode allocates victim displaces fills may

/-- The memory that a line is displaced to keeps its form. -/
theorem withLine_wf {side : Side} (h : s.mayDisplace side ea w) (l : CacheLine) : (s.withLine side ea w l).mem.wf = true := by
  obtain ⟨wf, -⟩ := h
  rw [State.withLine]
  split
  · exact Memory.wf_putBytes _ wf _ _
  · exact wf

theorem DataWrite.wf (h : DataWrite s ea n p wt w l u) (through : wt = true) : u.mem.wf = true := by
  cases h with
  | hit l here mode may => exact (may through).1
  | fill absent mode allocates victim displaces fills may => exact withLine_wf displaces _

theorem victim_below {side : Side} (h : s.victimIs side ea w) : w < 4 := by
  obtain ⟨j, -, rfl, -⟩ := h
  exact Nat.mod_lt _ (by decide)

/-- The line that a fill displaces is none of the address: no byte of the access is one of its bytes. -/
theorem displaced_apart (absent : BlockMiss s .data ea k p) (hw : w < 4) (pushes : s.pushes .data ea w = true)
    (fits : ea.toNat % 8 + n ≤ 8) {i j : Nat} (hi : i < 32) (hj : j < n) :
    ((p.page ea).ra + BitVec.ofNat 32 j).toNat ≠
      (lineAddr (setOf ea) (s.cache.dcache.line (setOf ea) w) + BitVec.ofNat 32 i).toNat := by
  have other := ways_filter_nil absent.absent hw
  obtain ⟨old, line⟩ : ∃ old, s.cache.dcache.line (setOf ea) w = old := ⟨_, rfl⟩
  have valid : old.valid = true := by
    have := pushes
    simp only [State.pushes, State.cacheOf, line, Bool.and_eq_true] at this
    exact this.1.2
  have tag : old.tag ≠ tagOf (p.page ea).ra := by
    intro same
    simp [State.cacheOf, line, CacheLine.here, valid, same] at other
  have tag : old.tag.toNat ≠ (p.page ea).ra.toNat / 1024 := by
    rw [← tagOf_toNat]
    exact fun same => tag (BitVec.eq_of_toNat_eq same)
  have low := page_ra_mod p ea
  have := old.tag.isLt
  have := (p.page ea).ra.isLt
  rw [line, BitVec.toNat_add, BitVec.toNat_add, lineAddr_toNat, BitVec.toNat_ofNat, BitVec.toNat_ofNat]
  omega

/-- The bytes displaced by the fill of a store and those stored are different ones. -/
theorem DataWrite.apart (h : DataWrite s ea m.length p wt w l u) (fits : ea.toNat % 8 + m.length ≤ 8) (a : Nat) :
    u.mem.byte a = s.mem.byte a ∨ (u.mem.storedIf wt (p.page ea).ra m).byte a = u.mem.byte a := by
  cases h with
  | hit => exact .inl rfl
  | fill absent mode allocates victim displaces fills may =>
    cases wt with
    | false => exact .inr rfl
    | true =>
      have after := withLine_wf displaces (s.filledLine .data (p.page ea).ra)
      obtain ⟨wf, -⟩ := displaces
      by_cases stored : ∃ j, j < m.length ∧ a = ((p.page ea).ra + BitVec.ofNat 32 j).toNat
      · obtain ⟨j, hj, rfl⟩ := stored
        refine .inl ?_
        rw [State.withLine]
        split
        · next pushes =>
          refine Memory.byte_putBytes_outside _ wf _ _ _ fun i hi => ?_
          exact displaced_apart absent (victim_below victim) pushes fits (by simpa using hi) hj
        · rfl
      · exact .inr (Memory.byte_putBytes_outside _ after _ _ _ fun j hj same => stored ⟨j, hj, same⟩)

/-- WHAT A BEAT WRITES with the data cache on, where it changes a line. -/
theorem storeBeat_cached (h : DataWrite s ea m.length p wt w l u) (fits : ea.toNat % 8 + m.length ≤ 8) :
    ∃ v t, Buffered s u v ∧ s.storeBeat ea (p.page ea) m = .ok true t ∧
      OnlyRecords true [(ea, m)] (v.mem.storedIf wt (p.page ea).ra m)
        (v.putLine .data (setOf ea) w (l.stored ea m wt (u.inject .data))) t := by
  cases h with
  | hit l here mode may =>
    obtain ⟨t, store, records⟩ := storeIn_cached fits (storesThrough_mode mode) may here.line
    refine ⟨s, t, .refl s, ?_, records⟩
    simp only [State.storeBeat, here.on, Bool.not_true, Bool.false_eq_true, if_false, here.lookup]
    exact store
  | fill absent mode allocates victim displaces fills may =>
    obtain ⟨v, fill, filled, line⟩ := fill_buffered absent.unchecked victim displaces fills
    obtain ⟨rest, buffers⟩ := filled
    have through : v.storeThrough (p.page ea) = wt := by
      rw [← storesThrough_mode (ea := ea) mode, rest]
      rfl
    have mayAfter : wt = true → v.mayStore (p.page ea).ra m.length := by
      intro yes
      obtain ⟨-, ram, errs⟩ := may yes
      refine ⟨?_, fun j hj => ?_, buffers.2.1.trans errs⟩
      · rw [rest]
        exact withLine_wf displaces (s.filledLine .data (p.page ea).ra)
      · rw [rest]
        exact ram j hj
    have inject : v.inject .data = State.inject
        (s.withLine .data ea w (s.filledLine .data (p.page ea).ra)) .data := by rw [rest]; rfl
    obtain ⟨t, store, records⟩ := storeIn_cached fits through mayAfter line
    rw [inject] at records
    refine ⟨v, t, ⟨rest, buffers⟩, ?_, records⟩
    simp only [State.storeBeat, absent.on, Bool.not_true, Bool.false_eq_true, if_false, absent.lookup, State.storeMiss,
      drawDcwa_allocates allocates, storeAllocates_eq mode allocates, if_true, fill]
    exact store

/-! A beat that writes memory alone. -/

theorem BusWrite.withEv (h : BusWrite s ea n p wt) (ev : Ev) : BusWrite { s with ev := ev } ea n p wt :=
  ⟨h.miss.withEv ev, h.mode, h.alone, h.answers⟩

theorem storeBeat_bus (h : BusWrite s ea m.length p wt) (fits : ea.toNat % 8 + m.length ≤ 8) :
    ∃ f t, s.storeBeat ea (p.page ea) m = .ok true t ∧
      OnlyRecords true [(ea, m)] (s.mem.putBytes (p.page ea).ra m) { s with free := f } t := by
  obtain ⟨f, drawn⟩ := drawDcwa_rest s
  have beat := psuBeat_records { s with free := f } true ea m fits
  obtain ⟨t, write, records⟩ := busWrite_plain (q := p.page ea) (beat.mayStore h.answers) (by omega)
  rw [beat.mem] at records
  refine ⟨f, t, ?_, beat.trans records⟩
  have look := h.miss.lookup .access
  simp only [State.storeBeat, h.miss.on, Bool.not_true, Bool.false_eq_true, if_false, look, State.storeMiss]
  rcases h.alone with stays | ⟨allocates, full⟩
  · rw [storeAllocates_eq h.mode stays, if_neg Bool.false_ne_true, drawn]
    exact write
  · rw [storeAllocates_eq h.mode allocates, if_pos rfl, State.fill]
    rw [drawn]
    have none := pickWay_full (s := { s with free := f }) (side := .data) (ea := ea) full
    simp only [none]
    exact write

/-! Stores of one beat. -/

/-- A store of one beat makes its records first. -/
theorem store_beat (h : Translates s ea .store p) {b : List Byte} {el : Nat} (hb : b.length ≤ room ea)
    (hl : (elemOrder p.e el b).length = b.length) (esr : Word) :
    ∃ ev, s.store esr ea el b =
      (State.storeBeat { s with ev := ev } ea (p.page ea) (elemOrder p.e el b)).andThen fun _ s => .ok () s := by
  have beats := (h.logAccess ea true b.length).beats hb (esr ||| esrSt) (storePart ea el b)
  obtain ⟨ev, logged⟩ : ∃ ev, (s.logAccess ea true b.length).logBytes (elemOrder p.e el b) = { s with ev := ev } := by
    exact ⟨_, rfl⟩
  refine ⟨ev, ?_⟩
  have order : beatsE [⟨p.page ea, ea, b.length⟩] = p.e := rfl
  have first : (elemOrder p.e el b).take (beatsN [⟨p.page ea, ea, b.length⟩]) = elemOrder p.e el b :=
    List.take_of_length_le (Nat.le_of_eq hl)
  have whole : (elemOrder p.e el b).take b.length = elemOrder p.e el b := List.take_of_length_le (Nat.le_of_eq hl)
  simp only [State.store, State.storeDone, beats, Res.andThen, order, first, logged, State.storeBeats, whole]
  cases State.storeBeat { s with ev := ev } ea (p.page ea) (elemOrder p.e el b) with
  | ok done t => cases done <;> rfl
  | exc t => rfl
  | stop f => rfl

/-- A CACHED STORE. -/
theorem store_cached {b : List Byte} {el : Nat} (h : DataWrite s ea b.length p wt w l u)
    (fits : ea.toNat % 8 + b.length ≤ 8) (hl : (elemOrder p.e el b).length = b.length) (esr : Word) :
    ∃ v t, Buffered s u v ∧ s.store esr ea el b = .ok () t ∧
      OnlyRecords true [(ea, elemOrder p.e el b)] (v.mem.storedIf wt (p.page ea).ra (elemOrder p.e el b))
        (v.putLine .data (setOf ea) w (l.stored ea (elemOrder p.e el b) wt (u.inject .data))) t := by
  obtain ⟨ev, store⟩ := store_beat h.translates ((room_fits ea _).mp fits) hl esr
  rw [← hl] at h fits
  obtain ⟨v, t, reached, beat, records⟩ := storeBeat_cached (h.withEv ev) fits
  refine ⟨v, t, reached.of_withEv, ?_, records⟩
  rw [store, beat]
  rfl

/-- A STORE PAST THE CACHE. -/
theorem store_bus {b : List Byte} {el : Nat} (h : BusWrite s ea b.length p wt)
    (fits : ea.toNat % 8 + b.length ≤ 8) (hl : (elemOrder p.e el b).length = b.length) (esr : Word) :
    ∃ v t, v = { s with ev := v.ev, free := v.free } ∧ s.store esr ea el b = .ok () t ∧
      OnlyRecords true [(ea, elemOrder p.e el b)] (s.mem.putBytes (p.page ea).ra (elemOrder p.e el b)) v t := by
  obtain ⟨ev, store⟩ := store_beat h.miss.translates ((room_fits ea _).mp fits) hl esr
  rw [← hl] at h fits
  obtain ⟨f, t, beat, records⟩ := storeBeat_bus (h.withEv ev) fits
  refine ⟨_, t, rfl, ?_, records⟩
  rw [store, beat]
  rfl

end
end Sys2Proof.Machine
end

section
/-! PROOF. What an instruction leaves that goes on past a load or store with the data cache on (O40). -/

namespace Sys2Proof.Machine

section
variable {s u v t : State} {ea ra : Word} {n : Nat} {p : TlbEntry} {w : Nat} {l : CacheLine} {b m : List Byte} {wt : Bool}
  {val : List Nat} {e : Bool}

/-! The results, from the records of the access. -/

theorem BuffersAfter.congr {t' : State} (h : BuffersAfter s t) (hb : t'.buf = t.buf) (hm : t'.mem = t.mem) :
    BuffersAfter s t' := by
  obtain ⟨snoops, errs, old, unpurged⟩ := h
  have overwritten (c : Host.Cell) : Overwritten s t' c ↔ Overwritten s t c := by rw [Overwritten, Overwritten, hm]
  refine ⟨hb ▸ snoops, hb ▸ errs, fun c => ?_, fun c => ?_⟩
  · rw [hb, overwritten]
    exact old c
  · rw [hb, overwritten]
    exact unpurged c

/-- The state that an access starts from, with the buffers of its end. -/
theorem Buffered.rebase (h : Buffered s u v) (buf : Buffers) :
    { v with buf := buf } = { u with buf := buf, ev := v.ev, free := v.free } := by rw [h.rest]

/-- The registers once the base register of an update form is written. -/
theorem setBase_gprD (h : t.gpr = s.gpr) (upd : Option Gpr) (ea : Word) (q : Gpr) :
    (t.setBase upd ea).gprD q = if upd = some q then s.gprH q ++ ea else s.gprD q := by
  have same := gprD_of_gpr h
  cases upd with
  | none => exact same q
  | some a =>
    by_cases here : q = a
    · subst here
      simp [State.setBase, State.setGprW, State.gprH, same]
    · have other : some a ≠ some q := fun e => here (Option.some.inj e).symm
      rw [if_neg other]
      exact (setGprW_gprD_ne _ _ _ _ here).trans (same q)

theorem gprW_gprH_of_append {q : Gpr} {a c : Word} (h : t.gprD q = a ++ c) : t.gprW q = c ∧ t.gprH q = a := by
  rw [State.gprW, State.gprH, h]
  exact ⟨loW_append a c, hiW_append a c⟩

theorem loadResult_of_records (h : OnlyRecords false (busBeats ea b) s.mem s t) (len : Nat) (rt : Gpr) (upd : Option Gpr)
    (x : Word) : LoadResult len rt upd x ea b s (((t.setBase upd ea).setGprW rt x).advance len) := by
  have base := setBase_gprD h.gpr upd ea
  have written (q : Gpr) (hq : q ≠ rt) : (((t.setBase upd ea).setGprW rt x).advance len).gprD q =
      if upd = some q then s.gprH q ++ ea else s.gprD q := (setGprW_gprD_ne _ _ _ _ hq).trans (base q)
  have high : (t.setBase upd ea).gprH rt = s.gprH rt := by
    rw [State.gprH, base]
    split
    · exact hiW_append _ _
    · rfl
  refine ⟨setGprW_gprW_self _ rt x, (setGprW_gprH_self _ rt x).trans high, fun q hq hu => ?_, fun q hq hu => ?_, ?_, ?_, ?_,
    ?_, (SameSystemButMem.of_records h).regs (setBase_setGprW_regs upd ea rt x len t), fun a => ?_⟩
  · exact gprW_gprH_of_append ((written q hq).trans (if_pos hu))
  · exact (written q hq).trans (if_neg hu)
  · simp [Past]; rw [h.rest]
  · simp; rw [h.rest]
  · simp; rw [h.rest]
  · simpa [SameLinks] using SameLinks.of_records h
  · simp [h.mem]

theorem speLoadResult_of_records (h : OnlyRecords false (busBeats ea b) s.mem s t) (rt : Gpr) (x : DWord) :
    SpeLoadResult rt x ea b s ((t.setGprD rt x).advance 4) := by
  refine ⟨setGprD_gprD_self _ rt x, fun q hq => (setGprD_gprD_ne _ _ _ _ hq).trans (gprD_of_gpr h.gpr q), ?_, ?_, ?_, ?_,
    (SameSystemButMem.of_records h).regs rfl, fun a => ?_⟩
  · simp [Past]; rw [h.rest]
  · simp; rw [h.rest]
  · simp; rw [h.rest]
  · simpa [SameLinks] using SameLinks.of_records h
  · simp [h.mem]

/-- The registers that a store leaves. -/
theorem storeRegs_of_records {beats : List (Word × List Byte)} {mem : Memory} (h : OnlyRecords true beats mem s t) (len : Nat)
    (upd : Option Gpr) (ea : Word) {t' : State} (ht : (t.setBase upd ea).advance len = t') :
    (∀ q, upd = some q → t'.gprW q = ea ∧ t'.gprH q = s.gprH q) ∧ (∀ q, upd ≠ some q → t'.gprD q = s.gprD q) ∧
      Past len s t' ∧ t'.cr = s.cr ∧ t'.xer = s.xer ∧ SameLinks s t' := by
  subst ht
  have base := setBase_gprD h.gpr upd ea
  refine ⟨fun q hu => gprW_gprH_of_append ((base q).trans (if_pos hu)), fun q hu => (base q).trans (if_neg hu), ?_, ?_, ?_, ?_⟩
  · simp [Past]; rw [h.rest]
  · simp; rw [h.rest]
  · simp; rw [h.rest]
  · simpa [SameLinks] using SameLinks.of_records h

theorem storeResult_of_records (el : Elements e n val m) (wf : s.mem.wf = true) (small : m.length ≤ 8)
    (fits : ea.toNat % 8 + m.length ≤ 8) (h : OnlyRecords true [(ea, m)] (s.mem.putBytes ra m) s t) (len : Nat)
    (upd : Option Gpr) : StoreResult len n e ra val upd ea s ((t.setBase upd ea).advance len) := by
  have mem : ((t.setBase upd ea).advance len).mem = s.mem.putBytes ra m := by rw [advance_mem, setBase_mem, h.mem]
  have bytes : ((t.setBase upd ea).advance len).mem.bytes ra (n * val.length) = m := by
    rw [mem, ← el.length]
    exact Memory.bytes_putBytes s.mem wf ra m (by omega)
  refine ⟨⟨fun k hk => el.elem_putBytes wf (by omega) mem hk, el.outside_putBytes wf mem, storeRegs_of_records h len upd ea rfl⟩,
    ?_⟩
  rw [bytes, busBeats_eq, if_pos ((room_fits ea _).mp fits)]
  exact (SameSystemButMem.of_records h).regs (setBase_regs upd ea len t)

theorem cachedStoreResult_of_records (el : Elements e n val m) (wf : wt = true → s.mem.wf = true)
    (fits : ea.toNat % 8 + m.length ≤ 8)
    (h : OnlyRecords true [(ea, m)] (s.mem.storedIf wt ra m)
      (s.putLine .data (setOf ea) w (l.stored ea m wt (s.inject .data))) t) (len : Nat) (upd : Option Gpr) :
    CachedStoreResult len n e ra val upd ea w l wt s ((t.setBase upd ea).advance len) := by
  have mem : ((t.setBase upd ea).advance len).mem = s.mem.storedIf wt ra m := by rw [advance_mem, setBase_mem, h.mem]
  have cache : ((t.setBase upd ea).advance len).cache.dcache =
      s.cache.dcache.put (setOf ea) w (l.stored ea m wt (s.inject .data)) := by
    rw [advance_cache, setBase_cache, h.cache]
    rfl
  refine ⟨⟨l.stored ea m wt (s.inject .data), cache, line_stored el fits wt, ?_⟩, ?_, storeRegs_of_records h len upd ea rfl⟩
  · rw [← el.length, stored_bytes fits wt, busBeats_eq, if_pos ((room_fits ea _).mp fits), cache]
    exact (SameSystemButMem.of_records h).regs (setBase_regs upd ea len t)
  · cases wt with
    | true =>
      exact ⟨fun k hk => el.elem_putBytes (wf rfl) (by omega) mem hk, el.outside_putBytes (wf rfl) mem⟩
    | false => exact fun a => congrArg (Memory.byte · a) mem

/-! Instructions. -/

section
variable {i : Instr} {len : Nat} {r : Gpr} {upd : Option Gpr}

theorem runs_loadTo {f : List Byte → Word} (hi : exec i s = s.loadTo len n r upd f ea) (hn : 0 < n)
    (h : DataRead s ea n p b u) (fits : ea.toNat % 8 + n ≤ 8) :
    Runs i s fun t => LoadResult len r upd (f (endian p.e b)) ea b { u with buf := t.buf } t ∧ BuffersAfter s t := by
  obtain ⟨v, t, reached, load, records⟩ := load_cached h fits 0#32 n
  rw [elemOrder_one p.e n b (h.length fits) hn] at load
  have mem : v.mem = u.mem := by rw [reached.rest]
  rw [← mem] at records
  have result := loadResult_of_records (s := { v with buf := t.buf }) records.rebase len r upd (f (endian p.e b))
  rw [reached.rebase] at result
  have buf : (((t.setBase upd ea).setGprW r (f (endian p.e b))).advance len).buf = t.buf := by simp
  refine ⟨_, by rw [hi, State.loadTo, load]; rfl, ?_, (reached.buffers.read records).congr buf (by simp)⟩
  rw [buf]
  exact result

theorem runs_speLoad {form : SpeForm} {el : Nat} {f : List Byte → DWord} (hi : exec i s = s.speLoad form n el r f ea)
    (available : s.msr.getLsbD 25 = true) (on : ea.toNat % s.pins.speBoundary form n = 0)
    (h : DataRead s ea n p b u) (fits : ea.toNat % 8 + n ≤ 8) :
    Runs i s fun t => SpeLoadResult r (f (elemOrder p.e el b)) ea b { u with buf := t.buf } t ∧ BuffersAfter s t := by
  obtain ⟨v, t, reached, load, records⟩ := load_cached h fits esrSpe el
  have mem : v.mem = u.mem := by rw [reached.rest]
  rw [← mem] at records
  have result := speLoadResult_of_records (s := { v with buf := t.buf }) records.rebase r (f (elemOrder p.e el b))
  rw [reached.rebase] at result
  have available : s.msrSpe = true := available
  refine ⟨(t.setGprD r (f (elemOrder p.e el b))).advance 4, ?_, result,
    (reached.buffers.read records).congr rfl rfl⟩
  rw [hi, State.speLoad, speAvail, if_pos available, if_pos (aligned_of_mod on), load]
  rfl

/-- An instruction that goes on past a store which changes a line. -/
theorem runs_store_cached {el : Nat} {esr : Word}
    (hi : exec i s = (s.store esr ea el b).finish fun _ s => (s.setBase upd ea).advance len)
    (elems : Elements e n val (elemOrder p.e el b)) (hl : (elemOrder p.e el b).length = b.length)
    (h : DataWrite s ea b.length p wt w l u) (fits : ea.toNat % 8 + b.length ≤ 8) :
    Runs i s fun t => CachedStoreResult len n e (p.page ea).ra val upd ea w l wt { u with buf := t.buf } t ∧
      BuffersAfter s t := by
  obtain ⟨v, t, reached, store, records⟩ := store_cached h fits hl esr
  have mem : v.mem = u.mem := by rw [reached.rest]
  have inject : u.inject .data = v.inject .data := by rw [reached.rest]; rfl
  rw [inject] at records
  have result := cachedStoreResult_of_records (s := { v with buf := t.buf }) elems (fun yes => mem ▸ h.wf yes)
    (hl ▸ fits) records.rebase len upd
  rw [reached.rebase] at result
  rw [← hl] at h fits
  have apart := h.apart fits
  rw [← mem] at apart
  have buffers : BuffersAfter s t := reached.buffers.write (u := v.putLine .data (setOf ea) w _) records apart
  have buf : ((t.setBase upd ea).advance len).buf = t.buf := by simp
  refine ⟨_, by rw [hi, store]; rfl, ?_, buffers.congr buf (by simp)⟩
  rw [buf]
  exact result

/-- An instruction that goes on past a store which writes memory alone. -/
theorem runs_store_bus {el : Nat} {esr : Word}
    (hi : exec i s = (s.store esr ea el b).finish fun _ s => (s.setBase upd ea).advance len)
    (elems : Elements e n val (elemOrder p.e el b)) (hl : (elemOrder p.e el b).length = b.length)
    (h : BusWrite s ea b.length p wt) (fits : ea.toNat % 8 + b.length ≤ 8) :
    Runs i s (StoreResult len n e (p.page ea).ra val upd ea s) := by
  obtain ⟨v, t, rest, store, records⟩ := store_bus h fits hl esr
  have mem : v.mem = s.mem := by rw [rest]
  rw [← mem] at records
  have result := storeResult_of_records elems (mem ▸ h.answers.1) (by omega) (hl ▸ fits) records len upd
  rw [rest] at result
  exact ⟨_, by rw [hi, store]; rfl, result⟩

end

end
end Sys2Proof.Machine
end

section
/-! PROOF. The loads and stores of one value and the SPE loads and stores, one by one, with the data cache on (O40). -/

namespace Sys2Proof.Machine

/-! Effective addresses with a scaled offset (44_vle.md R1080; 49_spe_multiply_word_loadstore.md). -/

theorem scaled_offset {k : Nat} (x : BitVec k) (scale : Nat) (fits : k ≤ 32) :
    x.zeroExtend 32 <<< scale = BitVec.ofNat 32 (2 ^ scale * x.toNat) := by
  have small : x.toNat < 2 ^ 32 := x.isLt.trans_le (Nat.pow_le_pow_right (by decide) fits)
  apply BitVec.eq_of_toNat_eq
  rw [BitVec.toNat_shiftLeft, BitVec.zeroExtend, BitVec.toNat_setWidth, Nat.mod_eq_of_lt small, BitVec.toNat_ofNat,
    Nat.shiftLeft_eq, Nat.mul_comm]

theorem eaSd4_eq (s : State) (rx : Gpr) (sd4 : BitVec 4) {scale m : Nat} (hm : 2 ^ scale = m) :
    s.eaSd4 rx sd4 scale = s.gprW rx + BitVec.ofNat 32 (m * sd4.toNat) := by
  rw [State.eaSd4, scaled_offset sd4 scale (by decide), hm]

theorem eaEv_eq (s : State) (ra : Gpr) (ui : BitVec 5) {scale m : Nat} (hm : 2 ^ scale = m) :
    s.eaEv ra ui scale = (if ra = 0#5 then 0#32 else s.gprW ra) + BitVec.ofNat 32 (m * ui.toNat) := by
  rw [State.eaEv, scaled_offset ui scale (by decide), State.base0, hm]

/-! Values loaded. -/

section
variable {e : Bool} {b : List Byte} {n k : Nat}

/-- A whole value is its first element. -/
theorem endian_elem (e : Bool) (h : b.length = n) : endian e ((b.drop 0).take n) = endian e b :=
  congrArg (endian e) (List.take_of_length_le (Nat.le_of_eq h))

theorem zeroExt_elem (h : b.length = n) :
    zeroExt (endian e b) = BitVec.ofNat 32 (bytesNat (endian (Bool.xor e false) ((b.drop 0).take n))) := by
  rw [endian_elem _ h, Bool.xor_false]
  rfl

theorem reversed_elem (h : b.length = n) :
    reversed (endian e b) = BitVec.ofNat 32 (bytesNat (endian (Bool.xor e true) ((b.drop 0).take n))) := by
  rw [endian_elem _ h]
  cases e <;> simp [reversed, endian, bytesWord]

theorem algebraic_elem (h : b.length = 2) :
    algebraic (endian e b) = (BitVec.ofNat 16 (bytesNat (endian e ((b.drop 0).take 2)))).signExtend 32 := by
  rw [endian_elem e h]
  rfl

theorem bytesWord_elemOrder (h : b.length = 4) :
    bytesWord (elemOrder e 4 b) = BitVec.ofNat 32 (bytesNat (endian e ((b.drop 0).take 4))) := by
  rw [elemOrder_one e 4 b h (by decide), endian_elem e h]
  rfl

theorem bytesDWord_elemOrder (h : b.length = 8) :
    bytesDWord (elemOrder e 8 b) = BitVec.ofNat 64 (bytesNat (endian e ((b.drop 0).take 8))) := by
  rw [elemOrder_one e 8 b h (by decide), endian_elem e h]
  rfl

theorem halfAt_elemOrder (hk : 2 * k + 2 ≤ b.length) :
    halfAt (elemOrder e 2 b) k = BitVec.ofNat 16 (bytesNat (endian e ((b.drop (2 * k)).take 2))) := by
  rw [halfAt, elemOrder_chunk e 2 k b (by decide) hk]

/-- The number of bytes in two parts. -/
theorem bytes_append (i : Nat) (l m : List Byte) :
    BitVec.ofNat (i + 8 * m.length) (bytesNat (l ++ m)) =
      BitVec.ofNat i (bytesNat l) ++ BitVec.ofNat (8 * m.length) (bytesNat m) := by
  have power : 256 ^ m.length = 2 ^ (8 * m.length) := by rw [Nat.pow_mul]
  have low := bytesNat_lt m
  rw [power] at low
  apply BitVec.eq_of_toNat_eq
  rw [BitVec.toNat_append, BitVec.toNat_ofNat, BitVec.toNat_ofNat, BitVec.toNat_ofNat, bytesNat_append, power,
    Nat.mod_eq_of_lt low, ← Nat.shiftLeft_add_eq_or_of_lt low, Nat.shiftLeft_eq, Nat.pow_add, Nat.mul_comm (2 ^ i),
    Nat.mod_mul, Nat.mul_comm (bytesNat l), Nat.mul_add_mod, Nat.mod_eq_of_lt low, Nat.mul_add_div (Nat.two_pow_pos _),
    Nat.div_eq_of_lt low, Nat.add_zero, Nat.add_comm, Nat.mul_comm]

/-- A part of a number of bytes at its low end. -/
theorem bytes_split (i j : Nat) (h : b.length = n + j) :
    BitVec.ofNat (i + 8 * j) (bytesNat b) =
      BitVec.ofNat i (bytesNat (b.take n)) ++ BitVec.ofNat (8 * j) (bytesNat ((b.drop n).take j)) := by
  have length : (b.drop n).length = j := by simp [h]
  have parts := bytes_append i (b.take n) (b.drop n)
  rw [List.take_append_drop, length] at parts
  rw [parts, List.take_of_length_le (Nat.le_of_eq length)]

theorem bytesDWord_words (h : b.length = 8) :
    bytesDWord b = BitVec.ofNat 32 (bytesNat ((b.drop 0).take 4)) ++ BitVec.ofNat 32 (bytesNat ((b.drop 4).take 4)) :=
  bytes_split (n := 4) 32 4 h

theorem bytesDWord_halves (h : b.length = 8) : bytesDWord b = halfAt b 0 ++ halfAt b 1 ++ halfAt b 2 ++ halfAt b 3 := by
  have last : bytesDWord b = BitVec.ofNat 48 (bytesNat (b.take 6)) ++ halfAt b 3 := bytes_split (n := 6) 48 2 h
  have third : BitVec.ofNat 48 (bytesNat (b.take 6)) = BitVec.ofNat 32 (bytesNat (b.take 4)) ++ halfAt b 2 := by
    have split := bytes_split (b := b.take 6) (n := 4) 32 2 (by simp [h])
    rw [List.take_take, List.drop_take, List.take_take] at split
    exact split
  have second : BitVec.ofNat 32 (bytesNat (b.take 4)) = halfAt b 0 ++ halfAt b 1 := by
    have split := bytes_split (b := b.take 4) (n := 2) 16 2 (by simp [h])
    rw [List.take_take, List.drop_take, List.take_take] at split
    exact split
  rw [last, third, second]

theorem bytesDWord_elemOrder_words (h : b.length = 8) :
    bytesDWord (elemOrder e 4 b) =
      BitVec.ofNat 32 (bytesNat (endian e ((b.drop (4 * 0)).take 4))) ++
        BitVec.ofNat 32 (bytesNat (endian e ((b.drop (4 * 1)).take 4))) := by
  rw [← elemOrder_chunk e 4 0 b (by decide) (by omega), ← elemOrder_chunk e 4 1 b (by decide) (by omega)]
  exact bytesDWord_words ((elemOrder_length e 4 b (by decide)).trans h)

theorem bytesDWord_elemOrder_halves (h : b.length = 8) :
    bytesDWord (elemOrder e 2 b) =
      BitVec.ofNat 16 (bytesNat (endian e ((b.drop (2 * 0)).take 2))) ++
        BitVec.ofNat 16 (bytesNat (endian e ((b.drop (2 * 1)).take 2))) ++
        BitVec.ofNat 16 (bytesNat (endian e ((b.drop (2 * 2)).take 2))) ++
        BitVec.ofNat 16 (bytesNat (endian e ((b.drop (2 * 3)).take 2))) := by
  rw [bytesDWord_halves ((elemOrder_length e 2 b (by decide)).trans h), halfAt_elemOrder (by omega),
    halfAt_elemOrder (by omega), halfAt_elemOrder (by omega), halfAt_elemOrder (by omega)]

end

/-! Values stored. -/

theorem Elements.nil (e : Bool) (n : Nat) : Elements e n [] [] := ⟨by simp, fun k hk => absurd hk (Nat.not_lt_zero k)⟩

theorem Elements.cons {e : Bool} {n x : Nat} {val : List Nat} {b m : List Byte} (hb : b.length = n)
    (hx : bytesNat (endian e b) = x) (h : Elements e n val m) : Elements e n (x :: val) (b ++ m) := by
  subst hb hx
  refine ⟨by rw [List.length_append, h.length, List.length_cons, Nat.mul_succ, Nat.add_comm], fun k hk => ?_⟩
  cases k with
  | zero => rw [Nat.mul_zero, List.drop_zero, List.take_left]; rfl
  | succ k =>
    have rest : (b ++ m).drop (b.length * (k + 1)) = m.drop (b.length * k) := by
      rw [Nat.mul_succ, Nat.add_comm, ← List.drop_drop, List.drop_left]
    rw [rest]
    exact h.value k (Nat.lt_of_succ_lt_succ hk)

theorem Elements.single {n x : Nat} {b : List Byte} (hb : b.length = n) (hx : bytesNat b = x) : Elements false n [x] b :=
  (List.append_nil b) ▸ Elements.cons hb hx (.nil false n)

/-- A part of a part of a bit vector. -/
theorem extract_extract {k i n j o : Nat} (x : BitVec k) (inside : j + o ≤ n) :
    (x.extractLsb' i n).extractLsb' j o = x.extractLsb' (i + j) o := by
  ext l hl
  have below : j + l < n := by omega
  simp [below, Nat.add_assoc]

theorem wordBytes_halves (w : Word) : wordBytes w = halfBytes (w.extractLsb' 16 16) ++ halfBytes (w.extractLsb' 0 16) := by
  simp only [wordBytes, halfBytes, List.cons_append, List.nil_append]
  repeat rw [extract_extract _ (by decide)]

theorem elements_halves (d : DWord) :
    Elements false 2 [(d.extractLsb' 48 16).toNat, (d.extractLsb' 32 16).toNat, (d.extractLsb' 16 16).toNat,
      (d.extractLsb' 0 16).toNat] (dwordBytes d) := by
  have bytes : dwordBytes d = halfBytes (d.extractLsb' 48 16) ++ (halfBytes (d.extractLsb' 32 16) ++
      (halfBytes (d.extractLsb' 16 16) ++ (halfBytes (d.extractLsb' 0 16) ++ []))) := by
    rw [dwordBytes, wordBytes_halves, wordBytes_halves]
    repeat rw [extract_extract _ (by decide)]
    simp
  rw [bytes]
  exact .cons rfl (bytesNat_halfBytes _) <| .cons rfl (bytesNat_halfBytes _) <| .cons rfl (bytesNat_halfBytes _) <|
    .cons rfl (bytesNat_halfBytes _) (.nil false 2)

/-! Lists of instructions of one kind. -/

section
variable {s : State} {r ra rb : Gpr} {ui : BitVec 5} {n : Nat} {p : TlbEntry} {rev : Bool} {x : Nat} {b : List Byte}

theorem loads_cached {f val : List Byte → Word} {is : List (Instr × Nat × Option Gpr × Word)} (hn : 0 < n)
    (value : ∀ b, b.length = n → f (endian p.e b) = val b)
    (runs : ∀ q ∈ is, exec q.1 s = s.loadTo q.2.1 n r q.2.2.1 f q.2.2.2) :
    ∀ q ∈ is, ∀ b u, DataRead s q.2.2.2 n p b u → q.2.2.2.toNat % 8 + n ≤ 8 → Runs q.1 s fun t =>
      LoadResult q.2.1 r q.2.2.1 (val b) q.2.2.2 b { u with buf := t.buf } t ∧ BuffersAfter s t := by
  intro q hq b u read fits
  rw [← value b (read.length fits)]
  exact runs_loadTo (runs q hq) hn read fits

theorem stores_cached {is : List (Instr × Nat × Option Gpr × Word)} (hb : b.length = n) (hn : 0 < n) (hx : bytesNat b = x)
    (runs : ∀ q ∈ is, exec q.1 s = s.storeFrom q.2.1 (endian rev b) q.2.2.1 q.2.2.2) :
    ∀ q ∈ is, ∀ wt, q.2.2.2.toNat % 8 + n ≤ 8 →
      (∀ w l u, DataWrite s q.2.2.2 n p wt w l u → Runs q.1 s fun t =>
        CachedStoreResult q.2.1 n (Bool.xor p.e rev) (p.page q.2.2.2).ra [x] q.2.2.1 q.2.2.2 w l wt
          { u with buf := t.buf } t ∧ BuffersAfter s t) ∧
      (BusWrite s q.2.2.2 n p wt → Runs q.1 s
        (StoreResult q.2.1 n (Bool.xor p.e rev) (p.page q.2.2.2).ra [x] q.2.2.1 q.2.2.2 s)) := by
  intro q hq wt fits
  have length : (endian rev b).length = n := by cases rev <;> simp [endian, hb]
  have elems : Elements (Bool.xor p.e rev) n [x] (elemOrder p.e (endian rev b).length (endian rev b)) := by
    rw [elemOrder_one p.e _ _ rfl (length ▸ hn), ← hx]
    exact elements_endian p.e rev hb
  have same := elemOrder_length p.e (endian rev b).length (endian rev b) (length ▸ hn)
  rw [← length] at fits
  refine ⟨fun w l u write => ?_, fun write => ?_⟩
  · exact runs_store_cached (runs q hq) elems same (length.symm ▸ write) fits
  · exact runs_store_bus (runs q hq) elems same (length.symm ▸ write) fits

/-- The indexed and the scaled form of an SPE load. -/
theorem speLoads_cached {form : SpeForm} {el k m : Nat} {f val : List Byte → DWord} {indexed scaled : Instr}
    (hm : 2 ^ k = m) (value : ∀ b, b.length = n → f (elemOrder p.e el b) = val b)
    (runsIndexed : exec indexed s = s.speLoad form n el r f (s.eaX ra rb))
    (runsScaled : exec scaled s = s.speLoad form n el r f (s.eaEv ra ui k)) :
    ∀ q ∈ [(indexed, (if ra = 0#5 then 0#32 else s.gprW ra) + s.gprW rb),
        (scaled, (if ra = 0#5 then 0#32 else s.gprW ra) + BitVec.ofNat 32 (m * ui.toNat))], ∀ b u,
      DataRead s q.2 n p b u → q.2.toNat % 8 + n ≤ 8 → s.msr.getLsbD 25 = true →
        q.2.toNat % s.pins.speBoundary form n = 0 → Runs q.1 s fun t =>
          SpeLoadResult r (val b) q.2 b { u with buf := t.buf } t ∧ BuffersAfter s t := by
  have both : ∀ q ∈ [(indexed, (if ra = 0#5 then 0#32 else s.gprW ra) + s.gprW rb),
      (scaled, (if ra = 0#5 then 0#32 else s.gprW ra) + BitVec.ofNat 32 (m * ui.toNat))],
      exec q.1 s = s.speLoad form n el r f q.2 := by
    rw [← eaEv_eq s ra ui hm]
    simpa using ⟨runsIndexed, runsScaled⟩
  intro q hq b u read fits available on
  rw [← value b (read.length fits)]
  exact runs_speLoad (both q hq) available on read fits

/-- The indexed and the scaled form of an SPE store. -/
theorem speStores_cached {form : SpeForm} {k m : Nat} {val : List Nat} {indexed scaled : Instr} (hm : 2 ^ k = m)
    (hn : 0 < n) (elems : Elements false n val b) (runsIndexed : exec indexed s = s.speStore form n b (s.eaX ra rb))
    (runsScaled : exec scaled s = s.speStore form n b (s.eaEv ra ui k)) :
    ∀ q ∈ [(indexed, (if ra = 0#5 then 0#32 else s.gprW ra) + s.gprW rb),
        (scaled, (if ra = 0#5 then 0#32 else s.gprW ra) + BitVec.ofNat 32 (m * ui.toNat))], ∀ wt,
      q.2.toNat % 8 + n * val.length ≤ 8 → s.msr.getLsbD 25 = true →
        q.2.toNat % s.pins.speBoundary form (n * val.length) = 0 →
        (∀ w l u, DataWrite s q.2 (n * val.length) p wt w l u → Runs q.1 s fun t =>
          CachedStoreResult 4 n p.e (p.page q.2).ra val none q.2 w l wt { u with buf := t.buf } t ∧ BuffersAfter s t) ∧
        (BusWrite s q.2 (n * val.length) p wt → Runs q.1 s (StoreResult 4 n p.e (p.page q.2).ra val none q.2 s)) := by
  have both : ∀ q ∈ [(indexed, (if ra = 0#5 then 0#32 else s.gprW ra) + s.gprW rb),
      (scaled, (if ra = 0#5 then 0#32 else s.gprW ra) + BitVec.ofNat 32 (m * ui.toNat))],
      exec q.1 s = s.speStore form n b q.2 := by
    rw [← eaEv_eq s ra ui hm]
    simpa using ⟨runsIndexed, runsScaled⟩
  intro q hq wt fits available on
  have available : s.msrSpe = true := available
  rw [← elems.length] at fits on ⊢
  have runs : exec q.1 s = (s.store esrSpe q.2 n b).finish fun _ s => (s.setBase none q.2).advance 4 := by
    rw [both q hq, State.speStore, speAvail, if_pos available, if_pos (aligned_of_mod on)]
    rfl
  have same := elemOrder_length p.e n b hn
  exact ⟨fun w l u write => runs_store_cached runs (elems.elemOrder hn p.e) same write fits,
    fun write => runs_store_bus runs (elems.elemOrder hn p.e) same write fits⟩

end

/-- Settles O40: each instruction is the shared load or store of its form, and each of these leaves in the line, or in memory,
what its access does; the value of a load is read from the bytes in the order of the page, and that of a store written so. -/
theorem cachedAccesses : Obligations.CachedAccesses := by
  intro s r ra rb d d8 sd4 ui p base ed ex e8 es eu elem zero alg half word load speLoad store speStore h
  have offset {k m : Nat} (hm : 2 ^ k = m) : s.eaSd4 ra sd4 k = es m := eaSd4_eq s ra sd4 hm
  have halves (b : List Byte) (k : Nat) (hk : 2 * k + 2 ≤ b.length) : halfAt (elemOrder p.e 2 b) k = half b k :=
    halfAt_elemOrder hk
  refine ⟨?loadByte, ?loadHalf, ?loadAlgebraic, ?loadWord, ?loadHalfReversed, ?loadWordReversed, ?storeByte, ?storeHalf,
    ?storeWord, ?storeHalfReversed, ?storeWordReversed, ?evlhhesplat, ?evlhhousplat, ?evlhhossplat, ?evlwhe, ?evlwhou,
    ?evlwhos, ?evlwwsplat, ?evlwhsplat, ?evldd, ?evldw, ?evldh, ?evstwhe, ?evstwho, ?evstwwe, ?evstwwo, ?evstdd, ?evstdw,
    ?evstdh⟩
  case loadByte =>
    refine loads_cached (f := zeroExt) (by decide) (fun _ => zeroExt_elem) ?_
    have short := (exec_seLbz s r sd4 ra).trans (congrArg (s.loadTo 2 1 r none zeroExt) (offset (k := 0) rfl))
    simp only [List.forall_mem_cons]
    exact ⟨exec_lbz s r d ra, exec_lbzu s r d ra, exec_lbzx s r ra rb, exec_lbzux s r ra rb, exec_eLbz s r d ra,
      exec_eLbzu s r d8 ra, short, List.forall_mem_nil _⟩
  case loadHalf =>
    refine loads_cached (f := zeroExt) (by decide) (fun _ => zeroExt_elem) ?_
    have short := (exec_seLhz s r sd4 ra).trans (congrArg (s.loadTo 2 2 r none zeroExt) (offset (k := 1) rfl))
    simp only [List.forall_mem_cons]
    exact ⟨exec_lhz s r d ra, exec_lhzu s r d ra, exec_lhzx s r ra rb, exec_lhzux s r ra rb, exec_eLhz s r d ra,
      exec_eLhzu s r d8 ra, short, List.forall_mem_nil _⟩
  case loadAlgebraic =>
    refine loads_cached (f := algebraic) (by decide) (fun _ => algebraic_elem) ?_
    simp only [List.forall_mem_cons]
    exact ⟨exec_lha s r d ra, exec_lhau s r d ra, exec_lhax s r ra rb, exec_lhaux s r ra rb, exec_eLha s r d ra,
      exec_eLhau s r d8 ra, List.forall_mem_nil _⟩
  case loadWord =>
    refine loads_cached (f := zeroExt) (by decide) (fun _ => zeroExt_elem) ?_
    have short := (exec_seLwz s r sd4 ra).trans (congrArg (s.loadTo 2 4 r none zeroExt) (offset (k := 2) rfl))
    simp only [List.forall_mem_cons]
    exact ⟨exec_lwz s r d ra, exec_lwzu s r d ra, exec_lwzx s r ra rb, exec_lwzux s r ra rb, exec_eLwz s r d ra,
      exec_eLwzu s r d8 ra, short, List.forall_mem_nil _⟩
  case loadHalfReversed =>
    refine loads_cached (f := reversed) (by decide) (fun _ => reversed_elem) ?_
    exact List.forall_mem_singleton.mpr (exec_lhbrx s r ra rb)
  case loadWordReversed =>
    refine loads_cached (f := reversed) (by decide) (fun _ => reversed_elem) ?_
    exact List.forall_mem_singleton.mpr (exec_lwbrx s r ra rb)
  case storeByte =>
    refine stores_cached (b := s.storeByte r) (rev := false) rfl (by decide) (bytesNat_storeByte r) ?_
    have short := (exec_seStb s r sd4 ra).trans (congrArg (s.storeFrom 2 (s.storeByte r) none) (offset (k := 0) rfl))
    simp only [List.forall_mem_cons]
    exact ⟨exec_stb s r d ra, exec_stbu s r d ra, exec_stbx s r ra rb, exec_stbux s r ra rb, exec_eStb s r d ra,
      exec_eStbu s r d8 ra, short, List.forall_mem_nil _⟩
  case storeHalf =>
    refine stores_cached (b := s.storeHalf r) (rev := false) rfl (by decide) (bytesNat_storeHalf r) ?_
    have short := (exec_seSth s r sd4 ra).trans (congrArg (s.storeFrom 2 (s.storeHalf r) none) (offset (k := 1) rfl))
    simp only [List.forall_mem_cons]
    exact ⟨exec_sth s r d ra, exec_sthu s r d ra, exec_sthx s r ra rb, exec_sthux s r ra rb, exec_eSth s r d ra,
      exec_eSthu s r d8 ra, short, List.forall_mem_nil _⟩
  case storeWord =>
    refine stores_cached (b := s.storeWord r) (rev := false) rfl (by decide) (bytesNat_wordBytes _) ?_
    have short := (exec_seStw s r sd4 ra).trans (congrArg (s.storeFrom 2 (s.storeWord r) none) (offset (k := 2) rfl))
    simp only [List.forall_mem_cons]
    exact ⟨exec_stw s r d ra, exec_stwu s r d ra, exec_stwx s r ra rb, exec_stwux s r ra rb, exec_eStw s r d ra,
      exec_eStwu s r d8 ra, short, List.forall_mem_nil _⟩
  case storeHalfReversed =>
    refine stores_cached (b := s.storeHalf r) (rev := true) rfl (by decide) (bytesNat_storeHalf r) ?_
    exact List.forall_mem_singleton.mpr (exec_sthbrx s r ra rb)
  case storeWordReversed =>
    refine stores_cached (b := s.storeWord r) (rev := true) rfl (by decide) (bytesNat_wordBytes _) ?_
    exact List.forall_mem_singleton.mpr (exec_stwbrx s r ra rb)
  case evlhhesplat =>
    refine speLoads_cached (k := 1) rfl (fun b hb => ?_) (exec_evlhhesplatx s r ra rb) (exec_evlhhesplat s r ui ra)
    have at0 := halves b 0 (by omega)
    exact congrArg₂ evens at0 at0
  case evlhhousplat =>
    refine speLoads_cached (k := 1) rfl (fun b hb => ?_) (exec_evlhhousplatx s r ra rb) (exec_evlhhousplat s r ui ra)
    have at0 := halves b 0 (by omega)
    exact congrArg₂ odds at0 at0
  case evlhhossplat =>
    refine speLoads_cached (k := 1) rfl (fun b hb => ?_) (exec_evlhhossplatx s r ra rb) (exec_evlhhossplat s r ui ra)
    have at0 := halves b 0 (by omega)
    exact congrArg₂ oddsSigned at0 at0
  case evlwhe =>
    refine speLoads_cached (k := 2) rfl (fun b hb => ?_) (exec_evlwhex s r ra rb) (exec_evlwhe s r ui ra)
    exact congrArg₂ evens (halves b 0 (by omega)) (halves b 1 (by omega))
  case evlwhou =>
    refine speLoads_cached (k := 2) rfl (fun b hb => ?_) (exec_evlwhoux s r ra rb) (exec_evlwhou s r ui ra)
    exact congrArg₂ odds (halves b 0 (by omega)) (halves b 1 (by omega))
  case evlwhos =>
    refine speLoads_cached (k := 2) rfl (fun b hb => ?_) (exec_evlwhosx s r ra rb) (exec_evlwhos s r ui ra)
    exact congrArg₂ oddsSigned (halves b 0 (by omega)) (halves b 1 (by omega))
  case evlwwsplat =>
    have splat (b : List Byte) (hb : b.length = 4) := congrArg (fun x => x ++ x) (bytesWord_elemOrder (e := p.e) hb)
    exact speLoads_cached (k := 2) rfl splat (exec_evlwwsplatx s r ra rb) (exec_evlwwsplat s r ui ra)
  case evlwhsplat =>
    refine speLoads_cached (k := 2) rfl (fun b hb => ?_) (exec_evlwhsplatx s r ra rb) (exec_evlwhsplat s r ui ra)
    rw [halves b 0 (by omega), halves b 1 (by omega)]
  case evldd =>
    exact speLoads_cached (k := 3) rfl (fun b hb => bytesDWord_elemOrder hb) (exec_evlddx s r ra rb) (exec_evldd s r ui ra)
  case evldw =>
    exact speLoads_cached (k := 3) rfl (fun b hb => bytesDWord_elemOrder_words hb) (exec_evldwx s r ra rb)
      (exec_evldw s r ui ra)
  case evldh =>
    exact speLoads_cached (k := 3) rfl (fun b hb => bytesDWord_elemOrder_halves hb) (exec_evldhx s r ra rb)
      (exec_evldh s r ui ra)
  case evstwhe =>
    have elems : Elements false 2 [h 0, h 2] (halfBytes (evenH (s.gprD r)) ++ halfBytes (evenL (s.gprD r))) :=
      .cons rfl (bytesNat_halfBytes _) (.single rfl (bytesNat_halfBytes _))
    exact speStores_cached (k := 2) rfl (by decide) elems (exec_evstwhex s r ra rb) (exec_evstwhe s r ui ra)
  case evstwho =>
    have elems : Elements false 2 [h 1, h 3] (halfBytes (oddH (s.gprD r)) ++ halfBytes (oddL (s.gprD r))) :=
      .cons rfl (bytesNat_halfBytes _) (.single rfl (bytesNat_halfBytes _))
    exact speStores_cached (k := 2) rfl (by decide) elems (exec_evstwhox s r ra rb) (exec_evstwho s r ui ra)
  case evstwwe =>
    exact speStores_cached (k := 2) rfl (by decide) (.single rfl (bytesNat_wordBytes _)) (exec_evstwwex s r ra rb)
      (exec_evstwwe s r ui ra)
  case evstwwo =>
    exact speStores_cached (k := 2) rfl (by decide) (.single rfl (bytesNat_wordBytes _)) (exec_evstwwox s r ra rb)
      (exec_evstwwo s r ui ra)
  case evstdd =>
    exact speStores_cached (k := 3) rfl (by decide) (.single rfl (bytesNat_dwordBytes _)) (exec_evstddx s r ra rb)
      (exec_evstdd s r ui ra)
  case evstdw =>
    have elems : Elements false 4 [(s.gprH r).toNat, (s.gprW r).toNat] (dwordBytes (s.gprD r)) :=
      .cons rfl (bytesNat_wordBytes _) (.single rfl (bytesNat_wordBytes _))
    exact speStores_cached (k := 3) rfl (by decide) elems (exec_evstdwx s r ra rb) (exec_evstdw s r ui ra)
  case evstdh =>
    exact speStores_cached (k := 3) rfl (by decide) (elements_halves (s.gprD r)) (exec_evstdhx s r ra rb) (exec_evstdh s r ui ra)

end Sys2Proof.Machine
end

section
/-! PROOF. Debug access to the cache arrays: the words of a line that a read brings to CDADATA, the line that a write leaves, and
the three things a write of CDACNTL can do (O28). -/

namespace Sys2Proof.Machine

/-! A line as CDADATA shows it (23_cache_errors_coherency.md R475, R476). -/

/-- The tag of a line with its valid, lock and dirty bits. -/
def CacheLine.tagWord (l : CacheLine) : Word :=
  (l.tag ++ 0#10 : Word) ||| (boolWord l.valid <<< 8) ||| (l.lock.zeroExtend 32 <<< 4) ||| (l.dirty.zeroExtend 32 <<< 1)

/-- A word of the data of a line. -/
def CacheLine.dataWord (l : CacheLine) (word : Nat) : Word := bytesWord ((l.data.toList.drop (word * 4)).take 4)

/-- The line whose tag, valid, lock and dirty bits are those of a word, with the check bits `chk`. -/
def CacheLine.withTagWord (l : CacheLine) (side : Side) (d : Word) (chk : Byte) : CacheLine :=
  { l with
    tag := d.extractLsb' 10 22
    valid := d.getLsbD 8
    lock := d.extractLsb' 4 4
    dirty := match side with | .instr => 0#3 | .data => d.extractLsb' 1 3
    tagErr := chk.extractLsb' 2 6 ^^^ tagCheck (d.extractLsb' 10 22) (d.getLsbD 8) }

/-- The data of a line with one word replaced. -/
def CacheLine.dataWith (l : CacheLine) (word : Nat) (d : Word) : Vector Byte 32 :=
  vec32 (l.data.toList.take (word * 4) ++ wordBytes d ++ l.data.toList.drop (word * 4 + 4))

/-- The line with that data, and with the check bits `chk` of the doubleword. -/
def CacheLine.withDataWord (l : CacheLine) (side : Side) (word : Nat) (d : Word) (chk : Byte) : CacheLine :=
  let l1 := { l with data := l.dataWith word d }
  { l1 with
    dataErr := Vector.ofFn fun i =>
      if i.val = word / 2 then chk ^^^ dwCheck side (l1.dwOf word) else l1.dataErr.get i }

section
variable (l : CacheLine)

theorem tagWord_eq :
    l.tagWord = fieldAt 10 l.tag ||| fieldAt 8 (BitVec.ofBool l.valid) ||| fieldAt 4 l.lock ||| fieldAt 1 l.dirty := by
  rw [CacheLine.tagWord, append_eq_fieldAt, boolWord_shift]
  rfl

theorem tagWord_fields :
    l.tagWord.extractLsb' 10 22 = l.tag ∧ l.tagWord.getLsbD 9 = false ∧ l.tagWord.getLsbD 8 = l.valid ∧
      l.tagWord.extractLsb' 4 4 = l.lock ∧ l.tagWord.extractLsb' 1 3 = l.dirty ∧ l.tagWord.getLsbD 0 = false := by
  simp (disch := omega) only [tagWord_eq, BitVec.getLsbD_or, BitVec.extractLsb'_or, fieldAt_getLsbD_ofBool,
    fieldAt_getLsbD_other, fieldAt_extract_self, fieldAt_extract_other, Bool.or_false, Bool.false_or, BitVec.or_zero,
    BitVec.zero_or, and_self]

theorem withDataWord_rest (side : Side) (word : Nat) (d : Word) (chk : Byte) :
    ∃ dataErr, l.withDataWord side word d chk = { l with data := l.dataWith word d, dataErr := dataErr } := ⟨_, rfl⟩

theorem dataWord_toNat (word : Nat) : (l.dataWord word).toNat = bytesNat ((l.data.toList.drop (4 * word)).take 4) := by
  rw [CacheLine.dataWord, bytesWord, BitVec.toNat_ofNat, Nat.mul_comm word 4]
  refine Nat.mod_eq_of_lt ((bytesNat_lt _).trans_le ?_)
  exact Nat.pow_le_pow_right (by decide) (List.length_take_le _ _)

/-- A word replaced is four bytes stored. -/
theorem dataWith_eq_write {word : Nat} (inside : word < 8) (d : Word) :
    (BitVec.ofNat 32 (word * 4)).toNat % 32 = word * 4 ∧
      l.dataWith word d = (l.write (BitVec.ofNat 32 (word * 4)) (wordBytes d) false).data := by
  have offset : (BitVec.ofNat 32 (word * 4)).toNat % 32 = word * 4 := by rw [BitVec.toNat_ofNat]; omega
  refine ⟨offset, ?_⟩
  rw [CacheLine.write, lineOff_eq, offset]
  rfl

theorem dataWith_get {word : Nat} (inside : word < 8) (d : Word) (j : Fin 32) :
    (l.dataWith word d).get j = if j.val / 4 = word then (wordBytes d).getD (j.val % 4) 0#8 else l.data.get j := by
  obtain ⟨offset, stored⟩ := dataWith_eq_write l inside d
  have four : (wordBytes d).length = 4 := rfl
  have fits : (BitVec.ofNat 32 (word * 4)).toNat % 32 + (wordBytes d).length ≤ 32 := by rw [offset, four]; omega
  rw [stored]
  split
  · next here =>
    have get (v : Vector Byte 32) : v.toList[j.val]? = some (v.get j) := by simp [Vector.get]
    have first : (l.data.toList.take (word * 4)).length = word * 4 := by simp; omega
    have byte : j.val - word * 4 = j.val % 4 := by omega
    have below : j.val % 4 < (wordBytes d).length := Nat.mod_lt _ (by decide)
    refine Option.some.inj ?_
    rw [← get, write_bytes fits, offset, List.append_assoc, List.getElem?_append_right (by omega),
      List.getElem?_append_left (by omega), first, byte, List.getD_eq_getElem _ _ below, List.getElem?_eq_getElem below]
  · next other => exact write_get_outside fits j (by rw [offset, four]; omega)

end

/-! A write of CDACNTL. -/

/-- The cache that a command of CDACNTL names. -/
def debugSide (v : Word) : Side := if v.getLsbD 3 then .instr else .data

theorem extract_and_ones {m : Word} {a n : Nat} (v : Word) (h : m.extractLsb' a n = BitVec.allOnes n) :
    (v &&& m).extractLsb' a n = v.extractLsb' a n := by
  rw [BitVec.extractLsb'_and, h, BitVec.and_allOnes]

theorem getLsbD_and_one {m : Word} {a : Nat} (v : Word) (h : m.getLsbD a = true) : (v &&& m).getLsbD a = v.getLsbD a := by
  rw [BitVec.getLsbD_and, h, Bool.and_true]

section
variable (v : Word)

/-! The fields of CDACNTL stand in its implemented bits (23_cache_errors_coherency.md R475). -/

theorem cdacntl_go : (v &&& 0xB3FFFF0F#32).extractLsb' 0 2 = v.extractLsb' 0 2 := extract_and_ones v rfl
theorem cdacntl_read : (v &&& 0xB3FFFF0F#32).getLsbD 2 = v.getLsbD 2 := getLsbD_and_one v rfl
theorem cdacntl_side : debugSide (v &&& 0xB3FFFF0F#32) = debugSide v := by
  rw [debugSide, debugSide, getLsbD_and_one v rfl]
theorem cdacntl_check : (v &&& 0xB3FFFF0F#32).extractLsb' 8 8 = v.extractLsb' 8 8 := extract_and_ones v rfl
theorem cdacntl_word : (v &&& 0xB3FFFF0F#32).extractLsb' 16 3 = v.extractLsb' 16 3 := extract_and_ones v rfl
theorem cdacntl_set : (v &&& 0xB3FFFF0F#32).extractLsb' 19 7 = v.extractLsb' 19 7 := extract_and_ones v rfl
theorem cdacntl_way : (v &&& 0xB3FFFF0F#32).extractLsb' 28 2 = v.extractLsb' 28 2 := extract_and_ones v rfl
theorem cdacntl_tag : (v &&& 0xB3FFFF0F#32).getLsbD 31 = v.getLsbD 31 := getLsbD_and_one v rfl

end

/-- The line that a command of CDACNTL names. -/
def State.debugLine (s : State) (v : Word) : CacheLine :=
  (s.cacheOf (debugSide v)).line (v.extractLsb' 19 7).toNat (v.extractLsb' 28 2).toNat

/-- The word that a read command brings to CDADATA. -/
def State.debugWord (s : State) (v : Word) : Word :=
  if v.getLsbD 31 then (s.debugLine v).tagWord else (s.debugLine v).dataWord (v.extractLsb' 16 3).toNat

/-- The check bits that a read command brings to CDACNTL. -/
def State.debugCheck (s : State) (v : Word) : Byte :=
  let l := s.debugLine v
  let word := (v.extractLsb' 16 3).toNat
  if v.getLsbD 31 then (tagCheck l.tag l.valid ^^^ l.tagErr) ++ 0#2
  else dwCheck (debugSide v) (l.dwOf word) ^^^ (l.dataErr.toList.getD (word / 2) 0)

/-- What a write command makes of the line. -/
def State.debugWritten (s : State) (v : Word) : CacheLine :=
  if v.getLsbD 31 then (s.debugLine v).withTagWord (debugSide v) s.cache.cdadata (v.extractLsb' 8 8)
  else (s.debugLine v).withDataWord (debugSide v) (v.extractLsb' 16 3).toNat s.cache.cdadata (v.extractLsb' 8 8)

/-- The cache arrays and registers after a read command. -/
def State.debugRead (s : State) (v : Word) : Caches :=
  { s.cache with cdacntl := (v &&& 0xB3FF000C#32) ||| fieldAt 8 (s.debugCheck v), cdadata := s.debugWord v }

/-- The cache arrays and registers after a write command. -/
def State.debugWrite (s : State) (v : Word) : Caches :=
  { (s.setCache (debugSide v) ((s.cacheOf (debugSide v)).put (v.extractLsb' 19 7).toNat (v.extractLsb' 28 2).toNat
      (s.debugWritten v))).cache with
    cdacntl := v &&& 0xB3FFFF0C#32 }

section
variable {s : State} {v : Word}

theorem writeCdacntl_plain (go : v.extractLsb' 0 2 ≠ 1#2) :
    s.writeCdacntl v = { s with cache := { s.cache with cdacntl := v &&& 0xB3FFFF0F#32 } } := by
  unfold State.writeCdacntl
  dsimp only
  rw [cdacntl_go, if_neg (by simpa using go)]

theorem flushBuffers_of_noErrs (h : s.buf.storeErrs = []) :
    s.flushBuffers = { s with buf := { s.buf with entries := [] } } :=
  (flushBuffers_empty h).trans
    (congrArg (fun e => { s with buf := { s.buf with storeErrs := e, entries := [] } }) h.symm)

theorem writeCdacntl_read (go : v.extractLsb' 0 2 = 1#2) (read : v.getLsbD 2 = true) (errs : s.buf.storeErrs = []) :
    s.writeCdacntl v = { s with cache := s.debugRead v, buf := { s.buf with entries := [] } } := by
  unfold State.writeCdacntl
  dsimp only
  rw [← debugSide, cdacntl_go, cdacntl_read, cdacntl_tag, cdacntl_side, cdacntl_way, cdacntl_set, cdacntl_word, go, read,
    if_pos BEq.rfl, if_pos rfl, flushBuffers_of_noErrs errs, BitVec.and_assoc, BitVec.and_assoc]
  rfl

theorem writeCdacntl_write (go : v.extractLsb' 0 2 = 1#2) (write : v.getLsbD 2 = false) (errs : s.buf.storeErrs = []) :
    s.writeCdacntl v = { s with cache := s.debugWrite v, buf := { s.buf with entries := [] } } := by
  unfold State.writeCdacntl
  dsimp only
  rw [← debugSide, cdacntl_go, cdacntl_read, cdacntl_tag, cdacntl_side, cdacntl_way, cdacntl_set, cdacntl_word,
    cdacntl_check, go, write, if_pos BEq.rfl, if_neg Bool.false_ne_true, flushBuffers_of_noErrs errs, BitVec.and_assoc]
  unfold State.debugWrite State.debugWritten State.debugLine
  cases debugSide v <;> rfl

theorem debugRead_cdacntl : (s.debugRead v).cdacntl &&& 0xFFFF00FF#32 = v &&& 0xB3FF000C#32 := by
  have check : fieldAt 8 (s.debugCheck v) &&& 0xFFFF00FF#32 = 0#32 := fieldAt_and_eq_zero _ rfl
  rw [State.debugRead, BitVec.and_comm, BitVec.and_or_distrib_left, BitVec.and_comm _ (fieldAt _ _), check, BitVec.or_zero,
    BitVec.and_comm, BitVec.and_assoc]
  rfl

theorem debugWord_tag_fields (tag : v.getLsbD 31 = true) :
    (s.debugWord v).extractLsb' 10 22 = (s.debugLine v).tag ∧ (s.debugWord v).getLsbD 9 = false ∧
      (s.debugWord v).getLsbD 8 = (s.debugLine v).valid ∧ (s.debugWord v).extractLsb' 4 4 = (s.debugLine v).lock ∧
      (s.debugWord v).extractLsb' 1 3 = (s.debugLine v).dirty ∧ (s.debugWord v).getLsbD 0 = false := by
  rw [State.debugWord, if_pos tag]
  exact tagWord_fields _

theorem debugWord_data_toNat (data : v.getLsbD 31 = false) :
    (s.debugWord v).toNat = bytesNat (((s.debugLine v).data.toList.drop (4 * (v.extractLsb' 16 3).toNat)).take 4) := by
  rw [State.debugWord, if_neg (Bool.eq_false_iff.mp data)]
  exact dataWord_toNat _ _

theorem debugWritten_tag_fields (tag : v.getLsbD 31 = true) :
    (s.debugWritten v).tag = s.cache.cdadata.extractLsb' 10 22 ∧ (s.debugWritten v).valid = s.cache.cdadata.getLsbD 8 ∧
      (s.debugWritten v).lock = s.cache.cdadata.extractLsb' 4 4 ∧
      (s.debugWritten v).dirty = (if v.getLsbD 3 then 0#3 else s.cache.cdadata.extractLsb' 1 3) ∧
      (s.debugWritten v).data = (s.debugLine v).data ∧ (s.debugWritten v).dataErr = (s.debugLine v).dataErr := by
  rw [State.debugWritten, if_pos tag]
  refine ⟨rfl, rfl, rfl, ?dirty, rfl, rfl⟩
  unfold debugSide
  cases v.getLsbD 3 <;> rfl

theorem debugWritten_data_fields (data : v.getLsbD 31 = false) :
    (s.debugWritten v).tag = (s.debugLine v).tag ∧ (s.debugWritten v).valid = (s.debugLine v).valid ∧
      (s.debugWritten v).lock = (s.debugLine v).lock ∧ (s.debugWritten v).dirty = (s.debugLine v).dirty ∧
      (s.debugWritten v).tagErr = (s.debugLine v).tagErr ∧
      ∀ j : Fin 32, (s.debugWritten v).data.get j =
        if j.val / 4 = (v.extractLsb' 16 3).toNat then (wordBytes s.cache.cdadata).getD (j.val % 4) 0#8
        else (s.debugLine v).data.get j := by
  have inside : (v.extractLsb' 16 3).toNat < 8 := BitVec.isLt _
  rw [State.debugWritten, if_neg (Bool.eq_false_iff.mp data)]
  obtain ⟨dataErr, rest⟩ :=
    withDataWord_rest (s.debugLine v) (debugSide v) (v.extractLsb' 16 3).toNat s.cache.cdadata (v.extractLsb' 8 8)
  rw [rest]
  exact ⟨rfl, rfl, rfl, rfl, rfl, dataWith_get (s.debugLine v) inside s.cache.cdadata⟩

end

end Sys2Proof.Machine
end

section
/-! PROOF. `mfdcr`, `mtdcr`, `mfpmr` and `mtpmr`: which register a number names, and what its read and its write leave (O28). -/

namespace Sys2Proof.Machine

theorem eq_ofNat_of_toNat {n : BitVec 10} {k : Nat} (h : n.toNat = k) : n = BitVec.ofNat 10 k := by
  rw [← h, BitVec.ofNat_toNat, BitVec.setWidth_eq]

section
variable {s : State} {n : BitVec 10} {r : Gpr}

/-! Device control registers (43_apu_misc.md R912, R913). -/

theorem runs_mfdcr {d : Dcr} (supervisor : s.msr.getLsbD 14 = false) (named : dcrNamed s.pins n = some d) :
    Runs (.mfdcr r n) s (IntResult 4 r (s.readDcr d) none none false s) := by
  refine ⟨_, ?_, setGprW_advance_spec s r _⟩
  rw [exec_mfdcr, execMfdcr, named]
  exact privileged_supervisor supervisor _

theorem runs_mtdcr {d : Dcr} {P : State → Prop} (supervisor : s.msr.getLsbD 14 = false)
    (named : dcrNamed s.pins n = some d) (written : P ((s.writeDcr d (s.gprW r)).advance 4)) : Runs (.mtdcr n r) s P := by
  refine ⟨_, ?_, written⟩
  rw [exec_mtdcr, execMtdcr, named]
  exact privileged_supervisor supervisor _

/-- A number outside those of the Parallel Signature Unit names what it is strapped to. -/
theorem dcrNamed_strapped (p : Pins) (outside : ¬(272 ≤ n.toNat ∧ n.toNat ≤ 278)) :
    dcrNamed p n =
      if p.dcrnCdacntl == some n then some .cdacntl else if p.dcrnCdadata == some n then some .cdadata else none := by
  unfold dcrNamed
  split
  pick_goal 8
  · rfl
  all_goals omega

theorem dcrNamed_cdacntl {p : Pins} (outside : ¬(272 ≤ n.toNat ∧ n.toNat ≤ 278)) (strap : p.dcrnCdacntl = some n) :
    dcrNamed p n = some .cdacntl := by
  rw [dcrNamed_strapped p outside, if_pos (by rw [strap]; exact BEq.rfl)]

theorem dcrNamed_cdadata {p : Pins} (outside : ¬(272 ≤ n.toNat ∧ n.toNat ≤ 278)) (strap : p.dcrnCdadata = some n)
    (other : p.dcrnCdacntl ≠ some n) : dcrNamed p n = some .cdadata := by
  rw [dcrNamed_strapped p outside, if_neg (by simpa using other), if_pos (by rw [strap]; exact BEq.rfl)]

/-- The number `p.1` names a device control register, whose value is `p.2`. -/
def State.DcrReads (s : State) (p : Nat × Word) : Prop :=
  ∃ d, dcrNamed s.pins (BitVec.ofNat 10 p.1) = some d ∧ s.readDcr d = p.2

/-- The number `p.1` names a device control register, and writing `v` to it leaves `p.2` in the signature unit. -/
def State.DcrWrites (s : State) (v : Word) (p : Nat × Psu) : Prop :=
  ∃ d, dcrNamed s.pins (BitVec.ofNat 10 p.1) = some d ∧ s.writeDcr d v = { s with psu := p.2 }

theorem runs_mfdcr_of_reads {p : Nat × Word} (supervisor : s.msr.getLsbD 14 = false) (reads : s.DcrReads p)
    (number : n.toNat = p.1) : Runs (.mfdcr r n) s (IntResult 4 r p.2 none none false s) := by
  obtain ⟨d, named, value⟩ := reads
  rw [eq_ofNat_of_toNat number, ← value]
  exact runs_mfdcr supervisor named

theorem runs_mtdcr_of_writes {p : Nat × Psu} (supervisor : s.msr.getLsbD 14 = false) (writes : s.DcrWrites (s.gprW r) p)
    (number : n.toNat = p.1) : Runs (.mtdcr n r) s (OnlyPc 4 { s with psu := p.2 }) := by
  obtain ⟨d, named, written⟩ := writes
  rw [eq_ofNat_of_toNat number]
  refine runs_mtdcr supervisor named ?_
  rw [written]
  exact advance_spec _ 4

/-! The commands of CDACNTL (23_cache_errors_coherency.md R475, R476). -/

theorem runs_mtdcr_plain (supervisor : s.msr.getLsbD 14 = false) (named : dcrNamed s.pins n = some .cdacntl)
    (go : (s.gprW r).extractLsb' 0 2 ≠ 1#2) :
    Runs (.mtdcr n r) s (OnlyPc 4 { s with cache := { s.cache with cdacntl := s.gprW r &&& 0xB3FFFF0F#32 } }) := by
  refine runs_mtdcr supervisor named ?_
  rw [State.writeDcr, writeCdacntl_plain go]
  exact advance_spec _ 4

theorem runs_mtdcr_read {P : State → Prop} (supervisor : s.msr.getLsbD 14 = false)
    (named : dcrNamed s.pins n = some .cdacntl) (go : (s.gprW r).extractLsb' 0 2 = 1#2)
    (read : (s.gprW r).getLsbD 2 = true) (errs : s.buf.storeErrs = [])
    (done : P ({ s with cache := s.debugRead (s.gprW r), buf := { s.buf with entries := [] } }.advance 4)) :
    Runs (.mtdcr n r) s P := by
  refine runs_mtdcr supervisor named ?_
  rw [State.writeDcr, writeCdacntl_read go read errs]
  exact done

theorem runs_mtdcr_write (supervisor : s.msr.getLsbD 14 = false) (named : dcrNamed s.pins n = some .cdacntl)
    (go : (s.gprW r).extractLsb' 0 2 = 1#2) (write : (s.gprW r).getLsbD 2 = false) (errs : s.buf.storeErrs = []) :
    Runs (.mtdcr n r) s
      (OnlyPc 4 { s with cache := s.debugWrite (s.gprW r), buf := { s.buf with entries := [] } }) := by
  refine runs_mtdcr supervisor named ?_
  rw [State.writeDcr, writeCdacntl_write go write errs]
  exact advance_spec _ 4

/-! Performance monitor registers (62_perfmon_power.md R2301). -/

theorem pmrNamed_pmc (k : Fin 4) :
    pmrNamed k.val = some (.pmc k, true) ∧ pmrNamed (k.val + 16) = some (.pmc k, false) := by
  decide +revert

theorem pmrNamed_pmlca (k : Fin 4) :
    pmrNamed (k.val + 128) = some (.pmlca k, true) ∧ pmrNamed (k.val + 144) = some (.pmlca k, false) := by
  decide +revert

theorem pmrNamed_pmlcb (k : Fin 4) :
    pmrNamed (k.val + 256) = some (.pmlcb k, true) ∧ pmrNamed (k.val + 272) = some (.pmlcb k, false) := by
  decide +revert

/-- Bit 4 of the number tells supervisor mode's from the user's. -/
theorem testBit_four_of_user {m : Nat} (h : m % 32 < 16) : m.testBit 4 = false := by
  simp [Nat.testBit_eq_decide_div_mod_eq]
  omega

/-- The mode allows the number `p.1`, which names a performance monitor register whose value is `p.2`. -/
def State.PmrReads (s : State) (p : Nat × Word) : Prop :=
  (p.1.testBit 4 = false ∨ s.msr.getLsbD 14 = false) ∧ ∃ reg user, pmrNamed p.1 = some (reg, user) ∧ s.pm.read reg = p.2

/-- The number `p.1` is the supervisor's of a counter or of its control, and writing `v` to it leaves `p.2`. -/
def State.PmrWrites (s : State) (v : Word) (p : Nat × PerfMon) : Prop :=
  ∃ reg, pmrNamed p.1 = some (reg, false) ∧ s.writePmr reg v = { s with pm := p.2 }

theorem runs_mfpmr_of_reads {p : Nat × Word} (reads : s.PmrReads p) (number : n.toNat = p.1) :
    Runs (.mfpmr r n) s (IntResult 4 r p.2 none none false s) := by
  obtain ⟨allowed, reg, user, named, value⟩ := reads
  have allows : (n.getLsbD 4 && s.user) = false := Bool.and_eq_false_iff.mpr (by rwa [← number] at allowed)
  refine ⟨_, ?_, setGprW_advance_spec s r p.2⟩
  rw [exec_mfpmr, execMfpmr, allows, if_neg Bool.false_ne_true, number, named, ← value]

theorem runs_mtpmr {reg : Pmr} {P : State → Prop} (supervisor : s.msr.getLsbD 14 = false)
    (named : pmrNamed n.toNat = some (reg, false)) (written : P ((s.writePmr reg (s.gprW r)).advance 4)) :
    Runs (.mtpmr n r) s P := by
  refine ⟨_, ?_, written⟩
  have allows : (n.getLsbD 4 && s.user) = false := Bool.and_eq_false_iff.mpr (.inr supervisor)
  rw [exec_mtpmr, execMtpmr, allows, if_neg Bool.false_ne_true, named]

theorem runs_mtpmr_of_writes {p : Nat × PerfMon} (supervisor : s.msr.getLsbD 14 = false)
    (writes : s.PmrWrites (s.gprW r) p) (number : n.toNat = p.1) :
    Runs (.mtpmr n r) s (OnlyPc 4 { s with pm := p.2 }) := by
  obtain ⟨reg, named, written⟩ := writes
  refine runs_mtpmr supervisor (number ▸ named) ?_
  rw [written]
  exact advance_spec _ 4

/-- A write that keeps PMGC0 is no time base event. -/
theorem writePmr_plain {reg : Pmr} (v : Word) (kept : (s.pm.write reg v).pmgc0 = s.pm.pmgc0) :
    s.writePmr reg v = { s with pm := s.pm.write reg v } := by
  rw [State.writePmr, kept, BitVec.xor_self, BitVec.zero_and]
  exact if_neg (by simp)

theorem write_pmc (k : Fin 4) (v : Word) :
    s.pm.write (.pmc k) v = { s.pm with pmc := s.pm.pmc.set k.val v k.isLt } := by
  have ones : v &&& 0xFFFFFFFF#32 = v := BitVec.and_allOnes
  rw [PerfMon.write, Pmr.mask, ones]

theorem xor_and_eq_zero {a b m : Word} (same : b &&& m = a &&& m) : (a ^^^ b) &&& m = 0#32 := by
  have distributes : (a ^^^ b) &&& m = (a &&& m) ^^^ (b &&& m) := by
    ext i
    simp [Bool.and_xor_distrib_right]
  rw [distributes, same, BitVec.xor_self]

/-- The bit of the time base changes only if TBEE is set and TBSEL changes, and is never cleared (62_perfmon_power.md R2320). -/
theorem writePmr_pmgc0 (s : State) (v : Word) {t : State} (ht : t = s.writePmr .pmgc0 v) :
    t = { s with pm := { s.pm with pmgc0 := v &&& 0xE0001900#32, tbEvent := t.pm.tbEvent }, free := t.free } ∧
      (s.pm.pmgc0.getLsbD 8 = false ∨ v &&& 0x1800#32 = s.pm.pmgc0 &&& 0x1800#32 → t.pm.tbEvent = s.pm.tbEvent) ∧
      (s.pm.tbEvent = true → t.pm.tbEvent = true) := by
  subst ht
  unfold State.writePmr
  dsimp only
  split
  · next event =>
    obtain ⟨enabled, changed⟩ := Bool.and_eq_true_iff.mp event
    refine ⟨rfl, fun quiet => ?_, fun latched => ?_⟩
    · rcases quiet with off | same
      · rw [enabled] at off
        cases off
      · have bits : v &&& 0xE0001900#32 &&& 0x1800#32 = v &&& 0x1800#32 := BitVec.and_assoc v _ _
        exact absurd (xor_and_eq_zero (bits.trans same)) (bne_iff_ne.mp changed)
    · simp [PerfMon.write, latched]
  · exact ⟨rfl, fun _ => rfl, id⟩

end

/-- Settles O28: each number names a register, and what its read and its write leave is a lemma of the register: a list entry
each for the plain ones, and those about PSCR, the commands of CDACNTL, the strapped numbers and PMGC0. -/
theorem dcrAndPmr : Obligations.DcrAndPmr := by
  intro s r n k
  dsimp only
  refine ⟨?signatureReads, ?control, ?signatureWrites, ?cdacntl, ?cdadata, ?pmrUserReads, ?pmrReads, ?pmrWrites, ?pmgc0⟩
  case signatureReads =>
    refine fun supervisor p mem => runs_mfdcr_of_reads supervisor ?_
    revert p
    simp only [List.forall_mem_cons, List.not_mem_nil, IsEmpty.forall_iff, implies_true, and_true]
    and_intros <;> exact ⟨_, rfl, rfl⟩
  case control =>
    rintro supervisor rfl
    exact runs_mtdcr (d := .pscr) supervisor rfl (advance_spec _ 4)
  case signatureWrites =>
    refine fun supervisor p mem => runs_mtdcr_of_writes supervisor ?_
    revert p
    simp only [List.forall_mem_cons, List.not_mem_nil, IsEmpty.forall_iff, implies_true, and_true]
    and_intros <;> exact ⟨_, rfl, rfl⟩
  case cdacntl =>
    intro supervisor outside strap
    have named := dcrNamed_cdacntl outside strap
    refine ⟨runs_mfdcr supervisor named, runs_mtdcr_plain supervisor named, fun go read errs => ?_, fun go write errs => ?_⟩
    · exact runs_mtdcr_read supervisor named go read errs
        ⟨advance_spec _ 4, debugRead_cdacntl, debugWord_tag_fields, debugWord_data_toNat⟩
    · exact ⟨s.debugWritten (s.gprW r), runs_mtdcr_write supervisor named go write errs, debugWritten_tag_fields,
        debugWritten_data_fields⟩
  case cdadata =>
    intro supervisor outside strap other
    have named := dcrNamed_cdadata outside strap other
    exact ⟨runs_mfdcr supervisor named, runs_mtdcr supervisor named (advance_spec _ 4)⟩
  case pmrUserReads =>
    refine fun p mem => runs_mfpmr_of_reads ?_
    revert p
    simp only [List.forall_mem_cons, List.not_mem_nil, IsEmpty.forall_iff, implies_true, and_true]
    have user {m : Nat} (h : m % 32 < 16) : m.testBit 4 = false ∨ s.msr.getLsbD 14 = false := .inl (testBit_four_of_user h)
    exact ⟨⟨user (by omega), _, _, (pmrNamed_pmc k).1, rfl⟩, ⟨user (by omega), _, _, (pmrNamed_pmlca k).1, rfl⟩,
      ⟨user (by omega), _, _, (pmrNamed_pmlcb k).1, rfl⟩, ⟨user (by norm_num), _, _, rfl, rfl⟩⟩
  case pmrReads =>
    refine fun supervisor p mem => runs_mfpmr_of_reads ⟨.inr supervisor, ?_⟩
    revert p
    simp only [List.forall_mem_cons, List.not_mem_nil, IsEmpty.forall_iff, implies_true, and_true]
    exact ⟨⟨_, _, (pmrNamed_pmc k).2, rfl⟩, ⟨_, _, (pmrNamed_pmlca k).2, rfl⟩, ⟨_, _, (pmrNamed_pmlcb k).2, rfl⟩,
      ⟨_, _, rfl, rfl⟩⟩
  case pmrWrites =>
    refine fun supervisor p mem => runs_mtpmr_of_writes supervisor ?_
    revert p
    simp only [List.forall_mem_cons, List.not_mem_nil, IsEmpty.forall_iff, implies_true, and_true]
    refine ⟨⟨_, (pmrNamed_pmc k).2, ?_⟩, ⟨_, (pmrNamed_pmlca k).2, writePmr_plain _ rfl⟩,
      ⟨_, (pmrNamed_pmlcb k).2, writePmr_plain _ rfl⟩⟩
    rw [← write_pmc]
    exact writePmr_plain _ rfl
  case pmgc0 =>
    rintro supervisor rfl
    obtain ⟨rest, quiet, latched⟩ := writePmr_pmgc0 s (s.gprW r) rfl
    refine runs_mtpmr supervisor rfl ⟨?_, quiet, latched⟩
    conv_rhs => rw [rest]
    exact advance_spec _ 4

end Sys2Proof.Machine
end

section
/-! PROOF. Words by their fields: what the decoder reads of a word that the encoder put together, what it makes of the bytes of
an encoding, and that the register fields of the 16-bit VLE forms name the register they were made of (O5). -/

namespace Sys2Proof

/-! Bits of two fields side by side. -/

section
variable {v w k n : Nat} {hi : BitVec v} {lo : BitVec w}

theorem bit_append_low (h : k < w) : (hi ++ lo).getLsbD k = lo.getLsbD k := by
  rw [BitVec.getLsbD_append, if_pos h]

theorem bit_append_high (h : w ≤ k) : (hi ++ lo).getLsbD k = hi.getLsbD (k - w) := by
  rw [BitVec.getLsbD_append, if_neg (Nat.not_lt.mpr h)]

theorem bit_ofBool (b : Bool) : (BitVec.ofBool b).getLsbD 0 = b := by cases b <;> rfl

/-- A field that begins in the lower part and ends in the upper one. -/
theorem extract_append_across {m : Nat} (h : k + n = w) :
    (hi ++ lo).extractLsb' k (m + n) = hi.extractLsb' 0 m ++ lo.extractLsb' k n := by
  subst h
  refine BitVec.eq_of_getLsbD_eq fun j hj => ?_
  simp only [BitVec.getLsbD_extractLsb', BitVec.getLsbD_append, Nat.add_lt_add_iff_left, hj]
  split
  · simp [*]
  · simp [show j - n < m by omega, show k + j - (k + n) = j - n by omega]

/-- The two parts of a number that an encoding keeps apart, joined again (30_encoding.md R505). -/
theorem join_extract (x : BitVec (v + w)) : x.extractLsb' w v ++ x.extractLsb' 0 w = x := by
  rw [BitVec.extractLsb'_append_extractLsb'_eq_extractLsb' (by rw [Nat.zero_add]), BitVec.extractLsb'_eq_self]

end

/-! The fields of a word that `asm` puts together. -/

section
variable (op : BitVec 6) (d a b : BitVec 5) (x : BitVec 11) (imm : BitVec 16) {k n : Nat}

theorem op_asm : (asm op d a b x).extractLsb' 26 6 = op := by
  simp (disch := decide) only [asm, BitVec.extractLsb'_append_eq_of_le, Nat.reduceSub, BitVec.extractLsb'_eq_self]

theorem fldD_asm : fldD (asm op d a b x) = d := by
  simp (disch := decide) only [fldD, asm, BitVec.extractLsb'_append_eq_of_le, BitVec.extractLsb'_append_eq_of_add_le,
    Nat.reduceSub, BitVec.extractLsb'_eq_self]

theorem fldA_asm : fldA (asm op d a b x) = a := by
  simp (disch := decide) only [fldA, asm, BitVec.extractLsb'_append_eq_of_le, BitVec.extractLsb'_append_eq_of_add_le,
    Nat.reduceSub, BitVec.extractLsb'_eq_self]

theorem fldB_asm : fldB (asm op d a b x) = b := by
  simp (disch := decide) only [fldB, asm, BitVec.extractLsb'_append_eq_of_le, BitVec.extractLsb'_append_eq_of_add_le,
    Nat.reduceSub, BitVec.extractLsb'_eq_self]

theorem extract_asm (h : k + n ≤ 11) : (asm op d a b x).extractLsb' k n = x.extractLsb' k n :=
  BitVec.extractLsb'_append_eq_of_add_le h

theorem fldX_asm : fldX (asm op d a b x) = x := (extract_asm op d a b x (Nat.le_refl 11)).trans BitVec.extractLsb'_eq_self

theorem bit_asm (h : k < 11) : (asm op d a b x).getLsbD k = x.getLsbD k := bit_append_low h

theorem bit15_asm : (asm op d a b x).getLsbD 15 = b.getLsbD 4 := by
  simp (disch := decide) only [asm, bit_append_high, bit_append_low, Nat.reduceSub]

theorem op_asmD : (asmD op d a imm).extractLsb' 26 6 = op := by
  simp (disch := decide) only [asmD, BitVec.extractLsb'_append_eq_of_le, Nat.reduceSub, BitVec.extractLsb'_eq_self]

theorem fldD_asmD : fldD (asmD op d a imm) = d := by
  simp (disch := decide) only [fldD, asmD, BitVec.extractLsb'_append_eq_of_le, BitVec.extractLsb'_append_eq_of_add_le,
    Nat.reduceSub, BitVec.extractLsb'_eq_self]

theorem fldA_asmD : fldA (asmD op d a imm) = a := by
  simp (disch := decide) only [fldA, asmD, BitVec.extractLsb'_append_eq_of_le, BitVec.extractLsb'_append_eq_of_add_le,
    Nat.reduceSub, BitVec.extractLsb'_eq_self]

theorem extract_asmD (h : k + n ≤ 16) : (asmD op d a imm).extractLsb' k n = imm.extractLsb' k n :=
  BitVec.extractLsb'_append_eq_of_add_le h

theorem fldI_asmD : fldI (asmD op d a imm) = imm :=
  (extract_asmD op d a imm (Nat.le_refl 16)).trans BitVec.extractLsb'_eq_self

theorem bit_asmD (h : k < 16) : (asmD op d a imm).getLsbD k = imm.getLsbD k := bit_append_low h

theorem extract_asmD_crf : (asmD op d a imm).extractLsb' 23 3 = d.extractLsb' 2 3 := by
  simp (disch := decide) only [asmD, BitVec.extractLsb'_append_eq_of_le, BitVec.extractLsb'_append_eq_of_add_le, Nat.reduceSub]

theorem extract_asmD_low : (asmD op d a imm).extractLsb' 21 2 = d.extractLsb' 0 2 := by
  simp (disch := decide) only [asmD, BitVec.extractLsb'_append_eq_of_le, BitVec.extractLsb'_append_eq_of_add_le, Nat.reduceSub]

end

/-! A CR field in the upper bits of a 5-bit field, and CT in the lower ones. -/

theorem crf_zero (crf : CrField) : (crf ++ 0#2).extractLsb' 0 2 = 0#2 :=
  (BitVec.extractLsb'_append_eq_of_add_le (Nat.le_refl 2)).trans rfl

theorem crf_field (crf : CrField) : (crf ++ 0#2).extractLsb' 2 3 = crf :=
  (BitVec.extractLsb'_append_eq_of_le (Nat.le_refl 2)).trans BitVec.extractLsb'_eq_self

theorem ct_zero (ct : BitVec 4) : (0#1 ++ ct).extractLsb' 4 1 = 0#1 :=
  (BitVec.extractLsb'_append_eq_of_le (Nat.le_refl 4)).trans rfl

theorem ct_field (ct : BitVec 4) : (0#1 ++ ct).extractLsb' 0 4 = ct :=
  (BitVec.extractLsb'_append_eq_of_add_le (Nat.le_refl 4)).trans BitVec.extractLsb'_eq_self

/-! The operands of the 16-bit VLE forms (44_vle.md R1020, R1067). -/

theorem reg4_enc4 {r : Gpr} (short : Gpr.isShort r = true) : reg4 (enc4 r) = r := by
  revert r
  decide

theorem areg4_encA4 {r : Gpr} (alt : Gpr.isAlt r = true) : areg4 (encA4 r) = r := by
  revert r
  decide

theorem oimm_encO {v : BitVec 6} (ok : oimmOk v = true) : oimm (encO v) = v := by
  revert v
  decide

/-! The bytes of an encoding (30_encoding.md R502). -/

theorem join_halfBytes (h : Half) : h.extractLsb' 8 8 ++ h.extractLsb' 0 8 = h := join_extract (v := 8) (w := 8) h

theorem join_highBytes (w : Word) : w.extractLsb' 24 8 ++ w.extractLsb' 16 8 = w.extractLsb' 16 16 :=
  BitVec.extractLsb'_append_extractLsb'_eq_extractLsb' rfl

theorem join_wordBytes (w : Word) :
    w.extractLsb' 24 8 ++ w.extractLsb' 16 8 ++ w.extractLsb' 8 8 ++ w.extractLsb' 0 8 = w := by
  rw [join_highBytes]
  exact (congrArg (· ++ w.extractLsb' 0 8) (BitVec.extractLsb'_append_extractLsb'_eq_extractLsb' rfl)).trans
    (join_extract (v := 24) (w := 8) w)

/-- A page of this kind reads the encoding as the instruction. -/
def Reads (vle : Bool) (e : Enc) (i : Instr) : Prop :=
  match vle, e with
  | false, .word w => decodeBookE w = some i
  | false, .half _ => False
  | true, .word w => vleLong (w.extractLsb' 16 16) = true ∧ decodeVle32 w = some i
  | true, .half h => vleLong h = false ∧ decodeVle16 h = some i

theorem decode_of_reads {vle : Bool} {e : Enc} {i : Instr} (rest : List Byte) (h : Reads vle e i) :
    decode vle (e.bytes ++ rest) = .ok (i, rest) := by
  cases vle <;> cases e
  case false.word w =>
    replace h : decodeBookE w = some i := h
    simp only [Enc.bytes, List.cons_append, List.nil_append, decode, join_wordBytes, h]
  case false.half => exact h.elim
  case true.word w =>
    obtain ⟨long, h⟩ := h
    simp only [Enc.bytes, List.cons_append, List.nil_append, decode, join_highBytes, long, if_true]
    rw [← join_highBytes, join_wordBytes, h]
  case true.half w =>
    obtain ⟨short, h⟩ := h
    simp only [Enc.bytes, List.cons_append, List.nil_append, decode, join_halfBytes, short, h, Bool.false_eq_true, if_false]

/-- Every kind of page that the instruction may stand on reads its encoding as the instruction. -/
def RoundTrips (i : Instr) : Prop :=
  ∀ vle : Bool, pageKind i = none ∨ pageKind i = some vle → Reads vle (encode i) i

section
variable {i : Instr} {w : Word} {h : Half}

theorem roundTrips_bookE (kind : pageKind i = some false) (he : encode i = .word w) (row : decodeBookE w = some i) :
    RoundTrips i := by
  rintro (_ | _) page
  · rw [he]
    exact row
  · simp [kind] at page

/-- The primary opcode tells whether a VLE page reads a word (44_vle.md R1002). -/
theorem vleLong_of_op {op : BitVec 6} (hop : w.extractLsb' 26 6 = op) :
    vleLong (w.extractLsb' 16 16) = vleLong (op ++ 0#10) := by
  subst hop
  have low : (w.extractLsb' 16 16).extractLsb' 12 1 = (w.extractLsb' 26 6 ++ 0#10).extractLsb' 12 1 := by
    refine BitVec.eq_of_getLsbD_eq fun j hj => ?_
    obtain rfl : j = 0 := by omega
    simp (disch := decide) only [BitVec.getLsbD_extractLsb', bit_append_high]
    rfl
  have top : (w.extractLsb' 16 16).getLsbD 15 = (w.extractLsb' 26 6 ++ 0#10).getLsbD 15 := by
    simp (disch := decide) only [BitVec.getLsbD_extractLsb', bit_append_high]
    rfl
  unfold vleLong
  exact congrArg₂ (fun (b : BitVec 1) c => decide (b = 1#1) && !c) low top

theorem roundTrips_vle32 {op : BitVec 6} (kind : pageKind i = some true) (he : encode i = .word w)
    (hop : w.extractLsb' 26 6 = op) (long : vleLong (op ++ 0#10) = true) (row : decodeVle32 w = some i) : RoundTrips i := by
  rintro (_ | _) page
  · simp [kind] at page
  · rw [he]
    exact ⟨(vleLong_of_op hop).trans long, row⟩

theorem roundTrips_vle16 (kind : pageKind i = some true) (he : encode i = .half h) (short : vleLong h = false)
    (row : decodeVle16 h = some i) : RoundTrips i := by
  rintro (_ | _) page
  · simp [kind] at page
  · rw [he]
    exact ⟨short, row⟩

/-- A word that both kinds of page read alike. -/
theorem roundTrips_both {op : BitVec 6} (he : encode i = .word w) (hop : w.extractLsb' 26 6 = op)
    (long : vleLong (op ++ 0#10) = true) (bookE : decodeBookE w = some i) (vle : decodeVle32 w = some i) : RoundTrips i := by
  rintro (_ | _) -
  · rw [he]
    exact bookE
  · rw [he]
    exact ⟨(vleLong_of_op hop).trans long, vle⟩

end

end Sys2Proof
end

section
/-! PROOF. The decoding tables as functions of the fields of a word, and what each form of encoding needs to be read back (O5).

Each `…Fields` is a decoding table with the fields of the assembled word read off: the value is the table's own body, which the
equation beside it ties to the decoder. At the opcodes of a row it evaluates to the row's instruction, so that a row is `rfl`
whatever its operands are. -/

namespace Sys2Proof

/-- An arm with reserved fields, where they are as they must be. -/
theorem need_of {c : Bool} {i j : Instr} (hc : c = true) (hij : i = j) : need c i = some j := by
  rw [hc, hij]
  rfl

/-! The tables that a primary opcode selects (30_encoding.md R540; 44_vle.md R1003). Primary opcodes 4 and 31 are read on both kinds
of page. -/

section
variable {w : Word}

theorem decodeBookE_op4 (h : w.extractLsb' 26 6 = 4#6) : decodeBookE w = decodeEv w := by rw [decodeBookE, h]; rfl
theorem decodeBookE_op19 (h : w.extractLsb' 26 6 = 19#6) : decodeBookE w = decodeX19 w := by rw [decodeBookE, h]; rfl
theorem decodeBookE_op31 (h : w.extractLsb' 26 6 = 31#6) : decodeBookE w = decodeX31 w := by rw [decodeBookE, h]; rfl
theorem decodeVle32_op4 (h : w.extractLsb' 26 6 = 4#6) : decodeVle32 w = decodeEv w := by rw [decodeVle32, h]; rfl
theorem decodeVle32_op6 (h : w.extractLsb' 26 6 = 6#6) : decodeVle32 w = decodeV6 w := by rw [decodeVle32, h]; rfl
theorem decodeVle32_op28 (h : w.extractLsb' 26 6 = 28#6) : decodeVle32 w = decodeV28 w := by rw [decodeVle32, h]; rfl
theorem decodeVle32_op30 (h : w.extractLsb' 26 6 = 30#6) : decodeVle32 w = decodeV30 w := by rw [decodeVle32, h]; rfl

/-- The extended opcodes of primary opcode 31 that only VLE pages have (44_vle.md R2743 to R2758). -/
def vleExtended : List Nat := [14, 16, 33, 46, 56, 97, 129, 193, 225, 257, 280, 289, 312, 417, 449, 568]

theorem decodeX31V_eq_none (h : (w.extractLsb' 1 10).toNat ∉ vleExtended) : decodeX31V w = none := by
  unfold decodeX31V
  split
  case h_17 => rfl
  all_goals exact absurd (by simp [vleExtended, *]) h

theorem decodeVle32_common (hop : w.extractLsb' 26 6 = 31#6) (h : (w.extractLsb' 1 10).toNat ∉ vleExtended) :
    decodeVle32 w = decodeX31 w := by
  simp only [decodeVle32, hop, decodeX31V_eq_none h]
  rfl

theorem decodeVle32_vleOnly {i : Instr} (hop : w.extractLsb' 26 6 = 31#6) (h : decodeX31V w = some i) :
    decodeVle32 w = some i := by
  simp only [decodeVle32, hop, h]
  rfl

end

section
variable (op : BitVec 6) (d a b : BitVec 5) (x : BitVec 11) (imm : BitVec 16)

/-- Primary opcode 4 (30_encoding.md R543). -/
noncomputable def evFields : {r : Option Instr // decodeEv (asm op d a b x) = r} :=
  ⟨_, by
    simp (disch := decide) only [decodeEv, decodeEvG16, decodeEvG17, decodeEvG20, decodeEvG21, decodeEvG22, decodeEvG24,
      decodeEvG25, decodeEvG32, decodeEvG33, decodeEvG34, decodeEvG35, decodeEvG38, decodeEvG40, decodeEvG41, decodeEvG42,
      decodeEvG44, decodeEvG45, decodeEvG46, fldD_asm, fldA_asm, fldB_asm, extract_asm]
    rfl⟩

/-- Primary opcode 31, the rows of both kinds of page (30_encoding.md R542). -/
noncomputable def x31Fields : {r : Option Instr // decodeX31 (asm op d a b x) = r} :=
  ⟨_, by
    simp (disch := decide) only [decodeX31, decodeX31G0, decodeX31G1, decodeX31G2, decodeX31G3, decodeX31G4, decodeX31G5,
      decodeX31G6, decodeX31G7, decodeX31G8, decodeX31G9, decodeX31G10, decodeX31G11, decodeX31G12, decodeX31G13,
      decodeX31G14, decodeX31G15, decodeX31G16, decodeX31G17, decodeX31G18, decodeX31G19, decodeX31G20, decodeX31G21,
      decodeX31G22, decodeX31G23, decodeX31G24, decodeX31G25, decodeX31G26, decodeX31G28, decodeX31G29, decodeX31G30,
      decodeX31G31, fldD_asm, fldA_asm, fldB_asm, extract_asm, bit_asm]
    rfl⟩

/-- Primary opcode 19 (30_encoding.md R541). -/
noncomputable def x19Fields : {r : Option Instr // decodeX19 (asm op d a b x) = r} :=
  ⟨_, by
    simp (disch := decide) only [decodeX19, fldD_asm, fldA_asm, fldB_asm, extract_asm, bit_asm]
    rfl⟩

/-- Primary opcode 31, the rows of VLE pages only (44_vle.md R2743 to R2758). -/
noncomputable def x31vFields : {r : Option Instr // decodeX31V (asm op d a b x) = r} :=
  ⟨_, by
    simp (disch := decide) only [decodeX31V, fldD_asm, fldA_asm, fldB_asm, extract_asm, bit_asm]
    rfl⟩

/-- The D forms of Book E pages (30_encoding.md R540). -/
noncomputable def bookEFields : {r : Option Instr // decodeBookE (asmD op d a imm) = r} :=
  ⟨_, by
    simp only [decodeBookE, op_asmD, fldD_asmD, fldA_asmD, fldI_asmD, extract_asmD_crf, extract_asmD_low]
    rfl⟩

/-- The D forms of VLE pages (44_vle.md R2700 to R2707). -/
noncomputable def vleFields : {r : Option Instr // decodeVle32 (asmD op d a imm) = r} :=
  ⟨_, by
    simp only [decodeVle32, op_asmD, fldD_asmD, fldA_asmD, fldI_asmD]
    rfl⟩

/-- The D8 forms: the opcode bits and D8 in place of the immediate (44_vle.md R2708 to R2716). -/
noncomputable def d8Fields (k d8 : BitVec 8) : {r : Option Instr // decodeV6 (asmD op d a (k ++ d8)) = r} :=
  ⟨_, by
    simp (disch := decide) only [decodeV6, decodeVol, fldD_asmD, fldA_asmD, extract_asmD, BitVec.extractLsb'_append_eq_of_le,
      BitVec.extractLsb'_append_eq_of_add_le, Nat.reduceSub, BitVec.extractLsb'_eq_self]
    rfl⟩

/-- The SCI8 forms: the opcode bits with Rc and F, SCL and UI8 in place of the immediate (44_vle.md R2717 to R2725). -/
noncomputable def sci8Fields (k : BitVec 6) (scl : BitVec 2) (ui8 : BitVec 8) :
    {r : Option Instr // decodeV6 (asmD op d a (k ++ scl ++ ui8)) = r} :=
  ⟨_, by
    simp (disch := decide) only [decodeV6, fldD_asmD, fldA_asmD, extract_asmD, bit_asmD, BitVec.extractLsb'_append_eq_of_le,
      BitVec.extractLsb'_append_eq_of_add_le, bit_append_high, Nat.reduceSub,
      BitVec.extractLsb'_eq_self]
    rfl⟩

end

end Sys2Proof
end

section
/-! PROOF. The forms of encoding: what a row of a decoding table needs for its instruction to be read back, and the rows with a
form of their own (O5). -/

namespace Sys2Proof

/-! The 16-bit forms of VLE pages (44_vle.md R1030 to R1099). -/

/-- How a VLE page takes a halfword: whether a second one belongs to it, and the instruction that it is alone. -/
def takeVle (h : Half) : Bool × Option Instr := (vleLong h, decodeVle16 h)

theorem extract_across_ui5 (k : BitVec 7) (u : BitVec 5) :
    (k ++ u).extractLsb' 4 4 = k.extractLsb' 0 3 ++ u.extractLsb' 4 1 :=
  extract_append_across (m := 3) (n := 1) rfl

theorem extract_across_ui7 (k : BitVec 5) (u : BitVec 7) :
    (k ++ u).extractLsb' 4 4 = k.extractLsb' 0 1 ++ u.extractLsb' 4 3 :=
  extract_append_across (m := 1) (n := 3) rfl

/-- A 12-bit opcode and one register (44_vle.md R1040 to R1049). -/
noncomputable def oneFields (k : BitVec 12) (x : BitVec 4) : {r : Bool × Option Instr // takeVle (k ++ x) = r} :=
  ⟨_, by
    simp (disch := decide) only [takeVle, vleLong, decodeVle16, BitVec.extractLsb'_append_eq_of_le,
      BitVec.extractLsb'_append_eq_of_add_le, bit_append_high, Nat.reduceSub, BitVec.extractLsb'_eq_self]
    rfl⟩

/-- An 8-bit opcode and two registers (44_vle.md R1050 to R1066). -/
noncomputable def pairFields (k : BitVec 8) (y x : BitVec 4) : {r : Bool × Option Instr // takeVle (k ++ y ++ x) = r} :=
  ⟨_, by
    simp (disch := decide) only [takeVle, vleLong, decodeVle16, BitVec.extractLsb'_append_eq_of_le,
      BitVec.extractLsb'_append_eq_of_add_le, bit_append_high, Nat.reduceSub, BitVec.extractLsb'_eq_self]
    rfl⟩

/-- A 7-bit opcode, UI5 or OIM5, and a register (44_vle.md R1067 to R1079). The last three bits of the opcode share a hex digit
with the upper bit `t` of the immediate. -/
noncomputable def ui5Fields (k : BitVec 7) (u : BitVec 5) (t : BitVec 1) (x : BitVec 4) :
    {r : Bool × Option Instr // u.extractLsb' 4 1 = t → takeVle (k ++ u ++ x) = r} :=
  ⟨_, fun upper => by
    simp (disch := decide) only [takeVle, vleLong, decodeVle16, extract_across_ui5, upper, BitVec.extractLsb'_append_eq_of_le,
      BitVec.extractLsb'_append_eq_of_add_le, bit_append_high, Nat.reduceSub, BitVec.extractLsb'_eq_self]
    rfl⟩

/-- The IM7 form (44_vle.md R1080). The last bit of the opcode shares a hex digit with the three upper bits `t` of the
immediate. -/
noncomputable def ui7Fields (k : BitVec 5) (u : BitVec 7) (t : BitVec 3) (x : BitVec 4) :
    {r : Bool × Option Instr // u.extractLsb' 4 3 = t → takeVle (k ++ u ++ x) = r} :=
  ⟨_, fun upper => by
    simp (disch := decide) only [takeVle, vleLong, decodeVle16, extract_across_ui7, upper, BitVec.extractLsb'_append_eq_of_le,
      BitVec.extractLsb'_append_eq_of_add_le, bit_append_high, Nat.reduceSub, BitVec.extractLsb'_eq_self]
    rfl⟩

/-- The SD4 form (44_vle.md R1081 to R1086). -/
noncomputable def sd4Fields (k sd4 z x : BitVec 4) : {r : Bool × Option Instr // takeVle (k ++ sd4 ++ z ++ x) = r} :=
  ⟨_, by
    simp (disch := decide) only [takeVle, vleLong, decodeVle16, BitVec.extractLsb'_append_eq_of_le,
      BitVec.extractLsb'_append_eq_of_add_le, bit_append_high, Nat.reduceSub, BitVec.extractLsb'_eq_self]
    rfl⟩

/-- The BD8 form, the upper byte as a whole (44_vle.md R1087, R1088). -/
noncomputable def bd8Fields (k : BitVec 8) (bd8 : BitVec 8) : {r : Bool × Option Instr // takeVle (k ++ bd8) = r} :=
  ⟨_, by
    simp (disch := decide) only [takeVle, vleLong, decodeVle16, BitVec.extractLsb'_append_eq_of_le,
      BitVec.extractLsb'_append_eq_of_add_le, bit_append_high, Nat.reduceSub, BitVec.extractLsb'_eq_self]
    rfl⟩

section
variable {i : Instr} {rx ry rz : Gpr}

theorem roundTrips_half {h : Half} (kind : pageKind i = some true) (he : encode i = .half h)
    (row : takeVle h = (false, some i)) : RoundTrips i :=
  roundTrips_vle16 kind he (congrArg Prod.fst row) (congrArg Prod.snd row)

theorem roundTrips_one {f : Gpr → Instr} {k : BitVec 12} (wf : Gpr.isShort rx = true) (kind : pageKind i = some true)
    (he : encode i = .half (k ++ enc4 rx)) (hi : f rx = i) (row : ∀ x, (oneFields k x).1 = (false, some (f (reg4 x)))) :
    RoundTrips i := by
  refine roundTrips_half kind he ?_
  rw [(oneFields k (enc4 rx)).2, row, reg4_enc4 wf, hi]

theorem roundTrips_pair {f : Gpr → Gpr → Instr} {k : BitVec 8} (wf : (Gpr.isShort rx && Gpr.isShort ry) = true)
    (kind : pageKind i = some true) (he : encode i = .half (k ++ enc4 ry ++ enc4 rx)) (hi : f rx ry = i)
    (row : ∀ y x, (pairFields k y x).1 = (false, some (f (reg4 x) (reg4 y)))) : RoundTrips i := by
  obtain ⟨shortX, shortY⟩ := Bool.and_eq_true_iff.mp wf
  refine roundTrips_half kind he ?_
  rw [(pairFields k (enc4 ry) (enc4 rx)).2, row, reg4_enc4 shortX, reg4_enc4 shortY, hi]

theorem roundTrips_ui5 {f : Gpr → BitVec 5 → Instr} {k : BitVec 7} {u : BitVec 5} (wf : Gpr.isShort rx = true)
    (kind : pageKind i = some true) (he : encode i = .half (k ++ u ++ enc4 rx)) (hi : f rx u = i)
    (row0 : ∀ u x, (ui5Fields k u 0#1 x).1 = (false, some (f (reg4 x) u)))
    (row1 : ∀ u x, (ui5Fields k u 1#1 x).1 = (false, some (f (reg4 x) u))) : RoundTrips i := by
  refine roundTrips_half kind he ?_
  obtain upper | upper := BitVec.eq_zero_or_eq_one (u.extractLsb' 4 1)
  · rw [(ui5Fields k u 0#1 (enc4 rx)).2 upper, row0, reg4_enc4 wf, hi]
  · rw [(ui5Fields k u 1#1 (enc4 rx)).2 upper, row1, reg4_enc4 wf, hi]

/-- An OIMM operand stands in its field as one less (44_vle.md R1067). -/
theorem roundTrips_oimm {f : Gpr → BitVec 6 → Instr} {k : BitVec 7} {v : BitVec 6}
    (wf : (Gpr.isShort rx && oimmOk v) = true) (kind : pageKind i = some true)
    (he : encode i = .half (k ++ encO v ++ enc4 rx)) (hi : f rx v = i)
    (row0 : ∀ u x, (ui5Fields k u 0#1 x).1 = (false, some (f (reg4 x) (oimm u))))
    (row1 : ∀ u x, (ui5Fields k u 1#1 x).1 = (false, some (f (reg4 x) (oimm u)))) : RoundTrips i := by
  obtain ⟨short, ok⟩ := Bool.and_eq_true_iff.mp wf
  exact roundTrips_ui5 (f := fun r u => f r (oimm u)) short kind he (by rw [oimm_encO ok, hi]) row0 row1

theorem roundTrips_sd4 {f : Gpr → BitVec 4 → Gpr → Instr} {k sd4 : BitVec 4}
    (wf : (Gpr.isShort rz && Gpr.isShort rx) = true) (kind : pageKind i = some true)
    (he : encode i = .half (k ++ sd4 ++ enc4 rz ++ enc4 rx)) (hi : f rz sd4 rx = i)
    (row : ∀ z x, (sd4Fields k sd4 z x).1 = (false, some (f (reg4 z) sd4 (reg4 x)))) : RoundTrips i := by
  obtain ⟨shortZ, shortX⟩ := Bool.and_eq_true_iff.mp wf
  refine roundTrips_half kind he ?_
  rw [(sd4Fields k sd4 (enc4 rz) (enc4 rx)).2, row, reg4_enc4 shortZ, reg4_enc4 shortX, hi]

theorem roundTrips_seMtar {arx : Gpr} (wf : (Gpr.isAlt arx && Gpr.isShort ry) = true) : RoundTrips (.seMtar arx ry) := by
  obtain ⟨alt, short⟩ := Bool.and_eq_true_iff.mp wf
  refine roundTrips_half rfl rfl ((pairFields 2#8 (enc4 ry) (encA4 arx)).2.trans ?_)
  exact congrArg₂ (fun r q => (false, some (Instr.seMtar r q))) (areg4_encA4 alt) (reg4_enc4 short)

theorem roundTrips_seMfar {ary : Gpr} (wf : (Gpr.isShort rx && Gpr.isAlt ary) = true) : RoundTrips (.seMfar rx ary) := by
  obtain ⟨short, alt⟩ := Bool.and_eq_true_iff.mp wf
  refine roundTrips_half rfl rfl ((pairFields 3#8 (encA4 ary) (enc4 rx)).2.trans ?_)
  exact congrArg₂ (fun r q => (false, some (Instr.seMfar r q))) (reg4_enc4 short) (areg4_encA4 alt)

theorem roundTrips_seLi (wf : Gpr.isShort rx = true) (ui7 : BitVec 7) : RoundTrips (.seLi rx ui7) := by
  have row : ∀ t, (ui7Fields 9#5 ui7 t (enc4 rx)).1 = (false, some (.seLi (reg4 (enc4 rx)) ui7)) := by
    intro t
    have : t = 0#3 ∨ t = 1#3 ∨ t = 2#3 ∨ t = 3#3 ∨ t = 4#3 ∨ t = 5#3 ∨ t = 6#3 ∨ t = 7#3 := by decide +revert
    obtain rfl | rfl | rfl | rfl | rfl | rfl | rfl | rfl := this <;> rfl
  refine roundTrips_half rfl rfl ?_
  rw [(ui7Fields 9#5 ui7 _ (enc4 rx)).2 rfl, row, reg4_enc4 wf]

end

theorem roundTrips_seB (bd8 : BitVec 8) (lk : Bool) : RoundTrips (.seB bd8 lk) :=
  roundTrips_half rfl rfl ((bd8Fields (116#7 ++ BitVec.ofBool lk) bd8).2.trans (by cases lk <;> rfl))

theorem roundTrips_seBc (bo16 : Bool) (bi16 : BitVec 2) (bd8 : BitVec 8) : RoundTrips (.seBc bo16 bi16 bd8) := by
  refine roundTrips_half rfl rfl ((bd8Fields (28#5 ++ BitVec.ofBool bo16 ++ bi16) bd8).2.trans ?_)
  have : bi16 = 0#2 ∨ bi16 = 1#2 ∨ bi16 = 2#2 ∨ bi16 = 3#2 := by decide +revert
  obtain rfl | rfl | rfl | rfl := this <;> cases bo16 <;> rfl

/-! The words of five fields (30_encoding.md R503). -/

section
variable {i : Instr} {d a b : BitVec 5} {x : BitVec 11}

theorem roundTrips_ev (he : encode i = .word (asm 4#6 d a b x)) (row : (evFields 4#6 d a b x).1 = some i) : RoundTrips i :=
  have decoded := (evFields 4#6 d a b x).2.trans row
  roundTrips_both he (op_asm ..) rfl ((decodeBookE_op4 (op_asm ..)).trans decoded)
    ((decodeVle32_op4 (op_asm ..)).trans decoded)

theorem roundTrips_x31 (he : encode i = .word (asm 31#6 d a b x)) (common : (x.extractLsb' 1 10).toNat ∉ vleExtended)
    (row : (x31Fields 31#6 d a b x).1 = some i) : RoundTrips i :=
  have decoded := (x31Fields 31#6 d a b x).2.trans row
  roundTrips_both he (op_asm ..) rfl ((decodeBookE_op31 (op_asm ..)).trans decoded)
    ((decodeVle32_common (op_asm ..) (by rwa [extract_asm _ _ _ _ _ (by decide)])).trans decoded)

theorem roundTrips_x31v (kind : pageKind i = some true) (he : encode i = .word (asm 31#6 d a b x))
    (row : (x31vFields 31#6 d a b x).1 = some i) : RoundTrips i :=
  roundTrips_vle32 kind he (op_asm ..) rfl (decodeVle32_vleOnly (op_asm ..) ((x31vFields 31#6 d a b x).2.trans row))

theorem roundTrips_x19 (kind : pageKind i = some false) (he : encode i = .word (asm 19#6 d a b x))
    (row : (x19Fields 19#6 d a b x).1 = some i) : RoundTrips i :=
  roundTrips_bookE kind he ((decodeBookE_op19 (op_asm ..)).trans ((x19Fields 19#6 d a b x).2.trans row))

/-- A 10-bit number stands in the word with its halves swapped (30_encoding.md R505). -/
theorem roundTrips_number {f : BitVec 10 → Instr} {num : BitVec 10}
    (he : encode i = .word (asm 31#6 d (num.extractLsb' 0 5) (num.extractLsb' 5 5) x))
    (common : (x.extractLsb' 1 10).toNat ∉ vleExtended) (hi : f num = i)
    (row : ∀ a b, (x31Fields 31#6 d a b x).1 = some (f (b ++ a))) : RoundTrips i := by
  refine roundTrips_x31 he common ((row _ _).trans ?_)
  rw [join_extract (v := 5) (w := 5), hi]

/-- Primary opcode 28 on a VLE page (44_vle.md R2727 to R2738). -/
noncomputable def v28Fields (op : BitVec 6) (d a b : BitVec 5) (x : BitVec 11) :
    {r : Option Instr // decodeV28 (asm op d a b x) = r} :=
  ⟨_, by
    simp only [decodeV28, bit15_asm, fldD_asm, fldA_asm, fldB_asm, fldX_asm]
    rfl⟩

/-- The I16A forms: the immediate stands in bits 6:10 and 21:31 (44_vle.md R2727 to R2733). -/
theorem roundTrips_i16a {f : BitVec 16 → Instr} {si : BitVec 16} (kind : pageKind i = some true)
    (he : encode i = .word (asm 28#6 (si.extractLsb' 11 5) a b (si.extractLsb' 0 11))) (hi : f si = i)
    (row : ∀ d x, (v28Fields 28#6 d a b x).1 = some (f (d ++ x))) : RoundTrips i := by
  refine roundTrips_vle32 kind he (op_asm ..) rfl ((decodeVle32_op28 (op_asm ..)).trans ?_)
  rw [(v28Fields ..).2, row, join_extract (v := 5) (w := 11), hi]

/-- The I16L forms: the immediate stands in bits 11:15 and 21:31 (44_vle.md R2734 to R2738). -/
theorem roundTrips_i16l {f : BitVec 16 → Instr} {ui : BitVec 16} (kind : pageKind i = some true)
    (he : encode i = .word (asm 28#6 d (ui.extractLsb' 11 5) b (ui.extractLsb' 0 11))) (hi : f ui = i)
    (row : ∀ a x, (v28Fields 28#6 d a b x).1 = some (f (a ++ x))) : RoundTrips i := by
  refine roundTrips_vle32 kind he (op_asm ..) rfl ((decodeVle32_op28 (op_asm ..)).trans ?_)
  rw [(v28Fields ..).2, row, join_extract (v := 5) (w := 11), hi]

/-! The rotates with a mask: MB, ME and the last bit in the place of an extended opcode (40_base_integer.md R670 to R672). -/

section
variable (mb me : BitVec 5) (r : BitVec 1)

theorem mask_mb : (mb ++ me ++ r).extractLsb' 6 5 = mb := by
  simp (disch := decide) only [BitVec.extractLsb'_append_eq_of_le, Nat.reduceSub, BitVec.extractLsb'_eq_self]

theorem mask_me : (mb ++ me ++ r).extractLsb' 1 5 = me := by
  simp (disch := decide) only [BitVec.extractLsb'_append_eq_of_le, BitVec.extractLsb'_append_eq_of_add_le, Nat.reduceSub,
    BitVec.extractLsb'_eq_self]

end

/-- A word of five fields on a Book E page; the rows read here are those of primary opcodes 20, 21 and 23. -/
noncomputable def rotateFields (op : BitVec 6) (d a b : BitVec 5) (x : BitVec 11) :
    {r : Option Instr // decodeBookE (asm op d a b x) = r} :=
  ⟨_, by
    simp (disch := decide) only [decodeBookE, op_asm, fldD_asm, fldA_asm, fldB_asm, extract_asm, bit_asm]
    rfl⟩

theorem roundTrips_rotate {f : BitVec 5 → BitVec 5 → Bool → Instr} {op : BitVec 6} {mb me : BitVec 5} {rc : Bool}
    (kind : pageKind i = some false) (he : encode i = .word (asm op d a b (mb ++ me ++ BitVec.ofBool rc)))
    (hi : f mb me rc = i)
    (row : ∀ x, (rotateFields op d a b x).1 = some (f (x.extractLsb' 6 5) (x.extractLsb' 1 5) (x.getLsbD 0))) :
    RoundTrips i := by
  refine roundTrips_bookE kind he ?_
  rw [(rotateFields ..).2, row, mask_mb, mask_me, bit_append_low (by decide), bit_ofBool, hi]

end

/-! The D, D8 and SCI8 forms (30_encoding.md R503; 44_vle.md R1021). -/

section
variable {i : Instr} {op : BitVec 6} {d a : BitVec 5} {imm : BitVec 16}

theorem roundTrips_d (kind : pageKind i = some false) (he : encode i = .word (asmD op d a imm))
    (row : (bookEFields op d a imm).1 = some i) : RoundTrips i :=
  roundTrips_bookE kind he ((bookEFields op d a imm).2.trans row)

theorem roundTrips_vleD (kind : pageKind i = some true) (he : encode i = .word (asmD op d a imm))
    (long : vleLong (op ++ 0#10) = true) (row : (vleFields op d a imm).1 = some i) : RoundTrips i :=
  roundTrips_vle32 kind he (op_asmD ..) long ((vleFields op d a imm).2.trans row)

theorem roundTrips_d8 {k d8 : BitVec 8} (kind : pageKind i = some true) (he : encode i = .word (asmD 6#6 d a (k ++ d8)))
    (row : (d8Fields 6#6 d a k d8).1 = some i) : RoundTrips i :=
  roundTrips_vle32 kind he (op_asmD ..) rfl ((decodeVle32_op6 (op_asmD ..)).trans ((d8Fields 6#6 d a k d8).2.trans row))

theorem roundTrips_sci8 {k : BitVec 6} {scl : BitVec 2} {ui8 : BitVec 8} (kind : pageKind i = some true)
    (he : encode i = .word (asmD 6#6 d a (k ++ scl ++ ui8))) (row : (sci8Fields 6#6 d a k scl ui8).1 = some i) :
    RoundTrips i :=
  roundTrips_vle32 kind he (op_asmD ..) rfl
    ((decodeVle32_op6 (op_asmD ..)).trans ((sci8Fields 6#6 d a k scl ui8).2.trans row))

/-- `e_cmpi` and `e_cmpli` are told apart by bits 6:8, before their CR field (44_vle.md R2720, R2721). -/
noncomputable def cmp8Fields (op : BitVec 6) (s : BitVec 3) (crf : BitVec 2) (a : BitVec 5) (k : BitVec 6) (scl : BitVec 2)
    (ui8 : BitVec 8) : {r : Option Instr // decodeV6 (asmD op (s ++ crf) a (k ++ scl ++ ui8)) = r} :=
  ⟨_, by
    simp (disch := decide) only [decodeV6, fldD_asmD, fldA_asmD, extract_asmD, bit_asmD, extract_asmD_crf, extract_asmD_low,
      BitVec.extractLsb'_append_eq_of_le, BitVec.extractLsb'_append_eq_of_add_le, bit_append_high, Nat.reduceSub,
      BitVec.extractLsb'_eq_self]
    rfl⟩

theorem roundTrips_cmp8 {s : BitVec 3} {crf : BitVec 2} {k : BitVec 6} {scl : BitVec 2} {ui8 : BitVec 8}
    (kind : pageKind i = some true) (he : encode i = .word (asmD 6#6 (s ++ crf) a (k ++ scl ++ ui8)))
    (row : (cmp8Fields 6#6 s crf a k scl ui8).1 = some i) : RoundTrips i :=
  roundTrips_vle32 kind he (op_asmD ..) rfl
    ((decodeVle32_op6 (op_asmD ..)).trans ((cmp8Fields 6#6 s crf a k scl ui8).2.trans row))

end

/-! Rows with a form of their own. -/

theorem roundTrips_b (li : BitVec 24) (aa lk : Bool) : RoundTrips (.b li aa lk) := by
  refine roundTrips_bookE rfl rfl ?_
  simp (disch := decide) only [decodeBookE, BitVec.extractLsb'_append_eq_of_le, BitVec.extractLsb'_append_eq_of_add_le,
    bit_append_high, bit_append_low, Nat.reduceSub, BitVec.extractLsb'_eq_self, bit_ofBool]
  rfl

theorem roundTrips_bc (bo : BitVec 5) (bi : CrBit) (bd : BitVec 14) (aa lk : Bool) : RoundTrips (.bc bo bi bd aa lk) := by
  refine roundTrips_bookE rfl rfl ?_
  simp (disch := decide) only [decodeBookE, fldD, fldA, BitVec.extractLsb'_append_eq_of_le,
    BitVec.extractLsb'_append_eq_of_add_le, bit_append_high, bit_append_low, Nat.reduceSub, BitVec.extractLsb'_eq_self,
    bit_ofBool]
  rfl

theorem roundTrips_eB (bd24 : BitVec 24) (lk : Bool) : RoundTrips (.eB bd24 lk) := by
  refine roundTrips_vle32 (op := 30#6) rfl rfl ?op rfl ((decodeVle32_op30 ?op).trans ?row)
  case op => simp (disch := decide) only [BitVec.extractLsb'_append_eq_of_le, Nat.reduceSub, BitVec.extractLsb'_eq_self]
  case row =>
    simp (disch := decide) only [decodeV30, BitVec.extractLsb'_append_eq_of_le, BitVec.extractLsb'_append_eq_of_add_le,
      bit_append_high, bit_append_low, Nat.reduceSub, BitVec.extractLsb'_eq_self, bit_ofBool]
    rfl

theorem roundTrips_eBc (bo32 : BitVec 2) (bi32 : BitVec 4) (bd15 : BitVec 15) (lk : Bool) :
    RoundTrips (.eBc bo32 bi32 bd15 lk) := by
  refine roundTrips_vle32 (op := 30#6) rfl rfl ?op rfl ((decodeVle32_op30 ?op).trans ?row)
  case op => simp (disch := decide) only [BitVec.extractLsb'_append_eq_of_le, Nat.reduceSub, BitVec.extractLsb'_eq_self]
  case row =>
    simp (disch := decide) only [decodeV30, BitVec.extractLsb'_append_eq_of_le, BitVec.extractLsb'_append_eq_of_add_le,
      bit_append_high, bit_append_low, Nat.reduceSub, BitVec.extractLsb'_eq_self, bit_ofBool]
    rfl

theorem join_li20 (li : BitVec 20) : li.extractLsb' 16 4 ++ li.extractLsb' 11 5 ++ li.extractLsb' 0 11 = li := by
  rw [BitVec.extractLsb'_append_extractLsb'_eq_extractLsb' (start₂ := 16) (start₁ := 11) rfl]
  exact join_extract (v := 9) (w := 11) li

theorem roundTrips_eLi (rd : Gpr) (li20 : BitVec 20) : RoundTrips (.eLi rd li20) := by
  refine roundTrips_vle32 (op := 28#6) rfl rfl ?op rfl ((decodeVle32_op28 ?op).trans ?row)
  case op => simp (disch := decide) only [BitVec.extractLsb'_append_eq_of_le, Nat.reduceSub, BitVec.extractLsb'_eq_self]
  case row =>
    simp (disch := decide) only [decodeV28, fldD, fldA, fldX, BitVec.extractLsb'_append_eq_of_le,
      BitVec.extractLsb'_append_eq_of_add_le, bit_append_high, bit_append_low, Nat.reduceSub, BitVec.extractLsb'_eq_self,
      join_li20]
    rfl

theorem roundTrips_eRlwimi (ra rs : Gpr) (sh mb me : BitVec 5) : RoundTrips (.eRlwimi ra rs sh mb me) := by
  refine roundTrips_vle32 rfl rfl (op_asm ..) rfl ?_
  simp (disch := decide) only [decodeVle32, op_asm, fldD_asm, fldA_asm, fldB_asm, extract_asm, bit_asm, mask_mb, mask_me,
    bit_append_low]
  rfl

theorem roundTrips_eRlwinm (ra rs : Gpr) (sh mb me : BitVec 5) : RoundTrips (.eRlwinm ra rs sh mb me) := by
  refine roundTrips_vle32 rfl rfl (op_asm ..) rfl ?_
  simp (disch := decide) only [decodeVle32, op_asm, fldD_asm, fldA_asm, fldB_asm, extract_asm, bit_asm, mask_mb, mask_me,
    bit_append_low]
  rfl

theorem roundTrips_evsel (rd ra rb : Gpr) (crs : CrField) : RoundTrips (.evsel rd ra rb crs) := by
  have code : (79#8 ++ crs).extractLsb' 3 8 = 79#8 :=
    (BitVec.extractLsb'_append_eq_of_le (Nat.le_refl 3)).trans BitVec.extractLsb'_eq_self
  have field : (79#8 ++ crs).extractLsb' 0 3 = crs :=
    (BitVec.extractLsb'_append_eq_of_add_le (Nat.le_refl 3)).trans BitVec.extractLsb'_eq_self
  exact roundTrips_ev rfl ((if_pos code).trans (congrArg (fun f => some (Instr.evsel rd ra rb f)) field))

theorem roundTrips_isel (rt ra rb : Gpr) (crb : CrBit) : RoundTrips (.isel rt ra rb crb) := by
  have code : (crb ++ 30#6).extractLsb' 0 6 = 30#6 :=
    (BitVec.extractLsb'_append_eq_of_add_le (Nat.le_refl 6)).trans BitVec.extractLsb'_eq_self
  have field : (crb ++ 30#6).extractLsb' 6 5 = crb :=
    (BitVec.extractLsb'_append_eq_of_le (Nat.le_refl 6)).trans BitVec.extractLsb'_eq_self
  have common : ((crb ++ 30#6).extractLsb' 1 10).toNat ∉ vleExtended := by decide +revert
  exact roundTrips_x31 rfl common ((if_pos code).trans (congrArg (fun f => some (Instr.isel rt ra rb f)) field))

/-- The 8 bits of FXM stand between two fixed ones, across the second and the third field
(42_base_branch_cr_system.md R822). -/
theorem roundTrips_mtcrf (fxm : BitVec 8) (rs : Gpr) : RoundTrips (.mtcrf fxm rs) := by
  refine roundTrips_x31 rfl (by decide) (need_of (decide_eq_true ⟨?first, ?last, rfl⟩) (congrArg (Instr.mtcrf · rs) ?fxm))
  case first | last =>
    simp (disch := decide) only [asm, BitVec.extractLsb'_append_eq_of_le, BitVec.extractLsb'_append_eq_of_add_le]
    rfl
  case fxm =>
    have across {op : BitVec 6} {d a b : BitVec 5} :
        (op ++ d ++ a ++ b).extractLsb' 1 8 = (op ++ d ++ a).extractLsb' 0 4 ++ b.extractLsb' 1 4 :=
      extract_append_across (m := 4) (n := 4) rfl
    simp (disch := decide) only [asm, across, BitVec.extractLsb'_append_eq_of_le, BitVec.extractLsb'_append_eq_of_add_le,
      Nat.reduceSub, BitVec.extractLsb'_eq_self]
    exact join_extract (v := 4) (w := 4) fxm

theorem roundTrips_dnh (dui : BitVec 5) (duis : BitVec 10) : RoundTrips (.dnh dui duis) :=
  roundTrips_x19 rfl rfl (need_of rfl (congrArg (Instr.dnh dui) (join_extract (v := 5) (w := 5) duis)))

theorem roundTrips_eDnh (dui : BitVec 5) (duis : BitVec 10) : RoundTrips (.eDnh dui duis) :=
  roundTrips_x31v rfl rfl (need_of rfl (congrArg (Instr.eDnh dui) (join_extract (v := 5) (w := 5) duis)))

end Sys2Proof
end

section
/-! PROOF. Every instruction, by the form of its encoding (O5). -/

namespace Sys2Proof

theorem roundTrips (i : Instr) (wf : i.wellFormed = true) : RoundTrips i := by
  cases i
  -- Book E pages only: the D forms, the rotates with a mask, primary opcode 19.
  case addi | addis | addic | addicDot | subfic | mulli | andiDot | andisDot | ori | oris | xori | xoris | lbz | lbzu
      | lhz | lhzu | lha | lhau | lwz | lwzu | stb | stbu | sth | sthu | stw | stwu | lmw | stmw | twi =>
    exact roundTrips_d rfl rfl rfl
  case cmpi | cmpli => exact roundTrips_d rfl rfl (need_of (decide_eq_true (crf_zero _)) (by rw [crf_field]))
  case rlwinm | rlwimi | rlwnm => exact roundTrips_rotate rfl rfl rfl fun _ => rfl
  case b li aa lk => exact roundTrips_b li aa lk
  case bc bo bi bd aa lk => exact roundTrips_bc bo bi bd aa lk
  case sc => exact roundTrips_bookE rfl rfl rfl
  case bclr _ _ lk | bcctr _ _ lk => cases lk <;> exact roundTrips_x19 rfl rfl rfl
  case crand | crandc | creqv | crnand | crnor | cror | crorc | crxor | rfi | rfci | isync | rfdi | rfmci =>
    exact roundTrips_x19 rfl rfl rfl
  case mcrf =>
    exact roundTrips_x19 rfl rfl
      (need_of (decide_eq_true ⟨crf_zero _, crf_zero _, rfl, rfl⟩) (by rw [crf_field, crf_field]))
  case dnh dui duis => exact roundTrips_dnh dui duis
  -- Both kinds of page: primary opcode 31.
  case tlbre | tlbwe | tlbsx | tlbivax | tlbsync | icbi | dcba | dcbf | dcbi | dcbst | dcbz | lbzx | lbzux | lhzx | lhzux
      | lhax | lhaux | lwzx | lwzux | stbx | stbux | sthx | sthux | stwx | stwux | lhbrx | lwbrx | sthbrx | stwbrx | mfcr
      | tw | mfmsr | mtmsr | wrtee | wait | msync | mbar | lbarx | lharx | lwarx | stbcxDot | sthcxDot | stwcxDot =>
    exact roundTrips_x31 rfl (by decide) rfl
  case add _ _ _ oe rc | addc _ _ _ oe rc | adde _ _ _ oe rc | addme _ _ oe rc | addze _ _ oe rc | subf _ _ _ oe rc
      | subfc _ _ _ oe rc | subfe _ _ _ oe rc | subfme _ _ oe rc | subfze _ _ oe rc | neg _ _ oe rc | mullw _ _ _ oe rc
      | divw _ _ _ oe rc | divwu _ _ _ oe rc =>
    cases oe <;> cases rc <;> exact roundTrips_x31 rfl (by decide) rfl
  case mulhw _ _ _ rc | mulhwu _ _ _ rc | and _ _ _ rc | andc _ _ _ rc | or _ _ _ rc | orc _ _ _ rc | xor _ _ _ rc
      | nand _ _ _ rc | nor _ _ _ rc | eqv _ _ _ rc | extsb _ _ rc | extsh _ _ rc | cntlzw _ _ rc | slw _ _ _ rc
      | srw _ _ _ rc | sraw _ _ _ rc | srawi _ _ _ rc =>
    cases rc <;> exact roundTrips_x31 rfl (by decide) rfl
  case icbt | dcbt | dcbtst | dcbtls | dcbtstls | dcblc | icbtls | icblc =>
    exact roundTrips_x31 rfl (by decide) (need_of (decide_eq_true ⟨ct_zero _, rfl⟩) (by rw [ct_field]))
  case cmp | cmpl => exact roundTrips_x31 rfl (by decide) (need_of (decide_eq_true ⟨crf_zero _, rfl⟩) (by rw [crf_field]))
  case mcrxr =>
    exact roundTrips_x31 rfl (by decide) (need_of (decide_eq_true ⟨crf_zero _, rfl, rfl, rfl⟩) (by rw [crf_field]))
  case mfspr | mfdcr | mfpmr => exact roundTrips_number rfl (by decide) rfl fun _ _ => rfl
  case mtspr _ rs => exact roundTrips_number (f := (.mtspr · rs)) rfl (by decide) rfl fun _ _ => rfl
  case mtdcr _ rs => exact roundTrips_number (f := (.mtdcr · rs)) rfl (by decide) rfl fun _ _ => rfl
  case mtpmr _ rs => exact roundTrips_number (f := (.mtpmr · rs)) rfl (by decide) rfl fun _ _ => rfl
  case wrteei e => cases e <;> exact roundTrips_x31 rfl (by decide) rfl
  case mtcrf fxm rs => exact roundTrips_mtcrf fxm rs
  case isel rt ra rb crb => exact roundTrips_isel rt ra rb crb
  -- VLE pages only: the halfwords.
  case seIllegal | seIsync | seSc | seRfi | seRfci | seRfdi | seRfmci | seDnh => exact roundTrips_half rfl rfl rfl
  case seBlr lk | seBctr lk => cases lk <;> exact roundTrips_half rfl rfl rfl
  case seNot | seNeg | seMflr | seMtlr | seMfctr | seMtctr | seExtzb | seExtsb | seExtzh | seExtsh =>
    exact roundTrips_one wf rfl rfl rfl fun _ => rfl
  case seMr | seAdd | seMullw | seSub | seSubf | seCmp | seCmpl | seCmph | seCmphl | seSrw | seSraw | seSlw | seOr
      | seAndc =>
    exact roundTrips_pair wf rfl rfl rfl fun _ _ => rfl
  case seAnd _ _ rc => exact roundTrips_pair (f := (.seAnd · · rc)) wf rfl rfl rfl fun _ _ => by cases rc <;> rfl
  case seMtar => exact roundTrips_seMtar wf
  case seMfar => exact roundTrips_seMfar wf
  case seAddi | seCmpli => exact roundTrips_oimm wf rfl rfl rfl (fun _ _ => rfl) fun _ _ => rfl
  case seSubi _ _ rc =>
    exact roundTrips_oimm (f := (.seSubi · · rc)) wf rfl rfl rfl (fun _ _ => by cases rc <;> rfl)
      fun _ _ => by cases rc <;> rfl
  case seCmpi | seBmaski | seAndi | seBclri | seBgeni | seBseti | seBtsti | seSrwi | seSrawi | seSlwi =>
    exact roundTrips_ui5 wf rfl rfl rfl (fun _ _ => rfl) fun _ _ => rfl
  case seLi _ ui7 => exact roundTrips_seLi wf ui7
  case seLbz | seStb | seLhz | seSth | seLwz | seStw => exact roundTrips_sd4 wf rfl rfl rfl fun _ _ => rfl
  case seB bd8 lk => exact roundTrips_seB bd8 lk
  case seBc bo16 bi16 bd8 => exact roundTrips_seBc bo16 bi16 bd8
  -- VLE pages only: the words.
  case eLbz | eStb | eLha | eLwz | eStw | eLhz | eSth | eAdd16i => exact roundTrips_vleD rfl rfl rfl rfl
  case eLmvgprw | eStmvgprw | eLmvsprw | eStmvsprw | eLmvsrrw | eStmvsrrw | eLmvcsrrw | eStmvcsrrw | eLmvdsrrw
      | eStmvdsrrw | eLmvmcsrrw | eStmvmcsrrw | eLbzu | eLhzu | eLwzu | eLhau | eStbu | eSthu | eStwu | eLmw | eStmw =>
    exact roundTrips_d8 rfl rfl rfl
  case eAddi _ _ f _ _ rc | eAddic _ _ f _ _ rc | eSubfic _ _ f _ _ rc | eAndi _ _ f _ _ rc | eOri _ _ f _ _ rc
      | eXori _ _ f _ _ rc =>
    cases rc <;> cases f <;> exact roundTrips_sci8 rfl rfl rfl
  case eMulli _ _ f _ _ => cases f <;> exact roundTrips_sci8 rfl rfl rfl
  case eCmpi _ _ f _ _ | eCmpli _ _ f _ _ => cases f <;> exact roundTrips_cmp8 rfl rfl rfl
  case eLi rd li20 => exact roundTrips_eLi rd li20
  case eAdd2iDot | eAdd2is | eCmp16i | eMull2i | eCmph16i | eCmpl16i | eCmphl16i =>
    exact roundTrips_i16a rfl rfl rfl fun _ _ => rfl
  case eOr2i | eAnd2iDot | eOr2is | eLis | eAnd2isDot => exact roundTrips_i16l rfl rfl rfl fun _ _ => rfl
  case eRlwimi ra rs sh mb me => exact roundTrips_eRlwimi ra rs sh mb me
  case eRlwinm ra rs sh mb me => exact roundTrips_eRlwinm ra rs sh mb me
  case eB bd24 lk => exact roundTrips_eB bd24 lk
  case eBc bo32 bi32 bd15 lk => exact roundTrips_eBc bo32 bi32 bd15 lk
  case eCmph | eCmphl => exact roundTrips_x31v rfl rfl (need_of (decide_eq_true ⟨crf_zero _, rfl⟩) (by rw [crf_field]))
  case eMcrf =>
    exact roundTrips_x31v rfl rfl
      (need_of (decide_eq_true ⟨crf_zero _, crf_zero _, rfl, rfl⟩) (by rw [crf_field, crf_field]))
  case eCrnor | eCrandc | eCrxor | eCrnand | eCrand | eCreqv | eCrorc | eCror => exact roundTrips_x31v rfl rfl rfl
  case eSlwi _ _ _ rc | eRlw _ _ _ rc | eRlwi _ _ _ rc | eSrwi _ _ _ rc => cases rc <;> exact roundTrips_x31v rfl rfl rfl
  case eDnh dui duis => exact roundTrips_eDnh dui duis
  -- Both kinds of page: primary opcode 4. Every row left has three 5-bit fields and an extended opcode.
  case efscmpgt | efscmplt | efscmpeq | efststgt | efststlt | efststeq | evfscmpgt | evfscmplt | evfscmpeq | evfststgt
      | evfststlt | evfststeq | evcmpeq | evcmpgts | evcmpgtu | evcmplts | evcmpltu =>
    exact roundTrips_ev rfl (need_of (decide_eq_true (crf_zero _)) (by rw [crf_field]))
  case evsel rd ra rb crs => exact roundTrips_evsel rd ra rb crs
  all_goals exact roundTrips_ev rfl rfl

/-- Settles O5, by cases on the instruction: each row of the opcode table is read back by the form of its encoding, whatever
bytes follow. -/
theorem encodeDecode : Obligations.EncodeDecode := by
  intro i vle rest wf page
  exact decode_of_reads rest (roundTrips i wf vle page)

end Sys2Proof
end

section
/-! PROOF. Instructions that end in an integer result, and the adding and subtracting instructions of Book E (O9, O10). -/

namespace Sys2Proof.Machine

section
variable {s : State} {i : Instr} {len : Nat} {rt : Gpr} {rc : Bool}

/-! Integer results. -/

theorem runs_result {r v : Word} {ca ca' ov ov' : Option Bool} (h : exec i s = .next (s.result len rt r ca ov rc))
    (hv : r = v := by rfl) (hca : ca = ca' := by rfl) (hov : ov = ov' := by rfl) :
    Runs i s (IntResult len rt v ca' ov' rc s) := by
  subst hv hca hov
  exact ⟨_, h, result_spec s len rt r ca ov rc⟩

/-! Sums of two words and a carry (40_base_integer.md R601). -/

theorem ofInt_one (c : Bool) : BitVec.ofInt 32 (one c) = if c then 1#32 else 0#32 := by cases c <;> rfl

theorem add3_carry_one (a b : Word) (c : Bool) : (add3 a b c).2.1 = decide (2 ^ 32 ≤ a.toNat + b.toNat + one c) := by
  rw [add3_carry, decide_eq_decide]
  cases c <;> simp only [one, if_true, if_false, Bool.false_eq_true] <;> omega

theorem add3_overflow_one (a b : Word) (c : Bool) : (add3 a b c).2.2 = noFit (a.toInt + b.toInt + one c) := by
  rw [add3_overflow]
  rfl

/-- An instruction that ends in a sum, in terms of the word `v`, the carry out and the exact signed sum `n`. -/
theorem runs_sum {a b v : Word} {c carry oe : Bool} {ca : Option Bool} {n : Int}
    (h : exec i s = .next (s.resultAdd len rt (add3 a b c) carry oe rc)) (hv : a + b + BitVec.ofInt 32 (one c) = v)
    (hca : (if carry then some (decide (2 ^ 32 ≤ a.toNat + b.toNat + one c)) else none) = ca)
    (hn : a.toInt + b.toInt + one c = n) :
    Runs i s (IntResult len rt v ca (if oe then some (noFit n) else none) rc s) := by
  refine runs_result h ?_ ?_ ?_
  · rw [add3_sum, ← ofInt_one, hv]
  · rw [add3_carry_one, hca]
  · rw [add3_overflow_one, hn]

end

/-! The words and the carries that the forms add (40_base_integer.md R612 to R626). -/

section
variable (a b : Word) (c : Bool)

theorem sum_without_carry : a + b + BitVec.ofInt 32 (one false) = a + b := BitVec.add_zero _

theorem exact_sum_without_carry : a.toInt + b.toInt + one false = a.toInt + b.toInt := Int.add_zero _

theorem carry_out_without_carry :
    decide ((2 : Int) ^ 32 ≤ a.toNat + b.toNat + one false) = decide (2 ^ 32 ≤ a.toNat + b.toNat) := by
  rw [decide_eq_decide]
  simp only [one, Bool.false_eq_true, if_false]
  omega

/-- A sum with all ones carries out, unless nothing but zeros is added to them. -/
theorem carry_out_ones :
    decide ((2 : Int) ^ 32 ≤ a.toNat + (0xFFFFFFFF#32).toNat + one c) = decide (a ≠ 0#32 ∨ c = true) := by
  rw [decide_eq_decide, ne_eq, ← BitVec.toNat_inj]
  cases c <;> simp [one] <;> omega

/-- A sum with zero carries out only where the carry runs through all ones. -/
theorem carry_out_zero :
    decide ((2 : Int) ^ 32 ≤ a.toNat + (0#32).toNat + one c) = decide (a = 0xFFFFFFFF#32 ∧ c = true) := by
  have ha := a.isLt
  rw [decide_eq_decide, ← BitVec.toNat_inj]
  cases c <;> simp [one] <;> omega

theorem not_toInt : (~~~a).toInt = -a.toInt - 1 := by
  have ha := a.isLt
  simp only [BitVec.toInt_eq_toNat_cond, BitVec.toNat_not]
  omega

theorem not_add : ~~~a + b = b - a - 1#32 := by bv_omega

theorem not_add_one : ~~~a + b + 1#32 = b - a := by bv_omega

theorem exact_sum_not : (~~~a).toInt + b.toInt + one c = b.toInt - a.toInt - 1 + one c := by
  rw [not_toInt]
  omega

theorem exact_sum_not_one : (~~~a).toInt + b.toInt + one true = b.toInt - a.toInt := by
  rw [exact_sum_not]
  exact Int.sub_add_cancel _ 1

/-- A complement carries out of a sum exactly if the subtraction, less one and the carry, borrows nothing. -/
theorem carry_out_not :
    decide ((2 : Int) ^ 32 ≤ (~~~a).toNat + b.toNat + one c) = decide ((a.toNat : Int) + 1 ≤ b.toNat + one c) := by
  have ha := a.isLt
  rw [decide_eq_decide, BitVec.toNat_not]
  omega

theorem carry_out_not_one :
    decide ((2 : Int) ^ 32 ≤ (~~~a).toNat + b.toNat + one true) = decide (a.toNat ≤ b.toNat) := by
  rw [carry_out_not, decide_eq_decide]
  simp only [one, if_true]
  omega

theorem carry_out_not_ones :
    decide ((2 : Int) ^ 32 ≤ (~~~a).toNat + (0xFFFFFFFF#32).toNat + one c) = decide (a ≠ 0xFFFFFFFF#32 ∨ c = true) := by
  have h : ~~~a ≠ 0#32 ↔ a ≠ 0xFFFFFFFF#32 := by bv_omega
  rw [carry_out_ones, decide_eq_decide, h]

theorem carry_out_not_zero :
    decide ((2 : Int) ^ 32 ≤ (~~~a).toNat + (0#32).toNat + one c) = decide (a = 0#32 ∧ c = true) := by
  have h : ~~~a = 0xFFFFFFFF#32 ↔ a = 0#32 := by bv_omega
  rw [carry_out_zero, decide_eq_decide, h]

/-- Only the smallest signed word has a negative that is no signed word. -/
theorem eq_min_iff_noFit_neg : (a == 0x80000000#32) = noFit (-a.toInt) := by
  have ha := a.isLt
  rw [noFit, beq_eq_decide, decide_eq_decide, ← BitVec.toNat_inj, BitVec.toInt_eq_toNat_cond]
  simp only [BitVec.toNat_ofNat]
  omega

end

/-- Settles O9: each instruction ends in the sum of two words and a carry. -/
theorem additions : Obligations.Additions := by
  intro s rt ra rb si oe rc a b i c
  have addic_sum {j : Instr} {rc : Bool} (h : exec j s = .next (s.resultAdd 4 rt (add3 a i false) true false rc)) :
      Runs j s (IntResult 4 rt (a + i) (some (decide (2 ^ 32 ≤ a.toNat + i.toNat))) none rc s) :=
    runs_sum h (sum_without_carry a i) (congrArg some (carry_out_without_carry a i)) rfl
  refine ⟨runs_result rfl, runs_result rfl, addic_sum rfl, addic_sum rfl, ?_, ?_, ?_, ?_, ?_⟩
  · exact runs_sum rfl (sum_without_carry a b) rfl (exact_sum_without_carry a b)
  · exact runs_sum rfl (sum_without_carry a b) (congrArg some (carry_out_without_carry a b)) (exact_sum_without_carry a b)
  · exact runs_sum rfl rfl rfl rfl
  · have minus_one : a + 0xFFFFFFFF#32 = a - 1#32 := by bv_omega
    exact runs_sum rfl (congrArg (· + _) minus_one) (congrArg some (carry_out_ones a c)) rfl
  · exact runs_sum rfl (congrArg (· + _) (BitVec.add_zero a)) (congrArg some (carry_out_zero a c))
      (congrArg (· + _) (Int.add_zero a.toInt))

/-- Settles O10: each instruction ends in the sum of the complement of RA, another word and a carry. -/
theorem subtractions : Obligations.Subtractions := by
  intro s rt ra rb si oe rc a b i c
  refine ⟨?_, ?_, ?_, ?_, ?_, ?_, ?_⟩
  · exact runs_sum (carry := true) (oe := false) rfl (not_add_one a i) (congrArg some (carry_out_not_one a i)) rfl
  · exact runs_sum rfl (not_add_one a b) rfl (exact_sum_not_one a b)
  · exact runs_sum rfl (not_add_one a b) (congrArg some (carry_out_not_one a b)) (exact_sum_not_one a b)
  · exact runs_sum rfl (congrArg (· + _) (not_add a b)) (congrArg some (carry_out_not a b c)) (exact_sum_not a b c)
  · have minus_two : ~~~a + 0xFFFFFFFF#32 = 0xFFFFFFFE#32 - a := by bv_omega
    have exact_minus_two : (~~~a).toInt + (-1) = -a.toInt - 2 := by rw [not_toInt]; omega
    exact runs_sum rfl (congrArg (· + _) minus_two) (congrArg some (carry_out_not_ones a c))
      (congrArg (· + _) exact_minus_two)
  · have minus_one : ~~~a + 0#32 = 0xFFFFFFFF#32 - a := by bv_omega
    have exact_minus_one : (~~~a).toInt + 0 = -a.toInt - 1 := by rw [not_toInt, Int.add_zero]
    exact runs_sum rfl (congrArg (· + _) minus_one) (congrArg some (carry_out_not_zero a c))
      (congrArg (· + _) exact_minus_one)
  · exact runs_result rfl (BitVec.zero_sub a).symm rfl (by rw [eq_min_iff_noFit_neg])

end Sys2Proof.Machine
end

section
/-! PROOF. The multiplying and dividing instructions of Book E (O11). -/

namespace Sys2Proof.Machine

/-! The halves of a doubleword as numbers, and the exact products (40_base_integer.md R615, R627 to R629). -/

section
variable (a b : Word) (p : DWord)

theorem loW_toInt : (loW p).toInt = p.toInt.bmod (2 ^ 32) := by
  rw [loW, BitVec.toInt_extractLsb', Nat.shiftRight_zero, BitVec.toInt_eq_toNat_bmod, Int.bmod_bmod_of_dvd (by decide)]

theorem hiW_toNat : (hiW p).toNat = p.toNat / 2 ^ 32 := by
  have hp := p.isLt
  rw [hiW, BitVec.extractLsb'_toNat, Nat.shiftRight_eq_div_pow]
  omega

theorem hiW_eq_ofInt : hiW p = BitVec.ofInt 32 (p.toInt / 2 ^ 32) := by
  have hp := p.isLt
  apply BitVec.eq_of_toNat_eq
  rw [hiW_toNat, BitVec.toNat_ofInt, BitVec.toInt_eq_toNat_cond]
  omega

theorem loW_mulSigned_eq_ofInt : loW (mulSigned a b) = BitVec.ofInt 32 (a.toInt * b.toInt) := by
  rw [loW_mulSigned, BitVec.ofInt_mul, BitVec.ofInt_toInt, BitVec.ofInt_toInt]

theorem hiW_mulSigned : hiW (mulSigned a b) = BitVec.ofInt 32 (a.toInt * b.toInt / 2 ^ 32) := by
  rw [hiW_eq_ofInt, mulSigned_toInt]

theorem hiW_mulUnsigned : hiW (mulUnsigned a b) = BitVec.ofNat 32 (a.toNat * b.toNat / 2 ^ 32) := by
  rw [← mulUnsigned_toNat, ← hiW_toNat, BitVec.ofNat_toNat, BitVec.setWidth_eq]

/-- A doubleword is the sign extension of its low word exactly if its number fits a signed word. -/
theorem mulOverflow_eq : mulOverflow p = noFit p.toInt := by
  have h : p = (loW p).signExtend 64 ↔ p.toInt = p.toInt.bmod (2 ^ 32) := by
    rw [← BitVec.toInt_inj, BitVec.toInt_signExtend_of_le (by decide), loW_toInt]
  rw [mulOverflow, noFit, Bool.eq_iff_iff, bne_iff_ne, decide_eq_true_iff, ne_eq, h, Int.bmod_def]
  omega

end

/-! Divisions (40_base_integer.md R630, R631). -/

section
variable (s : State) (a b : Word) (rt : Gpr) (oe rc : Bool)

theorem divOpen_iff : divOpen a b = true ↔ b = 0#32 ∨ a = 0x80000000#32 ∧ b = 0xFFFFFFFF#32 := by
  simp [divOpen]

/-- What a division without a defined quotient leaves: OV and SO set in an OE form, SO in a recorded CR0, and nothing else but
RT's low word, LT, GT, EQ and the pc. -/
def OpenResult (rt : Gpr) (oe rc : Bool) (s t : State) : Prop :=
  t.gprH rt = s.gprH rt ∧ SameGprsBut rt s t ∧ Past 4 s t ∧ XerAfter none (if oe then some true else none) s t ∧
    SameCrBut 0#3 s t ∧ (rc = true → (crField t.cr 0#3).getLsbD 0 = t.xer.getLsbD 31) ∧ (rc = false → t.cr = s.cr) ∧
    SameLinks s t ∧ SameSystem s t

theorem resultOpen_gpr : (s.resultOpen rt oe rc).gpr = (s.setGprW rt (Config.freeWord s.free)).gpr := by
  cases oe <;> cases rc <;> rfl

theorem resultOpen_pc : (s.resultOpen rt oe rc).pc = s.pc + 4#32 := by cases oe <;> cases rc <;> rfl

theorem resultOpen_xer : (s.resultOpen rt oe rc).xer = (s.putOv (if oe then some true else none)).xer := by
  cases oe <;> cases rc <;> rfl

theorem resultOpen_cr : (s.resultOpen rt oe rc).cr =
    if rc then
      withCrField s.cr 0#3 ((Config.freeWord (s.free + 1)).extractLsb' 1 3 ++
        (if (s.resultOpen rt oe rc).xer.getLsbD 31 then 1#1 else 0#1))
    else s.cr := by
  cases oe <;> cases rc <;> rfl

theorem resultOpen_spec : OpenResult rt oe rc s (s.resultOpen rt oe rc) := by
  have hg := resultOpen_gpr s rt oe rc
  have hc := resultOpen_cr s rt oe rc
  refine ⟨?_, fun q hq => ?_, resultOpen_pc s rt oe rc, ?_, fun g hne => ?_, ?_, ?_, ?_, ?_⟩
  · rw [State.gprH, gprD_of_gpr hg]
    exact setGprW_gprH_self s rt _
  · rw [gprD_of_gpr hg]
    exact setGprW_gprD_ne s rt q _ hq
  · exact xerAfter_put s none _ _ (resultOpen_xer s rt oe rc)
  · rw [hc]
    cases rc with
    | false => rfl
    | true => exact crField_withCrField_ne _ _ _ _ hne
  · rintro rfl
    rw [hc, if_pos rfl, crField_withCrField_self, BitVec.getLsbD_append]
    cases (s.resultOpen rt oe true).xer.getLsbD 31 <;> rfl
  · rintro rfl
    exact hc
  · simp [SameLinks]
  · simp [SameSystem]

end

/-- Settles O11: the products by their exact numbers, the divisions by whether the quotient is defined. -/
theorem multiplyDivide : Obligations.MultiplyDivide := by
  intro s rt ra rb si oe rc a b
  refine ⟨?_, ?_, ?_, ?_, fun hb hq => ?_, fun hb => ?_, fun hq => ?_, fun hb => ?_⟩
  · refine runs_result rfl ?_
    rw [loW_mulSigned_eq_ofInt, sext16, BitVec.toInt_signExtend_of_le (by decide)]
  · exact runs_result rfl (loW_mulSigned_eq_ofInt a b) rfl (by rw [mulOverflow_eq, mulSigned_toInt])
  · exact runs_result rfl (hiW_mulSigned a b)
  · exact runs_result rfl (hiW_mulUnsigned a b)
  · exact runs_result (if_neg fun h => ((divOpen_iff a b).mp h).elim hb hq)
  · exact runs_result (if_neg hb)
  · exact ⟨_, if_pos ((divOpen_iff a b).mpr hq), resultOpen_spec s rt oe rc⟩
  · exact ⟨_, if_pos hb, resultOpen_spec s rt oe rc⟩

end Sys2Proof.Machine
end

section
/-! PROOF. The logical instructions of Book E (O12). -/

namespace Sys2Proof.Machine

/-! Leading zeros (40_base_integer.md R667). -/

theorem leadingZeros_le (w : Word) (n : Nat) : leadingZeros w n ≤ n := by
  induction n with
  | zero => exact Nat.le_refl 0
  | succ n ih =>
    rw [leadingZeros]
    split <;> omega

theorem leadingZeros_before (w : Word) (n i : Nat) (hi : i < leadingZeros w n) : w.getLsbD (n - 1 - i) = false := by
  induction n generalizing i with
  | zero => exact absurd hi (Nat.not_lt_zero i)
  | succ n ih =>
    rw [leadingZeros] at hi
    split at hi
    case isTrue => exact absurd hi (Nat.not_lt_zero i)
    case isFalse h =>
      cases i with
      | zero => exact eq_false_of_ne_true h
      | succ i =>
        rw [show n + 1 - 1 - (i + 1) = n - 1 - i by omega]
        exact ih i (by omega)

theorem leadingZeros_at (w : Word) (n : Nat) (h : leadingZeros w n < n) :
    w.getLsbD (n - 1 - leadingZeros w n) = true := by
  induction n with
  | zero => exact absurd h (Nat.not_lt_zero _)
  | succ n ih =>
    by_cases hw : w.getLsbD n = true
    · rw [leadingZeros, if_pos hw]
      exact hw
    · rw [leadingZeros, if_neg hw] at h ⊢
      rw [show n + 1 - 1 - (leadingZeros w n + 1) = n - 1 - leadingZeros w n by omega]
      exact ih (by omega)

theorem clz32_spec (w : Word) : LeadingZeros w (clz32 w) := by
  have le := leadingZeros_le w 32
  refine ⟨le, fun i hi => ?_, fun h => ?_⟩
  · rw [BitVec.getMsbD_eq_getLsbD, leadingZeros_before w 32 i hi, Bool.and_false]
  · rw [clz32] at h ⊢
    rw [BitVec.getMsbD_eq_getLsbD, leadingZeros_at w 32 h, decide_eq_true h, Bool.true_and]

/-- Settles O12: each instruction writes its word as the model computes it; that of `cntlzw` is the count of `clz32_spec`. -/
theorem logical : Obligations.Logical := by
  intro s ra rs rb ui rc x y
  exact ⟨runs_result rfl, runs_result rfl, runs_result rfl, runs_result rfl, runs_result rfl, runs_result rfl,
    runs_result rfl, runs_result rfl, runs_result rfl, runs_result rfl, runs_result rfl, runs_result rfl,
    runs_result rfl, runs_result rfl, runs_result rfl, runs_result rfl, clz32 x, clz32_spec x, runs_result rfl⟩

end Sys2Proof.Machine
end

section
/-! PROOF. The rotates and shifts of Book E (O13). -/

namespace Sys2Proof.Machine

/-! Rotates and masks, bit by bit (40_base_integer.md R601, R670 to R672). -/

theorem maskMbMe_getMsbD (mb me : BitVec 5) (j : Nat) (hj : j < 32) : (maskMbMe mb me).getMsbD j = underMask mb me j := by
  have he := me.isLt
  have ones (k : Nat) : (0xFFFFFFFF#32).getMsbD k = decide (k < 32) := BitVec.getMsbD_allOnes (v := 32)
  have from_mb : (0xFFFFFFFF#32 >>> mb.toNat).getMsbD j = decide (mb.toNat ≤ j) := by
    rw [BitVec.getMsbD_ushiftRight, ones, Bool.eq_iff_iff]
    simp only [Bool.and_eq_true, Bool.not_eq_true', decide_eq_true_eq, decide_eq_false_iff_not]
    omega
  have upto_me : (0xFFFFFFFF#32 <<< (31 - me.toNat)).getMsbD j = decide (j ≤ me.toNat) := by
    rw [BitVec.getMsbD_shiftLeft, ones, decide_eq_decide]
    omega
  rw [maskMbMe, underMask]
  split
  · rw [BitVec.getMsbD_and, from_mb, upto_me, ← Bool.decide_and]
  · rw [BitVec.getMsbD_or, from_mb, upto_me, ← Bool.decide_or, decide_eq_decide, or_comm]

theorem rotl_getMsbD (w : Word) (n j : Nat) (hj : j < 32) : (rotl w n).getMsbD j = w.getMsbD ((j + n) % 32) := by
  rw [rotl, BitVec.getMsbD_rotateLeft, decide_eq_true hj, Bool.true_and, Nat.add_comm]

theorem getMsbD_rotl_and_mask (w : Word) (n : Nat) (mb me : BitVec 5) (j : Nat) (hj : j < 32) :
    (rotl w n &&& maskMbMe mb me).getMsbD j = if underMask mb me j then w.getMsbD ((j + n) % 32) else false := by
  rw [BitVec.getMsbD_and, rotl_getMsbD w n j hj, maskMbMe_getMsbD mb me j hj]
  cases underMask mb me j <;> simp

theorem insertBits_getMsbD (w m v : Word) (j : Nat) (hj : j < 32) :
    (insertBits w m v).getMsbD j = if m.getMsbD j then v.getMsbD j else w.getMsbD j := by
  simp only [BitVec.getMsbD_eq_getLsbD, insertBits_getLsbD, hj, decide_true, Bool.true_and]

/-! Shifts as numbers (40_base_integer.md R673 to R676). -/

section
variable (w : Word) (n : Nat)

theorem shiftAmount_eq : shiftAmount w = w.toNat % 64 := by
  rw [shiftAmount, BitVec.extractLsb'_toNat, Nat.shiftRight_zero]

theorem shiftLeft_eq : shiftLeft w n = BitVec.ofNat 32 (w.toNat * 2 ^ n) := by
  have shift : shiftLeft w n = w <<< n := by
    rw [shiftLeft]
    split
    case isTrue h => exact (BitVec.shiftLeft_eq_zero h).symm
    case isFalse => rfl
  apply BitVec.eq_of_toNat_eq
  rw [shift, BitVec.toNat_shiftLeft, BitVec.toNat_ofNat, Nat.shiftLeft_eq]

theorem shiftRight_eq : shiftRight w n = BitVec.ofNat 32 (w.toNat / 2 ^ n) := by
  have shift : shiftRight w n = w >>> n := by
    rw [shiftRight]
    split
    case isTrue h => exact (BitVec.ushiftRight_eq_zero h).symm
    case isFalse => rfl
  rw [shift, ← Nat.shiftRight_eq_div_pow, ← BitVec.toNat_ushiftRight, BitVec.ofNat_toNat, BitVec.setWidth_eq]

theorem shiftSigned_eq : shiftSigned w n = BitVec.ofInt 32 (w.toInt / 2 ^ n) := by
  have shift : shiftSigned w n = w.sshiftRight n := by
    rw [shiftSigned]
    split
    case isTrue h =>
      apply BitVec.eq_of_getLsbD_eq
      intro j hj
      rw [BitVec.getLsbD_sshiftRight, if_neg (by omega : ¬ n + j < 32), decide_eq_false (by omega : ¬ 32 ≤ j)]
      cases w.msb with
      | true => exact (BitVec.getLsbD_allOnes (v := 32)).trans (decide_eq_true hj)
      | false => exact BitVec.getLsbD_zero
    case isFalse => rfl
  rw [shift, ← BitVec.ofInt_toInt (x := w.sshiftRight n), BitVec.toInt_sshiftRight, Int.shiftRight_eq_div_pow]
  norm_cast

/-- The bits shifted out are the remainder. -/
theorem and_shiftedOut_toNat (h : n < 32) : (w &&& ((1#32 <<< n) - 1#32)).toNat = w.toNat % 2 ^ n := by
  have power : (1#32 <<< n).toNat = 2 ^ n := BitVec.toNat_twoPow_of_lt h
  have pos : 1#32 ≤ 1#32 <<< n := by
    rw [BitVec.le_def, power]
    exact Nat.one_le_two_pow
  rw [BitVec.toNat_and, BitVec.toNat_sub_of_le pos, power]
  exact Nat.and_two_pow_sub_one_eq_mod w.toNat n

/-- Beyond the width every bit is shifted out, and a negative number has one that is 1. -/
theorem shiftCarry_eq : shiftCarry w n = decide (w.toInt < 0 ∧ w.toNat % 2 ^ n ≠ 0) := by
  rw [shiftCarry, Bool.decide_and, ← BitVec.msb_eq_toInt]
  split
  case isTrue h =>
    have whole : w.toNat % 2 ^ n = w.toNat :=
      Nat.mod_eq_of_lt (Nat.lt_of_lt_of_le w.isLt (Nat.pow_le_pow_right (by decide) h))
    rw [whole, BitVec.msb_eq_decide, ← Bool.decide_and, decide_eq_decide]
    omega
  case isFalse h =>
    have out : (w &&& ((1#32 <<< n) - 1#32) != 0#32) = decide (w.toNat % 2 ^ n ≠ 0) := by
      rw [← and_shiftedOut_toNat w n (Nat.lt_of_not_le h), Bool.eq_iff_iff, bne_iff_ne, decide_eq_true_iff, ne_eq, ne_eq,
        ← BitVec.toNat_inj]
      rfl
    rw [out]

end

/-- Settles O13: the rotates bit by bit, the shifts by their numbers. -/
theorem rotatesShifts : Obligations.RotatesShifts := by
  intro s ra rs rb sh mb me rc x n
  have amount : shiftAmount (s.gprW rb) = n := shiftAmount_eq (s.gprW rb)
  have low5 : ((s.gprW rb).extractLsb' 0 5).toNat = (s.gprW rb).toNat % 32 := by
    rw [BitVec.extractLsb'_toNat, Nat.shiftRight_zero]
  refine ⟨⟨_, fun j hj => ?_, runs_result rfl⟩, ⟨_, fun j hj => ?_, runs_result rfl⟩, ⟨_, fun j hj => ?_, runs_result rfl⟩,
    ?_, ?_, ?_, ?_⟩
  · exact getMsbD_rotl_and_mask x sh.toNat mb me j hj
  · rw [insertBits_getMsbD _ _ _ j hj, maskMbMe_getMsbD mb me j hj, rotl_getMsbD _ _ j hj]
  · rw [getMsbD_rotl_and_mask _ _ mb me j hj, low5]
  · exact runs_result rfl (by rw [amount, shiftLeft_eq])
  · exact runs_result rfl (by rw [amount, shiftRight_eq])
  · exact runs_result rfl (by rw [amount, shiftSigned_eq]) (by rw [amount, shiftCarry_eq])
  · exact runs_result rfl (shiftSigned_eq x sh.toNat) (congrArg some (shiftCarry_eq x sh.toNat))

end Sys2Proof.Machine
end

section
/-! PROOF. The example words of the spec (O6). -/

namespace Sys2Proof

/-- Settles O6: each list of bytes is the encoding of its instruction, which the decoder reads back by `encodeDecode`. -/
theorem decodeWords : Obligations.DecodeWords := by
  refine ⟨?_, ?_, ?_, ?_, ?_, ?_, ?_, ?_, ?_⟩
  · exact encodeDecode (.addi 3#5 0#5 0xFFFF#16) false [] rfl (.inr rfl)
  · exact encodeDecode (.add 3#5 4#5 5#5 true true) false [] rfl (.inl rfl)
  · exact encodeDecode (.cmpi 1#3 4#5 0#16) false [] rfl (.inr rfl)
  · exact encodeDecode (.rlwinm 3#5 4#5 8#5 24#5 31#5 false) false [] rfl (.inr rfl)
  · exact encodeDecode (.lbz 3#5 3#16 4#5) false [] rfl (.inr rfl)
  · exact encodeDecode (.b 0xFFFFFE#24 false true) false [] rfl (.inr rfl)
  · exact encodeDecode (.bc 12#5 2#5 2#14 false false) false [] rfl (.inr rfl)
  · exact encodeDecode (.crand 2#5 6#5 10#5) false [] rfl (.inr rfl)
  · exact encodeDecode (.add 3#5 4#5 5#5 true true) true [] rfl (.inl rfl)

end Sys2Proof
end

section
/-! PROOF. The loads and stores of one value with the data cache off (O31, O33). -/

namespace Sys2Proof.Machine

section
variable {s t : State} {i : Instr} {len n : Nat} {upd : Option Gpr} {ea : Word} {p : TlbEntry}

theorem runs_loadTo_plain {rt : Gpr} {f : List Byte → Word} {v : Word} (h : PlainAccess s ea n .load p)
    (hi : exec i s = s.loadTo len n rt upd f ea) (hv : f (endian p.e (s.mem.bytes (p.page ea).ra n)) = v := by rfl)
    (hn : 0 < n := by decide) (hn' : n ≤ 8 := by decide) :
    Runs i s (LoadResult len rt upd v ea (s.mem.bytes (p.page ea).ra n) s) := by
  rw [Runs, hi, ← hv]
  exact loadTo_plain h hn hn' len rt upd f

/-- What a store leaves whose bytes are in memory, in one beat or in two. -/
theorem storeResult_of_busBeats {e : Bool} {ra : Word} {val : List Nat} {m : List Byte} (elems : Elements e n val m)
    (wf : s.mem.wf = true) (small : m.length ≤ 8) (h : OnlyRecords true (busBeats ea m) (s.mem.putBytes ra m) s t) :
    StoreResult len n e ra val upd ea s ((t.setBase upd ea).advance len) := by
  have mem : ((t.setBase upd ea).advance len).mem = s.mem.putBytes ra m := by rw [advance_mem, setBase_mem, h.mem]
  have bytes : ((t.setBase upd ea).advance len).mem.bytes ra (n * val.length) = m := by
    rw [mem, ← elems.length]
    exact Memory.bytes_putBytes s.mem wf ra m (by omega)
  refine ⟨⟨fun k => elems.elem_putBytes wf (by omega) mem, elems.outside_putBytes wf mem,
    storeRegs_of_records h len upd ea rfl⟩, ?_⟩
  rw [bytes]
  exact (SameSystemButMem.of_records h).regs (setBase_regs upd ea len t)

/-- The bytes `b` of one element, which the instruction reverses (`rev`) or not before the page does. -/
theorem runs_storeFrom_plain {e rev : Bool} {b : List Byte} {x : Nat} (wf : s.mem.wf = true)
    (h : PlainAccess s ea n .store p) (hx : bytesNat b = x) (order : Bool.xor p.e rev = e)
    (hi : exec i s = s.storeFrom len (endian rev b) upd ea) (hb : b.length = n := by rfl) (hn : 0 < n := by decide)
    (hn' : n ≤ 8 := by decide) :
    Runs i s (StoreResult len n e (p.page ea).ra [x] upd ea s) := by
  have length : (endian rev b).length = n := by cases rev <;> simp [endian, hb]
  have same := elemOrder_length p.e (endian rev b).length (endian rev b) (length ▸ hn)
  have elems : Elements e n [x] (elemOrder p.e (endian rev b).length (endian rev b)) := by
    rw [elemOrder_one p.e _ _ rfl (length ▸ hn), ← hx, ← order]
    exact elements_endian p.e rev hb
  obtain ⟨t, store, records⟩ :=
    store_plain (endian rev b) wf (length.symm ▸ h) (length ▸ hn) (length ▸ hn') 0#32 _ same
  exact ⟨_, by rw [hi, State.storeFrom, store]; rfl, storeResult_of_busBeats elems wf (by omega) records⟩

end

/-- Settles O31: each instruction is the shared load of its width, which gives the bytes at the real address in the order of
the page. -/
theorem loads : Obligations.Loads := by
  intro s rt ra rb d p ed ex
  refine ⟨fun h => ⟨?lbz, ?lbzu⟩, fun h => ⟨?lhz, ?lhzu, ?lha, ?lhau⟩, fun h => ⟨?lwz, ?lwzu⟩, fun h => ⟨?lbzx, ?lbzux⟩,
    fun h => ⟨?lhzx, ?lhzux, ?lhax, ?lhaux, ?lhbrx⟩, fun h => ⟨?lwzx, ?lwzux, ?lwbrx⟩⟩
  case lbz => exact runs_loadTo_plain h (exec_lbz s rt d ra)
  case lbzu => exact runs_loadTo_plain h (exec_lbzu s rt d ra)
  case lhz => exact runs_loadTo_plain h (exec_lhz s rt d ra)
  case lhzu => exact runs_loadTo_plain h (exec_lhzu s rt d ra)
  case lha => exact runs_loadTo_plain h (exec_lha s rt d ra)
  case lhau => exact runs_loadTo_plain h (exec_lhau s rt d ra)
  case lwz => exact runs_loadTo_plain h (exec_lwz s rt d ra)
  case lwzu => exact runs_loadTo_plain h (exec_lwzu s rt d ra)
  case lbzx => exact runs_loadTo_plain h (exec_lbzx s rt ra rb)
  case lbzux => exact runs_loadTo_plain h (exec_lbzux s rt ra rb)
  case lhzx => exact runs_loadTo_plain h (exec_lhzx s rt ra rb)
  case lhzux => exact runs_loadTo_plain h (exec_lhzux s rt ra rb)
  case lhax => exact runs_loadTo_plain h (exec_lhax s rt ra rb)
  case lhaux => exact runs_loadTo_plain h (exec_lhaux s rt ra rb)
  case lhbrx => exact runs_loadTo_plain h (exec_lhbrx s rt ra rb) (reversed_endian p.e _ 2)
  case lwzx => exact runs_loadTo_plain h (exec_lwzx s rt ra rb)
  case lwzux => exact runs_loadTo_plain h (exec_lwzux s rt ra rb)
  case lwbrx => exact runs_loadTo_plain h (exec_lwbrx s rt ra rb) (reversed_endian p.e _ 4)

/-- Settles O33: each instruction is the shared store of its width, whose element stands in memory in the order of the page, or
in the other one where the instruction reverses its bytes first. -/
theorem stores : Obligations.Stores := by
  intro s rs ra rb d p wf ed ex
  have byte := bytesNat_storeByte (s := s) rs
  have half := bytesNat_storeHalf (s := s) rs
  have word := bytesNat_storeWord (s := s) rs
  have straight : Bool.xor p.e false = p.e := Bool.xor_false p.e
  have swapped : Bool.xor p.e true = !p.e := Bool.xor_true p.e
  refine ⟨fun h => ⟨?stb, ?stbu⟩, fun h => ⟨?sth, ?sthu⟩, fun h => ⟨?stw, ?stwu⟩, fun h => ⟨?stbx, ?stbux⟩,
    fun h => ⟨?sthx, ?sthux, ?sthbrx⟩, fun h => ⟨?stwx, ?stwux, ?stwbrx⟩⟩
  case stb => exact runs_storeFrom_plain wf h byte straight (exec_stb s rs d ra)
  case stbu => exact runs_storeFrom_plain wf h byte straight (exec_stbu s rs d ra)
  case sth => exact runs_storeFrom_plain wf h half straight (exec_sth s rs d ra)
  case sthu => exact runs_storeFrom_plain wf h half straight (exec_sthu s rs d ra)
  case stw => exact runs_storeFrom_plain wf h word straight (exec_stw s rs d ra)
  case stwu => exact runs_storeFrom_plain wf h word straight (exec_stwu s rs d ra)
  case stbx => exact runs_storeFrom_plain wf h byte straight (exec_stbx s rs ra rb)
  case stbux => exact runs_storeFrom_plain wf h byte straight (exec_stbux s rs ra rb)
  case sthx => exact runs_storeFrom_plain wf h half straight (exec_sthx s rs ra rb)
  case sthux => exact runs_storeFrom_plain wf h half straight (exec_sthux s rs ra rb)
  case sthbrx => exact runs_storeFrom_plain wf h half swapped (exec_sthbrx s rs ra rb)
  case stwx => exact runs_storeFrom_plain wf h word straight (exec_stwx s rs ra rb)
  case stwux => exact runs_storeFrom_plain wf h word straight (exec_stwux s rs ra rb)
  case stwbrx => exact runs_storeFrom_plain wf h word swapped (exec_stwbrx s rs ra rb)

end Sys2Proof.Machine
end

section
/-! PROOF. The loads and stores of multiple registers (O35). -/

namespace Sys2Proof.Machine

/-! The registers from one to GPR31 (41_base_loadstore.md R750, R751). -/

theorem gprsFrom_length (r : Gpr) : (gprsFrom r).length = 32 - r.toNat := by rw [gprsFrom, List.length_map, List.length_range]

theorem gprsFrom_getElem_toNat (r : Gpr) (k : Nat) (h : k < (gprsFrom r).length) :
    ((gprsFrom r)[k]).toNat = r.toNat + k := by
  rw [gprsFrom_length] at h
  simp only [gprsFrom, List.getElem_map, List.getElem_range, BitVec.toNat_add, BitVec.toNat_ofNat]
  omega

/-- A list of the registers from `r` on, one after the other, is that of the model. -/
theorem eq_gprsFrom {l : List Gpr} {r : Gpr} (length : l.length = 32 - r.toNat)
    (ascending : ∀ k, (h : k < l.length) → (l[k]).toNat = r.toNat + k) : l = gprsFrom r :=
  List.ext_getElem (length.trans (gprsFrom_length r).symm) fun k h1 h2 =>
    BitVec.eq_of_toNat_eq ((ascending k h1).trans (gprsFrom_getElem_toNat r k h2).symm)

theorem gprsFrom_nodup (r : Gpr) : (gprsFrom r).Nodup := by
  refine List.nodup_iff_injective_get.mpr fun j k same => Fin.ext ?_
  have numbers : r.toNat + j = r.toNat + k := by
    rw [← gprsFrom_getElem_toNat r j j.isLt, ← gprsFrom_getElem_toNat r k k.isLt]
    exact congrArg BitVec.toNat same
  exact Nat.add_left_cancel numbers

section
variable {s : State} {i : Instr} {ea : Word} {p : TlbEntry} {l : List Gpr}

theorem runs_loadMultiple_plain (distinct : l.Nodup) (hi : exec i s = s.loadMultiple ea (intoGprs l))
    (on : ea.toNat % 4 = 0) (h : PlainAccess s ea (4 * l.length) .load p) :
    Runs i s (LoadMultipleResult l.length p.e (p.page ea).ra ea l s) := by
  rw [Runs, hi]
  exact loadMultiple_gprs l distinct (aligned_of_mod on) h

theorem runs_storeMultiple_plain (few : l.length ≤ 32) (hi : exec i s = s.storeMultiple ea (s.fromGprs l))
    (on : ea.toNat % 4 = 0) (wf : s.mem.wf = true) (h : PlainAccess s ea (4 * l.length) .store p) :
    Runs i s (StoreMultipleResult p.e (p.page ea).ra (l.map fun q => (s.gprW q).toNat) ea s) := by
  have length : (s.fromGprs l).length = l.length := List.length_map _
  have values : (s.fromGprs l).map BitVec.toNat = l.map fun q => (s.gprW q).toNat := List.map_map
  rw [Runs, hi, ← values]
  exact storeMultiple_plain (s.fromGprs l) (length ▸ few) (aligned_of_mod on) wf (length.symm ▸ h)

end

/-- Settles O35: each instruction is the shared load or store of the words of the registers from the one named on. -/
theorem multiples : Obligations.Multiples := by
  rintro s r ra d d8 p l ⟨length, ascending⟩ ed e8
  obtain rfl : l = gprsFrom r := eq_gprsFrom length ascending
  have few : (gprsFrom r).length ≤ 32 := length ▸ Nat.sub_le 32 r.toNat
  refine ⟨?lmw, ?eLmw, ?stmw, ?eStmw⟩
  case lmw => exact runs_loadMultiple_plain (gprsFrom_nodup r) (exec_lmw s r d ra)
  case eLmw => exact runs_loadMultiple_plain (gprsFrom_nodup r) (exec_eLmw s r d8 ra)
  case stmw => exact runs_storeMultiple_plain few (exec_stmw s r d ra)
  case eStmw => exact runs_storeMultiple_plain few (exec_eStmw s r d8 ra)

end Sys2Proof.Machine
end

section
/-! PROOF. The branches of Book E and VLE (O19). -/

namespace Sys2Proof.Machine

/-! The branch conditions and targets (42_base_branch_cr_system.md R800 to R803; 44_vle.md R1088, R2742). -/

/-- BranchCond with the bits of BO numbered as the manual numbers them. -/
theorem boTaken_eq (bo : BitVec 5) (bi : CrBit) (cr ctr : Word) :
    boTaken bo bi cr ctr =
      ((bo.getMsbD 2 || ((ctr != 0#32) != bo.getMsbD 3)) && (bo.getMsbD 0 || (crBit cr bi == bo.getMsbD 1))) := by
  rw [Bool.bne_eq_xor]
  rfl

/-- A VLE branch names a bit of the first fields of CR in fewer bits. -/
theorem crBit_zero_append {k m : Nat} (cr : Word) (bi : BitVec m) (h : k + m = 5) :
    crBit cr ((0#k ++ bi).cast h) = cr.getMsbD bi.toNat := by
  rw [crBit, BitVec.toNat_cast, BitVec.toNat_append, BitVec.toNat_ofNat, Nat.zero_mod, Nat.zero_shiftLeft, Nat.zero_or]

/-- CTR after a decrement is nonzero exactly if it was not 1. -/
theorem sub_one_bne_zero (ctr : Word) : (ctr - 1#32 != 0#32) = decide (ctr ≠ 1#32) := by
  rw [Bool.eq_iff_iff, bne_iff_ne, decide_eq_true_iff]
  exact not_congr sub_eq_zero

section
variable (s : State)

theorem relTarget_eq (aa : Bool) (d : Word) : s.relTarget aa d = (if aa then 0#32 else s.pc) + d := by
  cases aa with
  | true => exact (BitVec.zero_add d).symm
  | false => rfl

/-- `e_bc` under a CR bit: BO32 is 0 or 1. -/
theorem brEBc_taken_of_cr {bo32 : BitVec 2} (bi32 : BitVec 4) (bd15 : BitVec 15) (h : bo32.getLsbD 1 = false) :
    (s.brEBc bo32 bi32 bd15).taken = (s.cr.getMsbD bi32.toNat == bo32.getLsbD 0) := by
  simp only [State.brEBc, h, Bool.false_eq_true, if_false]
  rw [← crBit_zero_append s.cr bi32 rfl]
  rfl

/-- `e_bc` under CTR: BO32 is 2 or 3. -/
theorem brEBc_taken_of_ctr {bo32 : BitVec 2} (bi32 : BitVec 4) (bd15 : BitVec 15) (h : bo32.getLsbD 1 = true) :
    (s.brEBc bo32 bi32 bd15).taken = Bool.xor (decide (s.ctr ≠ 1#32)) (bo32.getLsbD 0) := by
  simp only [State.brEBc, h, if_true, sub_one_bne_zero]

end

section
variable {s : State} {i : Instr} {len : Nat} {lk : Bool}

/-- An instruction that branches, by what it decides. -/
theorem runs_branch {r : Br} {taken : Bool} {target ctr : Word} (h : exec i s = .next (s.branch len lk r))
    (htaken : r.taken = taken := by rfl) (htarget : r.target = target := by rfl) (hctr : r.ctr = ctr := by rfl) :
    Runs i s (BranchResult len lk taken target ctr s) := by
  subst htaken htarget hctr
  exact ⟨_, h, branch_spec s len lk r⟩

end

/-- Settles O19: each form is the shared branch on what it decides, which is read off BO or the bits of its VLE form. -/
theorem branches : Obligations.Branches := by
  intro s li bo bi bd aa lk bd8 bo16 bi16 bd24 bi32 bd15 ctr taken
  have hbo : boTaken bo bi s.cr (boCtr bo s.ctr) = taken := boTaken_eq bo bi s.cr ctr
  refine ⟨?b, ?bc, ?bclr, ?bcctr, ?seB, ?seBc, ?seBlr, ?seBctr, ?eB, ?eBcFalse, ?eBcTrue, ?eBcNonzero, ?eBcZero⟩
  case b => exact runs_branch (exec_b s li aa lk) (htarget := relTarget_eq s aa _)
  case bc => exact runs_branch (exec_bc s bo bi bd aa lk) hbo (relTarget_eq s aa _)
  case bclr => exact runs_branch (exec_bclr s bo bi lk) hbo
  case bcctr => exact runs_branch (exec_bcctr s bo bi lk) hbo
  case seB => exact runs_branch (exec_seB s bd8 lk)
  case seBc => exact runs_branch (exec_seBc s bo16 bi16 bd8) (congrArg (· == bo16) (crBit_zero_append s.cr bi16 rfl))
  case seBlr => exact runs_branch (exec_seBlr s lk)
  case seBctr => exact runs_branch (exec_seBctr s lk)
  case eB => exact runs_branch (exec_eB s bd24 lk)
  case eBcFalse =>
    exact runs_branch (exec_eBc s 0#2 bi32 bd15 lk) ((brEBc_taken_of_cr s bi32 bd15 rfl).trans (beq_false _))
  case eBcTrue =>
    exact runs_branch (exec_eBc s 1#2 bi32 bd15 lk) ((brEBc_taken_of_cr s bi32 bd15 rfl).trans (beq_true _))
  case eBcNonzero =>
    exact runs_branch (exec_eBc s 2#2 bi32 bd15 lk) ((brEBc_taken_of_ctr s bi32 bd15 rfl).trans (Bool.xor_false _))
  case eBcZero =>
    exact runs_branch (exec_eBc s 3#2 bi32 bd15 lk) <| by
      rw [brEBc_taken_of_ctr s bi32 bd15 rfl, decide_not]
      exact (Bool.xor_true _).trans (Bool.not_not _)

end Sys2Proof.Machine
end

section
/-! PROOF. The trap instructions (O20). -/

namespace Sys2Proof.Machine

/-- An instruction that traps under a condition and goes on otherwise. -/
theorem runs_trap {s : State} {i : Instr} {c : Bool}
    (h : exec i s = if c then .next (raiseTrap s) else .next (s.advance 4)) :
    (c = false → Runs i s (OnlyPc 4 s)) ∧ (c = true → Runs i s (TakesProgram 0x02000000#32 s)) := by
  cases c with
  | false => exact ⟨fun _ => runs_advance h, nofun⟩
  | true => exact ⟨nofun, fun _ => ⟨_, h, raiseTrap_spec s⟩⟩

/-- Settles O20: the condition of the statement is that of the model (42_base_branch_cr_system.md R830), bit by bit of TO. -/
theorem traps : Obligations.Traps := by
  intro s tm ra rb i cond a
  have hcond (x y : Word) : trapCond tm x y = cond x y := rfl
  obtain ⟨twOn, twTrap⟩ := runs_trap (exec_tw s tm ra rb)
  obtain ⟨twiOn, twiTrap⟩ := runs_trap (exec_twi s tm ra i)
  simp only [hcond] at twOn twTrap twiOn twiTrap
  exact ⟨twOn, twTrap, twiOn, twiTrap⟩

end Sys2Proof.Machine
end

section
/-! PROOF. The moves of the MSR in supervisor mode (O25). -/

namespace Sys2Proof.Machine

/-- A word with the bits under a mask replaced all alike, as cleared and then set. -/
theorem putBits_eq_clear_or (w m : Word) (b : Bool) : putBits w m b = (w &&& ~~~m) ||| (if b then m else 0#32) := by
  cases b with
  | false => exact BitVec.or_zero.symm
  | true =>
    change w ||| m = (w &&& ~~~m) ||| m
    ext n
    simp [Bool.or_and_distrib_right]

section
variable {s : State} {i : Instr}

/-- An instruction that changes the MSR alone and goes on. -/
theorem runs_msr {v v' : Word} {owed : List (SyncReg × Word)}
    (h : exec i s = .next ({ s with msr := v, sync := { s.sync with old := owed ++ s.sync.old } }.advance 4))
    (hv : v = v' := by rfl) : Runs i s (MsrResult v' owed s) := by
  subst hv
  exact ⟨_, h, rfl, advance_spec _ 4⟩

end

/-- Settles O25: in supervisor mode each move has its effect, and that of `wrtee` and `wrteei` on MSR[EE] is to put a bit. -/
theorem msrInstructions : Obligations.MsrInstructions := by
  intro s r b supervisor
  refine ⟨?mfmsr, ?mtmsr, ?wrtee, ?wrteei⟩
  case mfmsr => exact ⟨_, (exec_mfmsr s r).trans (privileged_supervisor supervisor _), setGprW_advance_spec s r s.msr⟩
  case mtmsr => exact runs_msr ((exec_mtmsr s r).trans (privileged_supervisor supervisor _))
  case wrtee =>
    have bit : s.gprW r &&& 0x8000#32 = if (s.gprW r).getLsbD 15 then 0x8000#32 else 0#32 :=
      BitVec.and_twoPow (s.gprW r) 15
    rw [bit, ← putBits_eq_clear_or]
    exact runs_msr ((exec_wrtee s r).trans (privileged_supervisor supervisor _))
  case wrteei =>
    rw [← putBits_eq_clear_or]
    exact runs_msr ((exec_wrteei s b).trans (privileged_supervisor supervisor _))

end Sys2Proof.Machine
end

section
/-! PROOF. `wait` and the instructions that notify the debugger (O30). -/

namespace Sys2Proof.Machine

theorem and_twoPow_eq_zero_iff (w : Word) {n : Nat} (inside : n < 32) :
    w &&& BitVec.twoPow 32 n = 0#32 ↔ w.getLsbD n = false := by
  have bit : (BitVec.twoPow 32 n).getLsbD n = true := by simp [inside]
  have nonzero : BitVec.twoPow 32 n ≠ 0#32 := fun zero => by simp [zero] at bit
  rw [BitVec.and_twoPow]
  cases w.getLsbD n with
  | false => exact iff_of_true rfl rfl
  | true => exact iff_of_false nonzero nofun

section
variable (s : State)

theorem onlyPc_zero_refl : OnlyPc 0 s s := by
  obtain ⟨-, rest⟩ := advance_spec s 0
  exact ⟨(BitVec.add_zero s.pc).symm, rest⟩

/-- Emptying the store buffer leaves the power state, in which `wait` then records that the core waits
(43_apu_misc.md R907). -/
theorem storesDrained_wait :
    StoresDrained false { s with pwr := { s.pwr with waiting := true } }
      ({ s.flushBuffers with pwr := { s.flushBuffers.pwr with waiting := true } }.advance 4) := by
  refine ⟨?_, flushBuffers_reported s⟩
  conv_rhs => rw [flushBuffers_rest]
  exact advance_spec _ 4

/-- A debugger notify halt of status bits `bits` is recorded while external debug mode is on
(64_external_debug_psu.md R2263). -/
def State.haltNoted (bits : Word) : State :=
  { s with dbg := { s.dbg with edbsr0 := if s.dbg.dbcr0.getLsbD 31 then s.dbg.edbsr0 ||| bits else s.dbg.edbsr0 } }

/-- The status bits of a debugger notify halt: DNH, with VLES for a VLE form (61_debug.md R2230). -/
def dnhBits (vle : Bool) : Word := if vle then 0x20000010#32 else 0x20000000#32

end

section
variable {s : State} {i : Instr} {len : Nat} {vle : Bool} {dui : BitVec 5} {duis : BitVec 10}

/-- Enabled, the instruction notes the event, and then it goes on where the event is masked and halts otherwise. -/
theorem notifyHalt_enabled (enabled : s.dbg.edbcr0.getLsbD 30 = true) (once : s.pins.enOnce = true) :
    s.notifyHalt len vle dui duis =
      if s.dbg.edbsrmsk0.getLsbD 29 then (s.haltNoted (dnhBits vle)).advance len
      else (s.haltNoted (dnhBits vle)).enterHalt := by
  have legal : ¬(s.dbg.edbcr0 &&& 0x40000000#32 = 0#32 ∨ s.pins.enOnce = false) := by
    rw [show (0x40000000#32 : Word) = BitVec.twoPow 32 30 from rfl, and_twoPow_eq_zero_iff _ (by decide), enabled, once]
    simp
  have unmasked : s.dbg.edbsrmsk0 &&& 0x20000000#32 = 0#32 ↔ s.dbg.edbsrmsk0.getLsbD 29 = false :=
    and_twoPow_eq_zero_iff s.dbg.edbsrmsk0 (n := 29) (by decide)
  have noted : (if s.dbg.edm then { s with dbg := { s.dbg with edbsr0 := s.dbg.edbsr0 ||| dnhBits vle } } else s) =
      s.haltNoted (dnhBits vle) := by
    rw [State.haltNoted, Debug.edm]
    split <;> rfl
  rw [State.notifyHalt, if_neg legal, ← noted]
  simp only [unmasked]
  cases s.dbg.edbsrmsk0.getLsbD 29 <;> rfl

theorem runs_notifyHalt (hi : exec i s = .next (s.notifyHalt len vle dui duis))
    (enabled : s.dbg.edbcr0.getLsbD 30 = true) (once : s.pins.enOnce = true) :
    (s.dbg.edbsrmsk0.getLsbD 29 = true → Runs i s (OnlyPc len (s.haltNoted (dnhBits vle)))) ∧
      (s.dbg.edbsrmsk0.getLsbD 29 = false → Runs i s (OnlyPc 0 (s.haltNoted (dnhBits vle)).enterHalt)) := by
  rw [notifyHalt_enabled enabled once] at hi
  refine ⟨fun masked => ?_, fun unmasked => ?_⟩
  · rw [if_pos masked] at hi
    exact ⟨_, hi, advance_spec _ len⟩
  · rw [if_neg (Bool.eq_false_iff.mp unmasked)] at hi
    exact ⟨_, hi, onlyPc_zero_refl _⟩

end

/-- Settles O30: `wait` is the emptying of the store buffer that `mbar` does, and the three forms of debugger notify halt are
one operation. -/
theorem waitAndHalt : Obligations.WaitAndHalt := by
  intro s k n
  refine ⟨⟨_, exec_wait s, storesDrained_wait s⟩, fun enabled once => ?notify⟩
  simp only [List.forall_mem_cons, List.not_mem_nil, IsEmpty.forall_iff, implies_true, and_true]
  refine ⟨?dnh, ?eDnh, ?seDnh⟩
  case dnh => exact runs_notifyHalt (exec_dnh s k n) enabled once
  case eDnh => exact runs_notifyHalt (exec_eDnh s k n) enabled once
  case seDnh => exact runs_notifyHalt (exec_seDnh s) enabled once

end Sys2Proof.Machine
end

section
/-! PROOF. The volatile context loads and stores (O36). -/

namespace Sys2Proof.Machine

section
variable {s : State} {i : Instr} {ea : Word} {p : TlbEntry} {puts : List (State → Word → State)}

theorem wordsAt_eq_map (e : Bool) (ra : Word) (n : Nat) :
    s.wordsAt e ra n = (List.range n).map fun k => s.wordAt e (ra + BitVec.ofNat 32 (4 * k)) := by
  refine List.ext_getElem (by simp) fun k inside _ => ?_
  rw [List.getElem_map, List.getElem_range, ← wordsAt_getD e ra n k (wordsAt_length (s := s) e ra n ▸ inside),
    List.getD_eq_getElem _ _ inside]

theorem putAll_mem (quiet : ∀ put ∈ puts, Quiet put) (ws : List Word) (s : State) :
    (putAll puts ws s).mem = s.mem := by
  induction puts generalizing ws s with
  | nil => rfl
  | cons put puts ih =>
    cases ws with
    | nil => rfl
    | cons w ws =>
      obtain ⟨quietPut, quietPuts⟩ := List.forall_mem_cons.mp quiet
      obtain ⟨-, -, -, -, mem, -⟩ := quietPut.2 s w
      exact (ih quietPuts ws (put s w)).trans mem

/-- A load of several words into registers other than the GPRs: nothing changes but the registers that take the words. -/
theorem runs_loadMultiple_puts (quiet : ∀ put ∈ puts, Quiet put) (hi : exec i s = s.loadMultiple ea puts)
    (on : ea.toNat % 4 = 0) (h : PlainAccess s ea (4 * puts.length) .load p) :
    Runs i s (LoadMultipleResult puts.length p.e (p.page ea).ra ea []
      (putAll puts ((List.range puts.length).map fun k => s.wordAt p.e ((p.page ea).ra + BitVec.ofNat 32 (4 * k))) s)) := by
  rw [← wordsAt_eq_map]
  obtain ⟨t, load, records⟩ := loadMultiple_plain puts quiet (aligned_of_mod on) h
  have mem := putAll_mem quiet (s.wordsAt p.e (p.page ea).ra puts.length) s
  generalize putAll puts (s.wordsAt p.e (p.page ea).ra puts.length) s = u at records mem ⊢
  rw [← mem] at records
  refine ⟨_, hi.trans load, nofun, fun q _ => ?_, ?_, ?_, ?_, ?_, (SameSystemButMem.of_records records).regs rfl, fun a => ?_⟩
  · exact gprD_of_gpr records.gpr q
  · rw [Past, records.rest]; rfl
  · rw [records.rest]; rfl
  · rw [records.rest]; rfl
  · exact (SameLinks.of_records records : SameLinks u t)
  · rw [advance_mem, records.mem]

theorem runs_storeMultiple_words {l : List Word} (hi : exec i s = s.storeMultiple ea l) (on : ea.toNat % 4 = 0)
    (h : PlainAccess s ea (4 * l.length) .store p) (wf : s.mem.wf = true) (few : l.length ≤ 32 := by simp) :
    Runs i s (StoreMultipleResult p.e (p.page ea).ra (l.map BitVec.toNat) ea s) := by
  rw [Runs, hi]
  exact storeMultiple_plain l few (aligned_of_mod on) wf h

end

section
variable {s : State} {i : Instr} {ra : Gpr} {d8 : BitVec 8} {p : TlbEntry}

/-- CR, LR, CTR and XER take words without a change of what an access looks at. -/
theorem quiet_sprs : ∀ put ∈ ([fun s w => { s with cr := w }, fun s w => { s with lr := w }, fun s w => { s with ctr := w },
    fun s w => { s with xer := w &&& xerMask }] : List (State → Word → State)), Quiet put := by
  simp only [List.forall_mem_cons, List.not_mem_nil, IsEmpty.forall_iff, implies_true, and_true]
  refine ⟨?cr, ?lr, ?ctr, ?xer⟩
  all_goals exact ⟨fun _ _ _ _ _ => rfl, fun _ _ => ⟨rfl, rfl, rfl, rfl, rfl, rfl, rfl⟩⟩

theorem quiet_ints (f : IntRegs → Word → IntRegs) : Quiet fun s w => { s with ints := f s.ints w } :=
  ⟨fun _ _ _ _ _ => rfl, fun _ _ => ⟨rfl, rfl, rfl, rfl, rfl, rfl, rfl⟩⟩

/-- The load of a pair of save/restore registers, in supervisor mode; `f` and `g` put the two words. -/
theorem runs_loadPair (f g : IntRegs → Word → IntRegs)
    (hi : exec i s = privileged s fun s =>
      s.loadMultiple (s.eaD8 ra d8) [fun s w => { s with ints := f s.ints w }, fun s w => { s with ints := g s.ints w }])
    (on : (s.eaD8 ra d8).toNat % 4 = 0) (supervisor : s.msr.getLsbD 14 = false)
    (h : PlainAccess s (s.eaD8 ra d8) 8 .load p) :
    let a := (p.page (s.eaD8 ra d8)).ra
    Runs i s (LoadMultipleResult 2 p.e a (s.eaD8 ra d8) []
      { s with ints := g (f s.ints (s.wordAt p.e (a + 0#32))) (s.wordAt p.e (a + 4#32)) }) := by
  refine runs_loadMultiple_puts (puts := [_, _]) ?_ (hi.trans (privileged_supervisor supervisor _)) on h
  exact List.forall_mem_cons.mpr ⟨quiet_ints f, List.forall_mem_singleton.mpr (quiet_ints g)⟩

theorem runs_storePair {v w : State → Word}
    (hi : exec i s = privileged s fun s => s.storeMultiple (s.eaD8 ra d8) [v s, w s])
    (on : (s.eaD8 ra d8).toNat % 4 = 0) (supervisor : s.msr.getLsbD 14 = false)
    (h : PlainAccess s (s.eaD8 ra d8) 8 .store p) (wf : s.mem.wf = true) :
    Runs i s (StoreMultipleResult p.e (p.page (s.eaD8 ra d8)).ra [(v s).toNat, (w s).toNat] (s.eaD8 ra d8) s) :=
  runs_storeMultiple_words (l := [v s, w s]) (hi.trans (privileged_supervisor supervisor _)) on h wf

end

/-- Settles O36: each form is the shared load or store of several words, the privileged ones once supervisor mode is found. -/
theorem volatileContext : Obligations.VolatileContext := by
  intro s ra d8 p ea user gprs on
  refine ⟨?lgpr, ?sgpr, ?lspr, ?sspr, ?lsrr, ?lcsrr, ?ldsrr, ?lmcsrr, ?ssrr, ?scsrr, ?sdsrr, ?smcsrr⟩
  case lgpr => exact runs_loadMultiple_plain (l := gprs) (by decide) (exec_eLmvgprw s d8 ra) on
  case sgpr => exact fun h wf => runs_storeMultiple_plain (l := gprs) (by decide) (exec_eStmvgprw s d8 ra) on wf h
  case lspr => exact runs_loadMultiple_puts quiet_sprs (exec_eLmvsprw s d8 ra) on
  case sspr => exact runs_storeMultiple_words (l := [s.cr, s.lr, s.ctr, s.xer]) (exec_eStmvsprw s d8 ra) on
  case lsrr =>
    exact runs_loadPair (fun r w => { r with srr0 := w }) (fun r w => { r with srr1 := w }) (exec_eLmvsrrw s d8 ra) on
  case lcsrr =>
    exact runs_loadPair (fun r w => { r with csrr0 := w }) (fun r w => { r with csrr1 := w }) (exec_eLmvcsrrw s d8 ra) on
  case ldsrr =>
    exact runs_loadPair (fun r w => { r with dsrr0 := w }) (fun r w => { r with dsrr1 := w }) (exec_eLmvdsrrw s d8 ra) on
  case lmcsrr =>
    exact runs_loadPair (fun r w => { r with mcsrr0 := w }) (fun r w => { r with mcsrr1 := w }) (exec_eLmvmcsrrw s d8 ra) on
  case ssrr => exact runs_storePair (exec_eStmvsrrw s d8 ra) on
  case scsrr => exact runs_storePair (exec_eStmvcsrrw s d8 ra) on
  case sdsrr => exact runs_storePair (exec_eStmvdsrrw s d8 ra) on
  case smcsrr => exact runs_storePair (exec_eStmvmcsrrw s d8 ra) on

end Sys2Proof.Machine
end

section
/-! PROOF. The SCI8 immediate, and the arithmetic instructions of VLE (O15). -/

namespace Sys2Proof.Machine

/-! The SCI8 immediate (44_vle.md R1022). -/

section
variable {f : Bool} {scl : BitVec 2} {ui8 : BitVec 8} {v w : Word}

theorem word_eq_of_bytes (h : ∀ j, j < 4 → v.extractLsb' (8 * j) 8 = w.extractLsb' (8 * j) 8) : v = w := by
  refine BitVec.eq_of_getLsbD_eq fun i hi => ?_
  have bit := congrArg (BitVec.getLsbD · (i % 8)) (h (i / 8) (by omega))
  simpa only [BitVec.getLsbD_extractLsb', Nat.div_add_mod, Nat.mod_lt i (by decide : 0 < 8), decide_true,
    Bool.true_and] using bit

/-- A byte shifted to the place of byte `k` of a word stands there, and the other bytes are zero. -/
theorem extract_byte_shiftLeft (x : BitVec 8) (k j : Nat) (hj : j < 4) :
    (x.zeroExtend 32 <<< (8 * k)).extractLsb' (8 * j) 8 = if j = k then x else 0#8 := by
  refine BitVec.eq_of_getLsbD_eq fun i hi => ?_
  rw [BitVec.getLsbD_extractLsb', BitVec.getLsbD_shiftLeft, BitVec.zeroExtend, BitVec.getLsbD_setWidth, decide_eq_true hi,
    decide_eq_true (by omega : 8 * j + i < 32)]
  rcases lt_trichotomy j k with before | rfl | after
  · rw [if_neg (Nat.ne_of_lt before), decide_eq_true (by omega : 8 * j + i < 8 * k), BitVec.getLsbD_zero]
    rfl
  · rw [if_pos rfl, Nat.add_sub_cancel_left, decide_eq_true (by omega : i < 32),
      decide_eq_false (Nat.not_lt.mpr (Nat.le_add_right (8 * j) i))]
    rfl
  · rw [if_neg (Nat.ne_of_gt after), BitVec.getLsbD_of_ge x _ (by omega), BitVec.getLsbD_zero]
    simp only [Bool.and_false]

theorem extract_byte_not (w : Word) (j : Nat) (hj : j < 4) : (~~~w).extractLsb' (8 * j) 8 = ~~~w.extractLsb' (8 * j) 8 := by
  refine BitVec.eq_of_getLsbD_eq fun i hi => ?_
  rw [BitVec.getLsbD_not, BitVec.getLsbD_extractLsb', BitVec.getLsbD_extractLsb', BitVec.getLsbD_not, decide_eq_true hi,
    decide_eq_true (by omega : 8 * j + i < 32), Bool.true_and, Bool.true_and, Bool.true_and, Bool.true_and]

theorem sci8_isSci8 (f : Bool) (scl : BitVec 2) (ui8 : BitVec 8) : IsSci8 f scl ui8 (sci8 f scl ui8) := by
  intro j hj
  have byte := extract_byte_shiftLeft ui8 scl.toNat j hj
  have hole := extract_byte_shiftLeft 0xFF#8 scl.toNat j hj
  cases f with
  | false => exact byte
  | true =>
    rw [sci8, if_pos rfl, BitVec.extractLsb'_or, byte, extract_byte_not _ j hj]
    refine (congrArg (fun m => (if j = scl.toNat then ui8 else 0#8) ||| ~~~m) hole).trans ?_
    split
    case isTrue => exact BitVec.or_zero
    case isFalse => rfl

/-- The four bytes fix the word. -/
theorem IsSci8.eq_sci8 (h : IsSci8 f scl ui8 v) : v = sci8 f scl ui8 :=
  word_eq_of_bytes fun j hj => (h j hj).trans (sci8_isSci8 f scl ui8 j hj).symm

end

theorem loW_mulSigned_sext16 (a : Word) (i : BitVec 16) :
    loW (mulSigned a (sext16 i)) = BitVec.ofInt 32 (a.toInt * i.toInt) := by
  rw [loW_mulSigned_eq_ofInt, sext16, BitVec.toInt_signExtend_of_le (by decide)]

/-- Settles O15: each instruction writes the sum, the difference or the low word of the product; a word that is the SCI8
immediate of the fields is the one the model computes. -/
theorem vleArithmetic : Obligations.VleArithmetic := by
  intro s rx ry fill scl ui8 i oimm rc x y
  refine ⟨runs_result rfl, runs_result rfl, runs_result rfl, ?seMullw, ?seNeg, runs_result rfl, runs_result rfl,
    runs_result rfl, fun v hv => ?sci8, runs_result rfl, runs_result rfl, ?eMull2i⟩
  case seMullw => exact runs_result rfl (loW_mulSigned_eq_ofInt x y)
  case seNeg => exact runs_result rfl (BitVec.zero_sub x).symm
  case eMull2i => exact runs_result rfl (loW_mulSigned_sext16 x i)
  case sci8 =>
    obtain rfl := hv.eq_sci8
    refine ⟨runs_result rfl, ?eAddic, ?eSubfic, ?eMulli⟩
    case eAddic =>
      exact runs_sum (carry := true) (oe := false) rfl (sum_without_carry y _)
        (congrArg some (carry_out_without_carry y _)) rfl
    case eSubfic =>
      exact runs_sum (carry := true) (oe := false) rfl (not_add_one y _) (congrArg some (carry_out_not_one y _)) rfl
    case eMulli => exact runs_result rfl (loW_mulSigned_eq_ofInt y _)

end Sys2Proof.Machine
end

section
/-! PROOF. The logical instructions of VLE (O16). -/

namespace Sys2Proof.Machine

/-! The masks of the one-bit, mask and extend forms (44_vle.md R1071 to R1075). -/

theorem bitMask_eq_twoPow (n : BitVec 5) : bitMask n = BitVec.twoPow 32 (31 - n.toNat) := by
  have hn := n.isLt
  have top : 0x80000000#32 = BitVec.twoPow 32 31 := rfl
  refine BitVec.eq_of_getLsbD_eq fun i hi => ?_
  rw [bitMask, top, BitVec.getLsbD_ushiftRight, BitVec.getLsbD_twoPow, BitVec.getLsbD_twoPow, ← Bool.decide_and,
    ← Bool.decide_and, decide_eq_decide]
  omega

/-- The mask of `n` low ones. -/
theorem lowOnes_eq (n : Nat) (h : n < 32) : (1#32 <<< n) - 1#32 = BitVec.ofNat 32 (2 ^ n - 1) := by
  have power : 1#32 <<< n = BitVec.ofNat 32 (2 ^ n) := by
    apply BitVec.eq_of_toNat_eq
    rw [BitVec.toNat_ofNat, Nat.mod_eq_of_lt (Nat.pow_lt_pow_right (by decide) h)]
    exact BitVec.toNat_twoPow_of_lt h
  rw [power, BitVec.ofNat_sub_ofNat_of_le _ _ (by decide) Nat.one_le_two_pow]

theorem and_lowOnes (w : Word) (n : Nat) (h : n ≤ 32) :
    w &&& BitVec.ofNat 32 (2 ^ n - 1) = (w.extractLsb' 0 n).zeroExtend 32 := by
  have small : 2 ^ n - 1 < 2 ^ 32 :=
    (Nat.sub_lt (Nat.two_pow_pos n) Nat.one_pos).trans_le (Nat.pow_le_pow_right (by decide) h)
  apply BitVec.eq_of_toNat_eq
  rw [BitVec.toNat_and, BitVec.toNat_ofNat, Nat.mod_eq_of_lt small, Nat.and_two_pow_sub_one_eq_mod, BitVec.zeroExtend,
    BitVec.toNat_setWidth_of_le h, BitVec.extractLsb'_toNat, Nat.shiftRight_zero]

/-- Settles O16: each instruction writes its word as the model computes it, with the masks in the terms of the statement. -/
theorem vleLogic : Obligations.VleLogic := by
  intro s rx ry fill scl ui8 i ui5 rc x y
  have bit := bitMask_eq_twoPow ui5
  refine ⟨runs_result rfl, runs_result rfl, runs_result rfl, runs_result rfl, runs_result rfl, ?seBclri, ?seBgeni, ?seBseti,
    ?seBmaski, ?seExtzb, runs_result rfl, ?seExtzh, runs_result rfl, fun v hv => ?sci8, runs_result rfl, runs_result rfl,
    runs_result rfl, runs_result rfl⟩
  case seBclri => exact runs_result rfl (congrArg (x &&& ~~~·) bit)
  case seBgeni => exact runs_result rfl bit
  case seBseti => exact runs_result rfl (congrArg (x ||| ·) bit)
  case seBmaski =>
    refine runs_result rfl ?_
    split
    case isTrue => rfl
    case isFalse => exact lowOnes_eq ui5.toNat ui5.isLt
  case seExtzb => exact runs_result rfl (and_lowOnes x 8 (by decide))
  case seExtzh => exact runs_result rfl (and_lowOnes x 16 (by decide))
  case sci8 =>
    obtain rfl := hv.eq_sci8
    exact ⟨runs_result rfl, runs_result rfl, runs_result rfl⟩

end Sys2Proof.Machine
end

section
/-! PROOF. The moves, immediate loads, rotates and shifts of VLE (O17). -/

namespace Sys2Proof.Machine

/-- Settles O17: the moves as the model computes them, the shifts by their numbers, the rotates bit by bit; `se_mtlr` and
`se_mtctr` write their register and go on. -/
theorem vleMovesShifts : Obligations.VleMovesShifts := by
  intro s rx ry rb ui7 li20 ui sh mb me rc d x n
  have amount : shiftAmount (s.gprW ry) = n := shiftAmount_eq (s.gprW ry)
  have low5 : ((s.gprW rb).extractLsb' 0 5).toNat = (s.gprW rb).toNat % 32 := by
    rw [BitVec.extractLsb'_toNat, Nat.shiftRight_zero]
  refine ⟨runs_result rfl, runs_result rfl, runs_result rfl, runs_result rfl, runs_result rfl, ?seMtlr, ?seMtctr,
    runs_result rfl, runs_result rfl, runs_result rfl, ?seSrw, ?seSlw, ?seSraw, ?seSrwi, ?seSlwi, ?seSrawi,
    ⟨_, fun j hj => ?eRlw, runs_result rfl⟩, ⟨_, fun j hj => ?eRlwi, runs_result rfl⟩, ?eSlwi, ?eSrwi,
    ⟨_, fun j hj => ?eRlwimi, runs_result rfl⟩, ⟨_, fun j hj => ?eRlwinm, runs_result rfl⟩⟩
  case seMtlr =>
    obtain ⟨past, gprs, cr, xer, ⟨lr, ctr, acc, spefscr⟩, system⟩ := advance_spec { s with lr := d } 2
    exact ⟨_, rfl, past, gprs, cr, xer, lr, ctr, acc, spefscr, system⟩
  case seMtctr =>
    obtain ⟨past, gprs, cr, xer, ⟨lr, ctr, acc, spefscr⟩, system⟩ := advance_spec { s with ctr := d } 2
    exact ⟨_, rfl, past, gprs, cr, xer, ctr, lr, acc, spefscr, system⟩
  case seSrw => exact runs_result rfl (by rw [amount, shiftRight_eq])
  case seSlw => exact runs_result rfl (by rw [amount, shiftLeft_eq])
  case seSraw => exact runs_result rfl (by rw [amount, shiftSigned_eq]) (by rw [amount, shiftCarry_eq])
  case seSrwi => exact runs_result rfl (shiftRight_eq d sh.toNat)
  case seSlwi => exact runs_result rfl (shiftLeft_eq d sh.toNat)
  case seSrawi => exact runs_result rfl (shiftSigned_eq d sh.toNat) (congrArg some (shiftCarry_eq d sh.toNat))
  case eRlw => rw [rotl_getMsbD _ _ j hj, low5]
  case eRlwi => exact rotl_getMsbD x sh.toNat j hj
  case eSlwi => exact runs_result rfl (shiftLeft_eq x sh.toNat)
  case eSrwi => exact runs_result rfl (shiftRight_eq x sh.toNat)
  case eRlwimi => rw [insertBits_getMsbD _ _ _ j hj, maskMbMe_getMsbD mb me j hj, rotl_getMsbD _ _ j hj]
  case eRlwinm => exact getMsbD_rotl_and_mask x sh.toNat mb me j hj

end Sys2Proof.Machine
end

section
/-! PROOF. The loads and stores of VLE with the data cache off (O32, O34). -/

namespace Sys2Proof.Machine

/-- An offset of bytes is not scaled (44_vle.md R1080). -/
theorem eaSd4_bytes (s : State) (rx : Gpr) (sd4 : BitVec 4) : s.eaSd4 rx sd4 0 = s.gprW rx + sd4.zeroExtend 32 :=
  congrArg (s.gprW rx + ·) (BitVec.shiftLeft_zero _)

/-- Settles O32: each instruction is the shared load of its width; the short forms scale their offset by it. -/
theorem vleLoads : Obligations.VleLoads := by
  intro s rt ra d d8 sd4 p ed e8 e1 e2 e4
  have bytes : s.eaSd4 ra sd4 0 = e1 := eaSd4_bytes s ra sd4
  have halves : s.eaSd4 ra sd4 1 = e2 := eaSd4_eq s ra sd4 rfl
  have words : s.eaSd4 ra sd4 2 = e4 := eaSd4_eq s ra sd4 rfl
  refine ⟨fun h => ?seLbz, fun h => ?seLhz, fun h => ?seLwz, fun h => ?eLbz, fun h => ⟨?eLhz, ?eLha⟩, fun h => ?eLwz,
    fun h => ?eLbzu, fun h => ⟨?eLhzu, ?eLhau⟩, fun h => ?eLwzu⟩
  case seLbz => exact runs_loadTo_plain h ((exec_seLbz s rt sd4 ra).trans (congrArg (s.loadTo 2 1 rt none zeroExt) bytes))
  case seLhz => exact runs_loadTo_plain h ((exec_seLhz s rt sd4 ra).trans (congrArg (s.loadTo 2 2 rt none zeroExt) halves))
  case seLwz => exact runs_loadTo_plain h ((exec_seLwz s rt sd4 ra).trans (congrArg (s.loadTo 2 4 rt none zeroExt) words))
  case eLbz => exact runs_loadTo_plain h (exec_eLbz s rt d ra)
  case eLhz => exact runs_loadTo_plain h (exec_eLhz s rt d ra)
  case eLha => exact runs_loadTo_plain h (exec_eLha s rt d ra)
  case eLwz => exact runs_loadTo_plain h (exec_eLwz s rt d ra)
  case eLbzu => exact runs_loadTo_plain h (exec_eLbzu s rt d8 ra)
  case eLhzu => exact runs_loadTo_plain h (exec_eLhzu s rt d8 ra)
  case eLhau => exact runs_loadTo_plain h (exec_eLhau s rt d8 ra)
  case eLwzu => exact runs_loadTo_plain h (exec_eLwzu s rt d8 ra)

/-- Settles O34: each instruction is the shared store of its width, whose element stands in memory in the order of the page. -/
theorem vleStores : Obligations.VleStores := by
  intro s rs ra d d8 sd4 p wf ed e8 e1 e2 e4
  have byte := bytesNat_storeByte (s := s) rs
  have half := bytesNat_storeHalf (s := s) rs
  have word := bytesNat_storeWord (s := s) rs
  have straight : Bool.xor p.e false = p.e := Bool.xor_false p.e
  have bytes : s.eaSd4 ra sd4 0 = e1 := eaSd4_bytes s ra sd4
  have halves : s.eaSd4 ra sd4 1 = e2 := eaSd4_eq s ra sd4 rfl
  have words : s.eaSd4 ra sd4 2 = e4 := eaSd4_eq s ra sd4 rfl
  refine ⟨fun h => ?seStb, fun h => ?seSth, fun h => ?seStw, fun h => ?eStb, fun h => ?eSth, fun h => ?eStw,
    fun h => ?eStbu, fun h => ?eSthu, fun h => ?eStwu⟩
  case seStb =>
    exact runs_storeFrom_plain wf h byte straight
      ((exec_seStb s rs sd4 ra).trans (congrArg (s.storeFrom 2 (s.storeByte rs) none) bytes))
  case seSth =>
    exact runs_storeFrom_plain wf h half straight
      ((exec_seSth s rs sd4 ra).trans (congrArg (s.storeFrom 2 (s.storeHalf rs) none) halves))
  case seStw =>
    exact runs_storeFrom_plain wf h word straight
      ((exec_seStw s rs sd4 ra).trans (congrArg (s.storeFrom 2 (s.storeWord rs) none) words))
  case eStb => exact runs_storeFrom_plain wf h byte straight (exec_eStb s rs d ra)
  case eSth => exact runs_storeFrom_plain wf h half straight (exec_eSth s rs d ra)
  case eStw => exact runs_storeFrom_plain wf h word straight (exec_eStw s rs d ra)
  case eStbu => exact runs_storeFrom_plain wf h byte straight (exec_eStbu s rs d8 ra)
  case eSthu => exact runs_storeFrom_plain wf h half straight (exec_eSthu s rs d8 ra)
  case eStwu => exact runs_storeFrom_plain wf h word straight (exec_eStwu s rs d8 ra)

end Sys2Proof.Machine
end

section
/-! PROOF. The floating-point instructions with no exception enabled (O50, O52). -/

namespace Sys2Proof.Machine

section
variable {s : State} {i : Instr} {rd : Gpr}

theorem runs_fpScalar (quiet : s.fpQuiet) {o : FpOut} (h : exec i s = s.fpScalar rd o) : Runs i s (FpScalarResult rd o s) := by
  obtain ⟨t, run, left⟩ := fpScalar_spec quiet rd o
  exact ⟨t, h.trans run, left⟩

theorem runs_fpVector (spe : s.msrSpe = true) (quiet : s.fpQuiet) {oh ol : FpOut} (h : exec i s = s.fpVector rd oh ol) :
    Runs i s (FpVectorResult rd oh ol s) := by
  obtain ⟨t, run, left⟩ := fpVector_spec spe quiet rd oh ol
  exact ⟨t, h.trans run, left⟩

end

/-- Settles O50: each instruction is the shared scalar form of its operation. -/
theorem efpuScalar : Obligations.EfpuScalar := by
  intro s rd ra rb quiet a b d m
  exact ⟨runs_fpScalar quiet rfl, runs_fpScalar quiet rfl, runs_fpScalar quiet rfl, runs_fpScalar quiet rfl,
    runs_fpScalar quiet rfl, runs_fpScalar quiet rfl, runs_fpScalar quiet rfl, runs_fpScalar quiet rfl,
    runs_fpScalar quiet rfl, runs_fpScalar quiet rfl, runs_fpScalar quiet rfl, runs_fpScalar quiet rfl,
    runs_fpScalar quiet rfl, runs_fpScalar quiet rfl, runs_fpScalar quiet rfl, runs_fpScalar quiet rfl,
    runs_fpScalar quiet rfl, runs_fpScalar quiet rfl, runs_fpScalar quiet rfl, runs_fpScalar quiet rfl,
    runs_fpScalar quiet rfl, runs_fpScalar quiet rfl, runs_fpScalar quiet rfl, runs_fpScalar quiet rfl,
    runs_fpScalar quiet rfl, runs_fpScalar quiet rfl⟩

/-- Settles O52: each instruction is the shared vector form of its operation on the elements that it pairs. -/
theorem efpuVector : Obligations.EfpuVector := by
  intro s rd ra rb quiet spe ah al bh bl dh dl m
  have vector {i : Instr} {oh ol : FpOut} (h : exec i s = s.fpVector rd oh ol) : Runs i s (FpVectorResult rd oh ol s) :=
    runs_fpVector spe quiet h
  exact ⟨vector rfl, vector rfl, vector rfl, vector rfl, vector rfl, vector rfl, vector rfl, vector rfl, vector rfl,
    vector rfl, vector rfl, vector rfl, vector rfl, vector rfl, vector rfl, vector rfl, vector rfl, vector rfl, vector rfl,
    vector rfl, vector rfl, vector rfl, vector rfl, vector rfl, vector rfl, vector rfl, vector rfl, vector rfl, vector rfl,
    vector rfl, vector rfl, vector rfl, vector rfl, vector rfl, vector rfl, vector rfl, vector rfl, vector rfl, vector rfl⟩

end Sys2Proof.Machine
end

section
/-! PROOF. System calls and returns (O21, O22). -/

namespace Sys2Proof.Machine

theorem runs_systemCall {s : State} {i : Instr} (len : Nat) (h : exec i s = .next (raiseSystemCall len s)) :
    Runs i s fun t => TakesNonCritical .systemCall (s.pc + BitVec.ofNat 32 len) (if s.cur.vle then 0x20#32 else 0#32) s t ∧
      t.ints.dear = s.ints.dear ∧ t.mmu = s.mmu ∧
      t.pc = (s.ints.ivpr &&& 0xFFFF0000#32) ||| (s.ints.ivor.get 8 &&& 0x0000FFF0#32) :=
  ⟨_, h, raiseSystemCall_spec s len, rfl, rfl, rfl⟩

/-- Settles O21: both forms raise the System Call interrupt, each with the address past it. -/
theorem systemCalls : Obligations.SystemCalls := by
  intro s
  exact ⟨runs_systemCall 4 rfl, runs_systemCall 2 rfl⟩

/-! Returns (60_exceptions.md R2015). -/

theorem returnFrom_spec (s : State) (r0 r1 : Word) : ReturnResult r0 r1 s (returnFrom r0 r1 s) :=
  ⟨rfl, rfl, fun _ => rfl, rfl, rfl, ⟨rfl, rfl, rfl, rfl⟩, SameSystem.refl (returnFrom r0 r1 s)⟩

section
variable {s : State} {i : Instr}

theorem runs_privileged_user {k : State → Host.Outcome State Fault Refusal} (h : exec i s = privileged s k)
    (user : s.user = true) : Runs i s (TakesProgram 0x04000000#32 s) :=
  ⟨_, h.trans (if_pos user), raisePrivileged_spec s⟩

theorem runs_illegal (h : exec i s = .next (raiseIllegal s)) : Runs i s (TakesProgram 0x08000000#32 s) :=
  ⟨_, h, raiseIllegal_spec s⟩

theorem runs_return_super {r0 r1 : Word} (h : exec i s = privileged s fun _ => .next (returnFrom r0 r1 s))
    (super : s.user = false) : Runs i s (ReturnResult r0 r1 s) :=
  ⟨_, h.trans (if_neg (ne_true_of_eq_false super)), returnFrom_spec s r0 r1⟩

end

/-- Settles O22: each form is privileged and returns from the registers of its class; without the Debug APU there is no return
from a debug interrupt. -/
theorem returns : Obligations.Returns := by
  intro s user dapuen
  have absent {i : Instr} (h : exec i s = execRfdi s) (off : dapuen = false) : exec i s = .next (raiseIllegal s) :=
    h.trans (if_pos (congrArg not off))
  have present {i : Instr} (h : exec i s = execRfdi s) (on : dapuen = true) :
      exec i s = privileged s fun _ => .next (returnFrom s.ints.dsrr0 s.ints.dsrr1 s) :=
    h.trans (if_neg (Bool.not_eq_true _ ▸ congrArg not on))
  refine ⟨runs_return_super rfl, runs_return_super rfl, runs_return_super rfl,
    runs_return_super rfl, runs_return_super rfl, runs_return_super rfl,
    runs_privileged_user (exec_rfi s), runs_privileged_user (exec_seRfi s), runs_privileged_user (exec_rfci s),
    runs_privileged_user (exec_seRfci s), runs_privileged_user (exec_rfmci s), runs_privileged_user (exec_seRfmci s),
    ?rfdi, ?rfdiUser, ?rfdiIllegal, ?seRfdi, ?seRfdiUser, ?seRfdiIllegal⟩
  case rfdi => exact fun on => runs_return_super (present rfl on)
  case rfdiUser => exact fun on => runs_privileged_user (present rfl on)
  case rfdiIllegal => exact fun off => runs_illegal (absent rfl off)
  case seRfdi => exact fun on => runs_return_super (present rfl on)
  case seRfdiUser => exact fun on => runs_privileged_user (present rfl on)
  case seRfdiIllegal => exact fun off => runs_illegal (absent rfl off)

end Sys2Proof.Machine
end

section
/-! PROOF. Instructions that are not there, or not in user mode, or not while MSR[SPE] is 0 (O23, O24, O43). -/

namespace Sys2Proof.Machine

/-! The numbers of the registers (10_state.md R113; 62_perfmon_power.md R2301). -/

theorem mem_readableSprs {k : Nat} {e : SprEntry} (named : sprNamed k = some e) (readable : e.readable = true) :
    k ∈ readableSprs := by
  revert readable
  unfold sprNamed at named
  split at named <;> cases named <;> decide

theorem mem_writableSprs {k : Nat} {e : SprEntry} (named : sprNamed k = some e) (writable : e.writable = true) :
    k ∈ writableSprs := by
  revert writable
  unfold sprNamed at named
  split at named <;> cases named <;> decide

theorem mem_readablePmrs {k : Nat} {r : Pmr × Bool} (named : pmrNamed k = some r) : k ∈ readablePmrs := by
  simp only [readablePmrs, List.mem_cons, List.not_mem_nil, or_false]
  unfold pmrNamed at named
  split_ifs at named <;> omega

theorem mem_writablePmrs {k : Nat} {r : Pmr} (named : pmrNamed k = some (r, false)) : k ∈ writablePmrs := by
  simp only [writablePmrs, List.mem_cons, List.not_mem_nil, or_false]
  unfold pmrNamed at named
  split_ifs at named <;> simp_all <;> omega

section
variable {s : State} {i : Instr} {r : Gpr} {n : BitVec 10}

theorem badSpr_of_allowed (allowed : n.getLsbD 4 = false ∨ s.msr.getLsbD 14 = false) : badSpr n s = raiseIllegal s :=
  if_neg (ne_true_of_eq_false (Bool.and_eq_false_iff.mpr allowed))

theorem badSpr_of_user (user : s.msr.getLsbD 14 = true) (privileged : n.getLsbD 4 = true) :
    badSpr n s = raisePrivileged s :=
  if_pos (Bool.and_eq_true_iff.mpr ⟨privileged, user⟩)

theorem exec_mfspr_of_unreadable (rt : Gpr) (h : n.toNat ∉ readableSprs) :
    exec (.mfspr rt n) s = .next (badSpr n s) := by
  rw [exec_mfspr, execMfspr]
  cases named : sprNamed n.toNat with
  | none => rfl
  | some e =>
    have unreadable : e.readable = false := eq_false_of_ne_true fun readable => h (mem_readableSprs named readable)
    simp [unreadable]

theorem exec_mtspr_of_unwritable (rs : Gpr) (h : n.toNat ∉ writableSprs) :
    exec (.mtspr n rs) s = .next (badSpr n s) := by
  rw [exec_mtspr, execMtspr]
  cases named : sprNamed n.toNat with
  | none => rfl
  | some e =>
    have unwritable : e.writable = false := eq_false_of_ne_true fun writable => h (mem_writableSprs named writable)
    simp [unwritable]

/-- Whether the number names a register or not, a privileged one is refused in user mode. -/
theorem exec_mfspr_of_user (user : s.msr.getLsbD 14 = true) (privileged : n.getLsbD 4 = true) (rt : Gpr) :
    exec (.mfspr rt n) s = .next (raisePrivileged s) := by
  have refused : (sprPrivileged n && s.user) = true := Bool.and_eq_true_iff.mpr ⟨privileged, user⟩
  rw [exec_mfspr, execMfspr, badSpr_of_user user privileged, refused]
  split <;> simp

theorem exec_mtspr_of_user (user : s.msr.getLsbD 14 = true) (privileged : n.getLsbD 4 = true) (rs : Gpr) :
    exec (.mtspr n rs) s = .next (raisePrivileged s) := by
  have refused : (sprPrivileged n && s.user) = true := Bool.and_eq_true_iff.mpr ⟨privileged, user⟩
  rw [exec_mtspr, execMtspr, badSpr_of_user user privileged, refused]
  split <;> simp

theorem runs_privileged (h : exec i s = .next (raisePrivileged s)) : Runs i s (TakesProgram 0x04000000#32 s) :=
  ⟨_, h, raisePrivileged_spec s⟩

/-- The numbers of the implemented device control registers (43_apu_misc.md R912). -/
theorem dcrNamed_eq_none_iff (p : Pins) : dcrNamed p n = none ↔
    ¬(272 ≤ n.toNat ∧ n.toNat ≤ 278) ∧ p.dcrnCdacntl ≠ some n ∧ p.dcrnCdadata ≠ some n := by
  by_cases inside : 272 ≤ n.toNat ∧ n.toNat ≤ 278
  · have named : dcrNamed p n ≠ none := by
      have number : n.toNat = 272 ∨ n.toNat = 273 ∨ n.toNat = 274 ∨ n.toNat = 275 ∨ n.toNat = 276 ∨ n.toNat = 277 ∨
          n.toNat = 278 := by omega
      rcases number with h | h | h | h | h | h | h <;> simp [dcrNamed, h]
    simp [named, inside]
  · rw [dcrNamed_strapped p inside]
    split_ifs <;> simp_all


theorem runs_dcr_user (user : s.msr.getLsbD 14 = true) (named : dcrNamed s.pins n ≠ none) :
    Runs (.mfdcr r n) s (TakesProgram 0x04000000#32 s) ∧ Runs (.mtdcr n r) s (TakesProgram 0x04000000#32 s) := by
  obtain ⟨d, hd⟩ := Option.ne_none_iff_exists'.mp named
  constructor
  · refine runs_privileged_user (k := fun s => .next ((s.setGprW r (s.readDcr d)).advance 4)) ?_ user
    rw [exec_mfdcr, execMfdcr, hd]
  · refine runs_privileged_user (k := fun s => .next ((s.writeDcr d (s.gprW r)).advance 4)) ?_ user
    rw [exec_mtdcr, execMtdcr, hd]

theorem runs_dcr_unnamed (unnamed : dcrNamed s.pins n = none) :
    Runs (.mfdcr r n) s (TakesProgram 0x08000000#32 s) ∧ Runs (.mtdcr n r) s (TakesProgram 0x08000000#32 s) := by
  constructor
  · refine runs_illegal ?_
    rw [exec_mfdcr, execMfdcr, unnamed]
  · refine runs_illegal ?_
    rw [exec_mtdcr, execMtdcr, unnamed]

theorem exec_mfpmr_of_allowed (allowed : n.getLsbD 4 = false ∨ s.msr.getLsbD 14 = false) (h : n.toNat ∉ readablePmrs) :
    exec (.mfpmr r n) s = .next (raiseIllegal s) := by
  have unnamed : pmrNamed n.toNat = none := Option.eq_none_iff_forall_not_mem.mpr fun p named => h (mem_readablePmrs named)
  have passes : (n.getLsbD 4 && s.user) = false := Bool.and_eq_false_iff.mpr allowed
  rw [exec_mfpmr, execMfpmr, unnamed, passes]
  rfl

theorem exec_mtpmr_of_allowed (allowed : n.getLsbD 4 = false ∨ s.msr.getLsbD 14 = false) (h : n.toNat ∉ writablePmrs) :
    exec (.mtpmr n r) s = .next (raiseIllegal s) := by
  have passes : (n.getLsbD 4 && s.user) = false := Bool.and_eq_false_iff.mpr allowed
  rw [exec_mtpmr, execMtpmr, passes]
  cases named : pmrNamed n.toNat with
  | none => rfl
  | some p =>
    obtain ⟨reg, readOnly⟩ := p
    cases readOnly with
    | false => exact absurd (mem_writablePmrs named) h
    | true => rfl

theorem notifyHalt_of_disabled (h : s.dbg.edbcr0.getLsbD 30 = false ∨ s.pins.enOnce = false) (len : Nat) (vle : Bool)
    (dui : BitVec 5) (duis : BitVec 10) : s.notifyHalt len vle dui duis = raiseIllegal s := by
  refine if_pos (h.imp_left fun off => ?_)
  refine BitVec.eq_of_getLsbD_eq fun j _ => ?_
  rw [BitVec.getLsbD_and, oneBit_getLsbD 0x40000000#32 30 j rfl (by decide), BitVec.getLsbD_zero]
  by_cases here : j = 30
  · rw [here, off, Bool.false_and]
  · rw [decide_eq_false here, Bool.and_false]

end

/-- Settles O23: each of the privileged instructions tests the mode before anything else; so do those that name a register by a
privileged number, or by one of an implemented device control register. -/
theorem privilegedInUser : Obligations.PrivilegedInUser := by
  intro s r q b d n user
  refine ⟨?privileged, fun privileged => ?numbered, fun named => runs_dcr_user user ?dcr⟩
  case privileged =>
    simp only [List.forall_mem_cons, List.not_mem_nil, IsEmpty.forall_iff, implies_true, and_true]
    exact ⟨runs_privileged_user (exec_mfmsr s r) user, runs_privileged_user (exec_mtmsr s r) user,
      runs_privileged_user (exec_wrtee s r) user, runs_privileged_user (exec_wrteei s b) user,
      runs_privileged_user (exec_tlbre s) user, runs_privileged_user (exec_tlbwe s) user,
      runs_privileged_user (exec_tlbsx s r q) user, runs_privileged_user (exec_tlbivax s r q) user,
      runs_privileged_user (exec_tlbsync s) user, runs_privileged_user (exec_dcbi s r q) user,
      runs_privileged_user (exec_eLmvsrrw s d r) user, runs_privileged_user (exec_eLmvcsrrw s d r) user,
      runs_privileged_user (exec_eLmvdsrrw s d r) user, runs_privileged_user (exec_eLmvmcsrrw s d r) user,
      runs_privileged_user (exec_eStmvsrrw s d r) user, runs_privileged_user (exec_eStmvcsrrw s d r) user,
      runs_privileged_user (exec_eStmvdsrrw s d r) user, runs_privileged_user (exec_eStmvmcsrrw s d r) user⟩
  case numbered =>
    simp only [List.forall_mem_cons, List.not_mem_nil, IsEmpty.forall_iff, implies_true, and_true]
    have refused : (n.getLsbD 4 && s.user) = true := Bool.and_eq_true_iff.mpr ⟨privileged, user⟩
    exact ⟨runs_privileged (exec_mfspr_of_user user privileged r), runs_privileged (exec_mtspr_of_user user privileged r),
      runs_privileged (if_pos refused), runs_privileged (if_pos refused)⟩
  case dcr =>
    rw [ne_eq, dcrNamed_eq_none_iff]
    tauto

/-- Settles O24: each form is refused, those with a number since it names no register that they may use. -/
theorem illegalForms : Obligations.IllegalForms := by
  intro s r n k
  refine ⟨runs_illegal rfl, fun h => runs_illegal (if_pos h), fun off => ?dnh, fun h ok => ?mfspr, fun h ok => ?mtspr,
    fun h ok => ?mfpmr, fun h ok => ?mtpmr, fun outside cntl data => ?dcr⟩
  case dnh =>
    exact ⟨runs_illegal (congrArg _ (notifyHalt_of_disabled off 4 false k n)),
      runs_illegal (congrArg _ (notifyHalt_of_disabled off _ _ _ _)), runs_illegal (congrArg _ (notifyHalt_of_disabled off _ _ _ _))⟩
  case mfspr => exact runs_illegal ((exec_mfspr_of_unreadable r h).trans (congrArg _ (badSpr_of_allowed ok)))
  case mtspr => exact runs_illegal ((exec_mtspr_of_unwritable r h).trans (congrArg _ (badSpr_of_allowed ok)))
  case mfpmr => exact runs_illegal (exec_mfpmr_of_allowed ok h)
  case mtpmr => exact runs_illegal (exec_mtpmr_of_allowed ok h)
  case dcr => exact runs_dcr_unnamed ((dcrNamed_eq_none_iff s.pins).mpr ⟨outside, cntl, data⟩)

/-! SPE and vector floating-point instructions (60_exceptions.md R2064). -/

theorem runs_unavailable {s : State} {i : Instr} {k : State → Host.Outcome State Fault Refusal}
    (off : s.msr.getLsbD 25 = false) (h : exec i s = speAvail s k) :
    Runs i s fun t =>
      TakesNonCritical .speUnavailable s.pc (0x80#32 ||| (if s.cur.vle then 0x20#32 else 0#32)) s t ∧
        t.ints.dear = s.ints.dear ∧ t.mmu = s.mmu ∧
        t.pc = (s.ints.ivpr &&& 0xFFFF0000#32) ||| (s.ints.ivor.get 16 &&& 0x0000FFF0#32) :=
  ⟨_, h.trans (if_neg (ne_true_of_eq_false off)), raiseSync_spec s .speUnavailable _ rfl (by decide), rfl, rfl, rfl⟩

/-- Settles O43: each instruction is of a shared form that asks for MSR[SPE] before anything else. -/
theorem speUnavailable : Obligations.SpeUnavailable := by
  intro s r q q2 f ui off gone
  have test {i : Instr} {k : State → Host.Outcome State Fault Refusal} (h : exec i s = speAvail s k) : gone i :=
    runs_unavailable off h
  have vector {i : Instr} {rd : Gpr} {oh ol : FpOut} (h : exec i s = s.fpVector rd oh ol) : gone i := test h
  have compareV {i : Instr} {f : CrField} {g : Word → Word → Bool} {a b : DWord}
      (h : exec i s = s.fpCompareV f g a b) : gone i := test h
  have spe {i : Instr} {rd : Gpr} {v : DWord} (h : exec i s = s.spe rd v) : gone i := test h
  have compare {i : Instr} {f : CrField} {a b : Bool} (h : exec i s = s.speCompare f a b) : gone i := test h
  have mul {i : Instr} {rd : Gpr} {v : DWord} {acc : Bool} (h : exec i s = s.speMul rd v acc) : gone i := test h
  have ov {i : Instr} {rd : Gpr} {v : DWord} {a b acc : Bool} (h : exec i s = s.speOv rd v a b acc) : gone i := test h
  have load {i : Instr} {form : SpeForm} {n el : Nat} {rd : Gpr} {g : List Byte → DWord} {ea : Word}
      (h : exec i s = s.speLoad form n el rd g ea) : gone i := test h
  have store {i : Instr} {form : SpeForm} {el : Nat} {b : List Byte} {ea : Word}
      (h : exec i s = s.speStore form el b ea) : gone i := test h
  simp only [List.forall_mem_cons, List.not_mem_nil, IsEmpty.forall_iff, implies_true, and_true]
  exact
    ⟨⟨vector rfl, vector rfl, vector rfl, vector rfl, vector rfl, vector rfl, vector rfl, vector rfl, vector rfl,
      vector rfl, vector rfl, vector rfl, vector rfl, vector rfl, vector rfl, vector rfl, vector rfl, vector rfl,
      vector rfl, vector rfl, vector rfl, vector rfl, vector rfl, vector rfl⟩,
    ⟨vector rfl, vector rfl, vector rfl, compareV rfl, compareV rfl, compareV rfl, test (exec_evfststgt s f q q2),
      test (exec_evfststlt s f q q2), test (exec_evfststeq s f q q2), vector rfl, vector rfl, vector rfl, vector rfl,
      vector rfl, vector rfl, vector rfl, vector rfl, vector rfl, vector rfl, vector rfl, vector rfl, spe rfl,
      spe rfl, spe rfl⟩,
    ⟨spe rfl, spe rfl, compare rfl, compare rfl, compare rfl, compare rfl, compare rfl, spe rfl, spe rfl, ov rfl,
      ov rfl, spe rfl, spe rfl, spe rfl, spe rfl, spe rfl, spe rfl, spe rfl, spe rfl, spe rfl, spe rfl, spe rfl, spe rfl,
      spe rfl⟩,
    ⟨spe rfl, spe rfl, spe rfl, spe rfl, spe rfl, spe rfl, spe rfl, spe rfl, spe rfl, spe rfl, spe rfl, spe rfl,
      spe rfl, spe rfl, mul rfl, mul rfl, mul rfl, mul rfl, mul rfl, mul rfl, mul rfl, mul rfl, mul rfl, mul rfl⟩,
    ⟨mul rfl, ov rfl, ov rfl, mul rfl, mul rfl, mul rfl, mul rfl, mul rfl, mul rfl, ov rfl, ov rfl, ov rfl, ov rfl,
      mul rfl, mul rfl, ov rfl, ov rfl, mul rfl, mul rfl, mul rfl, mul rfl, mul rfl, mul rfl, mul rfl⟩,
    ⟨mul rfl, mul rfl, mul rfl, ov rfl, ov rfl, mul rfl, mul rfl, mul rfl, mul rfl, mul rfl, mul rfl, ov rfl, ov rfl,
      ov rfl, ov rfl, mul rfl, mul rfl, ov rfl, ov rfl, mul rfl, mul rfl, mul rfl, mul rfl, ov rfl⟩,
    ⟨ov rfl, mul rfl, mul rfl, mul rfl, mul rfl, mul rfl, mul rfl, ov rfl, ov rfl, mul rfl, mul rfl, ov rfl, ov rfl,
      mul rfl, mul rfl, mul rfl, mul rfl, mul rfl, mul rfl, mul rfl, mul rfl, ov rfl, ov rfl, ov rfl⟩,
    ⟨ov rfl, mul rfl, mul rfl, mul rfl, mul rfl, mul rfl, ov rfl, mul rfl, ov rfl, mul rfl, ov rfl, mul rfl, ov rfl,
      load rfl, load rfl, load rfl, load rfl, load rfl, load rfl, load rfl, load rfl, load rfl, load rfl, load rfl⟩,
    ⟨load rfl, load rfl, load rfl, load rfl, load rfl, load rfl, load rfl, load rfl, load rfl, load rfl, load rfl,
      store rfl, store rfl, store rfl, store rfl, store rfl, store rfl, store rfl, store rfl, store rfl, store rfl,
      store rfl, store rfl, store rfl⟩,
    store rfl⟩

end Sys2Proof.Machine
end

section
/-! PROOF. The SPE multiplies and accumulator additions (O45, O46, O47). -/

namespace Sys2Proof.Machine

/-! The shared forms, with the value in terms of exact numbers. -/

section
variable {s : State} {i : Instr} {rd : Gpr} (spe : s.msrSpe = true)
include spe

theorem runs_speMul {v v' : DWord} {acc : Bool} (h : exec i s = s.speMul rd v acc) (hv : v = v') :
    Runs i s (SpeResult rd v' acc none s) := by
  subst hv
  obtain ⟨t, run, left⟩ := speMul_spec spe rd v acc
  exact ⟨t, h.trans run, left⟩

theorem runs_speOv {v v' : DWord} {oh ol oh' ol' acc : Bool} (h : exec i s = s.speOv rd v oh ol acc) (hv : v = v')
    (hh : oh = oh') (hl : ol = ol') : Runs i s (SpeResult rd v' acc (some (oh', ol')) s) := by
  subst hv hh hl
  obtain ⟨t, run, left⟩ := speOv_spec spe rd v oh ol acc
  exact ⟨t, h.trans run, left⟩

theorem runs_both {x y x' y' : Word} {acc : Bool} (h : exec i s = s.speMul rd (x ++ y) acc) (hx : x = x') (hy : y = y') :
    Runs i s (SpeResult rd (x' ++ y') acc none s) :=
  runs_speMul spe h (congrArg₂ (· ++ ·) hx hy)

theorem runs_plus {x y x' y' : Word} (h : exec i s = s.speAcc rd (· + ·) x y) (hx : x = x') (hy : y = y') :
    Runs i s (SpeResult rd ((hiW s.acc + x') ++ (loW s.acc + y')) true none s) :=
  runs_both spe h (congrArg (hiW s.acc + ·) hx) (congrArg (loW s.acc + ·) hy)

theorem runs_minus {x y x' y' : Word} (h : exec i s = s.speAcc rd (· - ·) x y) (hx : x = x') (hy : y = y') :
    Runs i s (SpeResult rd ((hiW s.acc - x') ++ (loW s.acc - y')) true none s) :=
  runs_both spe h (congrArg (hiW s.acc - ·) hx) (congrArg (loW s.acc - ·) hy)

theorem runs_speMulSat {p q : Word × Bool} {x y : Word} {a b acc : Bool} (h : exec i s = s.speMulSat rd p q acc)
    (hp : p = (x, a)) (hq : q = (y, b)) : Runs i s (SpeResult rd (x ++ y) acc (some (a, b)) s) := by
  subst hp hq
  exact runs_speOv spe h rfl rfl rfl

theorem runs_speAccSat {f : Word → Word → Word × Bool} {p q : Word × Bool} {x y : Word} {a b : Bool}
    (h : exec i s = s.speAccSat rd f p q) (hp : ((f (hiW s.acc) p.1).1, p.2 || (f (hiW s.acc) p.1).2) = (x, a))
    (hq : ((f (loW s.acc) q.1).1, q.2 || (f (loW s.acc) q.1).2) = (y, b)) :
    Runs i s (SpeResult rd (x ++ y) true (some (a, b)) s) := by
  obtain ⟨hx, ha⟩ := Prod.mk.inj hp
  obtain ⟨hy, hb⟩ := Prod.mk.inj hq
  exact runs_speOv spe h (congrArg₂ (· ++ ·) hx hy) ha hb

end

/-! Products of halfwords (48_spe_multiply_halfword.md R1483). -/

theorem mulSI16_toInt (a b : Half) : (mulSI16 a b).toInt = a.toInt * b.toInt := by
  obtain ⟨low, high⟩ := toInt_mul16 a b
  rw [mulSI16_eq]
  exact BitVec.toInt_ofInt_eq_self (by decide) (by norm_num; omega) (by norm_num; omega)

theorem mulUI16_toNat (a b : Half) : (mulUI16 a b).toNat = a.toNat * b.toNat := by
  have fits : a.toNat * b.toNat < 2 ^ 16 * 2 ^ 16 := Nat.mul_lt_mul'' a.isLt b.isLt
  rw [mulUI16_eq, BitVec.toNat_ofNat]
  exact Nat.mod_eq_of_lt fits

/-! Products of words. -/

theorem hiW_ofInt (x : Int) : hiW (BitVec.ofInt 64 x) = BitVec.ofInt 32 (x / 2 ^ 32) := by
  apply BitVec.eq_of_toNat_eq
  rw [hiW_toNat, BitVec.toNat_ofInt, BitVec.toNat_ofInt]
  omega

theorem hiW_mulSF32 (a b : Word) : hiW (mulSF32 a b) = BitVec.ofInt 32 (2 * (a.toInt * b.toInt) / 2 ^ 32) := by
  rw [mulSF32_eq, hiW_ofInt]

theorem loW_mulUnsigned_eq_ofNat (a b : Word) : loW (mulUnsigned a b) = BitVec.ofNat 32 (a.toNat * b.toNat) := by
  rw [loW_mulUnsigned, BitVec.ofNat_mul, BitVec.ofNat_toNat, BitVec.ofNat_toNat, BitVec.setWidth_eq, BitVec.setWidth_eq]

theorem loW_mulUnsigned_eq_ofInt (a b : Word) : loW (mulUnsigned a b) = BitVec.ofInt 32 (a.toInt * b.toInt) := by
  rw [loW_mulUnsigned, ← loW_mulSigned, loW_mulSigned_eq_ofInt]

/-! Fractional products (48_spe_multiply_halfword.md R1485): only -1 times -1 is out of range. -/

/-- Of the products of two numbers from `-m` to below `m`, only that of `-m` with itself reaches `m * m`. -/
theorem mul_lt_of_not_both_min {m x y : ℤ} (hx : -m ≤ x) (hx' : x < m) (hy : -m ≤ y) (hy' : y < m)
    (h : ¬(x = -m ∧ y = -m)) : x * y < m * m := by
  by_cases hm : x = -m
  · have above : -m < y := lt_of_le_of_ne hy fun e => h ⟨hm, e.symm⟩
    subst hm
    nlinarith
  · have above : -m < x := lt_of_le_of_ne hx fun e => hm e.symm
    rcases le_total 0 y with pos | neg
    · nlinarith
    · nlinarith

theorem neg_le_mul_of_bounds {m x y : ℤ} (hx : -m ≤ x) (hx' : x < m) (hy : -m ≤ y) (hy' : y < m) : -(m * m) ≤ x * y := by
  rcases le_total 0 x with pos | neg
  · nlinarith
  · nlinarith

section
variable {w : Nat} (a b : BitVec w)

theorem two_pow_double (hw : 0 < w) : (2 : ℤ) ^ (2 * w - 1) = 2 * (2 ^ (w - 1) * 2 ^ (w - 1)) := by
  rw [← pow_add, ← pow_succ']
  congr 1
  omega

theorem eq_intMin_iff (hw : 0 < w) : a = BitVec.intMin w ↔ a.toInt = -2 ^ (w - 1) := by
  rw [← BitVec.toInt_inj, BitVec.toInt_intMin_of_pos hw]

theorem toInt_bounds : -2 ^ (w - 1) ≤ a.toInt ∧ a.toInt < 2 ^ (w - 1) := ⟨BitVec.le_toInt a, BitVec.toInt_lt⟩

theorem fracOverflows_iff (hw : 0 < w) :
    fracOverflows a b = true ↔ a = BitVec.intMin w ∧ b = BitVec.intMin w := by
  obtain ⟨la, ha⟩ := toInt_bounds a
  obtain ⟨lb, hb⟩ := toInt_bounds b
  rw [fracOverflows, decide_eq_true_eq, two_pow_double hw, eq_intMin_iff a hw, eq_intMin_iff b hw]
  constructor
  · intro reaches
    by_contra h
    have := mul_lt_of_not_both_min la ha lb hb h
    omega
  · rintro ⟨ea, eb⟩
    rw [ea, eb, neg_mul_neg]

theorem fracProduct_of_overflow (h : fracOverflows a b = true) : fracProduct a b = 2 ^ (2 * w - 1) - 1 := by
  rw [fracOverflows, decide_eq_true_eq] at h
  exact min_eq_left (by omega)

theorem fracProduct_of_not_overflow (h : ¬fracOverflows a b = true) : fracProduct a b = 2 * (a.toInt * b.toInt) := by
  rw [fracOverflows, decide_eq_true_eq] at h
  exact min_eq_right (by omega)

theorem fracProduct_fits (hw : 0 < w) : -2 ^ (2 * w - 1) ≤ fracProduct a b ∧ fracProduct a b < 2 ^ (2 * w - 1) := by
  obtain ⟨la, ha⟩ := toInt_bounds a
  obtain ⟨lb, hb⟩ := toInt_bounds b
  have low := neg_le_mul_of_bounds la ha lb hb
  have positive : (0 : ℤ) < 2 ^ (2 * w - 1) := by positivity
  have double := two_pow_double hw
  unfold fracProduct
  omega

end

theorem mulSSF16_eq (a b : Half) : mulSSF16 a b = (BitVec.ofInt 32 (fracProduct a b), fracOverflows a b) := by
  have overflows := fracOverflows_iff a b (by decide)
  have least : BitVec.intMin 16 = 0x8000#16 := rfl
  rw [least] at overflows
  by_cases h : a = 0x8000#16 ∧ b = 0x8000#16
  · obtain ⟨rfl, rfl⟩ := h
    rfl
  · rw [mulSSF16, if_neg (by simpa using h), fracProduct_of_not_overflow a b (mt overflows.mp h), mulSF16_eq,
      eq_false_of_ne_true (mt overflows.mp h)]

theorem mulSSF16_toInt (a b : Half) : (mulSSF16 a b).1.toInt = fracProduct a b := by
  obtain ⟨low, high⟩ := fracProduct_fits a b (by decide)
  rw [mulSSF16_eq]
  exact BitVec.toInt_ofInt_eq_self (by decide) low high

theorem mulSSF16_overflow (a b : Half) : (mulSSF16 a b).2 = fracOverflows a b := congrArg Prod.snd (mulSSF16_eq a b)

theorem mulSSF32_eq (a b : Word) : mulSSF32 a b = (BitVec.ofInt 64 (fracProduct a b), fracOverflows a b) := by
  have overflows := fracOverflows_iff a b (by decide)
  have least : BitVec.intMin 32 = 0x80000000#32 := rfl
  rw [least] at overflows
  by_cases h : a = 0x80000000#32 ∧ b = 0x80000000#32
  · obtain ⟨rfl, rfl⟩ := h
    rfl
  · rw [mulSSF32, if_neg (by simpa using h), fracProduct_of_not_overflow a b (mt overflows.mp h), mulSF32_eq,
      eq_false_of_ne_true (mt overflows.mp h)]

theorem mulSSF32_value (a b : Word) : (mulSSF32 a b).1 = BitVec.ofInt 64 (fracProduct a b) :=
  congrArg Prod.fst (mulSSF32_eq a b)

theorem mulSSF32_overflow (a b : Word) : (mulSSF32 a b).2 = fracOverflows a b := congrArg Prod.snd (mulSSF32_eq a b)

theorem mulSSF32_toInt (a b : Word) : (mulSSF32 a b).1.toInt = fracProduct a b := by
  obtain ⟨low, high⟩ := fracProduct_fits a b (by decide)
  rw [mulSSF32_eq]
  exact BitVec.toInt_ofInt_eq_self (by decide) low high

/-- The high word of the saturating product is that of the doubleword one. -/
theorem mulHSSF32_eq (a b : Word) : mulHSSF32 a b = (BitVec.ofInt 32 (fracProduct a b / 2 ^ 32), fracOverflows a b) := by
  have high : mulHSSF32 a b = (hiW (mulSSF32 a b).1, (mulSSF32 a b).2) := by
    unfold mulHSSF32 mulSSF32
    split <;> rfl
  rw [high, mulSSF32_eq, hiW_ofInt]

/-! Saturation (48_spe_multiply_halfword.md R1484). -/

theorem satSigned_eq (w : Nat) (x : Int) : satSigned w x = (clampSigned w x, noFitSigned w x) := by
  have positive : (0 : ℤ) < 2 ^ (w - 1) := by positivity
  unfold satSigned clampSigned noFitSigned
  split_ifs with above below
  · rw [min_eq_left (by omega), max_eq_right (by omega), decide_eq_true (Or.inr above)]
  · rw [min_eq_right (by omega), max_eq_left (by omega), decide_eq_true (Or.inl below)]
  · rw [min_eq_right (by omega), max_eq_right (by omega), decide_eq_false (by omega)]

theorem satAddU32_value (a b : Word) :
    satAddU32 a b = (clampWord ((a.toNat : Int) + b.toNat), noFitWord ((a.toNat : Int) + b.toNat)) := by
  unfold satAddU32 clampWord noFitWord
  split_ifs with above
  · rw [min_eq_left (by omega), max_eq_right (by omega), decide_eq_true (by omega)]
    rfl
  · rw [min_eq_right (by omega), max_eq_right (by omega), decide_eq_false (by omega), BitVec.ofInt_add, BitVec.ofInt_natCast,
      BitVec.ofInt_natCast, BitVec.ofNat_toNat, BitVec.ofNat_toNat, BitVec.setWidth_eq, BitVec.setWidth_eq]

theorem ofInt_toNat_sub_toNat (a b : Word) : BitVec.ofInt 32 ((a.toNat : Int) - b.toNat) = a - b := by
  apply BitVec.eq_of_toNat_eq
  rw [BitVec.toNat_ofInt, BitVec.toNat_sub]
  omega

theorem satSubU32_value (a b : Word) :
    satSubU32 a b = (clampWord ((a.toNat : Int) - b.toNat), noFitWord ((a.toNat : Int) - b.toNat)) := by
  have ha := a.isLt
  unfold satSubU32 clampWord noFitWord
  split_ifs with below
  · rw [min_eq_right (by omega), max_eq_left (by omega), decide_eq_true (by omega)]
    rfl
  · rw [min_eq_right (by omega), max_eq_right (by omega), decide_eq_false (by omega), ofInt_toNat_sub_toNat]

/-! A word of the accumulator and a product, `p.1`, whose exact number is known; `p.2` says that it has saturated already. -/

section
variable {c : Word} {p : Word × Bool} {o : Bool}

theorem satAddS32_eq {x : Int} (hx : p.1.toInt = x) (ho : p.2 = o := by rfl) :
    ((satAddS32 c p.1).1, p.2 || (satAddS32 c p.1).2) =
      (clampSigned 32 (c.toInt + x), o || noFitSigned 32 (c.toInt + x)) := by
  rw [satAddS32, hx, ho, satSigned_eq]

theorem satSubS32_eq {x : Int} (hx : p.1.toInt = x) (ho : p.2 = o := by rfl) :
    ((satSubS32 c p.1).1, p.2 || (satSubS32 c p.1).2) =
      (clampSigned 32 (c.toInt - x), o || noFitSigned 32 (c.toInt - x)) := by
  rw [satSubS32, hx, ho, satSigned_eq]

theorem satAddU32_eq {x : Nat} (hx : p.1.toNat = x) (ho : p.2 = o := by rfl) :
    ((satAddU32 c p.1).1, p.2 || (satAddU32 c p.1).2) =
      (clampWord ((c.toNat : Int) + x), o || noFitWord ((c.toNat : Int) + x)) := by
  rw [satAddU32_value, hx, ho]

theorem satSubU32_eq {x : Nat} (hx : p.1.toNat = x) (ho : p.2 = o := by rfl) :
    ((satSubU32 c p.1).1, p.2 || (satSubU32 c p.1).2) =
      (clampWord ((c.toNat : Int) - x), o || noFitWord ((c.toNat : Int) - x)) := by
  rw [satSubU32_value, hx, ho]

end

theorem satAddS64_frac (c : DWord) (a b : Word) : satAddS64 c (mulSSF32 a b).1 =
    (clampSigned 64 (c.toInt + fracProduct a b), noFitSigned 64 (c.toInt + fracProduct a b)) := by
  rw [satAddS64, mulSSF32_toInt, satSigned_eq]

theorem satSubS64_frac (c : DWord) (a b : Word) : satSubS64 c (mulSSF32 a b).1 =
    (clampSigned 64 (c.toInt - fracProduct a b), noFitSigned 64 (c.toInt - fracProduct a b)) := by
  rw [satSubS64, mulSSF32_toInt, satSigned_eq]

/-- Settles O45: each instruction combines the products of its halfwords, which are the exact ones modulo the width. -/
theorem speHalf : Obligations.SpeHalf := by
  intro s rd ra rb spe e1 o1 e2 o2 ch cl
  have sf := mulSF16_eq
  have si := mulSI16_eq
  have ui := mulUI16_eq
  exact ⟨runs_both spe rfl (sf _ _) (sf _ _), runs_both spe rfl (sf _ _) (sf _ _),
    runs_plus spe rfl (sf _ _) (sf _ _), runs_minus spe rfl (sf _ _) (sf _ _), runs_both spe rfl (si _ _) (si _ _),
    runs_both spe rfl (si _ _) (si _ _), runs_plus spe rfl (si _ _) (si _ _), runs_minus spe rfl (si _ _) (si _ _),
    runs_both spe rfl (ui _ _) (ui _ _), runs_both spe rfl (ui _ _) (ui _ _), runs_plus spe rfl (ui _ _) (ui _ _),
    runs_minus spe rfl (ui _ _) (ui _ _), runs_speMul spe rfl (congrArg (s.acc + ·) (guardSF_eq _ _)),
    runs_speMul spe rfl (congrArg (s.acc - ·) (guardSF_eq _ _)),
    runs_speMul spe rfl (congrArg (s.acc + ·) (guardSI_eq _ _)),
    runs_speMul spe rfl (congrArg (s.acc - ·) (guardSI_eq _ _)),
    runs_speMul spe rfl (congrArg (s.acc + ·) (guardUI_eq _ _)),
    runs_speMul spe rfl (congrArg (s.acc - ·) (guardUI_eq _ _)), runs_both spe rfl (sf _ _) (sf _ _),
    runs_both spe rfl (sf _ _) (sf _ _), runs_plus spe rfl (sf _ _) (sf _ _), runs_minus spe rfl (sf _ _) (sf _ _),
    runs_both spe rfl (si _ _) (si _ _), runs_both spe rfl (si _ _) (si _ _), runs_plus spe rfl (si _ _) (si _ _),
    runs_minus spe rfl (si _ _) (si _ _), runs_both spe rfl (ui _ _) (ui _ _), runs_both spe rfl (ui _ _) (ui _ _),
    runs_plus spe rfl (ui _ _) (ui _ _), runs_minus spe rfl (ui _ _) (ui _ _),
    runs_speMul spe rfl (congrArg (s.acc + ·) (guardSF_eq _ _)),
    runs_speMul spe rfl (congrArg (s.acc - ·) (guardSF_eq _ _)),
    runs_speMul spe rfl (congrArg (s.acc + ·) (guardSI_eq _ _)),
    runs_speMul spe rfl (congrArg (s.acc - ·) (guardSI_eq _ _)),
    runs_speMul spe rfl (congrArg (s.acc + ·) (guardUI_eq _ _)),
    runs_speMul spe rfl (congrArg (s.acc - ·) (guardUI_eq _ _))⟩

/-- Settles O46: each instruction ends in the saturated products, or in the saturated sums or differences of the accumulator
and the exact products. -/
theorem speHalfSaturate : Obligations.SpeHalfSaturate := by
  intro s rd ra rb spe e1 o1 e2 o2 ch cl
  have fp {a b : Half} := mulSSF16_toInt a b
  have fo {a b : Half} := mulSSF16_overflow a b
  exact ⟨runs_speMulSat spe rfl (mulSSF16_eq _ _) (mulSSF16_eq _ _),
    runs_speMulSat spe rfl (mulSSF16_eq _ _) (mulSSF16_eq _ _),
    runs_speAccSat spe rfl (satAddS32_eq fp fo) (satAddS32_eq fp fo),
    runs_speAccSat spe rfl (satAddS32_eq (mulSI16_toInt _ _)) (satAddS32_eq (mulSI16_toInt _ _)),
    runs_speAccSat spe rfl (satAddU32_eq (mulUI16_toNat _ _)) (satAddU32_eq (mulUI16_toNat _ _)),
    runs_speAccSat spe rfl (satSubS32_eq fp fo) (satSubS32_eq fp fo),
    runs_speAccSat spe rfl (satSubS32_eq (mulSI16_toInt _ _)) (satSubS32_eq (mulSI16_toInt _ _)),
    runs_speAccSat spe rfl (satSubU32_eq (mulUI16_toNat _ _)) (satSubU32_eq (mulUI16_toNat _ _)),
    runs_speMulSat spe rfl (mulSSF16_eq _ _) (mulSSF16_eq _ _),
    runs_speMulSat spe rfl (mulSSF16_eq _ _) (mulSSF16_eq _ _),
    runs_speAccSat spe rfl (satAddS32_eq fp fo) (satAddS32_eq fp fo),
    runs_speAccSat spe rfl (satAddS32_eq (mulSI16_toInt _ _)) (satAddS32_eq (mulSI16_toInt _ _)),
    runs_speAccSat spe rfl (satAddU32_eq (mulUI16_toNat _ _)) (satAddU32_eq (mulUI16_toNat _ _)),
    runs_speAccSat spe rfl (satSubS32_eq fp fo) (satSubS32_eq fp fo),
    runs_speAccSat spe rfl (satSubS32_eq (mulSI16_toInt _ _)) (satSubS32_eq (mulSI16_toInt _ _)),
    runs_speAccSat spe rfl (satSubU32_eq (mulUI16_toNat _ _)) (satSubU32_eq (mulUI16_toNat _ _))⟩

/-- Settles O47: as for the halfwords, with the high or low words of the products, or the whole product of the low elements. -/
theorem speWord : Obligations.SpeWord := by
  intro s rd ra rb spe ah al bh bl ch cl
  have low {a b : Word} := congrArg BitVec.toInt (loW_mulUnsigned_eq_ofInt a b)
  have lowU {a b : Word} := congrArg BitVec.toNat (loW_mulUnsigned_eq_ofNat a b)
  exact ⟨runs_both spe rfl (hiW_mulSF32 _ _) (hiW_mulSF32 _ _),
    runs_both spe rfl (hiW_mulSF32 _ _) (hiW_mulSF32 _ _), runs_both spe rfl (hiW_mulSigned _ _) (hiW_mulSigned _ _),
    runs_both spe rfl (hiW_mulSigned _ _) (hiW_mulSigned _ _),
    runs_both spe rfl (hiW_mulUnsigned _ _) (hiW_mulUnsigned _ _),
    runs_both spe rfl (hiW_mulUnsigned _ _) (hiW_mulUnsigned _ _),
    runs_both spe rfl (loW_mulUnsigned_eq_ofNat _ _) (loW_mulUnsigned_eq_ofNat _ _),
    runs_both spe rfl (loW_mulUnsigned_eq_ofNat _ _) (loW_mulUnsigned_eq_ofNat _ _),
    runs_plus spe rfl (loW_mulUnsigned_eq_ofInt _ _) (loW_mulUnsigned_eq_ofInt _ _),
    runs_plus spe rfl (loW_mulUnsigned_eq_ofNat _ _) (loW_mulUnsigned_eq_ofNat _ _), runs_plus spe rfl rfl rfl,
    runs_plus spe rfl rfl rfl, runs_minus spe rfl (loW_mulUnsigned_eq_ofInt _ _) (loW_mulUnsigned_eq_ofInt _ _),
    runs_minus spe rfl (loW_mulUnsigned_eq_ofNat _ _) (loW_mulUnsigned_eq_ofNat _ _), runs_minus spe rfl rfl rfl,
    runs_minus spe rfl rfl rfl, runs_speMul spe rfl (mulSF32_eq _ _), runs_speMul spe rfl (mulSF32_eq _ _),
    runs_speMul spe rfl (congrArg (s.acc + ·) (mulSF32_eq _ _)),
    runs_speMul spe rfl (congrArg (s.acc - ·) (mulSF32_eq _ _)), runs_speMul spe rfl (mulSigned_eq _ _),
    runs_speMul spe rfl (mulSigned_eq _ _), runs_speMul spe rfl (congrArg (s.acc + ·) (mulSigned_eq _ _)),
    runs_speMul spe rfl (congrArg (s.acc - ·) (mulSigned_eq _ _)), runs_speMul spe rfl (mulUnsigned_eq _ _),
    runs_speMul spe rfl (mulUnsigned_eq _ _), runs_speMul spe rfl (congrArg (s.acc + ·) (mulUnsigned_eq _ _)),
    runs_speMul spe rfl (congrArg (s.acc - ·) (mulUnsigned_eq _ _)),
    runs_speMulSat spe rfl (mulHSSF32_eq _ _) (mulHSSF32_eq _ _),
    runs_speMulSat spe rfl (mulHSSF32_eq _ _) (mulHSSF32_eq _ _),
    runs_speAccSat spe rfl (satAddS32_eq low) (satAddS32_eq low),
    runs_speAccSat spe rfl (satAddU32_eq lowU) (satAddU32_eq lowU),
    runs_speAccSat spe rfl (satAddS32_eq rfl) (satAddS32_eq rfl),
    runs_speAccSat spe rfl (satAddU32_eq rfl) (satAddU32_eq rfl),
    runs_speAccSat spe rfl (satSubS32_eq low) (satSubS32_eq low),
    runs_speAccSat spe rfl (satSubU32_eq lowU) (satSubU32_eq lowU),
    runs_speAccSat spe rfl (satSubS32_eq rfl) (satSubS32_eq rfl),
    runs_speAccSat spe rfl (satSubU32_eq rfl) (satSubU32_eq rfl),
    runs_speOv spe rfl (mulSSF32_value _ _) rfl (mulSSF32_overflow _ _),
    runs_speOv spe rfl (mulSSF32_value _ _) rfl (mulSSF32_overflow _ _),
    runs_speOv spe rfl (congrArg Prod.fst (satAddS64_frac _ _ _)) rfl
      (congrArg₂ or (mulSSF32_overflow _ _) (congrArg Prod.snd (satAddS64_frac _ _ _))),
    runs_speOv spe rfl (congrArg Prod.fst (satSubS64_frac _ _ _)) rfl
      (congrArg₂ or (mulSSF32_overflow _ _) (congrArg Prod.snd (satSubS64_frac _ _ _)))⟩

end Sys2Proof.Machine
end

section
/-! PROOF. The simple SPE instructions (O44). -/

namespace Sys2Proof.Machine

section
variable {s : State} {i : Instr} {rd : Gpr}

theorem runs_spe (spe : s.msrSpe = true) {v v' : DWord} (h : exec i s = s.spe rd v) (hv : v = v' := by rfl) :
    Runs i s (SpeResult rd v' false none s) := by
  subst hv
  obtain ⟨t, run, left⟩ := spe_spec spe rd v
  exact ⟨t, h.trans run, left⟩

/-- An instruction that applies one operation to both elements. -/
theorem runs_each (spe : s.msrSpe = true) {f : Word → Word} {d : DWord} {x y : Word} (h : exec i s = s.spe rd (each f d))
    (hx : f (hiW d) = x) (hy : f (loW d) = y) : Runs i s (SpeResult rd (x ++ y) false none s) :=
  runs_spe spe h (congrArg₂ (· ++ ·) hx hy)

/-- An instruction that applies one operation to both pairs of elements. -/
theorem runs_each2 (spe : s.msrSpe = true) {f : Word → Word → Word} {d e : DWord} {x y : Word}
    (h : exec i s = s.spe rd (each2 f d e)) (hx : f (hiW d) (hiW e) = x) (hy : f (loW d) (loW e) = y) :
    Runs i s (SpeResult rd (x ++ y) false none s) :=
  runs_spe spe h (congrArg₂ (· ++ ·) hx hy)

end

/-! The operations on one element (47_spe_state_and_simple.md R1411 to R1453). -/

section
variable (a b : Word)

theorem absWord_eq : (if a.msb then -a else a) = BitVec.ofInt 32 |a.toInt| := by
  rw [BitVec.msb_eq_toInt]
  by_cases negative : a.toInt < 0
  · rw [if_pos (decide_eq_true negative), abs_of_neg negative, BitVec.ofInt_neg, BitVec.ofInt_toInt]
  · rw [if_neg (by simpa using negative), abs_of_nonneg (by omega), BitVec.ofInt_toInt]

theorem clsWord_eq : ∃ n, LeadingZeros (if a.toInt < 0 then ~~~a else a) n ∧ clsWord a = BitVec.ofNat 32 n := by
  refine ⟨_, clz32_spec _, ?_⟩
  rw [clsWord, BitVec.msb_eq_toInt]
  simp only [decide_eq_true_eq]

theorem rotl_rotated (n : Nat) : Rotated a n (rotl a n) := fun j hj => rotl_getMsbD a n j hj

theorem divElemS_eq : divElemS a b =
    (if b = 0#32 then (if a.toInt < 0 then 0x80000000#32 else 0x7FFFFFFF#32)
      else if a = 0x80000000#32 ∧ b = 0xFFFFFFFF#32 then 0x7FFFFFFF#32 else BitVec.ofInt 32 (a.toInt.tdiv b.toInt),
      decide (b = 0#32 ∨ a = 0x80000000#32 ∧ b = 0xFFFFFFFF#32)) := by
  rw [divElemS, BitVec.msb_eq_toInt]
  simp only [beq_iff_eq, Bool.and_eq_true, decide_eq_true_eq]
  split_ifs with zero <;> simp_all [quotSigned]

theorem divElemU_eq : divElemU a b =
    (if b = 0#32 then 0xFFFFFFFF#32 else BitVec.ofNat 32 (a.toNat / b.toNat), decide (b = 0#32)) := by
  rw [divElemU]
  simp only [beq_iff_eq]
  split_ifs with zero
  · rw [decide_eq_true zero]
  · rw [decide_eq_false zero, quotUnsigned]

end

/-- Settles O44: each instruction is the shared form of its operation on one element, or on a pair, and what the operation
computes is a lemma of its own. -/
theorem speSimple : Obligations.SpeSimple := by
  intro s rd ra rb ui f ah al bh bl
  refine ⟨⟨_, rfl, setGprW_advance_spec s rd _⟩, fun spe => ?_⟩
  have low5 (w : Word) : (w.extractLsb' 0 5).toNat = w.toNat % 32 := by
    rw [BitVec.extractLsb'_toNat, Nat.shiftRight_zero]
  have left (a b : Word) : shiftLeft a (shiftAmount b) = BitVec.ofNat 32 (a.toNat * 2 ^ (b.toNat % 64)) := by
    rw [shiftAmount_eq, shiftLeft_eq]
  have signed (a b : Word) : shiftSigned a (shiftAmount b) = BitVec.ofInt 32 (a.toInt / 2 ^ (b.toNat % 64)) := by
    rw [shiftAmount_eq, shiftSigned_eq]
  have right (a b : Word) : shiftRight a (shiftAmount b) = BitVec.ofNat 32 (a.toNat / 2 ^ (b.toNat % 64)) := by
    rw [shiftAmount_eq, shiftRight_eq]
  have rotated (a b : Word) : Rotated a (b.toNat % 32) (rotl a (b.extractLsb' 0 5).toNat) := low5 b ▸ rotl_rotated a _
  refine ⟨runs_each spe rfl (absWord_eq ah) (absWord_eq al),
    runs_each spe rfl (BitVec.zero_sub ah).symm (BitVec.zero_sub al).symm, runs_spe spe rfl, runs_spe spe rfl, runs_spe spe rfl,
    runs_spe spe rfl, runs_spe spe rfl, runs_spe spe rfl, runs_spe spe rfl, runs_spe spe rfl, runs_spe spe rfl,
    runs_spe spe rfl, runs_spe spe rfl, runs_spe spe rfl, runs_spe spe rfl, runs_spe spe rfl, runs_spe spe rfl,
    runs_spe spe rfl, runs_spe spe rfl, runs_spe spe rfl, runs_spe spe rfl, runs_spe spe rfl, runs_spe spe rfl,
    runs_spe spe rfl, runs_each2 spe rfl (left ah bh) (left al bl),
    runs_each spe rfl (shiftLeft_eq ah _) (shiftLeft_eq al _), runs_each2 spe rfl (signed ah bh) (signed al bl),
    runs_each spe rfl (shiftSigned_eq ah _) (shiftSigned_eq al _), runs_each2 spe rfl (right ah bh) (right al bl),
    runs_each spe rfl (shiftRight_eq ah _) (shiftRight_eq al _),
    ⟨_, _, rotated ah bh, rotated al bl, runs_spe spe rfl⟩,
    ⟨_, _, rotl_rotated ah _, rotl_rotated al _, runs_spe spe rfl⟩,
    ⟨_, _, clz32_spec ah, clz32_spec al, runs_spe spe rfl⟩, ?evcntlsw, ?evdivws, ?evdivwu, runs_speMul spe rfl rfl⟩
  case evcntlsw =>
    obtain ⟨m, high, hm⟩ := clsWord_eq ah
    obtain ⟨n, low, hn⟩ := clsWord_eq al
    exact ⟨m, n, high, low, runs_each spe rfl hm hn⟩
  case evdivws => exact runs_speMulSat spe rfl (divElemS_eq ah bh) (divElemS_eq al bl)
  case evdivwu => exact runs_speMulSat spe rfl (divElemU_eq ah bh) (divElemU_eq al bl)

end Sys2Proof.Machine
end

section
/-! PROOF. The compares and tests of the EFPU and the SPE unit (O51). -/

namespace Sys2Proof.Machine

section
variable {s : State} {i : Instr} {f : CrField}

/-- Four bits of a CR field, and nothing else but the pc. -/
theorem runs_four {h l h' l' : Bool} (run : exec i s = .next (s.resultCr 4 f (crPair h l))) (hh : h = h') (hl : l = l') :
    Runs i s fun t => ((crField t.cr f).getLsbD 3 = h' ∧ (crField t.cr f).getLsbD 2 = l' ∧
      (crField t.cr f).getLsbD 1 = (h' || l') ∧ (crField t.cr f).getLsbD 0 = (h' && l') ∧ SameCrBut f s t ∧
      SameGprs s t) ∧ t.spefscr = s.spefscr ∧ FpRest s t := by
  subst hh hl
  obtain ⟨h3, h2, h1, h0, others, gprs, past, xer, ⟨lr, ctr, acc, spefscr⟩, system⟩ :=
    resultCr_spec s 4 f h l (h || l) (h && l)
  exact ⟨_, run, ⟨h3, h2, h1, h0, others, gprs⟩, spefscr, past, xer, lr, ctr, acc, system⟩

/-! The CR field of a scalar compare or test (45_efpu_scalar.md R1138). -/

theorem fpCr_spec (s : State) (f : CrField) (c : Bool) :
    (crField (s.fpCr f c).cr f).getLsbD 2 = c ∧ SameCrBut f s (s.fpCr f c) := by
  refine ⟨?_, fun g hg => crField_withCrField_ne _ _ _ _ hg⟩
  have bit (x : BitVec 1) (y : BitVec 2) : (x ++ (if c then 1#1 else 0#1) ++ y).getLsbD 2 = c := by
    rw [BitVec.getLsbD_append, BitVec.getLsbD_append]
    cases c <;> rfl
  rw [State.fpCr, setCrField_cr, crField_withCrField_self]
  exact bit _ _

theorem runs_fpTest {c c' : Bool} (run : exec i s = .next ((s.fpCr f c).advance 4)) (hc : c = c') :
    Runs i s fun t => ((crField t.cr f).getLsbD 2 = c' ∧ SameCrBut f s t ∧ SameGprs s t) ∧ t.spefscr = s.spefscr ∧
      FpRest s t := by
  subst hc
  obtain ⟨bit, others⟩ := fpCr_spec s f c
  exact ⟨_, run, ⟨bit, others, fun _ => rfl⟩, rfl, rfl, rfl, rfl, rfl, rfl, SameSystem.refl s⟩

theorem runs_fpCompare (quiet : s.fpQuiet) {g : Word → Word → Bool} {a b : Word} {c : Bool}
    (run : exec i s = s.fpCompare f g a b) (hc : g a b = c) :
    Runs i s fun t => ((crField t.cr f).getLsbD 2 = c ∧ SameCrBut f s t ∧ SameGprs s t) ∧
      FpStatus FpOut.none (FpOut.plain (fSpecial a || fSpecial b) 0#32) s t ∧ FpRest s t := by
  subst hc
  obtain ⟨bit, others⟩ := fpCr_spec (fpGone s FpOut.none (FpOut.plain (fSpecial a || fSpecial b) 0#32)) f (g a b)
  exact ⟨_, run.trans (fpFinish_quiet quiet _ _ _), ⟨bit, others, fun _ => rfl⟩, fpStatus_of _ _ _ rfl, rfl, rfl, rfl, rfl,
    rfl, SameSystem.refl s⟩

theorem runs_fpCompareV (quiet : s.fpQuiet) (spe : s.msrSpe = true) {g : Word → Word → Bool} {a b : DWord} {h l : Bool}
    (run : exec i s = s.fpCompareV f g a b) (hh : g (hiW a) (hiW b) = h) (hl : g (loW a) (loW b) = l) :
    Runs i s fun t => ((crField t.cr f).getLsbD 3 = h ∧ (crField t.cr f).getLsbD 2 = l ∧
      (crField t.cr f).getLsbD 1 = (h || l) ∧ (crField t.cr f).getLsbD 0 = (h && l) ∧ SameCrBut f s t ∧
      SameGprs s t) ∧ FpStatus (FpOut.plain (fSpecial (hiW a) || fSpecial (hiW b)) 0#32)
        (FpOut.plain (fSpecial (loW a) || fSpecial (loW b)) 0#32) s t ∧ FpRest s t := by
  subst hh hl
  obtain ⟨h3, h2, h1, h0, others, -⟩ := resultCr_spec s 4 f (g (hiW a) (hiW b)) (g (loW a) (loW b))
    (g (hiW a) (hiW b) || g (loW a) (loW b)) (g (hiW a) (hiW b) && g (loW a) (loW b))
  exact ⟨_, (run.trans (if_pos spe)).trans (fpFinish_quiet quiet _ _ _), ⟨h3, h2, h1, h0, others, fun _ => rfl⟩,
    fpStatus_of _ _ _ rfl, rfl, rfl, rfl, rfl, rfl, SameSystem.refl s⟩

end

/-- The number whose order is that of the elements, by sign and magnitude (45_efpu_scalar.md R1120). -/
theorem fKey_eq (v : Word) :
    fKey v = if v.getLsbD 31 then -((v.extractLsb' 0 31).toNat : Int) else (v.extractLsb' 0 31).toNat := by
  have magnitude : (v &&& 0x7FFFFFFF#32).toNat = (v.extractLsb' 0 31).toNat := by
    rw [BitVec.toNat_and, BitVec.extractLsb'_toNat, Nat.shiftRight_zero]
    exact Nat.and_two_pow_sub_one_eq_mod v.toNat 31
  rw [fKey, fSign, signed, BitVec.msb_eq_getLsbD_last, magnitude]

theorem beq_eq_toNat (a b : Word) : (a == b) = decide (a.toNat = b.toNat) := by
  rw [beq_eq_decide, decide_eq_decide, BitVec.toNat_inj]

/-- Settles O51: each compare or test is the shared form of its outcome, and the outcome of floating-point operands is that of
their keys. -/
theorem comparisons : Obligations.Comparisons := by
  intro s f ra rb ah al bh bl num out mid four
  have lt (a b : Word) : fLt a b = decide (num a < num b) := by rw [fLt, fKey_eq, fKey_eq]
  have gt (a b : Word) : fGt a b = decide (num b < num a) := by rw [fGt, fKey_eq, fKey_eq]
  have eq (a b : Word) : fEq a b = decide (num a = num b) := by rw [fEq, fKey_eq, fKey_eq]
  have slt (a b : Word) : a.slt b = decide (a.toInt < b.toInt) := BitVec.slt_eq_decide
  have ult (a b : Word) : a.ult b = decide (a.toNat < b.toNat) := BitVec.ult_eq_decide
  have scalar {i : Instr} {g : Word → Word → Bool} {x : Bool} (run : exec i s = s.fpCompare f g al bl) (hx : g al bl = x)
      (quiet : s.fpQuiet) : Runs i s fun t => mid x t ∧ FpStatus FpOut.none (out al bl) s t ∧ FpRest s t :=
    runs_fpCompare quiet run hx
  have vector {i : Instr} {g : Word → Word → Bool} {x y : Bool} (run : exec i s = s.fpCompareV f g (s.gprD ra) (s.gprD rb))
      (hx : g ah bh = x) (hy : g al bl = y) (quiet : s.fpQuiet) (spe : s.msr.getLsbD 25 = true) :
      Runs i s fun t => four x y t ∧ FpStatus (out ah bh) (out al bl) s t ∧ FpRest s t :=
    runs_fpCompareV quiet spe run hx hy
  have test {i : Instr} {x y : Bool} (run : exec i s = .next ((s.fpCr f x).advance 4)) (hx : x = y) :
      Runs i s fun t => mid y t ∧ t.spefscr = s.spefscr ∧ FpRest s t := runs_fpTest run hx
  have pair {i : Instr} {h l x y : Bool} (run : exec i s = .next (s.resultCr 4 f (crPair h l))) (hx : h = x) (hy : l = y) :
      Runs i s fun t => four x y t ∧ t.spefscr = s.spefscr ∧ FpRest s t := runs_four run hx hy
  exact ⟨scalar (exec_efscmpgt s f ra rb) (gt al bl), test (exec_efststgt s f ra rb) (gt al bl),
    vector (exec_evfscmpgt s f ra rb) (gt ah bh) (gt al bl),
    fun spe => pair ((exec_evfststgt s f ra rb).trans (if_pos spe)) (gt ah bh) (gt al bl),
    scalar (exec_efscmplt s f ra rb) (lt al bl), test (exec_efststlt s f ra rb) (lt al bl),
    vector (exec_evfscmplt s f ra rb) (lt ah bh) (lt al bl),
    fun spe => pair ((exec_evfststlt s f ra rb).trans (if_pos spe)) (lt ah bh) (lt al bl),
    scalar (exec_efscmpeq s f ra rb) (eq al bl), test (exec_efststeq s f ra rb) (eq al bl),
    vector (exec_evfscmpeq s f ra rb) (eq ah bh) (eq al bl),
    fun spe => pair ((exec_evfststeq s f ra rb).trans (if_pos spe)) (eq ah bh) (eq al bl),
    fun spe => pair ((exec_evcmpgts s f ra rb).trans (if_pos spe)) (slt bh ah) (slt bl al),
    fun spe => pair ((exec_evcmplts s f ra rb).trans (if_pos spe)) (slt ah bh) (slt al bl),
    fun spe => pair ((exec_evcmpgtu s f ra rb).trans (if_pos spe)) (ult bh ah) (ult bl al),
    fun spe => pair ((exec_evcmpltu s f ra rb).trans (if_pos spe)) (ult ah bh) (ult al bl),
    fun spe => pair ((exec_evcmpeq s f ra rb).trans (if_pos spe)) (beq_eq_toNat ah bh) (beq_eq_toNat al bl)⟩

end Sys2Proof.Machine
end

section
/-! PROOF. The SPE loads and stores with the data cache off (O48, O49). -/

namespace Sys2Proof.Machine

section
variable {s : State} {r ra rb : Gpr} {ui : BitVec 5} {n : Nat} {p : TlbEntry} {b : List Byte}

/-- The halfword `k` of `n` loaded bytes, as the page orders it. -/
theorem halfAt_bytes (e : Bool) (x : Word) {n k : Nat} (hk : 2 * k + 2 ≤ n) :
    halfAt (elemOrder e 2 (s.mem.bytes x n)) k = BitVec.ofNat 16 (s.elem e (x + BitVec.ofNat 32 (2 * k)) 2) := by
  rw [halfAt, elem_of_load e 2 k n s.mem x (by decide) hk s rfl]

theorem elem_bytes (e : Bool) (x : Word) {n j l : Nat} (h : j + l ≤ n) :
    bytesNat (endian e (((s.mem.bytes x n).drop j).take l)) = s.elem e (x + BitVec.ofNat 32 j) l := by
  rw [bytes_part _ _ _ _ _ h, State.elem]

theorem bytesWord_bytes (e : Bool) (x : Word) :
    bytesWord (elemOrder e 4 (s.mem.bytes x 4)) = BitVec.ofNat 32 (s.elem e (x + BitVec.ofNat 32 0) 4) := by
  rw [bytesWord_elemOrder (Memory.bytes_length _ _ _), elem_bytes e x (by decide)]

theorem bytesDWord_bytes (e : Bool) (x : Word) :
    bytesDWord (elemOrder e 8 (s.mem.bytes x 8)) = BitVec.ofNat 64 (s.elem e x 8) := by
  rw [elemOrder_one e 8 _ (Memory.bytes_length _ _ _) (by decide)]
  rfl

theorem bytesDWord_bytes_words (e : Bool) (x : Word) :
    bytesDWord (elemOrder e 4 (s.mem.bytes x 8)) = BitVec.ofNat 32 (s.elem e (x + BitVec.ofNat 32 (4 * 0)) 4) ++
      BitVec.ofNat 32 (s.elem e (x + BitVec.ofNat 32 (4 * 1)) 4) := by
  rw [bytesDWord_elemOrder_words (Memory.bytes_length _ _ _), elem_bytes e x (by decide), elem_bytes e x (by decide)]

theorem bytesDWord_bytes_halves (e : Bool) (x : Word) :
    bytesDWord (elemOrder e 2 (s.mem.bytes x 8)) =
      BitVec.ofNat 16 (s.elem e (x + BitVec.ofNat 32 (2 * 0)) 2) ++
        BitVec.ofNat 16 (s.elem e (x + BitVec.ofNat 32 (2 * 1)) 2) ++
        BitVec.ofNat 16 (s.elem e (x + BitVec.ofNat 32 (2 * 2)) 2) ++
        BitVec.ofNat 16 (s.elem e (x + BitVec.ofNat 32 (2 * 3)) 2) := by
  rw [bytesDWord_halves ((elemOrder_length e 2 _ (by decide)).trans (Memory.bytes_length _ _ _)), halfAt_bytes e x (by decide),
    halfAt_bytes e x (by decide), halfAt_bytes e x (by decide), halfAt_bytes e x (by decide)]

/-- An SPE store of a list of elements, past an aligned address. -/
theorem runs_speStore_plain {form : SpeForm} {i : Instr} {val : List Nat} {ea : Word} (hn : 0 < n)
    (some : 0 < b.length) (small : b.length ≤ 8) (elems : Elements false n val b) (wf : s.mem.wf = true)
    (available : s.msrSpe = true) (on : ea.toNat % s.pins.speBoundary form b.length = 0)
    (h : PlainAccess s ea b.length .store p) (hi : exec i s = s.speStore form n b ea) :
    Runs i s (StoreResult 4 n p.e (p.page ea).ra val none ea s) := by
  have same := elemOrder_length p.e n b hn
  obtain ⟨t, store, records⟩ := store_plain b wf h some small esrSpe n same
  refine ⟨_, ?_, storeResult_of_busBeats (elems.elemOrder hn p.e) wf (by omega) records⟩
  rw [hi, State.speStore, speAvail, if_pos available, if_pos (aligned_of_mod on), store]
  rfl

/-- The indexed and the scaled form of an SPE load. -/
theorem speLoads_plain {form : SpeForm} {el k m : Nat} {f : List Byte → DWord} {val : Word → DWord}
    {indexed scaled : Instr} (available : s.msr.getLsbD 25 = true)
    (runsIndexed : exec indexed s = s.speLoad form n el r f (s.eaX ra rb))
    (runsScaled : exec scaled s = s.speLoad form n el r f (s.eaEv ra ui k)) (hm : 2 ^ k = m)
    (value : ∀ ea, f (elemOrder p.e el (s.mem.bytes (p.page ea).ra n)) = val ea) (hn : 0 < n := by decide)
    (small : n ≤ 8 := by decide) :
    ∀ q ∈ [(indexed, (if ra = 0#5 then 0#32 else s.gprW ra) + s.gprW rb),
        (scaled, (if ra = 0#5 then 0#32 else s.gprW ra) + BitVec.ofNat 32 (m * ui.toNat))],
      q.2.toNat % s.pins.speBoundary form n = 0 → PlainAccess s q.2 n .load p → Runs q.1 s
        (SpeLoadResult r (val q.2) q.2 (s.mem.bytes (p.page q.2).ra n) s) := by
  have both : ∀ q ∈ [(indexed, (if ra = 0#5 then 0#32 else s.gprW ra) + s.gprW rb),
      (scaled, (if ra = 0#5 then 0#32 else s.gprW ra) + BitVec.ofNat 32 (m * ui.toNat))],
      exec q.1 s = s.speLoad form n el r f q.2 := by
    rw [← eaEv_eq s ra ui hm]
    simpa using ⟨runsIndexed, runsScaled⟩
  intro q hq on h
  rw [Runs, both q hq, ← value]
  exact speLoad_plain form available (aligned_of_mod on) h hn small el r f

/-- The indexed and the scaled form of an SPE store. -/
theorem speStores_plain {form : SpeForm} {k m : Nat} {val : List Nat} {indexed scaled : Instr}
    (available : s.msr.getLsbD 25 = true) (wf : s.mem.wf = true)
    (runsIndexed : exec indexed s = s.speStore form n b (s.eaX ra rb))
    (runsScaled : exec scaled s = s.speStore form n b (s.eaEv ra ui k)) (hm : 2 ^ k = m) (elems : Elements false n val b)
    (some : 0 < n * val.length := by simp) (small : n * val.length ≤ 8 := by simp) :
    ∀ q ∈ [(indexed, (if ra = 0#5 then 0#32 else s.gprW ra) + s.gprW rb),
        (scaled, (if ra = 0#5 then 0#32 else s.gprW ra) + BitVec.ofNat 32 (m * ui.toNat))],
      q.2.toNat % s.pins.speBoundary form (n * val.length) = 0 → PlainAccess s q.2 (n * val.length) .store p →
        Runs q.1 s (StoreResult 4 n p.e (p.page q.2).ra val none q.2 s) := by
  have both : ∀ q ∈ [(indexed, (if ra = 0#5 then 0#32 else s.gprW ra) + s.gprW rb),
      (scaled, (if ra = 0#5 then 0#32 else s.gprW ra) + BitVec.ofNat 32 (m * ui.toNat))],
      exec q.1 s = s.speStore form n b q.2 := by
    rw [← eaEv_eq s ra ui hm]
    simpa using ⟨runsIndexed, runsScaled⟩
  intro q hq on h
  rw [← elems.length] at on h some small
  exact runs_speStore_plain (Nat.pos_of_mul_pos_right (elems.length ▸ some)) some small elems wf available on h
    (both q hq)

end

/-- Settles O48: each form is the shared SPE load of its size, whose bytes give the elements in the order of the page. -/
theorem speLoads : Obligations.SpeLoads := by
  intro s rd ra rb ui p available base ex eu half word load
  have half2 (ea : Word) : halfAt (elemOrder p.e 2 (s.mem.bytes (p.page ea).ra 2)) 0 = half ea 0 :=
    halfAt_bytes p.e _ (by decide)
  have half4 (ea : Word) : halfAt (elemOrder p.e 2 (s.mem.bytes (p.page ea).ra 4)) 0 = half ea 0 :=
    halfAt_bytes p.e _ (by decide)
  have next4 (ea : Word) : halfAt (elemOrder p.e 2 (s.mem.bytes (p.page ea).ra 4)) 1 = half ea 1 :=
    halfAt_bytes p.e _ (by decide)
  refine ⟨?evlhhesplat, ?evlhhousplat, ?evlhhossplat, ?evlwhe, ?evlwhou, ?evlwhos, ?evlwwsplat, ?evlwhsplat,
    ?evldd, ?evldw, ?evldh⟩
  case evlhhesplat =>
    exact speLoads_plain available (exec_evlhhesplatx s rd ra rb) (exec_evlhhesplat s rd ui ra) (m := 2) rfl
      fun ea => congrArg₂ evens (half2 ea) (half2 ea)
  case evlhhousplat =>
    exact speLoads_plain available (exec_evlhhousplatx s rd ra rb) (exec_evlhhousplat s rd ui ra) (m := 2) rfl
      fun ea => congrArg₂ odds (half2 ea) (half2 ea)
  case evlhhossplat =>
    exact speLoads_plain available (exec_evlhhossplatx s rd ra rb) (exec_evlhhossplat s rd ui ra) (m := 2) rfl
      fun ea => congrArg₂ oddsSigned (half2 ea) (half2 ea)
  case evlwhe =>
    exact speLoads_plain available (exec_evlwhex s rd ra rb) (exec_evlwhe s rd ui ra) (m := 4) rfl
      fun ea => congrArg₂ evens (half4 ea) (next4 ea)
  case evlwhou =>
    exact speLoads_plain available (exec_evlwhoux s rd ra rb) (exec_evlwhou s rd ui ra) (m := 4) rfl
      fun ea => congrArg₂ odds (half4 ea) (next4 ea)
  case evlwhos =>
    exact speLoads_plain available (exec_evlwhosx s rd ra rb) (exec_evlwhos s rd ui ra) (m := 4) rfl
      fun ea => congrArg₂ oddsSigned (half4 ea) (next4 ea)
  case evlwwsplat =>
    exact speLoads_plain available (exec_evlwwsplatx s rd ra rb) (exec_evlwwsplat s rd ui ra) (m := 4) rfl
      fun ea => congrArg (fun x => x ++ x) (bytesWord_bytes p.e (p.page ea).ra)
  case evlwhsplat =>
    exact speLoads_plain available (exec_evlwhsplatx s rd ra rb) (exec_evlwhsplat s rd ui ra) (m := 4) rfl
      fun ea => congrArg₂ (fun x y => x ++ x ++ y ++ y) (half4 ea) (next4 ea)
  case evldd =>
    exact speLoads_plain available (exec_evlddx s rd ra rb) (exec_evldd s rd ui ra) (m := 8) rfl
      fun ea => bytesDWord_bytes p.e (p.page ea).ra
  case evldw =>
    exact speLoads_plain available (exec_evldwx s rd ra rb) (exec_evldw s rd ui ra) (m := 8) rfl
      fun ea => bytesDWord_bytes_words p.e (p.page ea).ra
  case evldh =>
    exact speLoads_plain available (exec_evldhx s rd ra rb) (exec_evldh s rd ui ra) (m := 8) rfl
      fun ea => bytesDWord_bytes_halves p.e (p.page ea).ra

/-- Settles O49: each form is the shared SPE store of the elements whose bytes it puts together. -/
theorem speStores : Obligations.SpeStores := by
  intro s rs ra rb ui p available wf base ex eu h store
  have evens : Elements false 2 [h 0, h 2] (halfBytes (evenH (s.gprD rs)) ++ halfBytes (evenL (s.gprD rs))) :=
    .cons rfl (bytesNat_halfBytes _) (.single rfl (bytesNat_halfBytes _))
  have odds : Elements false 2 [h 1, h 3] (halfBytes (oddH (s.gprD rs)) ++ halfBytes (oddL (s.gprD rs))) :=
    .cons rfl (bytesNat_halfBytes _) (.single rfl (bytesNat_halfBytes _))
  have words : Elements false 4 [(s.gprH rs).toNat, (s.gprW rs).toNat] (dwordBytes (s.gprD rs)) :=
    .cons rfl (bytesNat_wordBytes _) (.single rfl (bytesNat_wordBytes _))
  refine ⟨?evstwhe, ?evstwho, ?evstwwe, ?evstwwo, ?evstdd, ?evstdw, ?evstdh⟩
  case evstwhe =>
    exact speStores_plain available wf (exec_evstwhex s rs ra rb) (exec_evstwhe s rs ui ra) (m := 4) rfl evens
  case evstwho =>
    exact speStores_plain available wf (exec_evstwhox s rs ra rb) (exec_evstwho s rs ui ra) (m := 4) rfl odds
  case evstwwe =>
    exact speStores_plain available wf (exec_evstwwex s rs ra rb) (exec_evstwwe s rs ui ra) (m := 4) rfl
      (.single rfl (bytesNat_wordBytes _))
  case evstwwo =>
    exact speStores_plain available wf (exec_evstwwox s rs ra rb) (exec_evstwwo s rs ui ra) (m := 4) rfl
      (.single rfl (bytesNat_wordBytes _))
  case evstdd =>
    exact speStores_plain available wf (exec_evstddx s rs ra rb) (exec_evstdd s rs ui ra) (m := 8) rfl
      (.single rfl (bytesNat_dwordBytes _))
  case evstdw =>
    exact speStores_plain available wf (exec_evstdwx s rs ra rb) (exec_evstdw s rs ui ra) (m := 8) rfl words
  case evstdh =>
    exact speStores_plain available wf (exec_evstdhx s rs ra rb) (exec_evstdh s rs ui ra) (m := 8) rfl
      (elements_halves (s.gprD rs))

end Sys2Proof.Machine
end

section
/-! PROOF. What every instruction keeps (O3, O58, O60): the canonical form of memory, in user mode the control registers, and
that an access that failed has taken an interrupt. All are carried through the shared operations together, under one predicate of a
state in the middle of an instruction and one of the state that an instruction leaves. -/

namespace Sys2Proof.Machine

/-! The predicates. -/

/-- The control registers that user mode does not change: of the debug registers all but EDBSR0, a halt, DEVENT and DDAM, of the
cache control registers all but the status bits CUL and CLO and the lines. -/
def State.controls (s : State) :=
  (s.hid, s.tmr, s.mmu.tlb, s.mmu.pid0, s.ints.ivpr, s.ints.ivor, s.ints.csrr0, s.ints.csrr1, s.ints.dsrr0, s.ints.dsrr1,
    s.ints.nmiPend, s.sprg.sprg, s.pm, s.psu.pscr, s.pins,
    { s.dbg with edbsr0 := 0#32, halted := false, devent := 0#32, ddam := 0#32 },
    { s.cache with
      icache := ⟨[], 0⟩, dcache := ⟨[], 0⟩, l1csr0 := s.cache.l1csr0 &&& ~~~0x600#32
      l1csr1 := s.cache.l1csr1 &&& ~~~0x600#32 })

/-- A halt is none that was not there or that the debugger has not allowed. -/
def State.HaltsAsAllowed (o s : State) : Prop :=
  s.dbg.halted = true → o.dbg.halted = true ∨ (o.dbg.edbcr0.getLsbD 30 = true ∧ o.pins.enOnce = true)

/-- What is asked of the states of an instruction that begins in `start`. -/
structure Guard where
  /-- Memory is canonical. -/
  form : Prop
  /-- The instruction begins in user mode, and the control registers are as in `start`. -/
  user : Prop
  /-- No access has failed, unless an interrupt was taken. -/
  sound : Prop
  start : State

namespace Guard

variable (g : Guard)

/-- In the middle of an instruction. -/
def Kept (s : State) : Prop :=
  (g.form → s.mem.wf = true) ∧
    (g.user → s.user = true ∧ s.msr = g.start.msr ∧ s.controls = g.start.controls ∧ g.start.HaltsAsAllowed s) ∧
    (g.sound → s.ev.dataFail = false)

/-- After an instruction, which may have taken an interrupt. -/
def Left (s : State) : Prop :=
  (g.form → s.mem.wf = true) ∧
    (g.user → s.msr &&& ~~~g.start.msr = 0#32 ∧ s.controls = g.start.controls ∧ g.start.HaltsAsAllowed s) ∧
    (g.sound → s.ev.dataFail = false ∨ s.ev.ints ≠ [])

/-- Of a part of an instruction: it goes on, or it has ended the instruction. -/
def Result {α : Type} : Res α → Prop
  | .ok _ s => g.Kept s
  | .exc s => g.Left s
  | .stop _ => True

def Filled : Fill → Prop
  | .noWay => True
  | .mc s => g.Kept s
  | .busErr s => g.Kept s
  | .ok _ s => g.Kept s

def Outcome : Host.Outcome State Fault Refusal → Prop
  | .next s => g.Left s
  | .fault _ => True
  | .refused _ => True

/-- In supervisor mode the control registers are not of concern. -/
def supervisor : Guard := { g with user := False }

/-- Where an access has failed, an interrupt is still to be taken. -/
def failing : Guard := { g with sound := False }

variable {g}

theorem Kept.left {s : State} (h : g.Kept s) : g.Left s := by
  obtain ⟨form, user, sound⟩ := h
  refine ⟨form, fun inUser => ?_, fun s => .inl (sound s)⟩
  obtain ⟨-, msr, controls, halts⟩ := user inUser
  exact ⟨by rw [msr]; exact BitVec.and_not_self _, controls, halts⟩

theorem Kept.supervisor {s : State} (h : g.Kept s) : g.supervisor.Kept s := ⟨h.1, False.elim, h.2.2⟩

theorem Kept.failing {s : State} (h : g.Kept s) : g.failing.Kept s := ⟨h.1, h.2.1, False.elim⟩

theorem Kept.failed {s : State} (h : g.Kept s) : g.failing.Kept s.markFail := ⟨h.1, h.2.1, False.elim⟩

/-- In supervisor mode only a change of memory, or a failed access, matters. -/
theorem Kept.of_mem {s t : State} (h : g.supervisor.Kept s) (mem : t.mem = s.mem)
    (fail : t.ev.dataFail = s.ev.dataFail := by rfl) : g.supervisor.Kept t :=
  ⟨fun form => mem ▸ h.1 form, False.elim, fun sound => fail.trans (h.2.2 sound)⟩

theorem Kept.left_of_mem {s t : State} (h : g.supervisor.Kept s) (mem : t.mem = s.mem)
    (fail : t.ev.dataFail = s.ev.dataFail := by rfl) : g.supervisor.Left t :=
  (h.of_mem mem fail).left

theorem Left.of_supervisor {s : State} (user : ¬ g.user) (h : g.supervisor.Left s) : g.Left s :=
  ⟨h.1, fun u => absurd u user, h.2.2⟩

theorem outcome_of_supervisor {o : Host.Outcome State Fault Refusal} (user : ¬ g.user) (h : g.supervisor.Outcome o) :
    g.Outcome o := by
  cases o with
  | next s => exact .of_supervisor user h
  | fault f => trivial
  | refused r => trivial

theorem result_of_supervisor {α : Type} {r : Res α} (user : ¬ g.user) (h : g.supervisor.Result r) : g.Result r := by
  cases r with
  | ok a s => exact ⟨h.1, fun u => absurd u user, h.2.2⟩
  | exc s => exact .of_supervisor user h
  | stop f => trivial

theorem Outcome.of_eq {o : Host.Outcome State Fault Refusal} {t : State} (h : g.Outcome o) (ho : o = .next t) : g.Left t := by
  subst ho
  exact h

end Guard

/-- What holds of both branches holds of the choice. -/
theorem holds_ite {α : Type} {P : α → Prop} {c : Prop} [Decidable c] {a b : α} (ha : P a) (hb : P b) :
    P (if c then a else b) := by
  split <;> assumption

section
variable {g : Guard} {s : State}

theorem Res.andThen_kept {α β : Type} {r : Res α} {k : α → State → Res β} (hr : g.Result r)
    (hk : ∀ a s, g.Kept s → g.Result (k a s)) : g.Result (r.andThen k) := by
  cases r with
  | ok a s => exact hk a s hr
  | exc s => exact hr
  | stop f => trivial

theorem Res.finish_kept {α : Type} {r : Res α} {k : α → State → State} (hr : g.Result r)
    (hk : ∀ a s, g.Kept s → g.Kept (k a s)) : g.Outcome (r.finish k) := by
  cases r with
  | ok a s => exact (hk a s hr).left
  | exc s => exact hr
  | stop f => trivial

/-! Interrupts. -/

/-- An interrupt that an instruction takes saves into SRR0 and SRR1 or into MCSRR0 and MCSRR1. -/
theorem takeInterrupt_left {t : IntType} (save : Word) (cls : t.cls = .nonCritical ∨ t.cls = .machineCheck)
    (h : g.failing.Kept s) : g.Left (takeInterrupt t save s) := by
  refine ⟨h.1, fun user => ?_, fun _ => .inr (List.cons_ne_nil _ _)⟩
  obtain ⟨-, msr, controls, halts⟩ :
    s.user = true ∧ s.msr = g.start.msr ∧ s.controls = g.start.controls ∧ g.start.HaltsAsAllowed s := h.2.1 user
  refine ⟨?_, ?_, halts⟩
  · change (s.msr &&& s.keepMask t.cls) &&& ~~~g.start.msr = 0#32
    rw [msr, BitVec.and_comm g.start.msr, BitVec.and_assoc, BitVec.and_not_self]
    exact BitVec.and_zero
  · rw [← controls]
    rcases cls with cls | cls <;> simp only [State.controls, takeInterrupt, State.saveIn, cls]

theorem raiseSync_left {t : IntType} (esr : Word) (cls : t.cls = .nonCritical) (h : g.failing.Kept s) :
    g.Left (raiseSync t esr s) :=
  takeInterrupt_left (s := s.setEsr _) _ (.inl cls) h

theorem raiseAlignment_left (ea bits : Word) (h : g.Kept s) : g.Left (raiseAlignment ea bits s) :=
  raiseSync_left (s := s.setDear _) _ rfl h.failing

theorem raiseIllegal_left (h : g.Kept s) : g.Left (raiseIllegal s) := raiseSync_left _ rfl h.failing

theorem raisePrivileged_left (h : g.Kept s) : g.Left (raisePrivileged s) := raiseSync_left _ rfl h.failing

theorem errorReport_left (bits : Word) (h : g.failing.Kept s) : g.Left (errorReport bits s) :=
  takeInterrupt_left (s := s.orMcsr _) _ (.inr rfl) h

theorem logMcar_kept (a : Word) (ea : Bool) (h : g.Kept s) : g.Kept (s.logMcar a ea) := holds_ite h h

theorem asyncMcheck_kept (bits a : Word) (ea : Bool) (h : g.Kept s) : g.Kept (s.asyncMcheck bits a ea) :=
  logMcar_kept a ea h

/-- Where an instruction is privileged, only supervisor mode sees what it does. -/
theorem privileged_left {k : State → Host.Outcome State Fault Refusal} (h : g.Kept s)
    (hk : g.supervisor.Kept s → g.supervisor.Outcome (k s)) : g.Outcome (privileged s k) := by
  unfold privileged
  split
  · exact raisePrivileged_left h
  next supervisor => exact Guard.outcome_of_supervisor (fun user => supervisor (h.2.1 user).1) (hk h.supervisor)

theorem speAvail_left {k : State → Host.Outcome State Fault Refusal} (h : g.Kept s) (hk : g.Kept s → g.Outcome (k s)) :
    g.Outcome (speAvail s k) :=
  holds_ite (hk h) (raiseSync_left _ rfl h.failing)

/-! Translation and the TLB. -/

theorem lookupPage_kept (hits : List (Nat × TlbEntry)) (ea : Word) (h : g.Kept s) : g.Kept (s.lookupPage hits ea).2 := by
  unfold State.lookupPage
  split <;> exact h

theorem translate_kept (as : Bool) (ea : Word) (h : g.Kept s) : g.Kept (s.translate as ea).2 := by
  unfold State.translate
  split
  · dsimp only
    split
    · exact h
    · exact lookupPage_kept (s := { s with free := _ }) _ ea h
  · exact lookupPage_kept _ ea h

theorem raiseDataTlb_left (ea bits : Word) (h : g.failing.Kept s) : g.Left (raiseDataTlb ea bits s) :=
  raiseSync_left _ rfl (s := (s.missMas _ _).setDear _) h

theorem raiseDsi_left (ea bits : Word) (h : g.failing.Kept s) : g.Left (raiseDsi ea bits s) :=
  raiseSync_left _ rfl (s := s.setDear _) h

theorem searchBy_kept (hits : List (Nat × TlbEntry)) (ea : Word) (h : g.Kept s) : g.Kept (s.searchBy hits ea) := by
  unfold State.searchBy
  split <;> exact h

theorem tlbSearch_kept (ea : Word) (h : g.Kept s) : g.Kept (s.tlbSearch ea) :=
  holds_ite (searchBy_kept (s := { s with free := _ }) _ _ h) (searchBy_kept _ _ h)

/-! Cache lines, buffers and memory. -/

theorem setCache_kept (side : Side) (c : Cache) (h : g.Kept s) : g.Kept (s.setCache side c) := by
  cases side <;> exact h

theorem setCsrBits_kept (side : Side) {v : Word} (status : v &&& ~~~0x600#32 = 0#32) (h : g.Kept s) :
    g.Kept (s.setCsrBits side v) := by
  have same (w : Word) : (w ||| v) &&& ~~~0x600#32 = w &&& ~~~0x600#32 := by
    rw [BitVec.and_comm, BitVec.and_or_distrib_left, BitVec.and_comm _ v, status, BitVec.or_zero, BitVec.and_comm]
  refine ⟨by cases side <;> exact h.1, fun user => ?_, by cases side <;> exact h.2.2⟩
  obtain ⟨inUser, msr, controls, halts⟩ := h.2.1 user
  cases side <;> refine ⟨inUser, msr, ?_, halts⟩ <;> rw [← controls] <;>
    simp only [State.controls, State.setCsrBits, same]

theorem putLine_kept (side : Side) (set w : Nat) (l : CacheLine) (h : g.Kept s) : g.Kept (s.putLine side set w l) :=
  setCache_kept side _ h

theorem pointAt_kept (side : Side) (w : Nat) (h : g.Kept s) : g.Kept (s.pointAt side w) := setCache_kept side _ h

theorem lookup_kept (side : Side) (ci : Bool) (op : LookOp) (ea ra : Word) (h : g.Kept s) :
    g.Kept (s.lookup side ci op ea ra).2 := setCache_kept side _ h

theorem drawIf_kept (b : Bool) (n : Nat) (h : g.Kept s) : g.Kept (s.drawIf b n) := holds_ite h h

theorem awaitIndex_kept (side : Side) (ra : Word) (h : g.Kept s) : g.Kept (s.awaitIndex side ra) := by
  cases side <;> exact h

theorem staleLine_kept (set : Nat) (l : CacheLine) (h : g.Kept s) : g.Kept (s.staleLine set l) := holds_ite h h

theorem reportAll_kept (l : List Word) (h : g.Kept s) : g.Kept (s.reportAll l) := by
  induction l generalizing s with
  | nil => exact h
  | cons ra l ih => exact ih (asyncMcheck_kept _ _ _ h)

theorem flushBuffers_kept (h : g.Kept s) : g.Kept s.flushBuffers := reportAll_kept _ h

theorem putMem_kept (late : Bool) (ra : Word) (b : List Byte) (h : g.Kept s) : g.Kept (s.putMem late ra b) :=
  ⟨fun form => putRam_wf (h.1 form) ra b, h.2⟩

theorem push_kept (quiet : Bool) (set : Nat) (l : CacheLine) (h : g.Kept s) : g.Kept (s.push quiet set l).2 := by
  have written (b : Bool) (bytes : List Byte) :
      g.Kept ((if b then s.asyncMcheck 0x20000000#32 (lineAddr set l) false else s).putMem false (lineAddr set l) bytes) :=
    putMem_kept _ _ _ (holds_ite (asyncMcheck_kept _ _ _ h) h)
  simp only [State.push, apply_ite Prod.snd]
  exact holds_ite (asyncMcheck_kept _ _ _ (written _ _)) (written _ _)

theorem replaced_kept (side : Side) (set w : Nat) (l : CacheLine) (h : g.Kept s) : g.Kept (s.replace side set w l) :=
  setCache_kept side _ (holds_ite (push_kept _ _ _ h) h)

theorem fillWay_kept (side : Side) (set w : Nat) (ra : Word) (h : g.Kept s) : g.Filled (s.fillWay side set w ra) := by
  have awaited := awaitIndex_kept side ra h
  unfold State.fillWay
  dsimp only
  split
  · exact pointAt_kept _ _ h
  · split
    · exact pointAt_kept _ _ (setCache_kept _ _ (holds_ite (push_kept _ _ _ awaited) awaited))
    · exact drawIf_kept _ _ (replaced_kept _ _ _ _ awaited)

theorem fill_kept (side : Side) (ea ra : Word) (h : g.Kept s) : g.Filled (s.fill side ea ra) := by
  unfold State.fill
  split
  · trivial
  · exact fillWay_kept _ _ _ _ h

theorem finvFlush_result (set w : Nat) (inv : Bool) (h : g.Kept s) : g.Result (s.finvFlush set w inv) := by
  have put {t : State} (l : CacheLine) (ht : g.Kept t) := putLine_kept .data set w l ht
  have first (l : CacheLine) := put l h
  have pushed (l : CacheLine) := push_kept false set l (first l)
  have left (l : CacheLine) : g.Kept (if inv then (s.putLine .data set w l).putLine .data set w l.discard
      else s.putLine .data set w l) := holds_ite (put _ (first l)) (first l)
  unfold State.finvFlush
  dsimp only
  refine holds_ite (holds_ite ?_ (left _)) (holds_ite ?_ (left _))
  · exact errorReport_left _ (asyncMcheck_kept _ _ _ (first _)).failing
  · exact holds_ite (holds_ite (put _ (pushed _)) (put _ (pushed _)))
      (holds_ite (pushed _) (holds_ite (pushed _) (holds_ite (put _ (pushed _)) (put _ (pushed _)))))

theorem finv0_kept (v : Word) (h : g.Kept s) : g.Result (s.finv0 v) := by
  unfold State.finv0
  dsimp only
  split
  · exact putLine_kept _ _ _ _ h
  · exact finvFlush_result _ _ _ h
  · exact finvFlush_result _ _ _ h
  · exact setCache_kept .data _ h

theorem finv1_kept (v : Word) (h : g.Kept s) : g.Kept (s.finv1 v) := by
  have inv (l : CacheLine) :
      g.Kept (((if l.valid then (s.staleLine (finvSet v) l).purge (lineAddr (finvSet v) l) else s)).putLine .instr (finvSet v)
        (finvWay v) l.discard) :=
    putLine_kept _ _ _ _ (holds_ite (staleLine_kept _ _ h) h)
  unfold State.finv1
  dsimp only
  split
  · exact inv _
  · exact setCache_kept _ _ h
  · exact holds_ite (inv _) h

/-! Parts of an access. -/

theorem failReport_stops {α : Type} (bits : Word) (h : g.Kept s) : g.Result (failReport bits s : Res α) :=
  errorReport_left bits h.failed

theorem logBytes_kept (b : List Byte) (h : g.Kept s) : g.Kept (s.logBytes b) := by
  unfold State.logBytes
  split <;> exact h

theorem psuBeat_kept (store : Bool) (ea : Word) (b : List Byte) (h : g.Kept s) : g.Kept (s.psuBeat store ea b) :=
  holds_ite h h

theorem psuReadError_kept (h : g.Kept s) : g.Kept s.psuReadError := holds_ite h h

/-- What a failed read leaves before its report, in either cache. -/
theorem sideReadError_kept (side : Side) (h : g.Kept s) :
    g.Kept (match side with | .instr => s | .data => s.psuReadError : State) := by
  cases side
  · exact h
  · exact psuReadError_kept h

theorem lookupFail_kept {α : Type} (side : Side) (ra : Word) (lk : Bool) (report : Word) (h : g.Kept s) :
    g.Result (s.lookupFail side ra lk report : Res α) :=
  failReport_stops _ (asyncMcheck_kept _ _ _ h)

/-! Reads. -/

theorem busRead_kept (side : Side) (p : Page) (n : Nat) (h : g.Kept s) : g.Result (s.busRead side p n) := by
  have flushed : g.Kept (match side with | .instr => s | .data => s.flushBuffers : State) := by
    cases side
    · exact h
    · exact flushBuffers_kept h
  exact holds_ite (failReport_stops _ (asyncMcheck_kept _ _ _ (sideReadError_kept side flushed)))
    (drawIf_kept _ _ flushed)

theorem readDataError_kept (side : Side) (ea : Word) (p : Page) (n w : Nat) (h : g.Kept s) :
    g.Result (s.readDataError side ea p n w) := by
  have awaited := awaitIndex_kept side p.ra h
  exact holds_ite (busRead_kept _ _ _ h) <|
    holds_ite (failReport_stops _ (asyncMcheck_kept _ _ _ h)) <|
    holds_ite
      (failReport_stops _ (asyncMcheck_kept _ _ _ (putLine_kept _ _ _ _ (sideReadError_kept side awaited))))
      (drawIf_kept _ _ (putLine_kept _ _ _ _ awaited))

theorem readMiss_kept (side : Side) (ea : Word) (p : Page) (n : Nat) (h : g.Kept s) :
    g.Result (s.readMiss side ea p n) := by
  have filled := fill_kept side ea p.ra h
  unfold State.readMiss
  refine holds_ite (busRead_kept _ _ _ h) ?_
  generalize s.fill side ea p.ra = f at filled ⊢
  cases f with
  | noWay => exact busRead_kept _ _ _ h
  | mc t => exact lookupFail_kept _ _ _ _ filled
  | busErr t => exact failReport_stops _ (asyncMcheck_kept _ _ _ (sideReadError_kept side filled))
  | ok w t => exact filled

theorem readBeat_kept (side : Side) (ea : Word) (p : Page) (n : Nat) (h : g.Kept s) :
    g.Result (s.readBeat side ea p n) := by
  have looked (op : LookOp) := lookup_kept side p.i op ea p.ra h
  unfold State.readBeat
  refine holds_ite (busRead_kept _ _ _ h) ?_
  dsimp only
  split
  · trivial
  · exact lookupFail_kept _ _ _ _ (looked _)
  · exact holds_ite (readDataError_kept _ _ _ _ _ (looked _)) (looked _)
  · exact readMiss_kept _ _ _ _ (looked _)

theorem loadBeat_kept (ea : Word) (p : Page) (n : Nat) (h : g.Kept s) : g.Result (s.loadBeat ea p n) :=
  Res.andThen_kept (readBeat_kept _ _ _ _ h) fun _ _ ht => psuBeat_kept _ _ _ ht

theorem loadBeats_kept (l : List Beat) (h : g.Kept s) : g.Result (s.loadBeats l) := by
  induction l generalizing s with
  | nil => exact h
  | cons b l ih =>
    exact Res.andThen_kept (loadBeat_kept _ _ _ h) fun _ _ ht => Res.andThen_kept (ih ht) fun _ _ hu => hu

/-! Writes. -/

theorem awaitStores_kept (p : Page) (h : g.Kept s) : g.Kept (s.awaitStores p) :=
  holds_ite (flushBuffers_kept h) (holds_ite h h)

theorem busWrite_kept (p : Page) (b : List Byte) (h : g.Kept s) : g.Result (s.busWrite p b) := by
  have awaited := awaitStores_kept p h
  have marked := asyncMcheck_kept 0x4#32 p.ra false awaited
  exact holds_ite (holds_ite (failReport_stops _ marked) (holds_ite awaited marked))
    (putMem_kept _ _ _ awaited)

theorem drawDcwa_kept (h : g.Kept s) : g.Kept s.drawDcwa := holds_ite h h

theorem writeLine_kept (ea : Word) (w : Nat) (b : List Byte) (wt : Bool) (h : g.Kept s) :
    g.Kept (s.writeLine ea w b wt) := putLine_kept _ _ _ _ h

theorem storeIn_kept (ea : Word) (p : Page) (w : Nat) (b : List Byte) (h : g.Kept s) :
    g.Result (s.storeIn ea p w b) :=
  have written := writeLine_kept ea w b _ h
  holds_ite (busWrite_kept _ _ written) written

theorem storeMiss_kept (ea : Word) (p : Page) (b : List Byte) (h : g.Kept s) : g.Result (s.storeMiss ea p b) := by
  have around {t : State} (ht : g.Kept t) : g.Result ((t.psuBeat true ea b).busWrite p b) :=
    busWrite_kept _ _ (psuBeat_kept _ _ _ ht)
  have drawn := drawDcwa_kept h
  have filled := fill_kept .data ea p.ra drawn
  unfold State.storeMiss
  refine holds_ite ?_ (around drawn)
  generalize s.drawDcwa.fill .data ea p.ra = f at filled ⊢
  cases f with
  | noWay => exact around drawn
  | mc t => exact lookupFail_kept _ _ _ _ filled
  | busErr t => exact around (asyncMcheck_kept _ _ _ filled)
  | ok w t => exact storeIn_kept _ _ _ _ (psuBeat_kept _ _ _ filled)

theorem storeBeat_kept (ea : Word) (p : Page) (b : List Byte) (h : g.Kept s) : g.Result (s.storeBeat ea p b) := by
  have looked := lookup_kept .data p.i .access ea p.ra h
  unfold State.storeBeat
  refine holds_ite (busWrite_kept _ _ (psuBeat_kept _ _ _ h)) ?_
  dsimp only
  split
  · trivial
  · exact lookupFail_kept _ _ _ _ looked
  · exact storeIn_kept _ _ _ _ (psuBeat_kept _ _ _ looked)
  · exact storeMiss_kept _ _ _ looked

theorem storeBeats_kept (l : List Beat) (b : List Byte) (h : g.Kept s) : g.Result (s.storeBeats l b) := by
  induction l generalizing s b with
  | nil => exact h
  | cons t l ih =>
    exact Res.andThen_kept (storeBeat_kept _ _ _ h) fun _ _ ht => holds_ite (ih _ ht) ht

/-! Whole accesses. -/

theorem beats_kept (k : AccessKind) (esr ea : Word) (n : Nat) {part : Page → State → State} (h : g.Kept s)
    (hp : ∀ p t, g.Kept t → g.Kept (part p t)) : g.Result (s.beats k esr ea n part) := by
  have first := translate_kept s.msrDs ea h
  have dsi {t : State} (ea esr : Word) (ht : g.Kept t) : g.Result (Res.exc (α := List Beat) (raiseDsi ea esr t.markFail)) :=
    raiseDsi_left _ _ ht.failed
  have miss {t : State} (ea : Word) (ht : g.Kept t) : g.Result (Res.exc (α := List Beat) (raiseDataTlb ea esr t.markFail)) :=
    raiseDataTlb_left _ _ ht.failed
  unfold State.beats
  dsimp only
  split
  · exact miss _ first
  next p1 _ =>
    refine holds_ite (holds_ite first (dsi _ _ first)) ?_
    have second (as : Bool) (ea : Word) := translate_kept as ea first
    have half {t : State} (c : Bool) (ht : g.Kept t) : g.Kept (if c then part p1 t else t) := holds_ite (hp p1 t ht) ht
    split
    · exact miss _ (half _ (second _ _))
    · exact holds_ite (dsi _ _ (second _ _)) <| holds_ite (dsi _ _ (half _ (second _ _))) <|
        holds_ite (dsi _ _ (half _ (second _ _))) (second _ _)

theorem load_kept (esr ea : Word) (n el : Nat) (h : g.Kept s) : g.Result (s.load esr ea n el) :=
  Res.andThen_kept (beats_kept _ _ _ _ (s := s.logAccess ea false n) h fun _ _ ht => ht) fun _ _ ht =>
    Res.andThen_kept (loadBeats_kept _ ht) fun _ _ hu => logBytes_kept _ hu

theorem storePart_kept (ea : Word) (el : Nat) (b : List Byte) (p : Page) (h : g.Kept s) :
    g.Kept (storePart ea el b p s) := by
  have stored := storeBeat_kept (s := { s with free := s.free + 1 }) ea p ((elemOrder p.e el b).take (room ea)) h
  unfold storePart
  refine holds_ite ?_ h
  split
  next heq => rw [heq] at stored; exact stored
  · exact h
  · exact h

theorem storeDone_kept (esr ea : Word) (el : Nat) (b : List Byte) (h : g.Kept s) : g.Result (s.storeDone esr ea el b) :=
  Res.andThen_kept
    (beats_kept _ _ _ _ (s := s.logAccess ea true b.length) h fun _ _ ht => storePart_kept _ _ _ _ ht)
    fun _ _ ht => storeBeats_kept _ _ (logBytes_kept _ ht)

theorem store_kept (esr ea : Word) (el : Nat) (b : List Byte) (h : g.Kept s) : g.Result (s.store esr ea el b) :=
  Res.andThen_kept (storeDone_kept _ _ _ _ h) fun _ _ ht => ht

/-! Reservation accesses. -/

theorem atomicFlush_kept (ea : Word) (p : Page) (report : Word) (h : g.Kept s) :
    g.Result (s.atomicFlush ea p report) := by
  have looked := lookup_kept .data p.i .atomic ea p.ra h
  have put {t : State} (w : Nat) (l : CacheLine) (ht : g.Kept t) := putLine_kept .data (setOf ea) w l ht
  unfold State.atomicFlush
  refine holds_ite h ?_
  dsimp only
  split
  · trivial
  · exact lookupFail_kept _ _ _ _ looked
  · exact looked
  · have pushed (l : CacheLine) := push_kept p.i (setOf ea) l looked
    exact holds_ite (lookupFail_kept _ _ _ _ looked) <| holds_ite
      (holds_ite (put _ _ (pushed _)) <|
        holds_ite (failReport_stops _ (put _ _ (pushed _))) (failReport_stops _ (put _ _ (pushed _)))) looked

theorem loadReserve_kept (ea : Word) (n : Nat) (h : g.Kept s) : g.Result (s.loadReserve ea n) :=
  Res.andThen_kept (beats_kept _ _ _ _ (s := s.logAccess ea false n) h fun _ _ ht => ht) fun l t ht => by
    cases l with
    | nil => exact ht
    | cons b l =>
      exact Res.andThen_kept (atomicFlush_kept _ _ _ ht) fun _ _ hu =>
        Res.andThen_kept (busRead_kept _ _ _ hu) fun _ _ hv => logBytes_kept _ (psuBeat_kept _ _ _ hv)

theorem storeConditional_kept (ea : Word) (b : List Byte) (h : g.Kept s) : g.Result (s.storeConditional ea b) := by
  refine Res.andThen_kept (beats_kept _ _ _ _ (s := s.logAccess ea true b.length) h fun _ _ ht => ht)
    fun l t ht => ?_
  cases l with
  | nil => exact ht
  | cons q l =>
    refine Res.andThen_kept (atomicFlush_kept _ _ _ ht) fun hit u hu => ?_
    have ready (b : List Byte) := logBytes_kept b (psuBeat_kept true ea b (flushBuffers_kept hu))
    refine holds_ite (failReport_stops _ (asyncMcheck_kept _ _ _ (ready _))) (holds_ite (ready _) ?_)
    cases hit with
    | none => exact putMem_kept false _ _ (ready _)
    | some w => exact putMem_kept false _ _ (writeLine_kept ea w (elemOrder q.page.e b.length b) true (ready _))

/-! Cache block operations. -/

theorem blockPage_kept (k : AccessKind) (ea : Word) (h : g.Kept s) : g.Result (s.blockPage k ea) := by
  have paged := translate_kept (s := s.logAccess ea (k == .store) 0) s.msrDs ea h
  unfold State.blockPage
  dsimp only
  split
  · exact raiseDataTlb_left _ _ paged.failed
  · exact holds_ite paged (raiseDsi_left _ _ paged.failed)

theorem blockLook_kept (side : Side) (op : LookOp) (ea : Word) (p : Page) (report : Word) (h : g.Kept s) :
    g.Result (s.blockLook side op ea p report) := by
  have looked := lookup_kept side p.i op ea p.ra h
  unfold State.blockLook
  dsimp only
  split
  · trivial
  · exact lookupFail_kept _ _ _ _ looked
  · exact looked
  · exact looked

theorem blockFlush_kept (ea : Word) (inv : Bool) (h : g.Kept s) : g.Result (s.blockFlush ea inv) := by
  refine holds_ite h (Res.andThen_kept (blockPage_kept _ _ h) fun p t ht =>
    Res.andThen_kept (blockLook_kept _ _ _ _ _ ht) fun hit u hu => ?_)
  cases hit with
  | none => exact hu
  | some w =>
    have pushed (c : Bool) (l : CacheLine) : g.Kept (if c then u.push false (setOf ea) l else (true, u)).2 := by
      cases c
      · exact hu
      · exact push_kept _ _ _ hu
    exact holds_ite hu (putLine_kept _ _ _ _ (pushed _ _))

theorem blockDiscard_kept (side : Side) (ea : Word) (h : g.Kept s) : g.Result (s.blockDiscard side ea) := by
  refine holds_ite h (Res.andThen_kept (blockPage_kept _ _ h) fun p t ht =>
    Res.andThen_kept (blockLook_kept _ _ _ _ _ ht) fun hit u hu => ?_)
  cases hit <;> cases side
  case none.instr => exact hu
  case none.data => exact hu
  case some.instr => exact putLine_kept _ _ _ _ (staleLine_kept _ _ hu)
  case some.data => exact putLine_kept _ _ _ _ hu

theorem blockZero_kept (ea : Word) (h : g.Kept s) : g.Result (s.blockZero ea) := by
  refine holds_ite (raiseAlignment_left _ _ h) (Res.andThen_kept (blockPage_kept _ _ h) fun p t ht =>
    holds_ite (raiseAlignment_left _ _ ht) (Res.andThen_kept (blockLook_kept _ _ _ _ _ ht) fun hit u hu => ?_))
  cases hit with
  | some w => exact putLine_kept _ _ _ _ hu
  | none =>
    refine holds_ite (raiseAlignment_left _ _ hu) ?_
    split
    · exact raiseAlignment_left _ _ hu
    · exact holds_ite (lookupFail_kept _ _ _ _ (pointAt_kept _ _ hu)) (replaced_kept _ _ _ _ hu)

theorem lockPage_kept (side : Side) (ea : Word) (h : g.Kept s) : g.Result (s.lockPage side ea) := by
  have paged := translate_kept (s := s.logAccess ea false 0) s.msrDs ea h
  unfold State.lockPage
  dsimp only
  split
  · exact raiseDataTlb_left _ _ paged.failed
  · exact holds_ite (raiseSync_left _ rfl paged.failed) <|
      holds_ite paged (raiseDsi_left _ _ paged.failed)

theorem lockFill_kept (side : Side) (ea : Word) (p : Page) {f : Fill} (h : g.Kept s) (hf : g.Filled f) :
    g.Result (s.lockFill side ea p f) := by
  cases f with
  | noWay => exact h
  | mc t => exact lookupFail_kept _ _ _ _ hf
  | busErr t => exact failReport_stops _ (asyncMcheck_kept _ _ _ hf)
  | ok w t => exact putLine_kept _ _ _ _ hf

theorem blockLock_kept (side : Side) (ct : BitVec 4) (ea : Word) (h : g.Kept s) : g.Result (s.blockLock side ct ea) := by
  refine holds_ite (setCsrBits_kept _ (by decide) h) (Res.andThen_kept (lockPage_kept _ _ h) fun p t ht =>
    Res.andThen_kept (blockLook_kept _ _ _ _ _ ht) fun hit u hu => ?_)
  cases hit with
  | some w => exact putLine_kept _ _ _ _ hu
  | none =>
    refine holds_ite (setCsrBits_kept _ (by decide) hu) ?_
    split
    · exact lockFill_kept _ _ _ hu (fillWay_kept _ _ _ _ hu)
    · have noted := setCsrBits_kept (v := 0x200#32) side (by decide) hu
      exact holds_ite
        (lockFill_kept (s := { u.setCsrBits side 0x200#32 with free := _ }) _ _ _ noted (fillWay_kept _ _ _ _ noted))
        noted

theorem blockUnlock_kept (side : Side) (ct : BitVec 4) (ea : Word) (h : g.Kept s) :
    g.Result (s.blockUnlock side ct ea) := by
  refine holds_ite h (Res.andThen_kept (lockPage_kept _ _ h) fun p t ht =>
    Res.andThen_kept (blockLook_kept _ _ _ _ _ ht) fun hit u hu => ?_)
  cases hit with
  | none => exact hu
  | some w => exact putLine_kept _ _ _ _ hu


/-! Integer results, loads and stores. -/

theorem result_left (n : Nat) (rt : Gpr) (r : Word) (ca ov : Option Bool) (rc : Bool) (h : g.Kept s) :
    g.Left (s.result n rt r ca ov rc) := by
  cases ca <;> cases ov <;> cases rc <;> exact h.left

theorem resultOpen_left (rt : Gpr) (oe rc : Bool) (h : g.Kept s) : g.Left (s.resultOpen rt oe rc) := by
  cases oe <;> cases rc <;> exact h.left

theorem setBase_kept (u : Option Gpr) (ea : Word) (h : g.Kept s) : g.Kept (s.setBase u ea) := by
  cases u <;> exact h

theorem loadTo_left (len n : Nat) (rt : Gpr) (u : Option Gpr) (f : List Byte → Word) (ea : Word) (h : g.Kept s) :
    g.Outcome (s.loadTo len n rt u f ea) :=
  Res.finish_kept (load_kept _ _ _ _ h) fun _ _ ht => setBase_kept u ea ht

theorem storeFrom_left (len : Nat) (b : List Byte) (u : Option Gpr) (ea : Word) (h : g.Kept s) :
    g.Outcome (s.storeFrom len b u ea) :=
  Res.finish_kept (store_kept _ _ _ _ h) fun _ _ ht => setBase_kept u ea ht

/-- A part of an instruction that ends with the pc past its four bytes. -/
theorem finish_advance_left {α : Type} {r : Res α} (h : g.Result r) : g.Outcome (r.finish fun _ s => s.advance 4) :=
  Res.finish_kept h fun _ _ ht => ht

/-- Putting a loaded word where it goes keeps what is asked for. -/
def Guard.Puts (g : Guard) (l : List (State → Word → State)) : Prop := ∀ put ∈ l, ∀ s w, g.Kept s → g.Kept (put s w)

theorem puts_nil : g.Puts [] := fun _ hp => absurd hp List.not_mem_nil

theorem puts_cons {put : State → Word → State} {l : List (State → Word → State)}
    (hp : ∀ s w, g.Kept s → g.Kept (put s w)) (hl : g.Puts l) : g.Puts (put :: l) :=
  List.forall_mem_cons.mpr ⟨hp, hl⟩

theorem puts_intoGprs (l : List Gpr) : g.Puts (intoGprs l) :=
  List.forall_mem_map.mpr fun _ _ _ _ h => h

theorem loadWords_kept (ea : Word) {l : List (State → Word → State)} (hl : g.Puts l) (h : g.Kept s) :
    g.Result (s.loadWords ea l) := by
  induction l generalizing s ea with
  | nil => exact h
  | cons put l ih =>
    obtain ⟨hp, hl⟩ := List.forall_mem_cons.mp hl
    exact Res.andThen_kept (load_kept _ _ _ _ h) fun _ _ ht => ih _ hl (hp _ _ ht)

theorem storeWords_kept (ea : Word) (l : List Word) (h : g.Kept s) : g.Result (s.storeWords ea l) := by
  induction l generalizing s ea with
  | nil => exact h
  | cons w l ih => exact Res.andThen_kept (storeDone_kept _ _ _ _ h) fun _ _ ht => holds_ite (ih _ ht) ht

theorem loadMultiple_left (ea : Word) {l : List (State → Word → State)} (hl : g.Puts l) (h : g.Kept s) :
    g.Outcome (s.loadMultiple ea l) :=
  holds_ite (finish_advance_left (loadWords_kept ea hl h)) (raiseAlignment_left _ _ h)

theorem storeMultiple_left (ea : Word) (l : List Word) (h : g.Kept s) : g.Outcome (s.storeMultiple ea l) :=
  holds_ite (finish_advance_left (storeWords_kept ea l h)) (raiseAlignment_left _ _ h)

/-- The loads of two save/restore registers. -/
theorem loadPair_left {p q : State → Word → State} (ea : State → Word) (h : g.Kept s)
    (hp : ∀ s w, (p s w).mem = s.mem ∧ (p s w).ev = s.ev)
    (hq : ∀ s w, (q s w).mem = s.mem ∧ (q s w).ev = s.ev) : g.Outcome (privileged s fun s => s.loadMultiple (ea s) [p, q]) :=
  privileged_left h fun h =>
    have kept {f : State → Word → State} (hf : ∀ s w, (f s w).mem = s.mem ∧ (f s w).ev = s.ev) (s : State) (w : Word)
        (h : g.supervisor.Kept s) : g.supervisor.Kept (f s w) := h.of_mem (hf s w).1 (congrArg Ev.dataFail (hf s w).2)
    loadMultiple_left _ (puts_cons (kept hp) (puts_cons (kept hq) puts_nil)) h

theorem loadReserved_left (n : Nat) (rt ra rb : Gpr) (h : g.Kept s) : g.Outcome (s.loadReserved n rt ra rb) :=
  holds_ite (Res.finish_kept (loadReserve_kept _ _ h) fun _ _ ht => ht) (raiseAlignment_left _ _ h)

theorem storeReserved_left (b : List Byte) (ra rb : Gpr) (h : g.Kept s) : g.Outcome (s.storeReserved b ra rb) :=
  holds_ite h.left <| holds_ite (Res.finish_kept (storeConditional_kept _ _ h) fun _ _ ht => ht) (raiseAlignment_left _ _ h)

/-! Floating point and the SPE. -/

theorem fpFinish_left (oh ol : FpOut) {write : Word → Word → State → State} (h : g.Kept s)
    (hw : ∀ a b t, g.Kept t → g.Kept (write a b t)) : g.Outcome (s.fpFinish oh ol write) := by
  have wrote (f : Word) : g.Left ((write oh.result ol.result { s with spefscr := f }).advance 4) :=
    Guard.Kept.left (s := State.advance _ 4) (hw _ _ { s with spefscr := f } h)
  refine holds_ite ?data (holds_ite (holds_ite ?round ?inexact) ?exact)
  case data => exact raiseSync_left (s := { s with spefscr := _ }) _ rfl h.failing
  case round =>
    refine takeInterrupt_left (s := State.setEsr _ _) _ (.inl rfl) (Guard.Kept.failing (g := g) ?_)
    exact hw _ _ { s with spefscr := _, free := _ } h
  case inexact => exact wrote _
  case exact => exact wrote _

theorem fpScalar_left (rd : Gpr) (o : FpOut) (h : g.Kept s) : g.Outcome (s.fpScalar rd o) :=
  fpFinish_left _ _ h fun _ _ _ ht => ht

theorem fpVector_left (rd : Gpr) (oh ol : FpOut) (h : g.Kept s) : g.Outcome (s.fpVector rd oh ol) :=
  speAvail_left h fun h => fpFinish_left _ _ h fun _ _ _ ht => ht

theorem fpCompare_left (crf : CrField) (f : Word → Word → Bool) (a b : Word) (h : g.Kept s) :
    g.Outcome (s.fpCompare crf f a b) := fpFinish_left _ _ h fun _ _ _ ht => ht

theorem fpCompareV_left (crf : CrField) (f : Word → Word → Bool) (a b : DWord) (h : g.Kept s) :
    g.Outcome (s.fpCompareV crf f a b) := speAvail_left h fun h => fpFinish_left _ _ h fun _ _ _ ht => ht

theorem speWrite_left (rd : Gpr) (v : DWord) (toAcc : Bool) (h : g.Kept s) : g.Left (s.speWrite rd v toAcc) := by
  cases toAcc <;> exact h.left

theorem spe_left (rd : Gpr) (v : DWord) (h : g.Kept s) : g.Outcome (s.spe rd v) :=
  speAvail_left h fun h => speWrite_left _ _ _ h

theorem speMul_left (rd : Gpr) (v : DWord) (toAcc : Bool) (h : g.Kept s) : g.Outcome (s.speMul rd v toAcc) :=
  speAvail_left h fun h => speWrite_left _ _ _ h

theorem speOv_left (rd : Gpr) (v : DWord) (ovh ov toAcc : Bool) (h : g.Kept s) : g.Outcome (s.speOv rd v ovh ov toAcc) :=
  speAvail_left h fun h => speWrite_left (s := { s with spefscr := _ }) _ _ _ h

theorem speCompare_left (crf : CrField) (a b : Bool) (h : g.Kept s) : g.Outcome (s.speCompare crf a b) :=
  speAvail_left h fun h => h.left

theorem speLoad_left (form : SpeForm) (n el : Nat) (rd : Gpr) (f : List Byte → DWord) (ea : Word) (h : g.Kept s) :
    g.Outcome (s.speLoad form n el rd f ea) :=
  speAvail_left h fun h => holds_ite (Res.finish_kept (load_kept _ _ _ _ h) fun _ _ ht => ht) (raiseAlignment_left _ _ h)

theorem speStore_left (form : SpeForm) (el : Nat) (b : List Byte) (ea : Word) (h : g.Kept s) :
    g.Outcome (s.speStore form el b ea) :=
  speAvail_left h fun h => holds_ite (finish_advance_left (store_kept _ _ _ _ h)) (raiseAlignment_left _ _ h)

/-! Special purpose registers. -/

theorem mfspr_kept (r : Spr) (rt : Gpr) (h : g.Kept s) : g.Kept (s.mfspr r rt) := by
  have drawn (b : Bool) (n : Nat) : g.Kept (if b then s else { s with free := s.free + n }) := holds_ite h h
  unfold State.mfspr
  dsimp only
  split <;> exact drawn _ _

theorem staleAll_kept (l : List (Nat × CacheLine)) (h : g.Kept s) : g.Kept (s.staleAll l) := by
  induction l generalizing s with
  | nil => exact h
  | cons p l ih => exact ih (staleLine_kept _ _ h)

theorem writeL1csr_supervisor (side : Side) (v : Word) (h : g.supervisor.Kept s) :
    g.supervisor.Kept (s.writeL1csr side v) := by
  cases side with
  | data => exact (flushBuffers_kept h).of_mem rfl
  | instr =>
    have purged : g.supervisor.Kept (if v.getLsbD 1 then (s.staleAll s.cache.icache.lines).purgeAll else s) :=
      holds_ite (staleAll_kept s.cache.icache.lines h) h
    exact purged.of_mem rfl

theorem writeDbg_mem (s : State) (r : Spr) (v : Word) : (s.writeDbg r v).mem = s.mem := by
  unfold State.writeDbg
  dsimp only
  split <;> rfl

theorem writeDbg_ev (s : State) (r : Spr) (v : Word) : (s.writeDbg r v).ev.dataFail = s.ev.dataFail := by
  unfold State.writeDbg
  dsimp only
  split <;> rfl

theorem writeSpr_supervisor (r : Spr) (v : Word) (h : g.supervisor.Kept s) : g.supervisor.Result (s.writeSpr r v) := by
  cases r
  case l1finv0 => exact Res.andThen_kept (finv0_kept v h) fun _ _ ht => ht.of_mem rfl
  case l1finv1 => exact (finv1_kept v h).of_mem rfl
  case l1csr0 => exact writeL1csr_supervisor .data v h
  case l1csr1 => exact writeL1csr_supervisor .instr v h
  case mmucsr0 => exact holds_ite (P := g.supervisor.Kept) (h.of_mem rfl) h
  case dbcr0 | dbcr1 | dbcr2 | dbcr3 | dbcr4 | dbcr5 | dbcr6 | dbcnt | iac | dac1 | dac2 | devent | ddam =>
    exact h.of_mem (writeDbg_mem s _ v) (writeDbg_ev s _ v)
  all_goals exact h.of_mem rfl

/-- The registers that user mode may write. -/
def userSprs : List Spr := [.xer, .lr, .ctr, .usprg0, .spefscr, .devent, .ddam]

theorem mem_userSprs {n : BitVec 10} {e : SprEntry} (named : sprNamed n.toNat = some e) (writable : e.writable = true)
    (free : sprPrivileged n = false) : e.reg ∈ userSprs := by
  have free : n.toNat.testBit 4 = false := free
  revert writable free
  generalize n.toNat = k at named
  unfold sprNamed at named
  split at named <;> cases named <;> decide

theorem writeSpr_user {r : Spr} (v : Word) (hr : r ∈ userSprs) (h : g.Kept s) : g.Result (s.writeSpr r v) := by
  simp only [userSprs, List.mem_cons, List.not_mem_nil, or_false] at hr
  rcases hr with rfl | rfl | rfl | rfl | rfl | rfl | rfl <;> exact h

theorem mtspr_kept {r : Spr} (rs : Gpr) (allowed : g.user → r ∈ userSprs) (h : g.Kept s) : g.Result (s.mtspr r rs) := by
  have owed (o : Option SyncReg) {g : Guard} (h : g.Kept s) :
      g.Kept (match o with | none => s | some q => s.owe q : State) := by cases o <;> exact h
  by_cases user : g.user
  · have hr := allowed user
    unfold State.mtspr
    split
    · simp [userSprs] at hr
    · simp [userSprs] at hr
    · exact writeSpr_user _ hr (owed _ h)
  · refine Guard.result_of_supervisor user ?_
    have h := h.supervisor
    unfold State.mtspr
    split
    · exact holds_ite (P := g.supervisor.Kept) (h.of_mem rfl) h
    · exact holds_ite (P := g.supervisor.Kept) (h.of_mem rfl) h
    · exact writeSpr_supervisor _ _ (owed _ h)

theorem badSpr_left (n : BitVec 10) (h : g.Kept s) : g.Left (badSpr n s) :=
  holds_ite (raisePrivileged_left h) (raiseIllegal_left h)

theorem execMfspr_left (rt : Gpr) (n : BitVec 10) (h : g.Kept s) : g.Outcome (execMfspr rt n s) := by
  unfold execMfspr
  split
  · exact badSpr_left n h
  · exact holds_ite (badSpr_left n h) (holds_ite (raisePrivileged_left h) (mfspr_kept _ _ h).left)

theorem execMtspr_left (n : BitVec 10) (rs : Gpr) (h : g.Kept s) : g.Outcome (execMtspr n rs s) := by
  unfold execMtspr
  split
  · exact badSpr_left n h
  next e named =>
    split
    · exact badSpr_left n h
    next writable =>
      split
      · exact raisePrivileged_left h
      next granted =>
        refine finish_advance_left (mtspr_kept rs (fun user => ?_) h)
        have inUser := (h.2.1 user).1
        refine mem_userSprs named (by simpa using writable) ?_
        simpa [inUser] using granted

/-! Device control and performance monitor registers. -/

theorem writeCdacntl_supervisor (v : Word) (h : g.supervisor.Kept s) : g.supervisor.Kept (s.writeCdacntl v) :=
  holds_ite (P := g.supervisor.Kept)
    (holds_ite (P := g.supervisor.Kept) ((flushBuffers_kept h).of_mem rfl)
      ((putLine_kept _ _ _ _ (flushBuffers_kept h)).of_mem rfl))
    (h.of_mem rfl)

theorem writeDcr_supervisor (r : Dcr) (v : Word) (h : g.supervisor.Kept s) : g.supervisor.Kept (s.writeDcr r v) := by
  cases r
  case cdacntl => exact writeCdacntl_supervisor v h
  all_goals exact h.of_mem rfl

theorem execMfdcr_left (rt : Gpr) (n : BitVec 10) (h : g.Kept s) : g.Outcome (execMfdcr rt n s) := by
  unfold execMfdcr
  split
  · exact raiseIllegal_left h
  · exact privileged_left h fun h => h.left_of_mem rfl

theorem execMtdcr_left (n : BitVec 10) (rs : Gpr) (h : g.Kept s) : g.Outcome (execMtdcr n rs s) := by
  unfold execMtdcr
  split
  · exact raiseIllegal_left h
  · exact privileged_left h fun h => Guard.Kept.left (s := State.advance _ 4) (writeDcr_supervisor _ _ h)

theorem execMfpmr_left (rd : Gpr) (n : BitVec 10) (h : g.Kept s) : g.Outcome (execMfpmr rd n s) := by
  refine holds_ite (raisePrivileged_left h) ?_
  split
  · exact raiseIllegal_left h
  · exact h.left

/-- The performance monitor registers that can be written have privileged numbers. -/
theorem writablePmr_privileged {n : BitVec 10} {r : Pmr} (named : pmrNamed n.toNat = some (r, false)) :
    n.getLsbD 4 = true := by
  have listed : ∀ k ∈ writablePmrs, k.testBit 4 = true := by decide
  exact listed _ (mem_writablePmrs named)

theorem writePmr_supervisor (r : Pmr) (v : Word) (h : g.supervisor.Kept s) : g.supervisor.Kept (s.writePmr r v) :=
  holds_ite (P := g.supervisor.Kept) (h.of_mem rfl) (h.of_mem rfl)

theorem execMtpmr_left (n : BitVec 10) (rs : Gpr) (h : g.Kept s) : g.Outcome (execMtpmr n rs s) := by
  unfold execMtpmr
  split
  · exact raisePrivileged_left h
  next granted =>
    split
    next r named =>
      rw [writablePmr_privileged named, Bool.true_and] at granted
      refine Guard.outcome_of_supervisor (fun user => granted (h.2.1 user).1) ?_
      exact Guard.Kept.left (s := State.advance _ 4) (writePmr_supervisor r _ h.supervisor)
    · exact raiseIllegal_left h
    · exact raiseIllegal_left h

/-! System instructions. -/

theorem pins_of_controls {o : State} (h : s.controls = o.controls) : s.pins = o.pins := by
  simp only [State.controls, Prod.mk.injEq] at h
  simp only [h]

theorem edbcr0_of_controls {o : State} (h : s.controls = o.controls) : s.dbg.edbcr0 = o.dbg.edbcr0 := by
  simp only [State.controls, Prod.mk.injEq] at h
  obtain ⟨-, -, -, -, -, -, -, -, -, -, -, -, -, -, -, dbg, -⟩ := h
  have same := congrArg Debug.edbcr0 dbg
  exact same

/-- A halt that the debugger has enabled. -/
theorem enterHalt_left (enabled : s.dbg.edbcr0.getLsbD 30 = true) (once : s.pins.enOnce = true) (h : g.Kept s) :
    g.Left s.enterHalt := by
  refine ⟨h.1, fun user => ?_, h.left.2.2⟩
  obtain ⟨msr, same, -⟩ := h.left.2.1 user
  exact ⟨msr, same, fun _ => .inr ⟨edbcr0_of_controls same ▸ enabled, pins_of_controls same ▸ once⟩⟩

theorem notifyHalt_left (n : Nat) (vle : Bool) (dui : BitVec 5) (duis : BitVec 10) (h : g.Kept s) :
    g.Left (s.notifyHalt n vle dui duis) := by
  unfold State.notifyHalt
  split
  · exact raiseIllegal_left h
  next disabled =>
    obtain ⟨enabled, once⟩ := not_or.mp disabled
    have enabled : s.dbg.edbcr0.getLsbD 30 = true :=
      eq_true_of_ne_false fun off => enabled ((and_twoPow_eq_zero_iff s.dbg.edbcr0 (n := 30) (by decide)).mpr off)
    have once : s.pins.enOnce = true := by simpa using once
    dsimp only
    generalize noted : (if s.dbg.edm then { s with dbg := { s.dbg with edbsr0 := s.dbg.edbsr0 ||| _ } } else s) = t
    have kept : g.Kept t := noted ▸ holds_ite (P := g.Kept) h h
    have same : t.dbg.edbcr0 = s.dbg.edbcr0 ∧ t.pins = s.pins := by rw [← noted]; split <;> exact ⟨rfl, rfl⟩
    exact holds_ite (P := g.Left) (enterHalt_left (same.1 ▸ enabled) (same.2 ▸ once) kept)
      (Guard.Kept.left (s := State.advance _ n) kept)

theorem return_left (r0 r1 : State → Word) (h : g.Kept s) :
    g.Outcome (privileged s fun s => .next (returnFrom (r0 s) (r1 s) s)) :=
  privileged_left h fun h => h.left_of_mem rfl

theorem execRfdi_left (h : g.Kept s) : g.Outcome (execRfdi s) :=
  holds_ite (raiseIllegal_left h) (return_left _ _ h)


/-! Every instruction. -/

theorem exec_left (i : Instr) (h : g.Kept s) : g.Outcome (exec i s) := by
  cases i
  case tlbre | tlbwe | tlbivax | tlbsync | mfmsr | mtmsr | wrtee | wrteei =>
    simp only [exec_tlbre, exec_tlbwe, exec_tlbivax, exec_tlbsync, exec_mfmsr, exec_mtmsr, exec_wrtee, exec_wrteei]
    exact privileged_left h fun h => h.left_of_mem rfl
  case tlbsx =>
    rw [exec_tlbsx]
    exact privileged_left h fun h => Guard.Kept.left (s := State.advance _ 4) (tlbSearch_kept _ h)
  case icbt | dcba | dcbt | dcbtst | isync | seIsync | mfcr | mtcrf | isel | brinc | seMtlr | seMtctr | mcrxr => exact h.left
  case icbi => exact finish_advance_left (blockDiscard_kept _ _ h)
  case dcbi =>
    rw [exec_dcbi]
    exact privileged_left h fun h => finish_advance_left (blockDiscard_kept _ _ h)
  case dcbf | dcbst => exact finish_advance_left (blockFlush_kept _ _ h)
  case dcbz => exact finish_advance_left (blockZero_kept _ h)
  case dcbtls | dcbtstls | icbtls => exact finish_advance_left (blockLock_kept _ _ _ h)
  case dcblc | icblc => exact finish_advance_left (blockUnlock_kept _ _ _ h)
  case addi | addis | mulli | neg | mulhw | mulhwu | andiDot | andisDot | ori | oris | xori | xoris | and | andc | or
      | orc | xor | nand | nor | eqv | extsb | extsh | cntlzw | rlwinm | rlwimi | rlwnm | slw | srw | srawi | eAdd16i
      | eAddi | eMulli | eAndi | eOri | eXori | eLi | eAdd2iDot | eAdd2is | eMull2i | eOr2i | eAnd2iDot | eOr2is
      | eLis | eAnd2isDot | eRlwimi | eRlwinm | eSlwi | eRlw | eRlwi | eSrwi | mullw | sraw | addic | addicDot
      | subfic | add | addc | adde | addme | addze | subf | subfc | subfe | subfme | subfze | eAddic | eSubfic | seNot
      | seNeg | seMflr | seMfctr | seExtzb | seExtsb | seExtzh | seExtsh | seMr | seMtar | seMfar | seAdd | seMullw
      | seSub | seSubf | seSrw | seSlw | seOr | seAndc | seAnd | seAddi | seSubi | seBmaski | seAndi | seBclri
      | seBgeni | seBseti | seSrwi | seSrawi | seSlwi | seLi | seSraw =>
    exact result_left _ _ _ _ _ _ h
  case divw | divwu => exact holds_ite (P := g.Outcome) (resultOpen_left _ _ _ h) (result_left _ _ _ _ _ _ h)
  case cmpi | cmp | cmpli | cmpl | mcrf | eCmpi | eCmpli | eCmp16i | eCmpl16i | eCmph16i | eCmphl16i | eCmph | eCmphl
      | eMcrf | seCmp | seCmpl | seCmph | seCmphl | seCmpli | seCmpi | seBtsti =>
    exact h.left
  case lbz | lbzu | lhz | lhzu | lha | lhau | lwz | lwzu | lbzx | lbzux | lhzx | lhzux | lhax | lhaux | lwzx | lwzux
      | lhbrx | lwbrx | eLbz | eLha | eLwz | eLhz | eLbzu | eLhzu | eLwzu | eLhau | seLbz | seLhz | seLwz =>
    exact loadTo_left _ _ _ _ _ _ h
  case stb | stbu | sth | sthu | stw | stwu | stbx | stbux | sthx | sthux | stwx | stwux | sthbrx | stwbrx | eStb
      | eStw | eSth | eStbu | eSthu | eStwu | seStb | seSth | seStw =>
    exact storeFrom_left _ _ _ _ h
  case lmw | eLmvgprw | eLmw => exact loadMultiple_left _ (puts_intoGprs _) h
  case eLmvsprw =>
    exact loadMultiple_left _ (puts_cons (fun _ _ h => h) <| puts_cons (fun _ _ h => h) <| puts_cons (fun _ _ h => h) <|
      puts_cons (fun _ _ h => h) puts_nil) h
  case eLmvsrrw | eLmvcsrrw | eLmvdsrrw | eLmvmcsrrw =>
    simp only [exec_eLmvsrrw, exec_eLmvcsrrw, exec_eLmvdsrrw, exec_eLmvmcsrrw]
    exact loadPair_left _ h (fun _ _ => ⟨rfl, rfl⟩) fun _ _ => ⟨rfl, rfl⟩
  case stmw | eStmvgprw | eStmvsprw | eStmw => exact storeMultiple_left _ _ h
  case eStmvsrrw | eStmvcsrrw | eStmvdsrrw | eStmvmcsrrw =>
    simp only [exec_eStmvsrrw, exec_eStmvcsrrw, exec_eStmvdsrrw, exec_eStmvmcsrrw]
    exact privileged_left h fun h => storeMultiple_left _ _ h
  case b | bc | bclr | bcctr | eB | eBc | seB | seBc | seBlr | seBctr => exact h.left
  case crand | crandc | creqv | crnand | crnor | cror | crorc | crxor | eCrnor | eCrandc | eCrxor | eCrnand | eCrand
      | eCreqv | eCrorc | eCror =>
    exact h.left
  case tw | twi => exact holds_ite (P := g.Outcome) (raiseSync_left _ rfl h.failing) h.left
  case sc | seSc => exact takeInterrupt_left (s := s.setEsr _) _ (.inl rfl) h.failing
  case seIllegal => exact raiseIllegal_left h
  case rfi | rfci | rfmci | seRfi | seRfci | seRfmci =>
    simp only [exec_rfi, exec_rfci, exec_rfmci, exec_seRfi, exec_seRfci, exec_seRfmci]
    exact return_left _ _ h
  case rfdi | seRfdi => exact execRfdi_left h
  case mfspr => exact execMfspr_left _ _ h
  case mtspr => exact execMtspr_left _ _ h
  case dnh | eDnh | seDnh => exact notifyHalt_left _ _ _ _ h
  case wait | msync => exact Guard.Kept.left (s := State.advance _ 4) (flushBuffers_kept h)
  case mbar =>
    exact holds_ite (P := g.Outcome) (raiseIllegal_left h) (Guard.Kept.left (s := State.advance _ 4) (flushBuffers_kept h))
  case mfdcr => exact execMfdcr_left _ _ h
  case mtdcr => exact execMtdcr_left _ _ h
  case lbarx | lharx | lwarx => exact loadReserved_left _ _ _ _ h
  case stbcxDot | sthcxDot | stwcxDot => exact storeReserved_left _ _ _ h
  case efsabs | efsnabs | efsneg | efsadd | efssub | efsmul | efsdiv | efsmadd | efsmsub | efsnmadd | efsnmsub
      | efssqrt | efsmax | efsmin | efscfsi | efscfui | efscfsf | efscfuf | efsctsi | efsctsiz | efsctui | efsctuiz
      | efsctsf | efsctuf | efscfh | efscth =>
    exact fpScalar_left _ _ h
  case efscmpgt | efscmplt | efscmpeq => exact fpCompare_left _ _ _ _ h
  case efststgt | efststlt | efststeq => exact h.left
  case evfsabs | evfsnabs | evfsneg | evfsadd | evfssub | evfsaddsub | evfssubadd | evfsaddx | evfssubx | evfsaddsubx
      | evfssubaddx | evfssum | evfsdiff | evfssumdiff | evfsdiffsum | evfsmul | evfsmule | evfsmulo | evfsmulx
      | evfsdiv | evfssqrt | evfsmadd | evfsmsub | evfsnmadd | evfsnmsub | evfsmax | evfsmin | evfscfsi | evfscfui
      | evfscfsf | evfscfuf | evfsctsi | evfsctsiz | evfsctui | evfsctuiz | evfsctsf | evfsctuf | evfscfh | evfscth =>
    exact fpVector_left _ _ _ h
  case evfscmpgt | evfscmplt | evfscmpeq => exact fpCompareV_left _ _ _ _ h
  case evfststgt | evfststlt | evfststeq =>
    simp only [exec_evfststgt, exec_evfststlt, exec_evfststeq]
    exact speAvail_left h fun h => h.left
  case evabs | evaddiw | evaddw | evand | evandc | evcntlsw | evcntlzw | eveqv | evextsb | evextsh | evmergehi
      | evmergehilo | evmergelo | evmergelohi | evnand | evneg | evnor | evor | evorc | evrlw | evrlwi | evrndw
      | evslw | evslwi | evsplatfi | evsplati | evsrwis | evsrwiu | evsrws | evsrwu | evsubfw | evsubifw | evxor
      | evsel =>
    exact spe_left _ _ h
  case evcmpeq | evcmpgts | evcmpgtu | evcmplts | evcmpltu => exact speCompare_left _ _ _ h
  case evmra | evmhegsmfaa | evmhegsmfan | evmhegsmiaa | evmhegsmian | evmhegumiaa | evmhegumian | evmhesmf
      | evmhesmfa | evmhesmi | evmhesmia | evmheumi | evmheumia | evmhogsmfaa | evmhogsmfan | evmhogsmiaa
      | evmhogsmian | evmhogumiaa | evmhogumian | evmhosmf | evmhosmfa | evmhosmi | evmhosmia | evmhoumi | evmhoumia
      | evmwhsmf | evmwhsmfa | evmwhsmi | evmwhsmia | evmwhumi | evmwhumia | evmwlumi | evmwlumia | evmwsmf | evmwsmfa
      | evmwsmfaa | evmwsmfan | evmwsmi | evmwsmia | evmwsmiaa | evmwsmian | evmwumi | evmwumia | evmwumiaa
      | evmwumian | evmhesmfaaw | evmhesmfanw | evmhesmiaaw | evmhesmianw | evmheumiaaw | evmheumianw | evmhosmfaaw
      | evmhosmfanw | evmhosmiaaw | evmhosmianw | evmhoumiaaw | evmhoumianw | evmwlsmiaaw | evmwlsmianw | evmwlumiaaw
      | evmwlumianw | evaddsmiaaw | evaddumiaaw | evsubfsmiaaw | evsubfumiaaw =>
    exact speMul_left _ _ _ h
  case evdivws | evdivwu | evmhessf | evmhessfa | evmhossf | evmhossfa | evmwhssf | evmwhssfa | evmhessfaaw
      | evmhessfanw | evmhessiaaw | evmhessianw | evmheusiaaw | evmheusianw | evmhossfaaw | evmhossfanw | evmhossiaaw
      | evmhossianw | evmhousiaaw | evmhousianw | evmwlssiaaw | evmwlssianw | evmwlusiaaw | evmwlusianw | evaddssiaaw
      | evaddusiaaw | evsubfssiaaw | evsubfusiaaw | evmwssf | evmwssfa | evmwssfaa | evmwssfan =>
    exact speOv_left _ _ _ _ _ h
  case evldd | evlddx | evldw | evldwx | evldh | evldhx | evlhhesplat | evlhhesplatx | evlhhousplat | evlhhousplatx
      | evlhhossplat | evlhhossplatx | evlwhe | evlwhex | evlwhou | evlwhoux | evlwhos | evlwhosx | evlwwsplat
      | evlwwsplatx | evlwhsplat | evlwhsplatx =>
    exact speLoad_left _ _ _ _ _ _ h
  case evstdd | evstddx | evstdw | evstdwx | evstdh | evstdhx | evstwhe | evstwhex | evstwho | evstwhox | evstwwe
      | evstwwex | evstwwo | evstwwox =>
    exact speStore_left _ _ _ _ h
  case mfpmr => exact execMfpmr_left _ _ h
  case mtpmr => exact execMtpmr_left _ _ h


end

/-- An instruction whose access failed has taken an interrupt. -/
theorem exec_sound {i : Instr} {s t : State} (fresh : s.ev.dataFail = false) (run : exec i s = .next t) :
    t.ev.dataFail = false ∨ t.ev.ints ≠ [] := by
  let g : Guard := { form := False, user := False, sound := True, start := s }
  have kept : g.Kept s := ⟨False.elim, False.elim, fun _ => fresh⟩
  exact ((exec_left i kept).of_eq run).2.2 trivial

/-- Settles O60: no operation that an instruction is made of changes a control register in user mode, as those that could are
refused, and an interrupt only clears bits of the MSR. -/
theorem userIsolation : Obligations.UserIsolation := by
  intro i s t user run
  let g : Guard := { form := False, user := True, sound := False, start := s }
  have kept : g.Kept s := ⟨False.elim, fun _ => ⟨user, rfl, rfl, fun halted => .inl halted⟩, False.elim⟩
  obtain ⟨msr, controls, halts⟩ := ((exec_left i kept).of_eq run).2.1 trivial
  simp only [State.controls, Prod.mk.injEq] at controls
  obtain ⟨hid, tmr, tlb, pid0, ivpr, ivor, csrr0, csrr1, dsrr0, dsrr1, nmi, sprg, pm, pscr, pins, dbg, cache⟩ := controls
  refine ⟨hid, tmr, tlb, pid0, ivpr, ivor, csrr0, csrr1, dsrr0, dsrr1, nmi, sprg, pm, pscr, pins, ?dbg, halts,
    congrArg Caches.l1csr0 cache, congrArg Caches.l1csr1 cache, ?cache, msr⟩
  case dbg =>
    exact congrArg (fun d : Debug => { d with
      edbsr0 := t.dbg.edbsr0, halted := t.dbg.halted, devent := t.dbg.devent, ddam := t.dbg.ddam }) dbg
  case cache =>
    exact congrArg (fun c : Caches => { c with
      icache := t.cache.icache, dcache := t.cache.dcache, l1csr0 := t.cache.l1csr0, l1csr1 := t.cache.l1csr1 }) cache

end Sys2Proof.Machine
end

section
/-! PROOF. The canonical form of memory under every step (O3): the instructions keep it by `exec_left`; here are the inputs, the
fetch, the debug events and the end of a step. -/

namespace Sys2Proof.Machine

/-! The invariant. -/

/-- Memory is in its canonical form. -/
def Canonical (s : State) : Prop := s.mem.wf = true

/-- A guard that asks for the canonical form alone. -/
def formGuard (s : State) : Guard := { form := True, user := False, sound := False, start := s }

def CanonicalOutcome : Host.Outcome State Fault Refusal → Prop
  | .next s => Canonical s
  | .fault _ => True
  | .refused _ => True

def ResCanonical {α : Type} : Res α → Prop
  | .ok _ s => Canonical s
  | .exc s => Canonical s
  | .stop _ => True

section
variable {s : State}

theorem Canonical.kept (h : Canonical s) : (formGuard s).Kept s := ⟨fun _ => h, False.elim, False.elim⟩

theorem Canonical.of_mem {t : State} (h : Canonical s) (mem : t.mem = s.mem) : Canonical t := by rwa [Canonical, mem]

theorem Canonical.result {α : Type} {r : Res α} (h : (formGuard s).Result r) : ResCanonical r := by
  cases r with
  | ok a t => exact h.1 trivial
  | exc t => exact h.1 trivial
  | stop f => trivial

theorem CanonicalOutcome.of_eq {o : Host.Outcome State Fault Refusal} {t : State} (h : CanonicalOutcome o)
    (ho : o = .next t) : Canonical t := by
  subst ho
  exact h

theorem exec_canonical (i : Instr) (h : Canonical s) : CanonicalOutcome (exec i s) := by
  have left := exec_left i h.kept
  generalize exec i s = o at left ⊢
  cases o with
  | next t => exact left.1 trivial
  | fault f => trivial
  | refused r => trivial

theorem canonical_ite {c : Prop} [Decidable c] {t : State} (hs : Canonical s) (ht : Canonical t) :
    Canonical (if c then s else t) := holds_ite hs ht

theorem takeInterrupt_canonical (t : IntType) (save : Word) (h : Canonical s) : Canonical (takeInterrupt t save s) := h

theorem raiseSync_canonical (t : IntType) (esr : Word) (h : Canonical s) : Canonical (raiseSync t esr s) := h

theorem errorReport_canonical (bits : Word) (h : Canonical s) : Canonical (errorReport bits s) := h

theorem raiseInstrTlb_canonical (ea : Word) (mif : Bool) (h : Canonical s) : Canonical (raiseInstrTlb ea mif s) := h

theorem raiseIsi_canonical (bits : Word) (h : Canonical s) : Canonical (raiseIsi bits s) := h

/-! Parts that instructions have too. -/

theorem asyncMcheck_canonical (bits a : Word) (ea : Bool) (h : Canonical s) : Canonical (s.asyncMcheck bits a ea) :=
  h.of_mem (asyncMcheck_mem _ _ _ _)

theorem putLine_canonical (side : Side) (set w : Nat) (l : CacheLine) (h : Canonical s) :
    Canonical (s.putLine side set w l) := h.of_mem (putLine_mem _ _ _ _ _)

theorem setCsrBits_canonical (side : Side) (v : Word) (h : Canonical s) : Canonical (s.setCsrBits side v) :=
  h.of_mem (setCsrBits_mem _ _ _)

theorem flushBuffers_canonical (h : Canonical s) : Canonical s.flushBuffers := h.of_mem flushBuffers_mem

theorem reportAll_canonical (l : List Word) (h : Canonical s) : Canonical (s.reportAll l) :=
  (reportAll_kept l h.kept).1 trivial

theorem translate_canonical (as : Bool) (ea : Word) (h : Canonical s) : Canonical (s.translate as ea).2 :=
  (translate_kept as ea h.kept).1 trivial

theorem readBeat_canonical (side : Side) (ea : Word) (p : Page) (n : Nat) (h : Canonical s) :
    ResCanonical (s.readBeat side ea p n) := Canonical.result (readBeat_kept side ea p n h.kept)

theorem drawIf_canonical (b : Bool) (n : Nat) (h : Canonical s) : Canonical (s.drawIf b n) := canonical_ite h h

/-! Debug. -/

theorem postEvent_canonical (own bits : Word) (vle : Option Bool) (de : Bool) (h : Canonical s) :
    Canonical (s.postEvent own bits vle de) :=
  canonical_ite (canonical_ite h h) h

theorem postIf_canonical (en own bits : Word) (vle : Option Bool) (de : Bool) (h : Canonical s) :
    Canonical (s.postIf en own bits vle de) :=
  canonical_ite (postEvent_canonical own bits vle de h) h

theorem takeDebug_canonical (h : Canonical s) : Canonical (takeDebug s) :=
  takeInterrupt_canonical (s := { s with dbg := _ }) _ _ h

theorem postIacFrom_canonical (vle : Bool) (n : Nat) (l : List Bool) (h : Canonical s) :
    Canonical (s.postIacFrom vle n l) := by
  induction l generalizing n s with
  | nil => exact h
  | cons b l ih => exact ih _ (canonical_ite (postIf_canonical _ _ _ _ _ h) h)

theorem setOfst_canonical (soft hard : Bool) (v : Word) (h : Canonical s) : Canonical (s.setOfst soft hard v) := by
  have soft_wf : Canonical (if soft && s.dbg.idm then s.mapDbsr fun w => insertBits w 0xE#32 v else s) := canonical_ite h h
  exact canonical_ite soft_wf soft_wf

theorem postDac_canonical (d : DacHits) (imprecise de : Bool) (h : Canonical s) : Canonical (s.postDac d imprecise de) :=
  have one {t : State} (own bits ide : Word) (soft : Bool) (ht : Canonical t) :
      Canonical (if bits == 0#32 then t
        else (t.postEvent own (bits ||| ide) (some t.cur.vle) de).setOfst soft (!soft) 0#32) :=
    canonical_ite ht (setOfst_canonical _ _ _ (postEvent_canonical _ _ _ _ ht))
  one _ _ _ _ (one _ _ _ _ h)

theorem triggerCount_canonical (h : Canonical s) : Canonical s.triggerCount := canonical_ite h h

theorem countDebug_canonical (old : Debug) (e : DbgEvents) (imprecise de : Bool) (h : Canonical s) :
    Canonical (s.countDebug old e imprecise de).2 := by
  unfold State.countDebug
  split
  · exact h
  · refine canonical_ite (postEvent_canonical _ _ _ _ ?_) ?_ <;>
      exact canonical_ite (postEvent_canonical _ _ _ _ (canonical_ite (triggerCount_canonical h) h))
        (canonical_ite (triggerCount_canonical h) h)

/-! Snoops and the other work in the buffers. -/

theorem snoopInvalidate_canonical (ra : Word) (h : Canonical s) : Canonical (s.snoopInvalidate ra) := by
  have drawn (n : Nat) : Canonical (if n ≤ 1 then ((0, s) : Nat × State) else s.drawBelow n).2 := by split <;> exact h
  unfold State.snoopInvalidate
  refine canonical_ite h ?_
  dsimp only
  split
  · exact canonical_ite (asyncMcheck_canonical _ _ _ (drawn _)) (drawn _)
  · exact canonical_ite (asyncMcheck_canonical _ _ _ (setCsrBits_canonical _ _ (putLine_canonical _ _ _ _ (drawn _))))
      (putLine_canonical _ _ _ _ (drawn _))

theorem snoopSome_canonical (k : Nat) (h : Canonical s) : Canonical (State.snoopSome k s) := by
  induction k generalizing s with
  | zero => exact h
  | succ k ih =>
    unfold State.snoopSome
    split
    · exact h
    · exact ih (snoopInvalidate_canonical (s := { s with buf := _ }) _ h)

theorem queueSnoop_canonical (ra : Word) (h : Canonical s) : Canonical (s.queueSnoop ra) := canonical_ite h h

theorem syncSnoops_canonical (h : Canonical s) : Canonical s.syncSnoops := canonical_ite h h

theorem reportSome_canonical (k : Nat) (h : Canonical s) : Canonical (s.reportSome k) := reportAll_canonical _ h

theorem settleBuffers_canonical (h : Canonical s) : Canonical s.settleBuffers :=
  canonical_ite h (snoopSome_canonical _ (reportSome_canonical (s := { s with free := _ }) _ h))

/-! Synchronization. -/

theorem syncPut_canonical (r : SyncReg) (v : Word) (h : Canonical s) : Canonical (s.syncPut r v) := by
  unfold State.syncPut
  dsimp only
  split
  all_goals exact h

theorem viewOld_canonical (l : List (SyncReg × Word)) (h : Canonical s) : Canonical (s.viewOld l) := by
  induction l generalizing s with
  | nil => exact h
  | cons p l ih =>
    exact canonical_ite (ih (syncPut_canonical (s := { s with free := _, sync := _ }) _ _ h)) (ih (s := { s with free := _ }) h)

theorem restore_canonical (y : Sync) (l : List (SyncReg × Word)) (h : Canonical s) : Canonical (s.restore y l) := by
  induction l generalizing s with
  | nil => exact h
  | cons p l ih => exact ih (canonical_ite (syncPut_canonical _ _ h) h)

theorem endView_canonical (y : Sync) (back : Bool) (h : Canonical s) : Canonical (s.endView y back) := by
  have settled (b : Bool) : Canonical (if b then s.settleMas missFields else s) := canonical_ite h h
  unfold State.endView
  dsimp only
  split
  · exact restore_canonical _ _ (settled _)
  · split <;> exact restore_canonical _ _ (settled _)

theorem endSync_canonical (y : Sync) (csi back : Bool) (h : Canonical s) : Canonical (s.endSync y csi back) := by
  have viewed : Canonical (if y.new.isEmpty then s else s.endView y back) := canonical_ite h (endView_canonical y back h)
  exact canonical_ite viewed viewed

/-! Timers. -/

theorem setTb_canonical (tb : DWord) (h : Canonical s) : Canonical (s.setTb tb) := h

theorem tick_canonical (h : Canonical s) : Canonical s.tick := by
  have counted : Canonical (if s.tbHeld then s else s.setTb (s.tmr.tb + 1#64)) := canonical_ite h (setTb_canonical _ h)
  exact canonical_ite (canonical_ite counted counted) h

/-! Inputs, resets and power states. -/

theorem revert_canonical (l : List Host.Cell) (h : Canonical s) : Canonical (s.revert l) := by
  induction l generalizing s with
  | nil => exact h
  | cons c l ih =>
    exact ih (s := { s with mem := _, free := _ }) (holds_ite (P := fun m : Memory => m.wf = true) (Memory.wf_put _ h _ _) h)

theorem powerOn_canonical (h : Canonical s) : Canonical s.powerOn := revert_canonical (s := s) s.buf.replaced h

theorem processorReset_canonical (h : Canonical s) : Canonical s.processorReset := revert_canonical (s := s) s.buf.replaced h

theorem devtEvent_canonical (wp : Nat) (bit : Word) (h : Canonical s) : Canonical (s.devtEvent wp bit) :=
  canonical_ite (postIf_canonical (s := { s with ev := _ }) _ _ _ _ _ h) h

theorem onced_canonical {t : State} (hs : Canonical s) (ht : Canonical t) : Canonical (s.onced t) := canonical_ite ht hs

theorem arrive_canonical (e : EnvEvent) (h : Canonical s) : Canonical (s.arrive e) := by
  cases e
  case tick => exact tick_canonical h
  case mcp => exact canonical_ite h h
  case ude on => exact canonical_ite (postEvent_canonical (s := { s with pins := _ }) _ _ _ _ h) h
  case devt1 | devt2 => exact canonical_ite (devtEvent_canonical (s := { s with pins := _ }) _ _ h) h
  case pmEvent => exact canonical_ite h h
  case snoopInv ra => exact queueSnoop_canonical ra h
  case snoopSync => exact syncSnoops_canonical h
  case powerOn => exact powerOn_canonical h
  case reset => exact processorReset_canonical (snoopSome_canonical _ h)
  case debugRequest | setEdbcr0 | setDberc0 | clearEdbsr0 => exact onced_canonical h h
  case setEdbsrmsk0 => exact onced_canonical h (canonical_ite h h)
  case debugExit pc => exact onced_canonical h (canonical_ite h h)
  all_goals exact h

theorem arriveAll_canonical (l : List EnvEvent) (h : Canonical s) : Canonical (s.arriveAll l) := by
  induction l generalizing s with
  | nil => exact h
  | cons e l ih => exact ih (arrive_canonical e h)

theorem powerStep_canonical (h : Canonical s) : Canonical s.powerStep :=
  have stopped : Canonical s.toStopped := snoopSome_canonical _ h
  have halted : Canonical s.toHalted := flushBuffers_canonical h
  canonical_ite h <| canonical_ite (canonical_ite h h) <|
    canonical_ite (canonical_ite stopped (canonical_ite h h)) (canonical_ite halted h)

theorem takeInputs_canonical (h : Canonical s) : Canonical s.takeInputs := by
  unfold State.takeInputs
  split
  · exact h
  · exact arriveAll_canonical (s := { s with env := _ }) _ h

theorem begin_canonical (h : Canonical s) : Canonical s.begin :=
  have settled : Canonical s.clearEvents.takeInputs.powerStep.settleBuffers :=
    settleBuffers_canonical (powerStep_canonical (takeInputs_canonical (s := s.clearEvents) h))
  canonical_ite (processorReset_canonical settled) settled

/-! Fetching. -/

/-- Every state a fetch carries is canonical. -/
def CanonicalFetch : Fetched → Prop
  | .instr _ s => Canonical s
  | .illegal s => Canonical s
  | .done s => Canonical s
  | .stop _ => True

theorem fetchMiss_canonical (first : Bool) (ea : Word) (mif : Bool) (h : Canonical s) : Canonical (fetchMiss first ea mif s) :=
  canonical_ite (errorReport_canonical _ (asyncMcheck_canonical _ _ _ h)) (raiseInstrTlb_canonical _ _ h)

theorem fetchBarred_canonical (first : Bool) (ra bits : Word) (h : Canonical s) : Canonical (fetchBarred first ra bits s) :=
  canonical_ite (errorReport_canonical _ (asyncMcheck_canonical _ _ _ h)) (raiseIsi_canonical _ h)

theorem fetchBytes_canonical (first : Bool) (ea : Word) (p : Page) (n : Nat) (h : Canonical s) :
    ResCanonical (s.fetchBytes first ea p n) := by
  have beat := readBeat_canonical .instr ea p n h
  unfold State.fetchBytes
  generalize s.readBeat .instr ea p n = r at beat ⊢
  cases r with
  | ok b t => exact drawIf_canonical _ _ beat
  | exc t => exact canonical_ite beat beat
  | stop f => trivial

theorem decodeFetched_canonical (vle : Bool) (b : List Byte) (h : Canonical s) : CanonicalFetch (decodeFetched vle b s) := by
  unfold decodeFetched
  split <;> exact h

theorem secondPage_canonical (p : Page) (ea : Word) (h : Canonical s) : Canonical (s.secondPage p ea).2 := by
  unfold State.secondPage
  split
  · exact translate_canonical _ _ h
  · exact h

theorem fetchSecond_canonical (first : Bool) (p : Page) (b : List Byte) (h : Canonical s) :
    CanonicalFetch (s.fetchSecond first p b) := by
  have paged := secondPage_canonical p (s.pc + 2#32) h
  unfold State.fetchSecond
  dsimp only
  generalize s.secondPage p (s.pc + 2#32) = r at paged ⊢
  obtain ⟨q, t⟩ := r
  cases q with
  | none => exact fetchMiss_canonical _ _ _ paged
  | some q =>
    refine holds_ite (fetchBarred_canonical _ _ _ paged) (holds_ite (fetchBarred_canonical _ _ _ paged) ?_)
    have bytes := fetchBytes_canonical first (s.pc + 2#32) q 2 paged
    dsimp only
    generalize t.fetchBytes first (s.pc + 2#32) q 2 = f at bytes ⊢
    cases f with
    | ok b' u => exact decodeFetched_canonical _ _ (s := { u with cur := _ }) bytes
    | exc u => exact bytes
    | stop f => trivial

theorem fetchVle_canonical (first : Bool) (p : Page) (h : Canonical s) : CanonicalFetch (s.fetchVle first p) := by
  have bytes := fetchBytes_canonical first s.pc p 2 h
  refine holds_ite (fetchBarred_canonical _ _ _ h) ?_
  generalize s.fetchBytes first s.pc p 2 = f at bytes ⊢
  cases f with
  | ok b t => exact holds_ite (fetchSecond_canonical _ _ _ bytes) (decodeFetched_canonical _ _ (s := { t with cur := _ }) bytes)
  | exc t => exact bytes
  | stop f => trivial

theorem fetchBookE_canonical (first : Bool) (p : Page) (h : Canonical s) : CanonicalFetch (s.fetchBookE first p) := by
  have bytes := fetchBytes_canonical first s.pc p 4 h
  unfold State.fetchBookE
  generalize s.fetchBytes first s.pc p 4 = f at bytes ⊢
  cases f with
  | ok b t => exact decodeFetched_canonical _ _ (s := { t with cur := _ }) bytes
  | exc t => exact bytes
  | stop f => trivial

theorem fetch_canonical (p : Option Page) (h : Canonical s) : CanonicalFetch (s.fetch p) := by
  have begun : Canonical { s with ints := { s.ints with handlerFetch := false } } := h
  unfold State.fetch
  cases p with
  | none => exact fetchMiss_canonical _ _ _ begun
  | some p =>
    exact holds_ite (fetchBarred_canonical _ _ _ begun) <|
      holds_ite (fetchBarred_canonical _ _ _ begun) <|
      holds_ite (fetchVle_canonical _ _ begun) (fetchBookE_canonical _ _ begun)

/-! Asynchronous interrupts. -/

theorem takeCheck_canonical (h : Canonical s) : Canonical (takeCheck s) :=
  takeInterrupt_canonical _ _ (s := { s with dbg := _ }) h

theorem takeNmi_canonical (h : Canonical s) : Canonical (takeNmi s) :=
  takeCheck_canonical (s := { s with ints := _, resv := _ }) h

theorem takePerf_canonical (h : Canonical s) : Canonical (takePerf s) :=
  takeInterrupt_canonical _ _ (s := { s with pm := _ }) h

/-- The state an interrupt leads to, if there is one, is canonical. -/
def CanonicalIfSome (o : Option State) : Prop := ∀ t ∈ o, Canonical t

theorem CanonicalIfSome.none : CanonicalIfSome none := fun _ ht => absurd ht (by simp)

theorem CanonicalIfSome.some {t : State} (ht : Canonical t) : CanonicalIfSome (some t) :=
  fun _ hu => Option.mem_some.mp hu ▸ ht

theorem urgent_canonical (h : Canonical s) : CanonicalIfSome s.urgent :=
  holds_ite (.some (takeNmi_canonical h)) (holds_ite (.some (takeCheck_canonical h)) .none)

theorem maskable_canonical (h : Canonical s) : CanonicalIfSome s.maskable :=
  have int (t : IntType) : CanonicalIfSome (some (takeInterrupt t s.pc s)) := .some (takeInterrupt_canonical t _ h)
  holds_ite (.some (takeDebug_canonical h)) <| holds_ite (int _) <| holds_ite (int _) <| holds_ite (int _) <|
    holds_ite (int _) <| holds_ite (int _) <| holds_ite (.some (takePerf_canonical h)) .none

theorem foremost_canonical (h : Canonical s) : CanonicalIfSome s.foremost :=
  holds_ite (holds_ite (.some (takeDebug_canonical h)) .none) (maskable_canonical h)

/-! Debug events round an instruction. -/

theorem closeDvc_canonical (w : DvcWindow) (h : Canonical s) : Canonical (s.closeDvc w) := setOfst_canonical _ _ _ h

theorem settleDvc_canonical (h : Canonical s) : Canonical s.settleDvc := by
  unfold State.settleDvc
  split
  · exact h
  · exact canonical_ite (closeDvc_canonical _ h) h

theorem preDebug_canonical (i : Instr) (h : Canonical s) : Canonical (preDebug i s) := by
  have post {t : State} (c : Bool) (en own bits : Word) (vle : Option Bool) (de : Bool) (ht : Canonical t) :
      Canonical (if c then t.postIf en own bits vle de else t) := canonical_ite (postIf_canonical _ _ _ _ _ ht) ht
  unfold preDebug
  refine canonical_ite h ?_
  dsimp only
  split
  · exact postIf_canonical (s := { State.mk .. with ev := _ }) _ _ _ _ _ (post _ _ _ _ _ _ (post _ _ _ _ _ _ h))
  · exact postIf_canonical _ _ _ _ _ (post _ _ _ _ _ _ (post _ _ _ _ _ _ h))
  · exact post _ _ _ _ _ _ (post _ _ _ _ _ _ h)

theorem undoFail_canonical {s0 : State} (h : Canonical s) : Canonical (undoFail s0 s) := h

theorem completedDac_canonical (s0 : State) (d : DacHits) (h : Canonical s) : Canonical (completedDac s0 d s) := by
  have posted (de : Bool) := postDac_canonical d false de h
  exact canonical_ite h <| canonical_ite (canonical_ite (posted _) (setOfst_canonical _ _ _ (posted _))) (posted _)

theorem owesCirpt_canonical (de : Bool) (h : Canonical s) : Canonical (s.owesCirpt de) := canonical_ite h h

theorem postTaken_canonical (irpt cirpt de : Bool) (h : Canonical s) : Canonical (postTaken irpt cirpt de s) := by
  have first : Canonical (if irpt then s.postIf 0x02000000#32 0x02000000#32 dbIrpt none de else s) :=
    canonical_ite (postIf_canonical _ _ _ _ _ h) h
  exact canonical_ite (owesCirpt_canonical _ (postEvent_canonical _ _ _ _ first)) first

theorem postIcmp_canonical (s0 : State) (h : Canonical s) : Canonical (postIcmp s0 s) :=
  canonical_ite (postEvent_canonical _ _ _ _ h) h

theorem failedDac_canonical {s0 : State} (en : DacHits) (e : DbgEvents) (h : Canonical s) :
    Canonical (failedDac s0 en e s) := by
  have posted (c : Bool) : Canonical (if c then s.postDac en true s0.msrDe else s) :=
    canonical_ite (postDac_canonical _ _ _ h) h
  have counted := countDebug_canonical s0.dbg { e with irpt := false, cirpt := false } true s0.msrDe (posted en.any)
  have undone := undoFail_canonical (s0 := s0) counted
  exact canonical_ite (takeDebug_canonical (s := { undoFail s0 _ with dbg := _ }) undone) <|
    canonical_ite undone (countDebug_canonical _ _ _ _ (postTaken_canonical _ _ _ counted))

theorem normalDebug_canonical (s0 : State) (en : DacHits) (e : DbgEvents) (done : Bool) (h : Canonical s) :
    Canonical (normalDebug s0 en e done s) := by
  have dac : Canonical (if done then completedDac s0 en s else s) := canonical_ite (completedDac_canonical s0 en h) h
  have taken := postTaken_canonical e.irpt e.cirpt s0.msrDe dac
  exact countDebug_canonical _ _ _ _ (canonical_ite (postIcmp_canonical s0 taken) taken)

/-! The end of a step. -/

theorem endDebug_canonical {s0 : State} (ran : Ran) (hits : List Bool) (h : Canonical s) :
    Canonical (endDebug s0 ran hits s) := by
  refine canonical_ite (canonical_ite h h) ?_
  exact canonical_ite (failedDac_canonical _ _ h) (normalDebug_canonical s0 _ _ _ h)

theorem countPerf_canonical (old : PerfMon) (pr pmm : Bool) (st : PmStep) (h : Canonical s) :
    Canonical (s.countPerf old pr pmm st) := canonical_ite h h

theorem endPerf_canonical (s0 : State) (ran : Ran) (h : Canonical s) : Canonical (endPerf s0 ran s) :=
  countPerf_canonical _ _ _ _ h

theorem endWindow_canonical {s0 : State} (ran : Ran) (hits : List Bool) (h0 : Canonical s0) (h : Canonical s) :
    Canonical (endWindow s0 ran hits s) := by
  unfold endWindow
  split
  · exact endPerf_canonical _ _ (endDebug_canonical _ _ h)
  · exact canonical_ite (endPerf_canonical _ _ (endDebug_canonical (s := { s0 with dbg := _, free := _ }) _ _ h0))
      (endPerf_canonical _ _ (endDebug_canonical _ _ h))

theorem endStep_canonical {s0 : State} (ran : Ran) (hits : List Bool) (h0 : Canonical s0) (h : Canonical s) :
    Canonical (endStep s0 ran hits s) := endSync_canonical _ _ _ (endWindow_canonical ran hits h0 h)

/-! A step, given the meanings of the instructions. -/

/-- The meanings of the instructions keep the register invariant. -/
def CanonicalMeaning (ex : Meaning) : Prop := ∀ i s, Canonical s → CanonicalOutcome (ex i s)

theorem executeWith_canonical {ex : Meaning} {s0 : State} (hits : List Bool) (i : Instr) (hex : CanonicalMeaning ex)
    (h0 : Canonical s0) (h : Canonical s) : CanonicalOutcome (executeWith ex s0 hits i s) := by
  have recorded := preDebug_canonical i h
  refine holds_ite (endStep_canonical _ _ h0 (takeDebug_canonical recorded)) (holds_ite (endStep_canonical _ _ h0 recorded) ?_)
  have run := hex i _ recorded
  generalize ex i (preDebug i s) = o at run ⊢
  cases o with
  | next t => exact endStep_canonical _ _ h0 run
  | fault f => trivial
  | refused r => trivial

theorem raiseRefused_canonical (h : Canonical s) : Canonical (raiseRefused s) :=
  canonical_ite (raiseSync_canonical _ _ h) (raiseSync_canonical _ _ h)

theorem started_canonical (h : Canonical s) : Canonical s.started := canonical_ite h h

theorem runInstr_canonical {ex : Meaning} (hex : CanonicalMeaning ex) (h : Canonical s) : CanonicalOutcome (runInstr ex s) := by
  have looked (vle : Bool) (hits : List Bool) := postIacFrom_canonical vle 0 hits (translate_canonical s.msrIs s.pc h)
  unfold runInstr
  refine holds_ite (endStep_canonical _ _ h (takeDebug_canonical (looked _ _)))
    (holds_ite (endStep_canonical _ _ h (looked _ _)) ?_)
  have fetched (vle : Bool) (hits : List Bool) (p : Option Page) := fetch_canonical p (started_canonical (looked vle hits))
  split
  next heq => exact endStep_canonical _ _ h (heq ▸ fetched _ _ _ : CanonicalFetch (.done _))
  next heq => exact endStep_canonical _ _ h (raiseRefused_canonical (heq ▸ fetched _ _ _ : CanonicalFetch (.illegal _)))
  · trivial
  next heq => exact executeWith_canonical _ _ hex h (heq ▸ fetched _ _ _ : CanonicalFetch (.instr _ _))

theorem awake_canonical (h : Canonical s) : Canonical s.awake := canonical_ite h h

theorem stepCalm_canonical {ex : Meaning} (hex : CanonicalMeaning ex) (h : Canonical s) : CanonicalOutcome (stepCalm ex s) := by
  have ends {t : State} (ht : Canonical t) : CanonicalOutcome (.next (endStep s none [] t)) := endStep_canonical _ _ h ht
  have first := foremost_canonical h
  refine holds_ite (holds_ite (ends (takeDebug_canonical h)) (ends (t := s.enterHalt) h)) <| holds_ite (ends h) <|
    holds_ite (runInstr_canonical hex h) ?_
  split
  next t ht => exact ends (first t ht)
  · exact holds_ite (ends (started_canonical h)) (runInstr_canonical hex (awake_canonical h))

theorem stepFrom_canonical {ex : Meaning} (hex : CanonicalMeaning ex) (h : Canonical s) : CanonicalOutcome (stepFrom ex s) := by
  have first (c : Bool) : CanonicalIfSome (if c then none else s.urgent) := holds_ite .none (urgent_canonical h)
  refine holds_ite (endStep_canonical _ _ h h) ?_
  split
  next t ht => exact endStep_canonical (s0 := s.noWindow) (s := t.noWindow) _ _ h (first _ t ht)
  · exact stepCalm_canonical hex h

theorem stepNow_canonical {ex : Meaning} (hex : CanonicalMeaning ex) (h : Canonical s) : CanonicalOutcome (stepNow ex s) :=
  stepFrom_canonical hex (viewOld_canonical _ h)

theorem mixMem_canonical (old : Memory) (n : Nat) (l : List Host.Cell) {m : Memory} (h : m.wf = true) :
    (mixMem old n l m).wf = true := by
  induction l generalizing n m with
  | nil => exact h
  | cons c l ih => exact ih _ (holds_ite (P := fun m : Memory => m.wf = true) (Memory.wf_put _ h _ _) h)

theorem cutShort_canonical {t : State} (ht : Canonical t) : Canonical (s.cutShort t) := mixMem_canonical _ _ _ ht

theorem interrupted_canonical {ex : Meaning} (hex : CanonicalMeaning ex) (h : Canonical s) : Canonical (s.interrupted ex) := by
  refine canonical_ite ?_ h
  have run := stepNow_canonical hex (settleDvc_canonical (begin_canonical (s := { s with env := [] }) h))
  split
  next heq => exact cutShort_canonical (run.of_eq heq)
  · exact h
  · exact h

theorem stepWith_canonical {ex : Meaning} (hex : CanonicalMeaning ex) (h : Canonical s) : CanonicalOutcome (stepWith ex s) :=
  stepNow_canonical hex (settleDvc_canonical (begin_canonical (interrupted_canonical hex h)))

end

/-- Settles O3: each part of a step keeps memory canonical, and so do the 528 instructions. -/
theorem stepKeepsMemoryForm : Obligations.StepKeepsMemoryForm := by
  intro s t h hstep
  exact (stepWith_canonical (fun i _ hs => exec_canonical i hs) h).of_eq hstep

end Sys2Proof.Machine
end

section
/-! PROOF. Reset (O1, O2), the asynchronous interrupts (O56, O57) and the tick of the time base (O59). -/

namespace Sys2Proof.Machine

/-! Reset. -/

/-- TLB entries after reset: entry 0 at the reset page, the others invalid. -/
theorem resetWith_tlb (p : Pins) (n : Fin 32) :
    (State.resetWith p).mmu.tlb.get n = if n = 0 then TlbEntry.atReset p else TlbEntry.zero := by
  change ((Vector.replicate 32 TlbEntry.zero).set 0 (TlbEntry.atReset p)).get n = _
  rw [Vector.get_eq_getElem, Vector.getElem_set, Vector.getElem_replicate]
  simp only [Fin.ext_iff, eq_comm (a := (0 : Nat)), Fin.val_zero]

/-- Settles O1: the fields of the reset state, the TLB entries by `resetWith_tlb`. -/
theorem resetValues : Obligations.ResetValues := by
  intro p s
  have monitor (n : Fin 4) : s.pm.pmlca.get n = 0#32 ∧ s.pm.pmlcb.get n = 0#32 ∧ s.pm.pmc.get n = 0#32 := by
    refine ⟨?_, ?_, ?_⟩ <;> exact (Vector.get_eq_getElem ..).trans (Vector.getElem_replicate ..)
  have invalid (n : Fin 32) (other : n ≠ 0) : (s.mmu.tlb.get n).v = false := by rw [resetWith_tlb, if_neg other]; rfl
  have first : s.mmu.tlb.get 0 = TlbEntry.atReset p := by rw [resetWith_tlb, if_pos rfl]
  have pir : s.hid.pir = p.cpuid.zeroExtend 32 :=
    (BitVec.setWidth_eq_append (w := 32) (by decide)).symm
  refine ⟨rfl, rfl, rfl, rfl, rfl, rfl, rfl, rfl, rfl, rfl, pir, rfl, rfl, rfl, rfl, rfl, rfl, rfl, rfl, rfl, rfl, rfl, rfl,
    rfl, rfl, rfl, rfl, rfl, rfl, monitor, invalid, ?_⟩
  rw [first]
  exact ⟨rfl, rfl, rfl, rfl, rfl, rfl, rfl, rfl, rfl, rfl, rfl, rfl, rfl, rfl, rfl, rfl, rfl, rfl, rfl⟩

/-- Settles O2: memory lists nothing, and the registers are zero but for the pc, a multiple of 4. -/
theorem resetInvariant : Obligations.ResetInvariant := ⟨rfl, rfl, rfl, rfl, resetPc_even Pins.default⟩

/-! Asynchronous interrupts. -/

section
variable {s t : State}

/-- The end of a step that takes an interrupt: what the interrupt left, fetched anew, with nothing unsynchronized. -/
theorem endStep_interrupt (h : s.Undebugged) (taken : t.ev.ints.isEmpty = false) (pm : t.pm = s.pm) :
    ∃ ev, endStep s.fresh none [] t = { t.refetched with ev := ev, sync := s.sync } := by
  have after := endStep_idle (s := s.fresh) (active_undebugged (s := s) h) h.noWindow h.noPerf h.noWork.2.2 none [] t pm
  rw [AfterStep, if_pos (by rw [taken]; rfl)] at after
  exact ⟨_, after.trans (by rw [h.noWork.2.2])⟩

/-- A steady step that takes an interrupt. -/
theorem step_maskable (h : s.Steady) (ty : IntType) (first : s.fresh.maskable = some (takeInterrupt ty s.pc s.fresh)) :
    ∃ ev, step s = .next { takeInterrupt ty s.pc s.refetched with ev := ev } := by
  obtain ⟨ev, after⟩ := endStep_interrupt (t := takeInterrupt ty s.pc s.fresh) h.toUndebugged rfl rfl
  exact ⟨ev, by rw [step_steady h, first]; exact congrArg Host.Outcome.next after⟩

end

/-- Settles O56: each case is the interrupt that `maskable_steady` finds first, which leaves what `takeInterrupt_spec` and
`takeExternal_spec` say. -/
theorem asynchronousInterrupts : Obligations.AsynchronousInterrupts := by
  intro s h ee fit dec takes cleared ivor4
  have ee : s.msrEe = true := ee
  have first := maskable_steady h
  rw [ee, Bool.and_true, Bool.and_true, Bool.and_true] at first
  have external (on : s.pins.extint = true) := step_maskable h .externalInput (first.trans (if_pos on))
  have fixed (off : s.pins.extint = false) (due : fit = true) :=
    step_maskable h .fixedInterval (first.trans ((if_neg (by simp [off])).trans (if_pos due)))
  have decremented (off : s.pins.extint = false) (notFit : fit = false) (due : dec = true) :=
    step_maskable h .decrementer
      (first.trans ((if_neg (by simp [off])).trans ((if_neg (Bool.eq_false_iff.mp notFit)).trans (if_pos due))))
  have directed : takes .externalInput cleared { takeInterrupt .externalInput s.pc s.refetched with pc := ivor4 } :=
    ⟨takeExternal_spec (s := s.refetched) s.pc, rfl, rfl⟩
  refine ⟨fun on avec => ?_, fun on avec => ?_, fun off due => ?_, fun off notFit due => ?_⟩
  · obtain ⟨ev, run⟩ := external on
    have vector : (takeInterrupt .externalInput s.pc s.refetched).pc = ivor4 := by
      simp [State.vector, State.refetched, avec, ivor4, IntType.ivorIndex]
    refine ⟨_, run, ?_⟩
    have same : { takeInterrupt .externalInput s.pc s.refetched with pc := ivor4, ev := ev } =
        { takeInterrupt .externalInput s.pc s.refetched with ev := ev } := by rw [← vector]
    rw [← same]
    exact directed
  · obtain ⟨ev, run⟩ := external on
    refine ⟨_, run, directed, ?_⟩
    simp [takeInterrupt, State.vector, State.refetched, avec]
  · obtain ⟨ev, run⟩ := fixed off due
    exact ⟨_, run, takeInterrupt_spec (s := s.refetched) .fixedInterval s.pc rfl nofun, rfl, rfl⟩
  · obtain ⟨ev, run⟩ := decremented off notFit due
    exact ⟨_, run, takeInterrupt_spec (s := s.refetched) .decrementer s.pc rfl nofun, rfl, rfl⟩

section
variable {s : State}

theorem noWindow_eq {t : State} (closed : t.dbg.dvcPend = none) : t.noWindow = t := by rw [State.noWindow, ← closed]

/-- An interrupt of the highest priority; no value-compare window is open that it could end. -/
theorem step_urgent (h : s.Undebugged) {t : State} (first : s.fresh.urgent = some t) (taken : t.ev.ints.isEmpty = false)
    (pm : t.pm = s.pm) (window : t.dbg.dvcPend = s.dbg.dvcPend) :
    ∃ ev, step s = .next { t.refetched with ev := ev, sync := s.sync } := by
  obtain ⟨ev, after⟩ := endStep_interrupt h taken pm
  have run : step s = .next (endStep s.fresh none [] t.noWindow) := by rw [step_undebugged h, first]
  rw [noWindow_eq (window.trans h.noWindow)] at run
  exact ⟨ev, run.trans (congrArg Host.Outcome.next after)⟩

/-- With nothing of the highest priority, the maskable interrupt that comes first. -/
theorem step_critical (h : s.Undebugged) {t : State} (noUrgent : s.fresh.urgent = none) (first : s.fresh.maskable = some t)
    (taken : t.ev.ints.isEmpty = false) (pm : t.pm = s.pm) :
    ∃ ev, step s = .next { t.refetched with ev := ev, sync := s.sync } := by
  obtain ⟨ev, after⟩ := endStep_interrupt h taken pm
  exact ⟨ev, by rw [step_undebugged h, noUrgent, first]; exact congrArg Host.Outcome.next after⟩

theorem mcheckPending_iff : s.mcheckPending = true ↔ s.ints.mcsr &&& 0xF611E03C#32 ≠ 0#32 ∧ s.msr.getLsbD 12 = true := by
  simp [State.mcheckPending, State.msrMe]

end

theorem clearIf_eq (b r : Bool) : (if b then false else r) = (r && !b) := by cases b <;> simp

/-- A machine check, field by field. -/
theorem takeCheck_eq (s : State) : takeCheck s = { s with
    pc := (s.ints.ivpr &&& 0xFFFF0000#32) ||| (s.ints.ivor.get 1 &&& 0x0000FFF0#32)
    msr := s.msr &&& (if s.hid.hid0.getLsbD 8 && !s.hid.hid0.getLsbD 9 then 0x200#32 else 0#32)
    ints := { s.ints with mcsrr0 := s.pc, mcsrr1 := s.msr, handlerFetch := true }
    dbg := { s.dbg with cirptDue := false }
    pwr := { s.pwr with waiting := false }
    ev := { s.ev with ints := .machineCheck :: s.ev.ints } } := by
  have resv : (takeCheck s).resv = s.resv := by simp [takeCheck, takeInterrupt]
  have kept : takeCheck s = { takeCheck s with resv := s.resv } := by rw [← resv]
  exact kept.trans rfl

/-- A Critical Input or Watchdog interrupt, but for the pc and the reservation. -/
theorem takeCritical_eq (s : State) (ty : IntType) (save : Word) (cls : ty.cls = .critical) : takeInterrupt ty save s = { s with
    pc := s.vector ty
    msr := s.msr &&& (0x00001002#32 ||| (if s.hid.hid0.getLsbD 8 && !s.hid.hid0.getLsbD 10 then 0x200#32 else 0#32))
    resv := (takeInterrupt ty save s).resv
    ints := { s.ints with csrr0 := save, csrr1 := s.msr, handlerFetch := true }
    pwr := { s.pwr with waiting := false }
    ev := { s.ev with ints := ty :: s.ev.ints } } := by
  simp only [takeInterrupt, State.saveIn, State.keepMask, cls]
  rfl

/-- Settles O57: the interrupt that `urgent` or `maskable` finds first, whose state is computed. -/
theorem urgentInterrupts : Obligations.UrgentInterrupts := by
  intro s h hid base vec mcKeeps critKeeps goes check cleared critical
  have pending : s.fresh.mcheckPending = true ↔ check := mcheckPending_iff
  have resv : (if s.hidIcr then false else s.resv) = cleared := clearIf_eq _ _
  have keeps : (0x00001002#32 ||| (if hid.getLsbD 8 && !hid.getLsbD 10 then 0x200#32 else 0#32)) = critKeeps := by
    simp only [critKeeps]
    split <;> rfl
  have quiet (noNmi : s.ints.nmiPend = false) (none : ¬check) : s.fresh.urgent = Option.none :=
    (if_neg (by simp [State.fresh, noNmi])).trans (if_neg (pending.not.mpr none))
  have noDebug : s.fresh.debugPending = false := by
    simp only [State.debugPending, State.fresh, Debug.idm, h.noDebug.2, Bool.and_false, Bool.false_and]
  refine ⟨fun nmi => ?nmi, fun noNmi due => ?check, fun noNmi none ce on => ?critical,
    fun noNmi none ce off tsr tcr => ?watchdog⟩
  case nmi =>
    obtain ⟨ev, run⟩ := step_urgent h (if_pos nmi : s.fresh.urgent = some (takeNmi s.fresh)) rfl rfl rfl
    refine ⟨_, run, ?_⟩
    rw [takeNmi, takeCheck_eq, ← resv]
    rfl
  case check =>
    have first : s.fresh.urgent = some (takeCheck s.fresh) :=
      (if_neg (by simp [State.fresh, noNmi])).trans (if_pos (pending.mpr due))
    obtain ⟨ev, run⟩ := step_urgent h first rfl rfl rfl
    refine ⟨_, run, ?_⟩
    rw [takeCheck_eq]
    rfl
  case critical =>
    have first : s.fresh.maskable = some (takeInterrupt .criticalInput s.pc s.fresh) :=
      (if_neg (by simp [noDebug])).trans (if_pos (Bool.and_eq_true_iff.mpr ⟨on, ce⟩))
    obtain ⟨ev, run⟩ := step_critical h (quiet noNmi none) first rfl rfl
    have reservation : (takeInterrupt .criticalInput s.pc s.fresh).resv = cleared := by
      rw [← resv]
      simp [takeInterrupt, State.fresh, State.hidIcr]
    have vector : s.fresh.vector .criticalInput =
        if s.pins.avec then vec 0 else base ||| (s.pins.voffset.zeroExtend 32 &&& 0x0000FFF0#32) :=
      apply_ite (base ||| ·) _ _ _
    refine ⟨_, run, ?_⟩
    rw [takeCritical_eq s.fresh .criticalInput s.pc rfl, vector, ← reservation, ← keeps]
    rfl
  case watchdog =>
    have first : s.fresh.maskable = some (takeInterrupt .watchdog s.pc s.fresh) :=
      (if_neg (by simp [noDebug])).trans ((if_neg (by simp [State.fresh, off])).trans (if_pos (by
        simp [State.fresh, State.msrCe, ce, tsr, tcr])))
    obtain ⟨ev, run⟩ := step_critical h (quiet noNmi none) first rfl rfl
    have reservation : (takeInterrupt .watchdog s.pc s.fresh).resv = s.resv := by simp [takeInterrupt, State.fresh]
    refine ⟨_, run, ?_⟩
    rw [takeCritical_eq s.fresh .watchdog s.pc rfl, reservation, ← keeps]
    rfl

/-! The tick of the time base and the decrementer. -/

section
variable (t : Timers)

theorem decTick_tb : t.decTick.tb = t.tb := by
  unfold Timers.decTick
  split_ifs <;> rfl

theorem decTick_eq : t.decTick = { t with tb := t.decTick.tb, dec := t.decTick.dec, tsr := t.decTick.tsr } := by
  unfold Timers.decTick
  split_ifs <;> rfl

/-- The decrementer sets DIS alone. -/
theorem decTick_tsr_getLsbD (j : Nat) :
    t.decTick.tsr.getLsbD j = (t.tsr.getLsbD j || (decide (t.dec = 1#32) && (j == 27))) := by
  have dis : (0x08000000#32).getLsbD j = (j == 27) := by
    by_cases inside : j < 32
    · interval_cases j <;> rfl
    · rw [BitVec.getLsbD_of_ge _ _ (Nat.le_of_not_lt inside), beq_eq_false_iff_ne.mpr (by omega)]
  unfold Timers.decTick
  split
  next zero => simp [zero]
  next nonzero =>
    split
    next one => rw [BitVec.getLsbD_or, dis, decide_eq_true one, Bool.true_and]
    next other => simp [other]

theorem decTick_tsr_extract {i k : Nat} (apart : 27 < i ∨ i + k ≤ 27) :
    t.decTick.tsr.extractLsb' i k = t.tsr.extractLsb' i k := by
  ext l hl
  rw [← BitVec.getLsbD_eq_getElem, ← BitVec.getLsbD_eq_getElem, BitVec.getLsbD_extractLsb', BitVec.getLsbD_extractLsb',
    decTick_tsr_getLsbD, beq_eq_false_iff_ne.mpr (show i + l ≠ 27 by omega), Bool.and_false, Bool.or_false]

theorem decTick_dec_zero (h : t.dec = 0#32) : t.decTick.dec = 0#32 := by rw [Timers.decTick, if_pos h, h]

theorem decTick_dec_one (h : t.dec = 1#32) : t.decTick.dec = if t.tcr.getLsbD 22 then t.decar else 0#32 := by
  rw [Timers.decTick, if_neg (by rw [h]; decide), if_pos h]

theorem decTick_dec_other (zero : t.dec ≠ 0#32) (one : t.dec ≠ 1#32) : t.decTick.dec.toNat = t.dec.toNat - 1 := by
  rw [Timers.decTick, if_neg zero, if_neg one]
  have positive : t.dec.toNat ≠ 0 := fun h => zero (BitVec.eq_of_toNat_eq h)
  change (t.dec - 1#32).toNat = _
  bv_omega

end

/-- A tick that counts. -/
theorem tick_counts {s : State} (on : (s.hid.hid0.getLsbD 14 && !s.pins.tbdisable) = true)
    (ft : s.dbg.dbcr0.getLsbD 0 = false) (session : s.dbg.halted = false) :
    s.tick = { s.setTb (s.tmr.tb + 1#64) with tmr := (s.setTb (s.tmr.tb + 1#64)).tmr.decTick } := by
  have running : s.timersFrozen = false := by rw [State.timersFrozen, ft, Bool.false_and]
  have counts : (s.hidTben && !s.pins.tbdisable && !s.timersFrozen) = true := by
    rw [running]
    exact Bool.and_eq_true_iff.mpr ⟨on, rfl⟩
  have tb : s.tbHeld = false := by rw [State.tbHeld, session, Bool.false_and]
  have dec : (s.setTb (s.tmr.tb + 1#64)).decHeld = false := by
    change (s.dbg.halted && _) = false
    rw [session, Bool.false_and]
  rw [State.tick, if_pos counts]
  simp only [tb, dec, Bool.false_eq_true, if_false]

/-- Settles O59: the time base by `setTb_written`, the decrementer, which changes DIS alone of TSR, after it. -/
theorem timerTick : Obligations.TimerTick := by
  intro s on t rises fit wd enw wis wrc sel
  refine ⟨fun off => ?_, fun counts ft session => ?_⟩
  · have stopped : ¬ (s.hidTben && !s.pins.tbdisable && !s.timersFrozen) = true := by
      have off : (s.hidTben && !s.pins.tbdisable) = false := off
      simp [off]
    exact if_neg stopped
  · obtain ⟨tb, fis, enwBit, wisBit, wrs, dis, low, event, -⟩ := setTb_written s (s.tmr.tb + 1#64)
    have ticked : t = { s.setTb (s.tmr.tb + 1#64) with tmr := (s.setTb (s.tmr.tb + 1#64)).tmr.decTick } :=
      tick_counts counts ft session
    have other {j : Nat} (ne : j ≠ 27) : t.tmr.tsr.getLsbD j = (s.setTb (s.tmr.tb + 1#64)).tmr.tsr.getLsbD j := by
      rw [ticked, decTick_tsr_getLsbD, beq_eq_false_iff_ne.mpr ne, Bool.and_false, Bool.or_false]
    have part {i k : Nat} (apart : 27 < i ∨ i + k ≤ 27) :
        t.tmr.tsr.extractLsb' i k = (s.setTb (s.tmr.tb + 1#64)).tmr.tsr.extractLsb' i k := by
      rw [ticked]
      exact decTick_tsr_extract _ apart
    have disBit : t.tmr.tsr.getLsbD 27 = (s.tmr.tsr.getLsbD 27 || decide (s.tmr.dec = 1#32)) := by
      rw [ticked, decTick_tsr_getLsbD, beq_self_eq_true, Bool.and_true]
      exact congrArg (· || decide (s.tmr.dec = 1#32)) dis
    refine ⟨?_, fun zero => ⟨?_, ?_⟩, fun one => ⟨?_, ?_⟩, fun zero one => ⟨?_, ?_⟩, (other (by decide)).trans fis,
      (other (by decide)).trans enwBit, (other (by decide)).trans wisBit, (part (by decide)).trans wrs,
      (part (by decide)).trans low, ?_, ?_⟩
    · rw [ticked]; exact decTick_tb _
    · rw [ticked]; exact decTick_dec_zero _ zero
    · rw [disBit, zero]; simp
    · rw [ticked]; exact decTick_dec_one _ one
    · rw [disBit, one]; simp
    · rw [ticked]; exact decTick_dec_other _ zero one
    · rw [disBit, decide_eq_false one, Bool.or_false]
    · rw [ticked]; exact event
    · rw [ticked]
      exact congrArg (fun m => { s.setTb (s.tmr.tb + 1#64) with tmr := m }) (decTick_eq _)

end Sys2Proof.Machine
end

section
/-! PROOF. The step that runs the instruction at the pc, or finds none there (O7, O8). -/

namespace Sys2Proof.Machine

section
variable {s : State} {n : Nat} {p : TlbEntry}

/-- The `n` bytes at the pc are all that an instruction there can have. -/
def State.WholeAt (s : State) (p : TlbEntry) (n : Nat) : Prop :=
  p.vle = true ∧ n = 2 ∧ vleLong (BitVec.ofNat 16 (bytesNat (s.codeBytes 2 p))) = false ∨
    p.vle = true ∧ n = 4 ∧ vleLong (BitVec.ofNat 16 (bytesNat (s.codeBytes 2 p))) = true ∨
    p.vle = false ∧ n = 4 ∧ s.pc.getLsbD 1 = false

/-- The events of the step before do not matter to a fetch. -/
theorem PlainFetch.fresh_state (h : PlainFetch s n p) : PlainFetch s.fresh n p :=
  ⟨h.cacheOff, h.known, h.maps, h.allowed, h.order, h.answers, h.isRam, h.fresh⟩

theorem PlainFetch.first_hit (h : PlainFetch s n p) (some : 0 < n) : ∃ i, s.tlbHits s.msrIs s.pid s.pc = [(i, p)] := by
  obtain ⟨i, hit⟩ := h.maps 0 some
  exact ⟨i, by rwa [BitVec.add_zero] at hit⟩

theorem State.WholeAt.positive (h : s.WholeAt p n) : 0 < n := by
  rcases h with ⟨-, rfl, -⟩ | ⟨-, rfl, -⟩ | ⟨-, rfl, -⟩ <;> decide

/-- A plain fetch hands its bytes to the decoder. -/
theorem fetch_plain (h : PlainFetch s n p) (whole : s.WholeAt p n) :
    s.fresh.fetch (some (p.page s.pc)) =
      decodeFetched p.vle (s.codeBytes n p) (s.fetched p.vle (bytesWord (s.codeBytes n p) <<< (32 - 8 * n))) := by
  have h := h.fresh_state
  rcases whole with ⟨vle, rfl, short⟩ | ⟨vle, rfl, long⟩ | ⟨vle, rfl, aligned⟩ <;> rw [vle]
  · exact fetch_vle2 h vle short
  · rw [Nat.sub_self, BitVec.shiftLeft_zero]
    exact fetch_vle4 h vle long
  · rw [Nat.sub_self, BitVec.shiftLeft_zero]
    exact fetch_bookE h vle aligned

/-- A calm step runs the instruction that it fetched. -/
theorem step_instr (calm : s.Calm) (h : PlainFetch s n p) (whole : s.WholeAt p n) {i : Instr} {t : State}
    (fetched : decodeFetched p.vle (s.codeBytes n p)
      (s.fetched p.vle (bytesWord (s.codeBytes n p) <<< (32 - 8 * n))) = .instr i t) :
    step s = executeWith exec s.fresh [] i t := by
  obtain ⟨k, hit⟩ := h.first_hit whole.positive
  rw [step_calm calm, runInstr_calm calm h.known hit, fetch_plain h whole, fetched]

/-- A calm step that fetched no instruction. -/
theorem step_illegal (calm : s.Calm) (h : PlainFetch s n p) (whole : s.WholeAt p n) {t : State}
    (fetched : decodeFetched p.vle (s.codeBytes n p)
      (s.fetched p.vle (bytesWord (s.codeBytes n p) <<< (32 - 8 * n))) = .illegal t) :
    step s = .next (endStep s.fresh none [] (raiseRefused t)) := by
  obtain ⟨k, hit⟩ := h.first_hit whole.positive
  rw [step_calm calm, runInstr_calm calm h.known hit, fetch_plain h whole, fetched]

end

/-- Settles O7: the fetched bytes decode to the instruction, which runs with nothing before or after it but the end of the
step. -/
theorem stepRunsDecoded : Obligations.StepRunsDecoded := by
  intro s p n i calm h whole decoded s'
  have fetched : decodeFetched p.vle (s.codeBytes n p) s' = .instr i s' := by rw [decodeFetched, decoded]
  have run : step s = executeWith exec s.fresh [] i s' := step_instr calm h whole fetched
  rw [executeWith_idle s.fresh s' [] i calm.noDebug.1 calm.noDebug.2] at run
  refine ⟨fun t next pm => ?_, fun f fault => ?_⟩
  · rw [next] at run
    exact ⟨_, run, endStep_idle (s := s.fresh) (active_undebugged (s := s) calm.toUndebugged) calm.noWindow calm.noPerf
      calm.noWork.2.2 (some (i, s')) [] t pm⟩
  · rw [run, fault]

/-- Settles O8: the step takes the interrupt of a word that is no instruction, which is the Unavailable one only for a word
of the EFPU's double-precision operations while MSR[SPE] is 0. -/
theorem stepIllegal : Obligations.StepIllegal := by
  intro s p n r calm h whole refused w vlemi takes
  have fetched : decodeFetched p.vle (s.codeBytes n p) (s.fetched p.vle w) = .illegal (s.fetched p.vle w) := by
    rw [decodeFetched, refused]
  have run : step s = .next (endStep s.fresh none [] (raiseRefused (s.fetched p.vle w))) :=
    step_illegal calm h whole fetched
  have interrupt (ty : IntType) (esr : Word) (cls : ty.cls = .nonCritical) (external : ty ≠ .externalInput) :
      takes ty esr (endStep s.fresh none [] (raiseSync ty esr (s.fetched p.vle w))) := by
    obtain ⟨ev, after⟩ := endStep_interrupt (t := raiseSync ty esr (s.fetched p.vle w)) calm.toUndebugged rfl rfl
    rw [after]
    exact ⟨raiseSync_spec (s := (s.fetched p.vle w).refetched) ty esr cls external,
      raiseSync_dear (s.fetched p.vle w) ty esr cls, rfl⟩
  refine ⟨_, run, ?_⟩
  unfold raiseRefused
  split
  next double =>
    obtain ⟨⟨word, unavailable⟩, -⟩ := (Bool.and_eq_true_iff.trans (and_congr_left' Bool.and_eq_true_iff)).mp double
    obtain ⟨opcode, extended⟩ := Bool.and_eq_true_iff.mp word
    exact .inr ⟨(Bool.not_eq_true' _).mp unavailable, beq_iff_eq.mp opcode, beq_iff_eq.mp extended,
      interrupt .speUnavailable _ rfl nofun⟩
  · exact .inl (interrupt .program _ rfl nofun)

end Sys2Proof.Machine
end

section
/-! PROOF. The compares and the instructions on CR (O14, O18). -/

namespace Sys2Proof.Machine

section
variable (a b : Word) (v w : BitVec 16) (so : Bool)

/-! A comparison by the numbers of its operands. -/

theorem cmpSigned_eq :
    cmpSigned a b so = crBits (decide (a.toInt < b.toInt)) (decide (b.toInt < a.toInt)) (decide (a = b)) so := by
  rw [cmpSigned, BitVec.slt_eq_decide, BitVec.slt_eq_decide, beq_eq_decide]

theorem cmpUnsigned_eq :
    cmpUnsigned a b so = crBits (decide (a.toNat < b.toNat)) (decide (b.toNat < a.toNat)) (decide (a = b)) so := by
  rw [cmpUnsigned, BitVec.ult_eq_decide, BitVec.ult_eq_decide, beq_eq_decide]

theorem toInt_sext16 : (sext16 v).toInt = v.toInt := BitVec.toInt_signExtend_of_le (by decide)

theorem toNat_zext16 : (zext16 v).toNat = v.toNat := BitVec.toNat_setWidth_of_le (by decide)

/-- Halfwords compare as the words they extend to. -/
theorem cmpSigned_sext16 : cmpSigned (sext16 v) (sext16 w) so =
    crBits (decide (v.toInt < w.toInt)) (decide (w.toInt < v.toInt)) (decide (v = w)) so := by
  have same : (sext16 v = sext16 w) = (v = w) := by
    rw [← BitVec.toInt_inj, toInt_sext16, toInt_sext16, BitVec.toInt_inj]
  simp only [cmpSigned_eq, toInt_sext16, same]

theorem cmpUnsigned_zext16 : cmpUnsigned (zext16 v) (zext16 w) so =
    crBits (decide (v.toNat < w.toNat)) (decide (w.toNat < v.toNat)) (decide (v = w)) so := by
  have same : (zext16 v = zext16 w) = (v = w) := by
    rw [← BitVec.toNat_inj, toNat_zext16, toNat_zext16, BitVec.toNat_inj]
  simp only [cmpUnsigned_eq, toNat_zext16, same]

/-- The test of a bit under its mask. -/
theorem and_bitMask_eq_zero (n : BitVec 5) : (a &&& bitMask n == 0#32) = !a.getMsbD n.toNat := by
  have hn := n.isLt
  have bit := and_twoPow_eq_zero_iff a (n := 31 - n.toNat) (by omega)
  have mirror : 32 - 1 - n.toNat = 31 - n.toNat := rfl
  rw [bitMask_eq_twoPow, Bool.eq_iff_iff, beq_iff_eq, bit, BitVec.getMsbD, decide_eq_true hn, Bool.true_and, mirror]
  cases a.getLsbD (31 - n.toNat) <;> decide

end

section
variable {s : State} {i : Instr} {a b : Word} {v w : BitVec 16} (len : Nat) (f : CrField)

theorem runs_compare {lt gt eq so : Bool} (h : exec i s = .next (s.resultCr len f (crBits lt gt eq so))) :
    Runs i s (CrResult len f lt gt eq so s) := ⟨_, h, resultCr_spec s len f lt gt eq so⟩

theorem runs_cmpSigned (h : exec i s = .next (s.resultCr len f (cmpSigned a b s.xerSo))) :
    Runs i s (CrResult len f (decide (a.toInt < b.toInt)) (decide (b.toInt < a.toInt)) (decide (a = b)) (s.xer.getLsbD 31) s) :=
  runs_compare len f (cmpSigned_eq a b s.xerSo ▸ h)

theorem runs_cmpUnsigned (h : exec i s = .next (s.resultCr len f (cmpUnsigned a b s.xerSo))) :
    Runs i s (CrResult len f (decide (a.toNat < b.toNat)) (decide (b.toNat < a.toNat)) (decide (a = b)) (s.xer.getLsbD 31) s) :=
  runs_compare len f (cmpUnsigned_eq a b s.xerSo ▸ h)

theorem runs_cmpSigned_half (h : exec i s = .next (s.resultCr len f (cmpSigned (sext16 v) (sext16 w) s.xerSo))) :
    Runs i s (CrResult len f (decide (v.toInt < w.toInt)) (decide (w.toInt < v.toInt)) (decide (v = w)) (s.xer.getLsbD 31) s) :=
  runs_compare len f (cmpSigned_sext16 v w s.xerSo ▸ h)

theorem runs_cmpUnsigned_half (h : exec i s = .next (s.resultCr len f (cmpUnsigned (zext16 v) (zext16 w) s.xerSo))) :
    Runs i s (CrResult len f (decide (v.toNat < w.toNat)) (decide (w.toNat < v.toNat)) (decide (v = w)) (s.xer.getLsbD 31) s) :=
  runs_compare len f (cmpUnsigned_zext16 v w s.xerSo ▸ h)

end

/-- A field of two bits as a CR field. -/
theorem zero_append_crField (f : BitVec 2) : (0#1 ++ f : BitVec 3) = f.zeroExtend 3 := by
  revert f; decide

/-- Settles O14: every form writes the outcome of one of four comparisons; a word that is the SCI8 immediate byte by byte is
the model's. -/
theorem compares : Obligations.Compares := by
  intro s rx ry f crf fill scl ui8 i oimm ui5 x y hx hy so
  refine ⟨runs_cmpSigned 2 0#3 rfl, runs_cmpUnsigned 2 0#3 rfl, runs_cmpSigned_half 2 0#3 rfl,
    runs_cmpUnsigned_half 2 0#3 rfl, runs_cmpUnsigned 2 0#3 rfl, runs_cmpSigned 2 0#3 rfl, ?_,
    fun v hv => ?_, runs_cmpSigned 4 0#3 rfl,
    runs_cmpUnsigned 4 0#3 rfl, runs_cmpSigned_half 4 0#3 rfl, runs_cmpUnsigned_half 4 0#3 rfl, runs_cmpSigned_half 4 f rfl,
    runs_cmpUnsigned_half 4 f rfl, runs_cmpSigned 4 f rfl, runs_cmpSigned 4 f rfl, runs_cmpUnsigned 4 f rfl,
    runs_cmpUnsigned 4 f rfl⟩
  case refine_1 =>
    refine runs_compare 2 0#3 ?_
    rw [exec_seBtsti, execSeBtsti, and_bitMask_eq_zero, Bool.not_not]
    rfl
  case refine_2 =>
    obtain rfl := hv.eq_sci8
    rw [← zero_append_crField]
    exact ⟨runs_cmpSigned 4 _ rfl, runs_cmpUnsigned 4 _ rfl⟩

section
variable (s : State)

/-- A logical instruction changes its destination bit alone, to the operation on the source bits as they were. -/
theorem crLogic_spec (bt ba bb : CrBit) (f : Bool → Bool → Bool) :
    CrAfter 4 (fun n => if n = bt then f (crBit s.cr ba) (crBit s.cr bb) else crBit s.cr n) s (s.crLogic bt ba bb f) :=
  ⟨fun n => crBit_withCrBit s.cr bt n _, fun _ => rfl, rfl, rfl, ⟨rfl, rfl, rfl, rfl⟩, SameSystem.refl s⟩

/-- Writing a CR field and going on. -/
theorem resultCr_field (f : CrField) (v : BitVec 4) : CrFieldIs 4 f v s (s.resultCr 4 f v) :=
  ⟨crField_withCrField_self s.cr f v, fun g hg => crField_withCrField_ne s.cr f g v hg, fun _ => rfl, rfl, rfl,
    ⟨rfl, rfl, rfl, rfl⟩, SameSystem.refl s⟩

end

/-! The mask of `mtcrf`. -/

section
variable (fxm : BitVec 8) (n : Nat)

/-- The four bits that bit `i` of the field mask selects. -/
theorem fieldOnes_getMsbD : ∀ i < 8, ∀ n < 32, (0xF0000000#32 >>> (4 * i)).getMsbD n = decide (n / 4 = i) := by decide

theorem foldl_mask_getMsbD (l : List Nat) (m : Word) :
    (l.foldl (fun m i => if fxm.getMsbD i then m ||| (0xF0000000#32 >>> (4 * i)) else m) m).getMsbD n =
      (m.getMsbD n || l.any fun i => fxm.getMsbD i && (0xF0000000#32 >>> (4 * i)).getMsbD n) := by
  induction l generalizing m with
  | nil => simp
  | cons i l ih =>
    rw [List.foldl_cons, ih, List.any_cons, ← Bool.or_assoc]
    cases fxm.getMsbD i <;> simp

theorem fxmMask_getMsbD (h : n < 32) : (fxmMask fxm).getMsbD n = fxm.getMsbD (n / 4) := by
  have one : ((List.range 8).any fun i => fxm.getMsbD i && (0xF0000000#32 >>> (4 * i)).getMsbD n) = fxm.getMsbD (n / 4) := by
    rw [Bool.eq_iff_iff, List.any_eq_true]
    constructor
    · rintro ⟨i, hi, hb⟩
      rw [fieldOnes_getMsbD i (List.mem_range.mp hi) n h, Bool.and_eq_true, decide_eq_true_eq] at hb
      exact hb.2 ▸ hb.1
    · intro hb
      have hi : n / 4 < 8 := by omega
      exact ⟨n / 4, List.mem_range.mpr hi, by rw [fieldOnes_getMsbD _ hi n h, hb]; simp⟩
  rw [fxmMask, foldl_mask_getMsbD, one]
  simp

end

theorem crBit_insertBits (cr m v : Word) (k : CrBit) :
    crBit (insertBits cr m v) k = if m.getMsbD k.toNat then crBit v k else crBit cr k := by
  simp [-BitVec.getLsbD_eq_getElem, crBit, BitVec.getMsbD, k.isLt]

/-- The field of XER that `mcrxr` moves. -/
theorem crField_zero (x : Word) : crField x 0#3 = x.extractLsb' 28 4 := by
  refine BitVec.eq_of_getLsbD_eq fun i hi => ?_
  simp [-BitVec.getLsbD_eq_getElem, hi]

/-- Settles O18: the logical forms by what `crLogic` does, the moves by what writing a field does, mtcrf by the bits of its
mask. -/
theorem crInstructions : Obligations.CrInstructions := by
  intro s bt ba bb f g rt ra rb fxm n x y
  have logic := crLogic_spec s bt ba bb
  refine ⟨⟨_, rfl, logic _⟩, ⟨_, rfl, logic _⟩, ⟨_, rfl, logic _⟩, ⟨_, rfl, logic _⟩, ⟨_, rfl, logic _⟩, ⟨_, rfl, logic _⟩,
    ⟨_, rfl, logic _⟩, ⟨_, rfl, logic _⟩, ⟨_, rfl, logic _⟩, ⟨_, rfl, logic _⟩, ⟨_, rfl, logic _⟩, ⟨_, rfl, logic _⟩,
    ⟨_, rfl, logic _⟩, ⟨_, rfl, logic _⟩, ⟨_, rfl, logic _⟩, ⟨_, rfl, logic _⟩, ⟨_, rfl, resultCr_field s f _⟩,
    ⟨_, rfl, resultCr_field s f _⟩, ?_, ⟨_, rfl, setGprW_advance_spec s rt s.cr⟩, ?_, ⟨_, rfl, setGprW_advance_spec s rt _⟩⟩
  case refine_1 =>
    refine ⟨_, rfl, ?_, fun h hh => crField_withCrField_ne s.cr f h _ hh, rfl, fun _ => rfl, rfl, ⟨rfl, rfl, rfl, rfl⟩,
      SameSystem.refl s⟩
    rw [← crField_zero]
    exact crField_withCrField_self s.cr f _
  case refine_2 =>
    refine ⟨_, rfl, fun k => ?_, fun _ => rfl, rfl, rfl, ⟨rfl, rfl, rfl, rfl⟩, SameSystem.refl s⟩
    exact (crBit_insertBits s.cr (fxmMask fxm) (s.gprW ra) k).trans (by rw [fxmMask_getMsbD fxm k.toNat k.isLt])

end Sys2Proof.Machine

end

section
/-! PROOF. The storage and alignment interrupts of the data accesses (O41, O42). -/

namespace Sys2Proof.Machine

/-! A part of an instruction that ends it with an interrupt. -/

/-- The part ends the instruction, in a state of which `P` holds. -/
def Res.Ends {α : Type} (r : Res α) (P : State → Prop) : Prop := ∃ t, r = .exc t ∧ P t

theorem Res.Ends.andThen {α β : Type} {r : Res α} {P : State → Prop} (h : r.Ends P) (k : α → State → Res β) :
    (r.andThen k).Ends P := by
  obtain ⟨t, rfl, ht⟩ := h
  exact ⟨t, rfl, ht⟩

theorem Res.Ends.runs {α : Type} {r : Res α} {P : State → Prop} {k : α → State → State} {i : Instr} {s : State} (h : r.Ends P)
    (hi : exec i s = r.finish k) : Runs i s P := by
  obtain ⟨t, rfl, ht⟩ := h
  exact ⟨t, hi, ht⟩

/-- An access of `n` bytes at `ea` that no TLB entry translates, or that lies in one doubleword of a page which does not allow
it. -/
def State.Barred (s : State) (a : AccessKind) (ea : Word) (n : Nat) : Prop :=
  s.tlbHits s.msrDs s.pid ea = [] ∨
    ∃ k p, s.tlbHits s.msrDs s.pid ea = [(k, p)] ∧ (p.page ea).allows s.user a = false ∧ ea.toNat % 8 + n ≤ 8

/-- The Data TLB Error interrupt of an access, with its ESR bits but VLEMI. -/
def DataMissed (bits ea : Word) (s t : State) : Prop :=
  TakesNonCritical .dataTlb s.pc (bits ||| if s.cur.vle then 0x20#32 else 0#32) s t ∧ t.ints.dear = ea ∧ t.mmu.tlb = s.mmu.tlb ∧
    t.mmu.mas1.getLsbD 31 = true ∧ t.mmu.mas2.extractLsb' 10 22 = ea.extractLsb' 10 22 ∧ t.mmu.mas3 = 0#32

/-- The Data Storage interrupt of an access, with its ESR bits but VLEMI. -/
def DataDenied (bits ea : Word) (s t : State) : Prop :=
  TakesNonCritical .dataStorage s.pc (bits ||| if s.cur.vle then 0x20#32 else 0#32) s t ∧ t.ints.dear = ea ∧ t.mmu = s.mmu

/-- The one or the other, by whether an entry matches the address. -/
def DataStopped (bits ea : Word) (s t : State) : Prop :=
  (s.tlbHits s.msrDs s.pid ea = [] → DataMissed bits ea s t) ∧
    ∀ k p, s.tlbHits s.msrDs s.pid ea = [(k, p)] → DataDenied bits ea s t

section
variable {s : State} {bits ea : Word}

theorem translate_miss {as : Bool} (shut : s.tlbOpen as s.pid = false) (h : s.tlbHits as s.pid ea = []) :
    s.translate as ea = (none, s) := by
  simp [State.translate, shut, h, State.lookupPage]

/-- The MAS registers prepared for a miss. -/
theorem missMas_spec (s : State) (as : Bool) (ea : Word) :
    (s.missMas as ea).mmu.tlb = s.mmu.tlb ∧ (s.missMas as ea).mmu.mas1.getLsbD 31 = true ∧
      (s.missMas as ea).mmu.mas2.extractLsb' 10 22 = ea.extractLsb' 10 22 ∧ (s.missMas as ea).mmu.mas3 = 0#32 := by
  refine ⟨rfl, ?_, ?_, rfl⟩
  · simp [-BitVec.getLsbD_eq_getElem, State.missMas, Mmu.loadDefaults, boolWord]
  · refine BitVec.eq_of_getLsbD_eq fun i hi => ?_
    have low := (show ∀ j < 22, (0x0000003F#32).getLsbD (10 + j) = false by decide) i hi
    have high := (show ∀ j < 22, (0xFFFFFC00#32).getLsbD (10 + j) = true by decide) i hi
    simp only [State.missMas, Mmu.loadDefaults, BitVec.getLsbD_extractLsb', BitVec.getLsbD_or, BitVec.getLsbD_and, low, high,
      Bool.and_true, Bool.and_false, Bool.or_false]

theorem raiseDataTlb_spec (s : State) (ea bits : Word) : DataMissed bits ea s (raiseDataTlb ea bits s) :=
  ⟨raiseSync_spec ((s.missMas s.msrDs ea).setDear ea) .dataTlb bits rfl (by decide), rfl, missMas_spec s s.msrDs ea⟩

theorem raiseDsi_spec (s : State) (ea bits : Word) : DataDenied bits ea s (raiseDsi ea bits s) :=
  ⟨raiseSync_spec (s.setDear ea) .dataStorage bits rfl (by decide), rfl, rfl⟩

/-- An interrupt that fits what stopped the access. -/
theorem dataStopped_of_miss {t : State} (h : s.tlbHits s.msrDs s.pid ea = []) (miss : DataMissed bits ea s t) :
    DataStopped bits ea s t := ⟨fun _ => miss, fun _ _ one => absurd (h.symm.trans one) (by simp)⟩

theorem dataStopped_of_denial {t : State} {k : Nat} {p : TlbEntry} (h : s.tlbHits s.msrDs s.pid ea = [(k, p)])
    (denied : DataDenied bits ea s t) : DataStopped bits ea s t :=
  ⟨fun none => absurd (h.symm.trans none) (by simp), fun _ _ _ => denied⟩

section
variable {a : AccessKind} {n : Nat} (shut : s.tlbOpen s.msrDs s.pid = false) (barred : s.Barred a ea n)
include shut barred

/-- The beats of a barred access. -/
theorem beats_barred (store : Bool) (m : Nat) (part : Page → State → State) :
    ((s.logAccess ea store m).beats a bits ea n part).Ends (DataStopped bits ea s) := by
  let u := s.logAccess ea store m
  rcases barred with miss | ⟨k, p, hit, closed, inside⟩
  · have none : u.translate u.msrDs ea = (none, u) := translate_miss (s := u) shut miss
    refine ⟨raiseDataTlb ea bits u.markFail, ?_, dataStopped_of_miss miss (raiseDataTlb_spec u.markFail ea bits)⟩
    rw [State.beats, none]
  · have found : u.translate u.msrDs ea = (some (p.page ea), u) := translate_one (s := u) shut hit
    have fits : n ≤ room ea := by
      rw [room]
      omega
    refine ⟨raiseDsi ea bits u.markFail, ?_, dataStopped_of_denial hit (raiseDsi_spec u.markFail ea bits)⟩
    rw [State.beats, found]
    exact (if_pos fits).trans (if_neg (Bool.eq_false_iff.mp closed))

theorem load_barred (h : a = .load) (el : Nat) : (s.load bits ea n el).Ends (DataStopped bits ea s) := by
  subst h
  exact (beats_barred shut barred false n _).andThen _

theorem storeDone_barred (h : a = .store) {b : List Byte} (hn : b.length = n) (el : Nat) :
    (s.storeDone bits ea el b).Ends (DataStopped (bits ||| esrSt) ea s) := by
  subst h hn
  exact (beats_barred shut barred true b.length _).andThen _

/-! The accesses that are made of beats. -/

theorem loadWords_barred (h : a = .load) (hn : n = 4) {l : List (State → Word → State)} (some : l ≠ []) :
    (s.loadWords ea l).Ends (DataStopped 0#32 ea s) := by
  subst hn
  cases l with
  | nil => exact absurd rfl some
  | cons put l => exact (load_barred shut barred h 4).andThen _

theorem storeWords_barred (h : a = .store) (hn : n = 4) {l : List Word} (some : l ≠ []) :
    (s.storeWords ea l).Ends (DataStopped esrSt ea s) := by
  subst hn
  cases l with
  | nil => exact absurd rfl some
  | cons w l => exact (storeDone_barred shut barred h (b := wordBytes w) rfl 4).andThen _

theorem loadReserve_barred (h : a = .load) : (s.loadReserve ea n).Ends (DataStopped 0#32 ea s) := by
  subst h
  exact (beats_barred shut barred false n _).andThen _

theorem storeConditional_barred (h : a = .store) {b : List Byte} (hn : b.length = n) :
    (s.storeConditional ea b).Ends (DataStopped esrSt ea s) := by
  subst h hn
  exact (beats_barred shut barred true b.length _).andThen _

/-- The translation of a block operation. -/
theorem blockPage_barred : (s.blockPage a ea).Ends (DataStopped (if a == .store then esrSt else 0#32) ea s) := by
  let u := s.logAccess ea (a == .store) 0
  rcases barred with miss | ⟨k, p, hit, closed, -⟩
  · have none : u.translate s.msrDs ea = (none, u) := translate_miss (s := u) shut miss
    refine ⟨raiseDataTlb ea _ u.markFail, ?_, dataStopped_of_miss miss (raiseDataTlb_spec u.markFail ea _)⟩
    rw [State.blockPage, none]
  · have found : u.translate s.msrDs ea = (some (p.page ea), u) := translate_one (s := u) shut hit
    refine ⟨raiseDsi ea _ u.markFail, ?_, dataStopped_of_denial hit (raiseDsi_spec u.markFail ea _)⟩
    rw [State.blockPage, found]
    exact if_neg (Bool.eq_false_iff.mp closed)

/-- The translation of a lock instruction that the mode allows. -/
theorem lockPage_barred {side : Side} (h : a = side.lockKind) (may : s.user = false ∨ s.msrUcle = true) :
    (s.lockPage side ea).Ends (DataStopped 0#32 ea s) := by
  subst h
  let u := s.logAccess ea false 0
  have may : ¬ (u.user && !u.msrUcle) = true := by
    have may : u.user = false ∨ u.msrUcle = true := may
    rcases may with h | h <;> simp [h]
  rcases barred with miss | ⟨k, p, hit, closed, -⟩
  · have none : (s.logAccess ea false 0).translate s.msrDs ea = (none, u) := translate_miss (s := u) shut miss
    refine ⟨raiseDataTlb ea 0#32 u.markFail, ?_, dataStopped_of_miss miss (raiseDataTlb_spec u.markFail ea 0#32)⟩
    simp only [State.lockPage, none]
  · have found : (s.logAccess ea false 0).translate s.msrDs ea = (some (p.page ea), u) := translate_one (s := u) shut hit
    refine ⟨raiseDsi ea 0#32 u.markFail, ?_, dataStopped_of_denial hit (raiseDsi_spec u.markFail ea 0#32)⟩
    simp only [State.lockPage, found]
    cases side with
    | instr => exact (if_neg may).trans (if_neg (Bool.eq_false_iff.mp closed))
    | data => exact (if_neg may).trans (if_neg (Bool.eq_false_iff.mp closed))

end

end

/-! The instructions. -/

/-- What is said of an entry of a list of accesses: a premise, an instruction, its address and the size of its access. -/
def State.Stops (s : State) (a : AccessKind) (bits : Word) (q : Prop × Instr × Word × Nat) : Prop :=
  q.1 → s.Barred a q.2.2.1 q.2.2.2 → Runs q.2.1 s (DataStopped bits q.2.2.1 s)

section
variable {s : State} {i : Instr} {ea ea' : Word} {n el : Nat} {premise : Prop} {r ra rb : Gpr}
  (shut : s.tlbOpen s.msrDs s.pid = false)
include shut

theorem stops_loadTo {len : Nat} {upd : Option Gpr} {f : List Byte → Word} (hi : exec i s = s.loadTo len n r upd f ea')
    (place : ea' = ea) : s.Stops .load 0#32 (premise, i, ea, n) := by
  subst place
  exact fun _ barred => (load_barred shut barred rfl n).runs hi

theorem stops_storeFrom {len : Nat} {upd : Option Gpr} {b : List Byte} (hi : exec i s = s.storeFrom len b upd ea')
    (place : ea' = ea) (hn : b.length = n) : s.Stops .store esrSt (premise, i, ea, n) := by
  subst place
  exact fun _ barred => ((storeDone_barred shut barred rfl hn b.length).andThen _).runs hi

theorem stops_loadMultiple {l : List (State → Word → State)} (on : premise → ea.toNat % 4 = 0)
    (hi : premise → exec i s = s.loadMultiple ea l) (some : l ≠ []) : s.Stops .load 0#32 (premise, i, ea, 4) :=
  fun h barred => (loadWords_barred shut barred rfl rfl some).runs ((hi h).trans (if_pos (aligned_of_mod (on h))))

theorem stops_storeMultiple {l : List Word} (on : premise → ea.toNat % 4 = 0)
    (hi : premise → exec i s = s.storeMultiple ea l) (some : l ≠ []) : s.Stops .store esrSt (premise, i, ea, 4) :=
  fun h barred => (storeWords_barred shut barred rfl rfl some).runs ((hi h).trans (if_pos (aligned_of_mod (on h))))

theorem stops_loadReserved (on : premise → (s.eaX ra rb).toNat % n = 0) (hi : exec i s = s.loadReserved n r ra rb) :
    s.Stops .load 0#32 (premise, i, s.eaX ra rb, n) :=
  fun h barred => (loadReserve_barred shut barred rfl).runs (hi.trans (if_pos (aligned_of_mod (on h))))

theorem stops_storeReserved {b : List Byte} (on : premise → s.resv = true ∧ (s.eaX ra rb).toNat % n = 0)
    (hi : exec i s = s.storeReserved b ra rb) (hn : b.length = n) : s.Stops .store esrSt (premise, i, s.eaX ra rb, n) := by
  subst hn
  intro h barred
  obtain ⟨held, on⟩ := on h
  have there : ¬ (!s.resv) = true := by simp [held]
  exact (storeConditional_barred shut barred rfl rfl).runs
    (hi.trans ((if_neg there).trans (if_pos (aligned_of_mod on))))

theorem stops_speLoad {form : SpeForm} {f : List Byte → DWord} (hi : exec i s = s.speLoad form n el r f ea')
    (place : ea' = ea) :
    s.Stops .load esrSpe (s.msr.getLsbD 25 = true ∧ ea.toNat % s.pins.speBoundary form n = 0, i, ea, n) := by
  subst place
  rintro ⟨available, on⟩ barred
  exact (load_barred shut barred rfl el).runs (hi.trans ((if_pos available).trans (if_pos (aligned_of_mod on))))

theorem stops_speStore {form : SpeForm} {b : List Byte} (hi : exec i s = s.speStore form el b ea') (place : ea' = ea)
    (hn : b.length = n) :
    s.Stops .store (esrSpe ||| esrSt) (s.msr.getLsbD 25 = true ∧ ea.toNat % s.pins.speBoundary form n = 0, i, ea, n) := by
  subst place hn
  rintro ⟨available, on⟩ barred
  exact ((storeDone_barred shut barred rfl rfl el).andThen _).runs
    (hi.trans ((if_pos available).trans (if_pos (aligned_of_mod on))))

/-! The block operations with their cache on. -/

theorem stops_block {a : AccessKind} {op : Res Unit} (hi : premise → exec i s = op.finish fun _ s => s.advance 4)
    (on : premise → ∃ x, op = (s.blockPage a ea).andThen x) :
    s.Stops a (if a == .store then esrSt else 0#32) (premise, i, ea, n) :=
  fun h barred =>
    have ⟨x, hx⟩ := on h
    (hx ▸ (blockPage_barred shut barred).andThen x : op.Ends _).runs (hi h)

theorem stops_lock {side : Side} {op : Res Unit} (hi : exec i s = op.finish fun _ s => s.advance 4)
    (on : s.cacheOn side = true → ∃ x, op = (s.lockPage side ea).andThen x) :
    s.Stops side.lockKind 0#32 (s.cacheOn side = true ∧ (s.user = false ∨ s.msrUcle = true), i, ea, n) := by
  rintro ⟨h, may⟩ barred
  obtain ⟨x, rfl⟩ := on h
  exact ((lockPage_barred shut barred rfl may).andThen x).runs hi

end

section
variable (s : State) {ea : Word}

theorem blockFlush_on (inv : Bool) (on : s.cacheOn .data = true) :
    ∃ x, s.blockFlush ea inv = (s.blockPage .load ea).andThen x := by
  rw [State.blockFlush, on]
  exact ⟨_, rfl⟩

theorem blockDiscard_data_on (on : s.cacheOn .data = true) :
    ∃ x, s.blockDiscard .data ea = (s.blockPage .store ea).andThen x := by
  rw [State.blockDiscard, on]
  exact ⟨_, rfl⟩

theorem blockDiscard_instr_on (on : s.cacheOn .instr = true) :
    ∃ x, s.blockDiscard .instr ea = (s.blockPage .load ea).andThen x := by
  rw [State.blockDiscard, on]
  exact ⟨_, rfl⟩

theorem blockZero_on (on : s.cacheOn .data = true) : ∃ x, s.blockZero ea = (s.blockPage .store ea).andThen x := by
  rw [State.blockZero, on]
  exact ⟨_, rfl⟩

theorem blockLock_on {side : Side} (on : s.cacheOn side = true) :
    ∃ x, s.blockLock side 0#4 ea = (s.lockPage side ea).andThen x := by
  rw [State.blockLock, on]
  exact ⟨_, rfl⟩

theorem blockUnlock_on {side : Side} (on : s.cacheOn side = true) :
    ∃ x, s.blockUnlock side 0#4 ea = (s.lockPage side ea).andThen x := by
  rw [State.blockUnlock, on]
  exact ⟨_, rfl⟩

end

/-! A lock instruction that user mode may not run. -/

/-- The Data Storage interrupt of a lock instruction, with its ESR bit. -/
def LockDenied (bit : Word) (s t : State) : Prop :=
  TakesNonCritical .dataStorage s.pc (bit ||| if s.cur.vle then 0x20#32 else 0#32) s t ∧ t.ints.dear = s.ints.dear ∧
    t.mmu = s.mmu

/-- The ESR bit of a side. -/
def Side.lockBit : Side → Word
  | .instr => esrIlk
  | .data => esrDlk

section
variable {s : State} {i : Instr} {ea : Word} {side : Side} {op : Res Unit} (shut : s.tlbOpen s.msrDs s.pid = false)
  (user : s.user = true) (locked : s.msrUcle = false)
  (hi : exec i s = op.finish fun _ s => s.advance 4) (on : ∃ x, op = (s.lockPage side ea).andThen x)
include shut hi on

theorem runs_lock_missed (none : s.tlbHits s.msrDs s.pid ea = []) : Runs i s (DataMissed 0#32 ea s) := by
  obtain ⟨x, rfl⟩ := on
  let u := s.logAccess ea false 0
  have none' : (s.logAccess ea false 0).translate s.msrDs ea = (Option.none, u) := translate_miss (s := u) shut none
  refine ⟨raiseDataTlb ea 0#32 u.markFail, hi.trans ?_, raiseDataTlb_spec u.markFail ea 0#32⟩
  simp only [State.lockPage, none']
  rfl

include user locked

theorem runs_lock_denied {k : Nat} {p : TlbEntry} (hit : s.tlbHits s.msrDs s.pid ea = [(k, p)]) :
    Runs i s (LockDenied side.lockBit s) := by
  obtain ⟨x, rfl⟩ := on
  let u := s.logAccess ea false 0
  have found : (s.logAccess ea false 0).translate s.msrDs ea = (some (p.page ea), u) := translate_one (s := u) shut hit
  have barred : (u.user && !u.msrUcle) = true := by
    have user : u.user = true := user
    have locked : u.msrUcle = false := locked
    simp [user, locked]
  have spec (bit : Word) : LockDenied bit s (raiseLockDsi bit u.markFail) :=
    ⟨raiseSync_spec u.markFail .dataStorage bit rfl (by decide), rfl, rfl⟩
  refine ⟨raiseLockDsi side.lockBit u.markFail, hi.trans ?_, spec _⟩
  simp only [State.lockPage, found, if_pos barred]
  cases side <;> rfl

end

/-! The lists of the registers that the multiple forms move are not empty. -/

theorem gprsFrom_ne_nil (r : Gpr) : gprsFrom r ≠ [] := by
  have := r.isLt
  exact List.ne_nil_of_length_pos (by rw [gprsFrom_length]; omega)

theorem intoGprs_ne_nil {l : List Gpr} (h : l ≠ []) : intoGprs l ≠ [] := mt List.map_eq_nil_iff.mp h

theorem fromGprs_ne_nil (s : State) {l : List Gpr} (h : l ≠ []) : s.fromGprs l ≠ [] := mt List.map_eq_nil_iff.mp h

/-- Settles O41: each instruction is the shared access of its shape, which a barred address stops at its first beat. -/
theorem storageInterrupts : Obligations.StorageInterrupts := by
  intro s r ra rb d d8 sd4 ui k p shut base ed ex e8 es eu vlemi user on sup resv spe dOn iOn mayLock missed stops locks
  have all (a : AccessKind) (bits : Word) (is : List (Prop × Instr × Word × Nat)) (h : ∀ q ∈ is, s.Stops a bits q) :
      stops a bits is := by
    intro q hq premise
    refine ⟨fun none => ?_, fun hit closed inside => ?_⟩
    · obtain ⟨t, ht, stopped⟩ := h q hq premise (.inl none)
      exact ⟨t, ht, stopped.1 none⟩
    · obtain ⟨t, ht, stopped⟩ := h q hq premise (.inr ⟨k, p, hit, closed, inside⟩)
      exact ⟨t, ht, stopped.2 k p hit⟩
  have lock (side : Side) (premise : s.cacheOn side = true) {i : Instr} {op : Res Unit}
      (hi : exec i s = op.finish fun _ s => s.advance 4) (x : ∃ x, op = (s.lockPage side ex).andThen x) (user : s.user = true)
      (locked : s.msrUcle = false) :
      (s.tlbHits s.msrDs s.pid ex = [] → Runs i s (DataMissed 0#32 ex s)) ∧
        (s.tlbHits s.msrDs s.pid ex = [(k, p)] →
          Runs i s (LockDenied side.lockBit s)) :=
    ⟨runs_lock_missed shut hi x, runs_lock_denied shut user locked hi x⟩
  refine ⟨all _ _ _ ?loads, all _ _ _ ?stores, all _ _ _ ?loadForms, all _ _ _ ?storeForms, all _ _ _ ?speLoads,
    all _ _ _ ?speStores, all _ _ _ ?dataLocks, all _ _ _ ?instrLocks, ?dataDenied, ?instrDenied⟩
  case' dataDenied => show ∀ q ∈ _, _
  case' instrDenied => show ∀ q ∈ _, _
  all_goals simp only [List.forall_mem_cons, List.not_mem_nil, IsEmpty.forall_iff, implies_true, and_true]
  case loads =>
    and_intros
    iterate 26 exact stops_loadTo shut rfl rfl
    all_goals exact stops_loadTo shut rfl (eaSd4_eq s ra sd4 rfl)
  case stores =>
    and_intros
    iterate 20 exact stops_storeFrom shut rfl rfl rfl
    all_goals exact stops_storeFrom shut rfl (eaSd4_eq s ra sd4 rfl) rfl
  case loadForms =>
    have several := intoGprs_ne_nil (gprsFrom_ne_nil r)
    have super (h : sup) (k : State → Host.Outcome State Fault Refusal) : privileged s k = k s := privileged_supervisor h.1 k
    exact ⟨stops_loadMultiple shut id (fun _ => exec_lmw s r d ra) several,
      stops_loadMultiple shut id (fun _ => exec_eLmw s r d8 ra) several,
      stops_loadMultiple shut id (fun _ => exec_eLmvgprw s d8 ra) (by decide),
      stops_loadMultiple shut id (fun _ => exec_eLmvsprw s d8 ra) (by simp),
      stops_loadMultiple shut And.right (fun h => (exec_eLmvsrrw s d8 ra).trans (super h _)) (by simp),
      stops_loadMultiple shut And.right (fun h => (exec_eLmvcsrrw s d8 ra).trans (super h _)) (by simp),
      stops_loadMultiple shut And.right (fun h => (exec_eLmvdsrrw s d8 ra).trans (super h _)) (by simp),
      stops_loadMultiple shut And.right (fun h => (exec_eLmvmcsrrw s d8 ra).trans (super h _)) (by simp),
      stops_loadReserved shut (fun _ => Nat.mod_one _) rfl, stops_loadReserved shut id rfl, stops_loadReserved shut id rfl,
      stops_block shut (fun _ => rfl) (blockFlush_on s true), stops_block shut (fun _ => rfl) (blockFlush_on s false),
      stops_block shut (fun _ => rfl) (blockDiscard_instr_on s)⟩
  case storeForms =>
    have super (h : sup) (k : State → Host.Outcome State Fault Refusal) : privileged s k = k s := privileged_supervisor h.1 k
    exact ⟨stops_storeMultiple shut id (fun _ => exec_stmw s r d ra) (fromGprs_ne_nil s (gprsFrom_ne_nil r)),
      stops_storeMultiple shut id (fun _ => exec_eStmw s r d8 ra) (fromGprs_ne_nil s (gprsFrom_ne_nil r)),
      stops_storeMultiple shut id (fun _ => exec_eStmvgprw s d8 ra) (fromGprs_ne_nil s (by decide)),
      stops_storeMultiple shut id (fun _ => exec_eStmvsprw s d8 ra) (by simp),
      stops_storeMultiple shut And.right (fun h => (exec_eStmvsrrw s d8 ra).trans (super h _)) (by simp),
      stops_storeMultiple shut And.right (fun h => (exec_eStmvcsrrw s d8 ra).trans (super h _)) (by simp),
      stops_storeMultiple shut And.right (fun h => (exec_eStmvdsrrw s d8 ra).trans (super h _)) (by simp),
      stops_storeMultiple shut And.right (fun h => (exec_eStmvmcsrrw s d8 ra).trans (super h _)) (by simp),
      stops_storeReserved shut id rfl rfl, stops_storeReserved shut id rfl rfl, stops_storeReserved shut id rfl rfl,
      stops_block shut (fun _ => rfl) (blockZero_on s),
      stops_block shut (fun h => (exec_dcbi s ra rb).trans (privileged_supervisor h.2 _)) fun h => blockDiscard_data_on s h.1⟩
  case speLoads =>
    and_intros
    iterate 11
      · exact stops_speLoad shut rfl rfl
      · exact stops_speLoad shut rfl (eaEv_eq s ra ui rfl)
  case speStores =>
    and_intros
    iterate 7
      · exact stops_speStore shut rfl rfl rfl
      · exact stops_speStore shut rfl (eaEv_eq s ra ui rfl) rfl
  case dataLocks =>
    exact ⟨stops_lock (side := .data) shut rfl (blockLock_on s),
      stops_lock (side := .data) shut rfl (blockLock_on s),
      stops_lock (side := .data) shut rfl (blockUnlock_on s)⟩
  case instrLocks =>
    exact ⟨stops_lock (side := .instr) shut rfl (blockLock_on s), stops_lock (side := .instr) shut rfl (blockUnlock_on s)⟩
  case dataDenied =>
    exact ⟨fun on => lock .data on rfl (blockLock_on s on), fun on => lock .data on rfl (blockLock_on s on),
      fun on => lock .data on rfl (blockUnlock_on s on)⟩
  case instrDenied =>
    exact ⟨fun on => lock .instr on rfl (blockLock_on s on), fun on => lock .instr on rfl (blockUnlock_on s on)⟩

/-! The Alignment interrupt. -/

/-- The Alignment interrupt of an access, with its ESR bits but VLEMI. -/
def AlignmentStopped (bits ea : Word) (s t : State) : Prop :=
  TakesNonCritical .alignment s.pc (bits ||| if s.cur.vle then 0x20#32 else 0#32) s t ∧ t.ints.dear = ea ∧ t.mmu = s.mmu

section
variable {s : State} {i : Instr} {ea ea' : Word} {n el : Nat} {r ra rb : Gpr}

theorem runs_raiseAlignment {bits : Word} (hi : exec i s = .next (raiseAlignment ea bits s)) :
    Runs i s (AlignmentStopped bits ea s) :=
  ⟨_, hi, raiseSync_spec (s.setDear ea) .alignment bits rfl (by decide), rfl, rfl⟩

theorem not_aligned_of_mod (off : ea.toNat % n ≠ 0) : ¬ aligned ea n = true := mt beq_iff_eq.mp off

theorem runs_loadMultiple_off {l : List (State → Word → State)} (hi : exec i s = s.loadMultiple ea l)
    (off : ea.toNat % 4 ≠ 0) : Runs i s (AlignmentStopped 0#32 ea s) :=
  runs_raiseAlignment (hi.trans (if_neg (not_aligned_of_mod off)))

theorem runs_storeMultiple_off {l : List Word} (hi : exec i s = s.storeMultiple ea l) (off : ea.toNat % 4 ≠ 0) :
    Runs i s (AlignmentStopped esrSt ea s) :=
  runs_raiseAlignment (hi.trans (if_neg (not_aligned_of_mod off)))

theorem runs_loadReserved_off (hi : exec i s = s.loadReserved n r ra rb) (off : (s.eaX ra rb).toNat % n ≠ 0) :
    Runs i s (AlignmentStopped 0#32 (s.eaX ra rb) s) :=
  runs_raiseAlignment (hi.trans (if_neg (not_aligned_of_mod off)))

theorem runs_storeReserved_off {b : List Byte} (hi : exec i s = s.storeReserved b ra rb) (hn : b.length = n)
    (held : s.resv = true) (off : (s.eaX ra rb).toNat % n ≠ 0) : Runs i s (AlignmentStopped esrSt (s.eaX ra rb) s) := by
  subst hn
  have there : ¬ (!s.resv) = true := by simp [held]
  exact runs_raiseAlignment (hi.trans ((if_neg there).trans (if_neg (not_aligned_of_mod off))))

theorem runs_blockZero_off (hi : exec i s = (s.blockZero ea).finish fun _ s => s.advance 4)
    (off : s.cache.l1csr0.getLsbD 0 = false) : Runs i s (AlignmentStopped esrSt ea s) := by
  have off : s.cacheOn .data = false := off
  refine runs_raiseAlignment (hi.trans ?_)
  rw [State.blockZero, off]
  rfl

theorem runs_speLoad_off {form : SpeForm} {f : List Byte → DWord} (hi : exec i s = s.speLoad form n el r f ea')
    (place : ea' = ea) (h : s.msr.getLsbD 25 = true ∧ ea.toNat % s.pins.speBoundary form n ≠ 0) :
    Runs i s (AlignmentStopped esrSpe ea s) := by
  subst place
  exact runs_raiseAlignment (hi.trans ((if_pos h.1).trans (if_neg (not_aligned_of_mod h.2))))

theorem runs_speStore_off {form : SpeForm} {b : List Byte} (hi : exec i s = s.speStore form el b ea') (place : ea' = ea)
    (hn : b.length = n) (h : s.msr.getLsbD 25 = true ∧ ea.toNat % s.pins.speBoundary form n ≠ 0) :
    Runs i s (AlignmentStopped (esrSpe ||| esrSt) ea s) := by
  subst place hn
  exact runs_raiseAlignment (hi.trans ((if_pos h.1).trans (if_neg (not_aligned_of_mod h.2))))

end

/-- Settles O42: each shape of access finds the address off its boundary before it translates it. -/
theorem alignmentInterrupts : Obligations.AlignmentInterrupts := by
  intro s r ra rb d d8 ui base ed ex e8 eu vlemi off sup resv spe stops
  have super (h : sup) (k : State → Host.Outcome State Fault Refusal) : privileged s k = k s := privileged_supervisor h.1 k
  have all (bits : Word) (is : List (Prop × Instr × Word)) (h : ∀ q ∈ is, q.1 → Runs q.2.1 s (AlignmentStopped bits q.2.2 s)) :
      stops bits is := h
  refine ⟨all _ _ ?loads, all _ _ ?stores, all _ _ ?speLoads, all _ _ ?speStores⟩
  all_goals simp only [List.forall_mem_cons, List.not_mem_nil, IsEmpty.forall_iff, implies_true, and_true]
  case loads =>
    exact ⟨runs_loadMultiple_off (exec_lmw s r d ra), runs_loadMultiple_off (exec_eLmw s r d8 ra),
      runs_loadMultiple_off (exec_eLmvgprw s d8 ra), runs_loadMultiple_off (exec_eLmvsprw s d8 ra),
      fun h => runs_loadMultiple_off ((exec_eLmvsrrw s d8 ra).trans (super h _)) h.2,
      fun h => runs_loadMultiple_off ((exec_eLmvcsrrw s d8 ra).trans (super h _)) h.2,
      fun h => runs_loadMultiple_off ((exec_eLmvdsrrw s d8 ra).trans (super h _)) h.2,
      fun h => runs_loadMultiple_off ((exec_eLmvmcsrrw s d8 ra).trans (super h _)) h.2,
      runs_loadReserved_off (exec_lharx s r ra rb), runs_loadReserved_off (exec_lwarx s r ra rb)⟩
  case stores =>
    exact ⟨runs_storeMultiple_off (exec_stmw s r d ra), runs_storeMultiple_off (exec_eStmw s r d8 ra),
      runs_storeMultiple_off (exec_eStmvgprw s d8 ra), runs_storeMultiple_off (exec_eStmvsprw s d8 ra),
      fun h => runs_storeMultiple_off ((exec_eStmvsrrw s d8 ra).trans (super h _)) h.2,
      fun h => runs_storeMultiple_off ((exec_eStmvcsrrw s d8 ra).trans (super h _)) h.2,
      fun h => runs_storeMultiple_off ((exec_eStmvdsrrw s d8 ra).trans (super h _)) h.2,
      fun h => runs_storeMultiple_off ((exec_eStmvmcsrrw s d8 ra).trans (super h _)) h.2,
      fun h => runs_storeReserved_off (exec_sthcxDot s r ra rb) rfl h.1 h.2,
      fun h => runs_storeReserved_off (exec_stwcxDot s r ra rb) rfl h.1 h.2, runs_blockZero_off (exec_dcbz s ra rb)⟩
  case speLoads =>
    and_intros
    iterate 11
      · exact runs_speLoad_off rfl rfl
      · exact runs_speLoad_off rfl (eaEv_eq s ra ui rfl)
  case speStores =>
    and_intros
    iterate 7
      · exact runs_speStore_off rfl rfl rfl
      · exact runs_speStore_off rfl (eaEv_eq s ra ui rfl) rfl

end Sys2Proof.Machine
end

section
/-! PROOF. The floating-point Data and Round interrupts (O53). -/

namespace Sys2Proof.Machine

/-! Which outcomes SPEFSCR makes a data exception. -/

section
variable (oh ol : FpOut) (n : Nat)

/-- The enable bits of both outcomes, bit by bit. -/
theorem enables_getLsbD : (oh.enables ||| ol.enables).getLsbD n =
    (((oh.inv || ol.inv) && decide (n = 5)) || ((oh.dbz || ol.dbz) && decide (n = 4)) ||
      ((oh.unf || ol.unf) && decide (n = 3)) || ((oh.ovf || ol.ovf) && decide (n = 2))) := by
  have h5 := oneBit_getLsbD 0x20#32 5 n (by decide) (by decide)
  have h4 := oneBit_getLsbD 0x10#32 4 n (by decide) (by decide)
  have h3 := oneBit_getLsbD 0x8#32 3 n (by decide) (by decide)
  have h2 := oneBit_getLsbD 0x4#32 2 n (by decide) (by decide)
  simp only [FpOut.enables, BitVec.getLsbD_or, ite_getLsbD, h5, h4, h3, h2, Bool.and_or_distrib_right]
  ac_rfl

/-- The completion of an instruction looks for a bit that is reported and enabled, the statement for the four of them. -/
theorem traps_iff (s : State) :
    (withStatus s.spefscr oh ol &&& (oh.enables ||| ol.enables) != 0#32) = s.fpTraps oh ol := by
  have bit : ∀ n < 32, (withStatus s.spefscr oh ol &&& (oh.enables ||| ol.enables)).getLsbD n =
      ((decide (n = 5) && ((oh.inv || ol.inv) && s.spefscr.getLsbD 5)) ||
        (decide (n = 4) && ((oh.dbz || ol.dbz) && s.spefscr.getLsbD 4)) ||
        (decide (n = 3) && ((oh.unf || ol.unf) && s.spefscr.getLsbD 3)) ||
        (decide (n = 2) && ((oh.ovf || ol.ovf) && s.spefscr.getLsbD 2))) := by
    intro n hn
    rw [BitVec.getLsbD_and, withStatus_getLsbD _ _ _ _ hn, enables_getLsbD]
    by_cases enable : n = 5 ∨ n = 4 ∨ n = 3 ∨ n = 2
    · rcases enable with rfl | rfl | rfl | rfl <;> simp [-BitVec.getLsbD_eq_getElem, Bool.and_comm]
    · obtain ⟨h5, h4, h3, h2⟩ : n ≠ 5 ∧ n ≠ 4 ∧ n ≠ 3 ∧ n ≠ 2 := by omega
      simp [h5, h4, h3, h2]
  rw [Bool.eq_iff_iff, bne_iff_ne]
  constructor
  · intro some
    by_contra none
    rw [Bool.not_eq_true, State.fpTraps, Bool.or_eq_false_iff, Bool.or_eq_false_iff, Bool.or_eq_false_iff] at none
    obtain ⟨⟨⟨h5, h4⟩, h3⟩, h2⟩ := none
    refine some (BitVec.eq_of_getLsbD_eq fun n hn => ?_)
    simp [-BitVec.getLsbD_eq_getElem, bit n hn, h5, h4, h3, h2]
  · intro traps zero
    rw [zero] at bit
    have h5 := bit 5 (by decide)
    have h4 := bit 4 (by decide)
    have h3 := bit 3 (by decide)
    have h2 := bit 2 (by decide)
    simp only [BitVec.getLsbD_zero, Nat.reduceEqDiff, decide_true, decide_false, Bool.true_and, Bool.false_and,
      Bool.or_false, Bool.false_or] at h5 h4 h3 h2
    rw [State.fpTraps, ← h5, ← h4, ← h3, ← h2] at traps
    exact absurd traps (by decide)

end

section
variable {s : State} {oh ol : FpOut} {write : Word → Word → State → State}

/-! The three ways in which an instruction completes. -/

/-- SPEFSCR of the Data interrupt. -/
def fpTrapped (s : State) (oh ol : FpOut) : State := { s with spefscr := withStatus s.spefscr oh ol &&& ~~~0x30003000#32 }

/-- The state into which the Round interrupt delivers: two free words drawn. -/
def fpDrawn (s : State) (oh ol : FpOut) : State := { fpGone s oh ol with free := s.free + 2 }

theorem fpFinish_trap (traps : s.fpTraps oh ol = true) :
    s.fpFinish oh ol write = .next (raiseFpData (fpTrapped s oh ol)) :=
  if_pos ((traps_iff oh ol s).trans traps)

theorem withStatus_finxe (s : State) (oh ol : FpOut) : (withStatus s.spefscr oh ol).getLsbD 6 = s.spefscr.getLsbD 6 :=
  withStatus_getLsbD _ _ _ 6 (by decide)

theorem fpFinish_round (quiet : s.fpTraps oh ol = false) (enabled : s.spefscr.getLsbD 6 = true)
    (inexact : (oh.inexact || ol.inexact) = true) :
    s.fpFinish oh ol write =
      .next (raiseFpRound (write (oh.delivered s.free) (ol.delivered (s.free + 1)) (fpDrawn s oh ol))) := by
  rw [fpDrawn, fpGone, if_pos inexact]
  exact (if_neg (by rw [traps_iff, quiet]; decide)).trans
    ((if_pos inexact).trans (if_pos ((withStatus_finxe s oh ol).trans enabled)))

theorem fpFinish_on (quiet : s.fpTraps oh ol = false)
    (still : s.spefscr.getLsbD 6 = false ∨ (oh.inexact || ol.inexact) = false) :
    s.fpFinish oh ol write = .next ((write oh.result ol.result (fpGone s oh ol)).advance 4) := by
  have untrapped : ¬ (withStatus s.spefscr oh ol &&& (oh.enables ||| ol.enables) != 0#32) = true := by
    rw [traps_iff, quiet]
    decide
  refine (if_neg untrapped).trans ?_
  rw [fpGone]
  by_cases inexact : (oh.inexact || ol.inexact) = true
  · rw [if_pos inexact, if_pos inexact]
    refine if_neg ?_
    rw [withStatus_finxe]
    rcases still with off | exact_
    · exact Bool.eq_false_iff.mp off
    · exact absurd (exact_.symm.trans inexact) (by decide)
  · rw [if_neg inexact, if_neg inexact]

/-! The status of the Data interrupt. -/

theorem fpDataStatus_of (t : State) (h : t.spefscr = withStatus s.spefscr oh ol &&& ~~~0x30003000#32) :
    FpDataStatus oh ol s t := by
  have guard : ∀ n < 32, (~~~0x30003000#32).getLsbD n = decide (n ≠ 29 ∧ n ≠ 28 ∧ n ≠ 13 ∧ n ≠ 12) := by decide
  have bit : ∀ n < 32, t.spefscr.getLsbD n =
      ((withStatus s.spefscr oh ol).getLsbD n && decide (n ≠ 29 ∧ n ≠ 28 ∧ n ≠ 13 ∧ n ≠ 12)) := by
    intro n hn
    rw [h, BitVec.getLsbD_and, guard n hn]
  refine ⟨fun n b hm => ?_, fun n b hm => ?_, fun n hm => ?_⟩
  · simp only [List.mem_cons, List.not_mem_nil, or_false, Prod.mk.injEq] at hm
    repeat' refine Or.elim hm (fun hm => ?_) (fun hm => ?_)
    all_goals
      obtain ⟨hn, hv⟩ := hm
      subst hn hv
      rw [bit _ (by decide), withStatus_getLsbD _ _ _ _ (by decide)]
      simp
  · simp only [List.mem_cons, List.not_mem_nil, or_false, Prod.mk.injEq] at hm
    repeat' refine Or.elim hm (fun hm => ?_) (fun hm => ?_)
    all_goals
      obtain ⟨hn, hv⟩ := hm
      subst hn hv
      rw [bit _ (by decide), withStatus_getLsbD _ _ _ _ (by decide)]
      simp
  · simp only [List.mem_cons, List.not_mem_nil, or_false] at hm
    repeat' refine Or.elim hm (fun hm => ?_) (fun hm => ?_)
    all_goals
      subst hm
      rw [bit _ (by decide), withStatus_getLsbD _ _ _ _ (by decide)]
      simp

/-! The two interrupts. -/

theorem raiseFpData_spec (s : State) (oh ol : FpOut) :
    TakesNonCritical .fpData s.pc (0x80#32 ||| (if s.cur.vle then 0x20#32 else 0#32))
        { s with spefscr := (raiseFpData (fpTrapped s oh ol)).spefscr } (raiseFpData (fpTrapped s oh ol)) ∧
      (raiseFpData (fpTrapped s oh ol)).ints.dear = s.ints.dear ∧ (raiseFpData (fpTrapped s oh ol)).mmu = s.mmu ∧
      FpDataStatus oh ol s (raiseFpData (fpTrapped s oh ol)) :=
  ⟨raiseSync_spec (fpTrapped s oh ol) .fpData 0x80#32 rfl (by decide), rfl, rfl, fpDataStatus_of _ rfl⟩

/-- The Round interrupt, once the destination is written. -/
theorem raiseFpRound_spec (s : State) (oh ol : FpOut) (g : Vector DWord 32) :
    TakesNonCritical .fpRound (s.pc + 4#32) (0x80#32 ||| (if s.cur.vle then 0x20#32 else 0#32))
        { s with spefscr := (raiseFpRound { fpDrawn s oh ol with gpr := g }).spefscr, gpr := g }
        (raiseFpRound { fpDrawn s oh ol with gpr := g }) ∧
      FpStatus oh ol s (raiseFpRound { fpDrawn s oh ol with gpr := g }) := by
  let u := { fpDrawn s oh ol with gpr := g }
  exact ⟨takeInterrupt_spec (u.setEsr (0x80#32 ||| u.vlemi)) .fpRound (u.nextPc 4) rfl (by decide), fpStatus_of _ _ _ rfl⟩

theorem delivered_spec (o : FpOut) (k : Nat) : FpDelivered o (o.delivered k) := by
  refine ⟨fun inexact w hw => ?_, fun exact_ => ?_⟩
  · simp [FpOut.delivered, inexact, hw]
  · simp [FpOut.delivered, exact_]

/-! The instructions. -/

variable {i : Instr} {rd : Gpr}

theorem fpDataTaken_of (hi : exec i s = s.fpFinish oh ol write) : FpDataTaken i oh ol s := fun traps =>
  ⟨_, hi.trans (fpFinish_trap traps), raiseFpData_spec s oh ol⟩

/-- What the interrupts say of a scalar instruction, and of a vector one. -/
def FpScalarTaken (i : Instr) (rd : Gpr) (o : FpOut) (s : State) : Prop :=
  FpDataTaken i FpOut.none o s ∧ FpRoundTaken i FpOut.none o
    (fun t => t.gprH rd = s.gprH rd ∧ FpDelivered o (t.gprW rd) ∧ SameGprsBut rd s t) s

def FpVectorTaken (i : Instr) (rd : Gpr) (oh ol : FpOut) (s : State) : Prop :=
  FpDataTaken i oh ol s ∧ FpRoundTaken i oh ol
    (fun t => FpDelivered oh (t.gprH rd) ∧ FpDelivered ol (t.gprW rd) ∧ SameGprsBut rd s t) s

theorem fpScalarTaken_of {o : FpOut} (hi : exec i s = s.fpScalar rd o) : FpScalarTaken i rd o s := by
  refine ⟨fpDataTaken_of hi, fun quiet enabled inexact => ⟨_, hi.trans (fpFinish_round quiet enabled inexact), ?_⟩⟩
  let u := (fpDrawn s FpOut.none o).setGprW rd (o.delivered (s.free + 1))
  obtain ⟨takes, status⟩ := raiseFpRound_spec s FpOut.none o u.gpr
  have low : u.gprW rd = o.delivered (s.free + 1) := setGprW_gprW_self _ rd _
  have high : u.gprH rd = s.gprH rd := setGprW_gprH_self _ rd _
  have others : SameGprsBut rd s u := fun q hq => setGprW_gprD_ne _ rd q _ hq
  have delivered : FpDelivered o (u.gprW rd) := low ▸ delivered_spec o _
  exact ⟨takes, rfl, rfl, ⟨high, delivered, others⟩, status⟩

theorem fpVectorTaken_of (spe : s.msrSpe = true) (hi : exec i s = s.fpVector rd oh ol) : FpVectorTaken i rd oh ol s := by
  have hi : exec i s = s.fpFinish oh ol fun h l t => t.setGprD rd (h ++ l) := hi.trans (if_pos spe)
  refine ⟨fpDataTaken_of hi, fun quiet enabled inexact => ⟨_, hi.trans (fpFinish_round quiet enabled inexact), ?_⟩⟩
  let u := (fpDrawn s oh ol).setGprD rd (oh.delivered s.free ++ ol.delivered (s.free + 1))
  obtain ⟨takes, status⟩ := raiseFpRound_spec s oh ol u.gpr
  have low : u.gprW rd = ol.delivered (s.free + 1) := by simp [u]
  have high : u.gprH rd = oh.delivered s.free := by simp [u, State.gprH]
  have others : SameGprsBut rd s u := fun q hq => setGprD_gprD_ne _ rd q _ hq
  have delivered : FpDelivered oh (u.gprH rd) ∧ FpDelivered ol (u.gprW rd) :=
    ⟨high ▸ delivered_spec oh _, low ▸ delivered_spec ol _⟩
  exact ⟨takes, rfl, rfl, ⟨delivered.1, delivered.2, others⟩, status⟩

end

/-! The half-precision results. -/

/-- The high halfword is zero. -/
def HighZero (w : Word) : Prop := w.extractLsb' 16 16 = 0#16

theorem highZero_iff (w : Word) : HighZero w ↔ w.toNat < 2 ^ 16 := by
  have := w.isLt
  rw [HighZero, ← BitVec.toNat_inj, BitVec.extractLsb'_toNat, BitVec.toNat_ofNat, Nat.shiftRight_eq_div_pow]
  omega

theorem highZero_or {v w : Word} (hv : HighZero v) (hw : HighZero w) : HighZero (v ||| w) := by
  rw [HighZero, BitVec.extractLsb'_or, hv, hw]
  rfl

/-- Everything that an outcome can deliver has a high halfword of zeros. -/
def FpOut.Narrow (o : FpOut) : Prop := HighZero o.result ∧ (∀ w, o.trunc = some w → HighZero w) ∧ HighZero o.openBits

theorem plain_narrow {inv : Bool} {w : Word} (h : HighZero w) : (FpOut.plain inv w).Narrow :=
  ⟨h, fun v hv => by cases hv; exact h, BitVec.extractLsb'_zero⟩

theorem FpOut.Narrow.delivered {o : FpOut} (h : o.Narrow) (k : Nat) : HighZero (o.delivered k) := by
  obtain ⟨result, trunc, bits⟩ := h
  unfold FpOut.delivered
  split
  · split
    next t ht => exact trunc t ht
    next =>
      rw [HighZero, BitVec.extractLsb'_and, bits]
      exact BitVec.and_zero
  · exact result

theorem pack_half_highZero (s : Bool) {e : Int} (t : Nat) (h : e ≤ 15) : HighZero (half.pack s e t) := by
  have sign : HighZero (BitVec.ofNat 32 ((if s then 1 else 0) * 2 ^ 15)) := by cases s <;> rfl
  have number : HighZero (BitVec.ofNat 32 ((e + 15).toNat * 2 ^ 10 + t % 2 ^ 10)) := by
    rw [highZero_iff, BitVec.toNat_ofNat]
    have : t % 2 ^ 10 < 2 ^ 10 := Nat.mod_lt _ (by decide)
    have : (e + 15).toNat ≤ 30 := by omega
    omega
  exact highZero_or sign number

theorem roundTo_half_narrow (rm : BitVec 2) (s : Bool) (m : Nat) (e : Int) (st : Bool) {big small : Word} (hb : HighZero big)
    (hs : HighZero small) : (roundTo half rm s m e st big small).Narrow := by
  unfold roundTo
  dsimp only
  generalize cut (m * 2 ^ (half.p - 1 - m.log2)) (m.log2 - (half.p - 1)) st = c
  obtain ⟨t, g, x⟩ := c
  dsimp only
  generalize e + (m.log2 : Int) = e0
  generalize (if roundUp rm s g x (t.testBit 0) = true then t + 1 else t) = t1
  obtain ⟨t', e', carried, above⟩ : ∃ t' e', (if t1 = 2 ^ half.p then (2 ^ (half.p - 1), e0 + 1) else (t1, e0)) = (t', e') ∧
      e0 ≤ e' := by
    split
    · exact ⟨_, _, rfl, Int.le_add_one (Int.le_refl e0)⟩
    · exact ⟨_, _, rfl, Int.le_refl e0⟩
  rw [carried]
  dsimp only
  split
  · exact ⟨hb, fun w hw => by cases hw; exact hb, BitVec.extractLsb'_zero⟩
  next inside =>
    split
    · exact ⟨hs, fun w hw => by cases hw; exact hs, BitVec.extractLsb'_zero⟩
    · have small' : e' ≤ 15 := Int.not_lt.mp inside
      refine ⟨pack_half_highZero s t' small', fun w hw => ?_, (highZero_iff half.bits).mpr (by decide)⟩
      split at hw
      · cases hw
      · cases hw
        exact pack_half_highZero s t (above.trans small')

theorem fToHalf_narrow (rm : BitVec 2) (v : Word) : (fToHalf rm v).Narrow := by
  have sign : HighZero (if fSign v then 0x8000#32 else 0#32) := by cases fSign v <;> rfl
  have big : HighZero ((if fSign v then 0x8000#32 else 0#32) ||| 0x7BFF#32) := highZero_or sign rfl
  unfold fToHalf
  dsimp only
  split
  · exact plain_narrow sign
  · split
    · exact plain_narrow big
    · exact roundTo_half_narrow rm _ _ _ _ big sign

section
variable {s : State} {i : Instr} {rd : Gpr} {oh ol : FpOut}

/-- Without a Data interrupt an element leaves its result or what the Round interrupt delivers. -/
theorem fpFinish_writes (write : Word → Word → State → State) (quiet : s.fpTraps oh ol = false) :
    ∃ u, (s.fpFinish oh ol write = .next ((write oh.result ol.result u).advance 4)) ∨
      s.fpFinish oh ol write = .next (raiseFpRound (write (oh.delivered s.free) (ol.delivered (s.free + 1)) u)) := by
  by_cases enabled : s.spefscr.getLsbD 6 = true
  · by_cases inexact : (oh.inexact || ol.inexact) = true
    · exact ⟨_, .inr (fpFinish_round quiet enabled inexact)⟩
    · exact ⟨_, .inl (fpFinish_on quiet (.inr (Bool.eq_false_iff.mpr inexact)))⟩
  · exact ⟨_, .inl (fpFinish_on quiet (.inl (Bool.eq_false_iff.mpr enabled)))⟩

theorem runs_fpScalar_narrow (narrow : ol.Narrow) (quiet : s.fpTraps FpOut.none ol = false) (hi : exec i s = s.fpScalar rd ol) :
    Runs i s fun t => (t.gprW rd).extractLsb' 16 16 = 0#16 := by
  have low (u : State) (v : Word) : (u.setGprW rd v).gprW rd = v := setGprW_gprW_self u rd v
  obtain ⟨u, on | round⟩ := fpFinish_writes (fun _ v t => t.setGprW rd v) quiet
  · exact ⟨_, hi.trans on, (congrArg (BitVec.extractLsb' 16 16) (low u _)).trans narrow.1⟩
  · exact ⟨_, hi.trans round, (congrArg (BitVec.extractLsb' 16 16) (low u _)).trans (narrow.delivered _)⟩

theorem runs_fpVector_narrow (nh : oh.Narrow) (nl : ol.Narrow) (spe : s.msrSpe = true) (quiet : s.fpTraps oh ol = false)
    (hi : exec i s = s.fpVector rd oh ol) :
    Runs i s fun t => (t.gprH rd).extractLsb' 16 16 = 0#16 ∧ (t.gprW rd).extractLsb' 16 16 = 0#16 := by
  have hi : exec i s = s.fpFinish oh ol fun h l t => t.setGprD rd (h ++ l) := hi.trans (if_pos spe)
  have high (u : State) (v w : Word) : (u.setGprD rd (v ++ w)).gprH rd = v := by simp [State.gprH]
  have low (u : State) (v w : Word) : (u.setGprD rd (v ++ w)).gprW rd = w := by simp
  obtain ⟨u, on | round⟩ := fpFinish_writes (fun h l t => t.setGprD rd (h ++ l)) quiet
  · exact ⟨_, hi.trans on, (congrArg (BitVec.extractLsb' 16 16) (high u _ _)).trans nh.1,
      (congrArg (BitVec.extractLsb' 16 16) (low u _ _)).trans nl.1⟩
  · exact ⟨_, hi.trans round, (congrArg (BitVec.extractLsb' 16 16) (high u _ _)).trans (nh.delivered _),
      (congrArg (BitVec.extractLsb' 16 16) (low u _ _)).trans (nl.delivered _)⟩

end

/-- Settles O53: each instruction is a shared form, whose completion takes the Data interrupt, the Round interrupt or neither;
the half-precision results fill the low halfword alone. -/
theorem fpExceptions : Obligations.FpExceptions := by
  intro s f rd ra rb ah al bh bl dh dl m one both neg sum dif unary binary madd invalid
  have single {i : Instr} {o : FpOut} (hi : exec i s = s.fpScalar rd o) : one i o := fpScalarTaken_of hi
  have pair {i : Instr} {oh ol : FpOut} (spe : s.msr.getLsbD 25 = true) (hi : exec i s = s.fpVector rd oh ol) : both i oh ol :=
    fpVectorTaken_of spe hi
  have forms {i : Instr × Instr} {oh ol : FpOut} (hs : exec i.1 s = s.fpScalar rd ol) (hv : exec i.2 s = s.fpVector rd oh ol) :
      one i.1 ol ∧ (s.msr.getLsbD 25 = true → both i.2 oh ol) := ⟨single hs, fun spe => pair spe hv⟩
  refine ⟨forms rfl rfl, forms rfl rfl, forms rfl rfl, forms rfl rfl, forms rfl rfl, forms rfl rfl, forms rfl rfl,
    forms rfl rfl, forms rfl rfl, forms rfl rfl, forms rfl rfl, forms rfl rfl, forms rfl rfl, forms rfl rfl, forms rfl rfl,
    forms rfl rfl, forms rfl rfl, forms rfl rfl, forms rfl rfl, forms rfl rfl, forms rfl rfl, forms rfl rfl, forms rfl rfl,
    forms rfl rfl, forms rfl rfl, forms rfl rfl, fun spe => ?paired, ?compares, fun spe => ?vectorCompares, fun quiet => ?half,
    fun spe quiet => ?halves⟩
  case paired =>
    exact ⟨pair spe rfl, pair spe rfl, pair spe rfl, pair spe rfl, pair spe rfl, pair spe rfl, pair spe rfl, pair spe rfl,
      pair spe rfl, pair spe rfl, pair spe rfl, pair spe rfl, pair spe rfl⟩
  case compares =>
    have taken {i : Instr} {g : Word → Word → Bool} (hi : exec i s = s.fpCompare f g al bl) :
        FpDataTaken i FpOut.none (invalid al bl) s := fpDataTaken_of hi
    simp only [List.forall_mem_cons, List.not_mem_nil, IsEmpty.forall_iff, implies_true, and_true]
    exact ⟨taken rfl, taken rfl, taken rfl⟩
  case vectorCompares =>
    have taken {i : Instr} {g : Word → Word → Bool} (hi : exec i s = s.fpCompareV f g (s.gprD ra) (s.gprD rb)) :
        FpDataTaken i (invalid ah bh) (invalid al bl) s := fpDataTaken_of (hi.trans (if_pos spe))
    simp only [List.forall_mem_cons, List.not_mem_nil, IsEmpty.forall_iff, implies_true, and_true]
    exact ⟨taken rfl, taken rfl, taken rfl⟩
  case half => exact runs_fpScalar_narrow (fToHalf_narrow m bl) quiet rfl
  case halves => exact runs_fpVector_narrow (fToHalf_narrow m bh) (fToHalf_narrow m bl) spe quiet rfl

end Sys2Proof.Machine
end

section
/-! PROOF. Debug events, the Debug interrupt and debug mode (O58). -/

namespace Sys2Proof.Machine

section
variable {s t : State}

/-! What is not enabled is not recorded and not counted. -/

theorem postIf_off {en : Word} (off : s.dbg.dbcr0 &&& en = 0#32) (own bits : Word) (vle : Option Bool) (de : Bool) :
    s.postIf en own bits vle de = s := if_neg (by rw [off]; decide)

theorem postIacFrom_off (vle : Bool) {l : List Bool} {n : Nat}
    (off : ∀ k, n ≤ k → k < n + l.length → s.dbg.dbcr0 &&& iacBit k = 0#32) : s.postIacFrom vle n l = s := by
  induction l generalizing n with
  | nil => rfl
  | cons h l ih =>
    have first : s.dbg.dbcr0 &&& iacBit n = 0#32 := off n (Nat.le_refl n) (by simp)
    rw [State.postIacFrom, postIf_off first, ite_self]
    exact ih fun k low high => off k (by omega) (by simp only [List.length_cons]; omega)

/-- The counters are off, or a debug session stops them. -/
theorem countDebug_off {old : Debug} (h : s.dbg.halted = true ∨ (old.dbcr3 = 0#32 ∧ s.dbg.dbcr3 = 0#32)) (e : DbgEvents)
    (imprecise de : Bool) : s.countDebug old e imprecise de = (false, s) := by
  refine if_pos ?_
  rcases h with halted | ⟨before, now⟩
  · simp [halted]
  · simp [before, now]

theorem postTaken_none (de : Bool) : postTaken false false de s = s := rfl

/-! The end of a step. -/

/-- Interrupts that are no IRPT or CIRPT event. -/
def State.OnlyDebugInts (s : State) : Prop :=
  (s.ev.ints.any fun t => t.cls == .nonCritical) = false ∧ (s.ev.ints.any fun t => t.cls == .critical) = false

/-- With no counter in use, a step in which no instruction ran and nothing but a Debug interrupt was taken has no further debug
event. -/
theorem endDebug_none (hits : List Bool)
    (uncounted : t.dbg.halted = true ∨ (s.dbg.dbcr3 = 0#32 ∧ t.dbg.dbcr3 = 0#32)) (ints : t.OnlyDebugInts)
    (sound : t.ev.dataFail = false) :
    ∃ ev, endDebug s none hits t = { t with ev := ev } ∧ ev.ints = t.ev.ints := by
  obtain ⟨irpt, cirpt⟩ := ints
  unfold endDebug
  split
  · split
    · exact ⟨t.ev, rfl, rfl⟩
    · exact ⟨_, rfl, rfl⟩
  · simp only [normalDebug, countDebug_off uncounted, stepEvents, irpt, cirpt, postTaken_none, completed, Option.isSome_none,
      Bool.false_and, Bool.false_eq_true, if_false, sound]
    exact ⟨_, rfl, rfl⟩

/-- The end of a step with an idle performance monitor, after its debug events. -/
theorem endStep_after (window : s.dbg.dvcPend = none) (quiet : s.pm.quiet = true) (synced : s.sync = Sync.none) (ran : Ran)
    (hits : List Bool) {u : State} (events : endDebug s ran hits t = u) (pm : u.pm = s.pm) :
    AfterStep ((ran.map Prod.fst).any contextSyncs) u (endStep s ran hits t) := by
  have whole : undone s ran t = false := by simp [undone, window]
  simp only [endStep, whole, Bool.false_eq_true, if_false, endWindow, window, events, synced, endSync_none]
  rw [endPerf_quiet quiet ran u pm]
  rw [AfterStep]
  split <;> rfl

/-! A step of an idle state. -/

theorem urgent_none (noNmi : s.ints.nmiPend = false)
    (noCheck : s.ints.mcsr &&& 0xF611E03C#32 = 0#32 ∨ s.msr.getLsbD 12 = false) : s.fresh.urgent = none := by
  have check : s.fresh.mcheckPending = false := by
    have none : s.mcheckPending = false := by
      rcases noCheck with clear | off
      · simp [State.mcheckPending, clear]
      · simp only [State.mcheckPending, State.msrMe, off, Bool.and_false]
    exact none
  have nmi : s.fresh.ints.nmiPend = false := noNmi
  simp only [State.urgent, check, nmi, Bool.false_eq_true, if_false]

section
variable (idle : s.Idle) (noUrgent : s.fresh.urgent = none)
include idle noUrgent

theorem step_idle_calm : step s = stepCalm exec s.fresh := by
  have session : s.fresh.dbg.halted = false := idle.noSession
  have exiting : s.fresh.dbg.exiting = false := idle.noExit
  have suspended : s.fresh.suspended = false := by
    simp [State.suspended, State.fresh, idle.running.1, idle.running.2.1]
  simp only [step_idle idle, stepFrom, session, exiting, suspended, noUrgent, Bool.or_self, Bool.false_eq_true, if_false]

theorem step_debugPending (pending : s.fresh.debugPending = true) :
    step s = .next (endStep s.fresh none [] (takeDebug s.fresh)) := by
  have window : s.fresh.dbg.dvcPend = none := idle.noWindow
  have exiting : s.fresh.dbg.exiting = false := idle.noExit
  have suspended : s.fresh.suspended = false := by
    simp [State.suspended, State.fresh, idle.running.1, idle.running.2.1]
  have first : s.fresh.maskable = some (takeDebug s.fresh) := if_pos pending
  rw [step_idle_calm idle noUrgent]
  simp only [stepCalm, window, suspended, pending, foremost_normal exiting, first, Option.isSome_none, Option.isNone_none,
    Bool.not_false, Bool.and_self, Bool.false_eq_true, if_false, if_true, ite_self]

theorem step_haltPending (pending : s.fresh.haltPending = true) (quiet : s.fresh.debugPending = false) :
    step s = .next (endStep s.fresh none [] s.fresh.enterHalt) := by
  have window : s.fresh.dbg.dvcPend = none := idle.noWindow
  rw [step_idle_calm idle noUrgent]
  simp only [stepCalm, window, pending, quiet, Option.isNone_none, Bool.and_self, Bool.false_and, Bool.false_eq_true, if_false,
    if_true]

theorem step_runInstr (noHalt : s.fresh.haltPending = false) (noMaskable : s.fresh.maskable = none)
    (awake : s.pwr.waiting = false) : step s = runInstr exec s.fresh := by
  have window : s.fresh.dbg.dvcPend = none := idle.noWindow
  have exiting : s.fresh.dbg.exiting = false := idle.noExit
  have awake : s.fresh.pwr.waiting = false := awake
  have suspended : s.fresh.suspended = false := by
    simp [State.suspended, State.fresh, idle.running.1, idle.running.2.1]
  rw [step_idle_calm idle noUrgent]
  simp only [stepCalm, window, suspended, noHalt, foremost_normal exiting, noMaskable, staysWaiting_normal exiting, awake,
    awake_normal awake, Option.isSome_none, Bool.false_and, Bool.false_eq_true, if_false]

end

/-! A calm state but for the debug modes. -/

/-- Nothing comes before the instruction at the pc where no debug mode is on. -/
def State.CalmUndebugged (s : State) : Prop := { s with dbg := { s.dbg with dbcr0 := 0#32 } }.Calm

theorem maskable_eq_none_iff : s.maskable = none ↔ s.debugPending = false ∧ (s.pins.critint && s.msrCe) = false ∧
    (s.tmr.tsr.getLsbD 30 && s.tmr.tcr.getLsbD 27 && s.msrCe) = false ∧ (s.pins.extint && s.msrEe) = false ∧
    (s.tmr.tsr.getLsbD 26 && s.tmr.tcr.getLsbD 23 && s.msrEe) = false ∧
    (s.tmr.tsr.getLsbD 27 && s.tmr.tcr.getLsbD 26 && s.msrEe) = false ∧ (s.pm.pending && s.msrEe) = false := by
  unfold State.maskable
  split_ifs <;> simp_all

section
variable (calm : s.CalmUndebugged)
include calm

theorem idle_of_calm (noReset : s.dbg.dbcr0 &&& 0x30000000#32 = 0#32) : s.Idle := by
  have reset : s.resetAsked = false := by
    have asked := calm.noReset
    simp only [State.resetAsked, BitVec.zero_and, bne_self_eq_false, Bool.and_false, Bool.or_false] at asked
    simp [State.resetAsked, asked, noReset]
  exact ⟨calm.noInput, calm.running, calm.noSession, calm.noExit, calm.noWindow, calm.noPerf, reset, calm.noWork⟩

theorem maskable_of_calm (quiet : s.fresh.debugPending = false) : s.fresh.maskable = none := by
  obtain ⟨-, others⟩ := maskable_eq_none_iff.mp (maskable_calm calm)
  exact maskable_eq_none_iff.mpr ⟨quiet, others⟩

/-- The step runs the instruction at the pc. -/
theorem step_of_calm (noReset : s.dbg.dbcr0 &&& 0x30000000#32 = 0#32) (noHalt : s.fresh.haltPending = false)
    (quiet : s.fresh.debugPending = false) : step s = runInstr exec s.fresh :=
  step_runInstr (idle_of_calm calm noReset) (urgent_none calm.noNmi calm.noCheck) noHalt (maskable_of_calm calm quiet)
    calm.awake

end

theorem newDebug_none (quiet : t.debugPending = false) : newDebug s t = false := by rw [newDebug, quiet, Bool.false_and]

theorem newHalt_none (quiet : t.haltPending = false) : newHalt s t = false := by rw [newHalt, quiet, Bool.false_and]

theorem debugPending_unrecorded (h : ¬ s.dbg.dbsr &&& 0xCFFFFFE0#32 ≠ 0#32) : s.debugPending = false := by
  have none : s.dbg.dbsr &&& 0xCFFFFFE0#32 = 0#32 := not_not.mp h
  simp [State.debugPending, none]

theorem haltPending_internal (h : s.dbg.edm = false) : s.haltPending = false := by simp [State.haltPending, h]

/-- A fetched instruction with no IAC event runs. -/
theorem runInstr_fetched {p : TlbEntry} {n : Nat} {i : Instr} {u : State} (fetch : PlainFetch s n p) (whole : s.WholeAt p n)
    (exiting : s.dbg.exiting = false)
    (unposted : s.fresh.postIacFrom p.vle 0 (s.iacHits s.pc p.vle) = s.fresh)
    (quiet : s.fresh.debugPending = false) (noHalt : s.fresh.haltPending = false)
    (decoded : decodeFetched p.vle (s.codeBytes n p)
      (s.fetched p.vle (bytesWord (s.codeBytes n p) <<< (32 - 8 * n))) = .instr i u) :
    runInstr exec s.fresh = executeWith exec s.fresh (s.iacHits s.pc p.vle) i u := by
  obtain ⟨k, hit⟩ := fetch.first_hit whole.positive
  have found : s.fresh.translate s.fresh.msrIs s.fresh.pc = (some (p.page s.pc), s.fresh) :=
    translate_one (s := s.fresh) fetch.known hit
  have started : s.fresh.started = s.fresh := started_normal (s := s.fresh) exiting
  have hits : s.fresh.iacHits s.fresh.pc p.vle = s.iacHits s.pc p.vle := rfl
  have vle : (p.page s.pc).vle = p.vle := rfl
  have fetched := (fetch_plain fetch whole).trans decoded
  simp only [runInstr, found, hits, vle, unposted, newDebug_none quiet, newHalt_none noHalt, started, fetched,
    Bool.false_eq_true, if_false]

/-! Recording. -/

/-- The status bits that software records of an event, precise and in internal debug mode. -/
def recordedBits (bits : Word) (vle : Bool) (w : Word) : Word := w ||| bits ||| (if vle then 0x10#32 else 0#32)

/-- A Debug interrupt waits for IAC1. -/
theorem recordedBits_pending (vle : Bool) (w : Word) : recordedBits 0x00800000#32 vle w &&& 0xCFFFFFE0#32 ≠ 0#32 := by
  intro clear
  have bit := congrArg (·.getLsbD 23) clear
  simp [recordedBits] at bit

/-- An event in internal debug mode with MSR[DE] set. -/
theorem postEvent_internal (edm : s.dbg.edm = false) (idm : s.dbg.idm = true) (session : s.dbg.halted = false) (own bits : Word)
    (vle : Bool) : s.postEvent own bits (some vle) true = s.mapDbsr (recordedBits bits vle) := by
  have soft : s.dbg.softOwns own = true := by simp [Debug.softOwns, edm]
  have bits_eq (w : Word) : (if vle = true then w ||| bits ||| 0#32 ||| dbVles else w ||| bits ||| 0#32) =
      recordedBits bits vle w := by
    cases vle <;> simp [recordedBits, dbVles]
  simp only [State.postEvent, soft, idm, session, Bool.not_false, Bool.and_self, if_true, bits_eq]
  rfl

/-- Before an instruction of which no event is enabled. -/
theorem preDebug_off (i : Instr) (on : s.debugOn = true) (brt : s.dbg.dbcr0 &&& 0x04000000#32 = 0#32)
    (trap : s.dbg.dbcr0 &&& 0x01000000#32 = 0#32) (ret : s.dbg.dbcr0 &&& 0x8000#32 = 0#32)
    (cret : s.dbg.dbcr0 &&& 0x20#32 = 0#32) :
    preDebug i s = { s with ev := { s.ev with ret := if s.user then none else returnKind i } } := by
  let u := { s with ev := { s.ev with ret := if s.user then none else returnKind i } }
  have ret : u.dbg.dbcr0 &&& 0x8000#32 = 0#32 := ret
  have cret : u.dbg.dbcr0 &&& 0x20#32 = 0#32 := cret
  unfold preDebug
  simp only [on, Bool.not_true, Bool.false_eq_true, if_false, postIf_off brt, postIf_off trap, ite_self]
  split
  · exact postIf_off ret _ _ _ _
  · exact postIf_off cret _ _ _ _
  · rfl

theorem preDebug_undebugged (i : Instr) (off : s.debugOn = false) : preDebug i s = s := if_pos (by rw [off]; rfl)

/-- The end of a step of an instruction that completed, with ICMP alone enabled in internal debug mode. -/
theorem endDebug_icmp {i : Instr} {u : State} {hits : List Bool} (dbcr0 : s.dbg.dbcr0 = 0x48000000#32)
    (dbcr3 : s.dbg.dbcr3 = 0#32) (de : s.msrDe = true) (session : s.dbg.halted = false) (dbg : t.dbg = s.dbg)
    (ints : t.ev.ints = []) (sound : t.ev.dataFail = false) :
    ∃ ev, endDebug s (some (i, u)) hits t = { t.mapDbsr (recordedBits dbIcmp t.cur.vle) with ev := ev } ∧ ev.ints = [] := by
  have edm : s.dbg.edm = false := by rw [Debug.edm, dbcr0]; decide
  have idm : s.dbg.idm = true := by rw [Debug.idm, dbcr0]; decide
  have icmpEn : s.dbg.icmpEn = true := by rw [Debug.icmpEn, dbcr0]; decide
  have on : s.debugOn = true := by simp [State.debugOn, Debug.active, edm, idm]
  have done : completed (some (i, u)) t = true := by simp [completed, ints, dbg, session, sound]
  have noDac (h : DacHits) : s.dbg.dacEvents h = DacHits.none := by
    have d18 : s.dbg.dbcr0.getLsbD 18 = false := by rw [dbcr0]; decide
    have d19 : s.dbg.dbcr0.getLsbD 19 = false := by rw [dbcr0]; decide
    have d16 : s.dbg.dbcr0.getLsbD 16 = false := by rw [dbcr0]; decide
    have d17 : s.dbg.dbcr0.getLsbD 17 = false := by rw [dbcr0]; decide
    simp only [Debug.dacEvents, Debug.dacEn, Bool.false_eq_true, if_false, if_true, Nat.reduceAdd, d18, d19, d16, d17,
      Bool.and_false]
    rfl
  have counts : icmpCounts s t = true := by simp [icmpCounts, de, icmpEn]
  have posted : postIcmp s t = t.mapDbsr (recordedBits dbIcmp t.cur.vle) := by
    have imprecise : t.ev.ints.contains .fpRound = false := by rw [ints]; rfl
    simp only [postIcmp, icmpEn, counts, imprecise, de, Bool.and_self, Bool.false_and, if_true, Bool.false_eq_true, if_false]
    exact postEvent_internal (dbg ▸ edm) (dbg ▸ idm) (dbg ▸ session) _ _ _
  have uncounted {v : State} (hv : v.dbg.dbcr3 = t.dbg.dbcr3) :
      v.dbg.halted = true ∨ (s.dbg.dbcr3 = 0#32 ∧ v.dbg.dbcr3 = 0#32) :=
    .inr ⟨dbcr3, hv.trans (dbg ▸ dbcr3)⟩
  have none : DacHits.none.any = false := rfl
  have ofDac : completedDac s DacHits.none t = t := rfl
  unfold endDebug
  simp only [on, Bool.not_true, Bool.false_eq_true, if_false, done, noDac, sound, Bool.false_and, normalDebug, if_true, ofDac,
    stepEvents, ints, List.any_nil, postTaken_none, posted]
  rw [countDebug_off (s := t.mapDbsr _) (uncounted rfl)]
  exact ⟨_, rfl, ints⟩

/-! The Debug interrupt and debug mode. -/

/-- The state that the Debug interrupt leaves with DBSR `dbsr`, all but the step's own events. -/
def debugTaken (s : State) (dbsr : Word) (ev : Ev) : State :=
  { s.refetched with
    pc := (s.ints.ivpr &&& 0xFFFF0000#32) ||| (s.ints.ivor.get 15 &&& 0x0000FFF0#32)
    msr := s.msr &&& (0x1002#32 ||| (if s.hid.hid0.getLsbD 8 && !s.hid.hid0.getLsbD 11 then 0x20000#32 else 0#32) |||
      (if s.hid.hid0.getLsbD 8 && !s.hid.hid0.getLsbD 12 then 0x8000#32 else 0#32))
    ints :=
      if s.hid.hid0.getLsbD 8 then { s.ints with dsrr0 := s.pc, dsrr1 := s.msr, handlerFetch := true }
      else { s.ints with csrr0 := s.pc, csrr1 := s.msr, handlerFetch := true }
    pwr := { s.pwr with waiting := false }
    dbg := { s.dbg with dbsr := dbsr, cirptDue := false }
    ev := ev }

/-- The Debug interrupt, field by field. -/
theorem takeDebug_refetched (s : State) (ev : Ev) :
    { (takeDebug s).refetched with ev := ev, sync := s.sync } = debugTaken s s.dbg.dbsr ev := by
  have resv : (takeDebug s).resv = s.resv := by simp [takeDebug, takeInterrupt]
  have ints : (takeDebug s).ints =
      if s.hid.hid0.getLsbD 8 then { s.ints with dsrr0 := s.pc, dsrr1 := s.msr, handlerFetch := true }
      else { s.ints with csrr0 := s.pc, csrr1 := s.msr, handlerFetch := true } := by
    change { (if s.hid.hid0.getLsbD 8 then _ else _ : IntRegs) with handlerFetch := true } = _
    split <;> rfl
  have kept : { (takeDebug s).refetched with ev := ev, sync := s.sync } =
      { (takeDebug s).refetched with resv := (takeDebug s).resv, ints := (takeDebug s).ints, ev := ev, sync := s.sync } := rfl
  rw [kept, resv, ints]
  rfl

/-- The end of a step in which no instruction ran and at most a Debug interrupt was taken. -/
theorem endStep_unran (window : s.dbg.dvcPend = none) (quiet : s.pm.quiet = true) (synced : s.sync = Sync.none)
    (hits : List Bool) (uncounted : t.dbg.halted = true ∨ (s.dbg.dbcr3 = 0#32 ∧ t.dbg.dbcr3 = 0#32)) (ints : t.OnlyDebugInts)
    (sound : t.ev.dataFail = false) (pm : t.pm = s.pm) :
    ∃ ev, endStep s none hits t =
      if t.ev.ints.isEmpty then { t with ev := ev, sync := { t.sync with new := [] } }
      else { t.refetched with ev := ev, sync := Sync.none } := by
  obtain ⟨ev, ended, same⟩ := endDebug_none hits uncounted ints sound
  have after := endStep_after window quiet synced none hits ended pm
  refine ⟨(endStep s none hits t).ev, ?_⟩
  rw [← same]
  rw [AfterStep] at after
  cases empty : ev.ints.isEmpty
  · rw [if_pos (by rw [empty]; rfl)] at after
    exact after
  · rw [if_neg (by rw [empty]; decide)] at after
    exact after

/-- The end of a step that takes the Debug interrupt from `u`, no counter being in use. -/
theorem endStep_takeDebug {u : State} (window : s.dbg.dvcPend = none) (quiet : s.pm.quiet = true) (synced : s.sync = Sync.none)
    (uncounted : s.dbg.dbcr3 = 0#32 ∧ u.dbg.dbcr3 = 0#32) (pm : u.pm = s.pm) (events : u.ev = Ev.none)
    (owed : u.sync = Sync.none) (hits : List Bool) :
    ∃ ev, endStep s none hits (takeDebug u) = debugTaken u u.dbg.dbsr ev := by
  have ints : (takeDebug u).ev.ints = [.debug] := congrArg (fun e : Ev => IntType.debug :: e.ints) events
  have sound : (takeDebug u).ev.dataFail = false := congrArg Ev.dataFail events
  have only : (takeDebug u).OnlyDebugInts := by
    rw [State.OnlyDebugInts, ints]
    exact ⟨rfl, rfl⟩
  obtain ⟨ev, ended⟩ := endStep_unran (t := takeDebug u) window quiet synced hits (.inr uncounted) only sound pm
  rw [ints, List.isEmpty_cons, if_neg Bool.false_ne_true, ← owed, takeDebug_refetched] at ended
  exact ⟨ev, ended⟩

/-- A Debug exception that is recorded is taken before anything else. -/
theorem step_recorded (idle : s.Idle) (uncounted : s.dbg.dbcr3 = 0#32) (idm : s.dbg.dbcr0.getLsbD 30 = true)
    (de : s.msr.getLsbD 9 = true) (recorded : s.dbg.dbsr &&& 0xCFFFFFE0#32 ≠ 0#32) (noNmi : s.ints.nmiPend = false)
    (noCheck : s.ints.mcsr &&& 0xF611E03C#32 = 0#32 ∨ s.msr.getLsbD 12 = false) :
    ∃ ev, step s = .next (debugTaken s s.dbg.dbsr ev) := by
  have pending : s.fresh.debugPending = true := by
    simp [State.debugPending, State.fresh, Debug.idm, State.msrDe, idm, de, recorded]
  obtain ⟨ev, taken⟩ := endStep_takeDebug (s := s.fresh) (u := s.fresh) idle.noWindow idle.noPerf idle.noWork.2.2
    ⟨uncounted, uncounted⟩ rfl rfl idle.noWork.2.2 []
  exact ⟨ev, (step_debugPending idle (urgent_none noNmi noCheck) pending).trans (congrArg Host.Outcome.next taken)⟩

/-- The end of a step that leaves a halted CPU. -/
theorem endStep_halted (window : s.dbg.dvcPend = none) (quiet : s.pm.quiet = true) (synced : s.sync = Sync.none)
    (halted : t.dbg.halted = true) (pm : t.pm = s.pm) (events : t.ev = Ev.none) (owed : t.sync = Sync.none) :
    ∃ ev, endStep s none [] t = { t with ev := ev } := by
  have ints : t.ev.ints = [] := congrArg Ev.ints events
  have only : t.OnlyDebugInts := by
    rw [State.OnlyDebugInts, ints]
    exact ⟨rfl, rfl⟩
  obtain ⟨ev, ended⟩ := endStep_unran window quiet synced [] (.inl halted) only (congrArg Ev.dataFail events) pm
  have unchanged : { t.sync with new := [] } = t.sync := by rw [owed]; rfl
  rw [ints, List.isEmpty_nil, if_pos rfl, unchanged] at ended
  exact ⟨ev, ended⟩

/-- An event of EDBSR0 that is not masked halts the CPU. -/
theorem step_enterHalt (idle : s.Idle) (edm : s.dbg.dbcr0.getLsbD 31 = true) (idm : s.dbg.dbcr0.getLsbD 30 = false)
    (enOnce : s.pins.enOnce = true) (noNmi : s.ints.nmiPend = false)
    (noCheck : s.ints.mcsr &&& 0xF611E03C#32 = 0#32 ∨ s.msr.getLsbD 12 = false)
    (event : s.dbg.edbsr0 &&& ~~~s.dbg.edbsrmsk0 &&& 0x6FFF87E0#32 ≠ 0#32) :
    ∃ ev, step s = .next { s with dbg := { s.dbg with halted := true }, ev := ev } := by
  have pending : s.fresh.haltPending = true := by
    simp [State.haltPending, State.fresh, Debug.edm, edm, enOnce, event]
  have internal : s.fresh.debugPending = false := by
    have off : s.fresh.dbg.idm = false := idm
    rw [State.debugPending, off, Bool.and_false, Bool.false_and]
  obtain ⟨ev, ended⟩ := endStep_halted (s := s.fresh) (t := s.fresh.enterHalt) idle.noWindow idle.noPerf idle.noWork.2.2 rfl rfl
    rfl idle.noWork.2.2
  exact ⟨ev, (step_haltPending idle (urgent_none noNmi noCheck) pending internal).trans (congrArg Host.Outcome.next ended)⟩

/-- A halted CPU does nothing. -/
theorem step_halted (halted : s.dbg.halted = true) (noInput : s.env = []) (noWork : s.settled) (window : s.dbg.dvcPend = none)
    (quiet : s.pm.quiet = true) (noReset : s.resetAsked = false) : ∃ ev, step s = .next { s with ev := ev } := by
  have begins : s.begin = s.fresh := by
    have inputs : s.fresh.takeInputs = s.fresh := by simp [State.takeInputs, State.fresh, noInput]
    have power : s.fresh.powerStep = s.fresh := if_pos halted
    have buffers : s.fresh.settleBuffers = s.fresh := settleBuffers_empty noWork.1 noWork.2.1
    have reset : s.fresh.resetAsked = false := noReset
    simp only [State.begin, clearEvents_quiet quiet, inputs, power, buffers, reset, Bool.false_eq_true, if_false]
  have starts : (s.interrupted exec).begin.settleDvc = s.fresh := by
    rw [interrupted_idle noInput, begins]
    exact settleDvc_none window
  have owed : s.fresh.sync.old = [] := by simp [State.fresh, noWork.2.2, Sync.none]
  have run : step s = .next (endStep s.fresh none [] s.fresh) := by
    simp only [step, stepWith, stepNow, starts, owed, viewOld_nil]
    exact if_pos halted
  obtain ⟨ev, ended⟩ := endStep_halted (s := s.fresh) (t := s.fresh) window quiet noWork.2.2 halted rfl rfl noWork.2.2
  exact ⟨ev, run.trans (congrArg Host.Outcome.next ended)⟩

/-! An instruction that is fetched. -/

/-- The first instruction address compare, exact and with no restriction. -/
theorem iacHits_first (on : s.debugOn = true) (dbcr1 : s.dbg.dbcr1 = 0#32) (dbcr6 : s.dbg.dbcr6 = 0#32)
    (address : s.dbg.iac.get 0 = s.pc) (vle : Bool) : ∃ l, s.iacHits s.pc vle = true :: l ∧ l.length = 7 := by
  have register : s.dbg.iac[0] = s.pc := address
  have exact (low : Nat) : exactOk s.pc s.pc 0#4 low = true := by simp [exactOk]
  have first : (s.iacPair s.pc vle 0).1 = true := by
    simp [State.iacPair, pairHits, dbcr1, dbcr6, register, exact, iacSpace, spaceOk]
  have all : s.iacHits s.pc vle = (s.iacPair s.pc vle 0).1 :: (s.iacHits s.pc vle).tail := by
    simp only [State.iacHits, on, if_true]
    rfl
  refine ⟨_, first ▸ all, ?_⟩
  simp only [State.iacHits, on, if_true]
  rfl

theorem iacHits_length (on : s.debugOn = true) (ia : Word) (vle : Bool) : (s.iacHits ia vle).length = 8 := by
  simp only [State.iacHits, on, if_true]
  rfl

section
variable {p : TlbEntry} {n : Nat} {i : Instr} (calm : s.CalmUndebugged) (fetch : PlainFetch s n p) (whole : s.WholeAt p n)
  (decoded : decode p.vle (s.codeBytes n p) = .ok (i, []))
include calm fetch whole decoded

/-- In internal debug mode with ICMP alone enabled, an instruction that completes is recorded. -/
theorem step_icmp (uncounted : s.dbg.dbcr3 = 0#32) (unrecorded : ¬ s.dbg.dbsr &&& 0xCFFFFFE0#32 ≠ 0#32)
    (de : s.msr.getLsbD 9 = true) (dbcr0 : s.dbg.dbcr0 = 0x48000000#32) {f : State}
    (begun : f = s.fetched p.vle (bytesWord (s.codeBytes n p) <<< (32 - 8 * n)))
    (run : exec i { f with ev := { f.ev with ret := if s.msr.getLsbD 14 then none else returnKind i } } = .next t)
    (ints : t.ev.ints = []) (dbg : t.dbg = s.dbg) (pm : t.pm = s.pm) :
    ∃ u ev, step s = .next u ∧ ev.ints = [] ∧
      AfterStep (contextSyncs i) { t.mapDbsr (recordedBits dbIcmp t.cur.vle) with ev := ev } u := by
  have edm : s.dbg.edm = false := by rw [Debug.edm, dbcr0]; decide
  have idm : s.dbg.idm = true := by rw [Debug.idm, dbcr0]; decide
  have on : s.debugOn = true := by rw [State.debugOn, Debug.active, edm, idm]; rfl
  have onFetched : f.debugOn = true := by rw [begun]; exact on
  have dbcr0Fetched : f.dbg.dbcr0 = 0x48000000#32 := by rw [begun]; exact dbcr0
  have quiet : s.debugPending = false := debugPending_unrecorded unrecorded
  have noHalt : s.haltPending = false := haltPending_internal edm
  have unposted : s.fresh.postIacFrom p.vle 0 (s.iacHits s.pc p.vle) = s.fresh := by
    have off : ∀ k < 8, 0x48000000#32 &&& iacBit k = 0#32 := by decide
    refine postIacFrom_off _ fun k _ high => ?_
    rw [iacHits_length on, Nat.zero_add] at high
    exact (congrArg (· &&& iacBit k) dbcr0).trans (off k high)
  have fetched : decodeFetched p.vle (s.codeBytes n p) (s.fetched p.vle (bytesWord (s.codeBytes n p) <<< (32 - 8 * n))) =
      .instr i f := by rw [decodeFetched, decoded, begun]
  have before : preDebug i f = { f with ev := { f.ev with ret := if s.msr.getLsbD 14 then none else returnKind i } } := by
    rw [preDebug_off i onFetched (by rw [dbcr0Fetched]; decide) (by rw [dbcr0Fetched]; decide) (by rw [dbcr0Fetched]; decide)
      (by rw [dbcr0Fetched]; decide), begun]
    rfl
  have noDebug : (preDebug i f).debugPending = false := by rw [before, begun]; exact quiet
  have notHalted : (preDebug i f).haltPending = false := by rw [before, begun]; exact noHalt
  have stepped : step s = .next (endStep s.fresh (some (i, preDebug i f)) (s.iacHits s.pc p.vle) t) := by
    rw [step_of_calm calm (by rw [dbcr0]; decide) noHalt quiet,
      runInstr_fetched fetch whole calm.noExit unposted quiet noHalt fetched]
    simp only [executeWith, newDebug_none noDebug, newHalt_none notHalted, Bool.false_eq_true, if_false]
    rw [before, run]
  have sound : t.ev.dataFail = false :=
    (exec_sound (by rw [begun]; rfl) run).resolve_right (not_not.mpr ints)
  obtain ⟨ev, ended, none⟩ := endDebug_icmp (s := s.fresh) (u := preDebug i f) (i := i) (hits := s.iacHits s.pc p.vle) dbcr0
    uncounted de calm.noSession dbg ints sound
  exact ⟨_, ev, stepped, none, endStep_after (s := s.fresh) calm.noWindow calm.noPerf calm.noWork.2.2 (some (i, preDebug i f)) _
    ended pm⟩

/-- In external debug mode with OnCE operation disabled no event occurs. -/
theorem step_debugOff (unrecorded : ¬ s.dbg.dbsr &&& 0xCFFFFFE0#32 ≠ 0#32) (dbcr0 : s.dbg.dbcr0 = 0x88000000#32)
    (disabled : s.pins.enOnce = false) {f : State}
    (begun : f = s.fetched p.vle (bytesWord (s.codeBytes n p) <<< (32 - 8 * n))) (run : exec i f = .next t)
    (pm : t.pm = s.pm) : ∃ u, step s = .next u ∧ AfterStep (contextSyncs i) t u := by
  have edm : s.dbg.edm = true := by rw [Debug.edm, dbcr0]; decide
  have active : s.dbg.active = true := by rw [Debug.active, edm]; rfl
  have off : s.debugOn = false := by simp [State.debugOn, edm, disabled]
  have quiet : s.debugPending = false := debugPending_unrecorded unrecorded
  have noHalt : s.haltPending = false := by simp [State.haltPending, disabled]
  have noHits : s.iacHits s.pc p.vle = [] := if_neg (by rw [off]; decide)
  have fetched : decodeFetched p.vle (s.codeBytes n p) (s.fetched p.vle (bytesWord (s.codeBytes n p) <<< (32 - 8 * n))) =
      .instr i f := by rw [decodeFetched, decoded, begun]
  have before : preDebug i f = f := preDebug_undebugged i (by rw [begun]; exact off)
  have noDebug : f.debugPending = false := by rw [begun]; exact quiet
  have notHalted : f.haltPending = false := by rw [begun]; exact noHalt
  have stepped : step s = .next (endStep s.fresh (some (i, f)) [] t) := by
    rw [step_of_calm calm (by rw [dbcr0]; decide) noHalt quiet,
      runInstr_fetched fetch whole calm.noExit (by rw [noHits]; rfl) quiet noHalt fetched, noHits]
    simp only [executeWith, before, newDebug_none noDebug, newHalt_none notHalted, Bool.false_eq_true, if_false, run]
  have ended : endDebug s.fresh (some (i, f)) [] t = t := (if_pos (congrArg (!·) off)).trans (if_pos active)
  exact ⟨_, stepped, endStep_after (s := s.fresh) calm.noWindow calm.noPerf calm.noWork.2.2 (some (i, f)) [] ended pm⟩

end

/-- In internal debug mode with IAC1 alone enabled for the address of the pc, the instruction there does not run. -/
theorem step_iac1 {k : Nat} {p : TlbEntry} (calm : s.CalmUndebugged) (uncounted : s.dbg.dbcr3 = 0#32)
    (unrecorded : ¬ s.dbg.dbsr &&& 0xCFFFFFE0#32 ≠ 0#32) (de : s.msr.getLsbD 9 = true) (dbcr0 : s.dbg.dbcr0 = 0x40800000#32)
    (dbcr1 : s.dbg.dbcr1 = 0#32) (dbcr6 : s.dbg.dbcr6 = 0#32) (unlinked : s.dbg.dbcr2.getLsbD 21 = false)
    (address : s.dbg.iac.get 0 = s.pc) (known : s.tlbOpen s.msrIs s.pid = false)
    (hit : s.tlbHits s.msrIs s.pid s.pc = [(k, p)]) :
    ∃ ev, step s = .next (debugTaken s (recordedBits 0x00800000#32 p.vle s.dbg.dbsr) ev) := by
  have edm : s.dbg.edm = false := by rw [Debug.edm, dbcr0]; decide
  have idm : s.dbg.idm = true := by rw [Debug.idm, dbcr0]; decide
  have on : s.debugOn = true := by rw [State.debugOn, Debug.active, edm, idm]; rfl
  have quiet : s.debugPending = false := debugPending_unrecorded unrecorded
  let u := s.fresh.mapDbsr (recordedBits 0x00800000#32 p.vle)
  have found : s.fresh.translate s.fresh.msrIs s.fresh.pc = (some (p.page s.pc), s.fresh) :=
    translate_one (s := s.fresh) known hit
  obtain ⟨l, hits, length⟩ := iacHits_first on dbcr1 dbcr6 address p.vle
  have posted : s.fresh.postIacFrom p.vle 0 (s.iacHits s.pc p.vle) = u := by
    have linked : s.fresh.dbg.linked 0 = false := unlinked
    have first : s.fresh.postIf (iacBit 0) (iacBit 0) (dbIac 0) (some p.vle) s.fresh.msrDe = u := by
      have de : s.fresh.msrDe = true := de
      rw [de]
      exact (if_pos ((congrArg (fun w => w &&& iacBit 0 != 0#32) dbcr0).trans (by decide))).trans
        (postEvent_internal (s := s.fresh) edm idm calm.noSession (iacBit 0) (dbIac 0) p.vle)
    have off : ∀ k < 8, 1 ≤ k → 0x40800000#32 &&& iacBit k = 0#32 := by decide
    rw [hits, State.postIacFrom, linked, Bool.not_false, Bool.and_self, if_pos rfl, first]
    refine postIacFrom_off _ fun k low high => ?_
    rw [length] at high
    exact (congrArg (· &&& iacBit k) dbcr0).trans (off k high low)
  have pending : newDebug s.fresh u = true := by
    have recorded : u.dbg.dbsr &&& 0xCFFFFFE0#32 ≠ 0#32 := recordedBits_pending p.vle s.dbg.dbsr
    have idm : u.dbg.idm = true := idm
    have de : u.msrDe = true := de
    have window : s.fresh.dbg.dvcPend = none := calm.noWindow
    simp only [newDebug, State.debugPending, bne_iff_ne.mpr recorded, idm, de, window, Option.isNone_none, Bool.true_or,
      Bool.and_self]
  have window : s.fresh.dbg.dvcPend = none := calm.noWindow
  have stepped : step s = .next (endStep s.fresh none (s.iacHits s.pc p.vle) (takeDebug u)) := by
    rw [step_of_calm calm (by rw [dbcr0]; decide) (haltPending_internal edm) quiet]
    have same : s.fresh.iacHits s.fresh.pc p.vle = s.iacHits s.pc p.vle := rfl
    have vle : (p.page s.pc).vle = p.vle := rfl
    simp only [runInstr, found, vle, same, posted, pending, if_true]
  have owed : u.sync = s.sync := by
    change { old := s.sync.old.map _, new := s.sync.new.map _ } = s.sync
    rw [calm.noWork.2.2]
    rfl
  obtain ⟨ev, taken⟩ := endStep_takeDebug (s := s.fresh) (u := u) window calm.noPerf calm.noWork.2.2 ⟨uncounted, uncounted⟩ rfl
    rfl (owed.trans calm.noWork.2.2) (s.iacHits s.pc p.vle)
  refine ⟨ev, stepped.trans (congrArg Host.Outcome.next (taken.trans ?_))⟩
  have same : debugTaken u u.dbg.dbsr ev =
      { debugTaken s (recordedBits 0x00800000#32 p.vle s.dbg.dbsr) ev with sync := u.sync } := rfl
  rw [same, owed]
  rfl

end

/-- Settles O58: the step lemma of each clause; `debugTaken` is the state that a Debug interrupt leaves. -/
theorem debugInterrupts : Obligations.DebugInterrupts := by
  intro s hid keeps recorded taken icmp noCheck whole calm
  refine ⟨fun idle uncounted idm de due noCheck => ?_,
    fun p n i t ⟨calm, uncounted, unrecorded, de⟩ dbcr0 fetch whole decoded run ints dbg pm => ?_,
    fun k p ⟨calm, uncounted, unrecorded, de⟩ dbcr0 dbcr1 dbcr6 unlinked address known hit => ?_,
    fun idle edm idm enOnce noCheck event => ?_,
    fun p n i t ⟨calm, _, unrecorded, _⟩ dbcr0 disabled fetch whole decoded run _ pm => ?_,
    fun halted noInput noWork window quiet noReset => ?_⟩
  case refine_1 =>
    obtain ⟨ev, run⟩ := step_recorded idle uncounted idm de due noCheck.1 noCheck.2
    exact ⟨_, run, rfl⟩
  case refine_2 =>
    obtain ⟨u, ev, stepped, none, after⟩ :=
      step_icmp calm fetch whole decoded uncounted unrecorded de dbcr0 rfl run ints dbg pm
    refine ⟨u, stepped, ?_⟩
    rw [← dbg]
    simp only [AfterStep, none, ints] at after ⊢
    exact after
  case refine_3 =>
    obtain ⟨ev, run⟩ := step_iac1 calm uncounted unrecorded de dbcr0 dbcr1 dbcr6 unlinked address known hit
    exact ⟨_, run, rfl⟩
  case refine_4 =>
    obtain ⟨ev, run⟩ := step_enterHalt idle edm idm enOnce noCheck.1 noCheck.2 event
    exact ⟨_, run, rfl⟩
  case refine_5 => exact step_debugOff calm fetch whole decoded unrecorded dbcr0 disabled rfl run pm
  case refine_6 =>
    obtain ⟨ev, run⟩ := step_halted halted noInput noWork window quiet noReset
    exact ⟨_, run, rfl⟩

end Sys2Proof.Machine
end

section
/-! PROOF. Rounding in terms of real numbers (O54, O55): what `cut`, `roundUp` and `roundTo` do to an exact magnitude. -/

namespace Sys2Proof.Machine

/-! Signs. -/

/-- A real number from a sign and a magnitude. -/
def signedReal (s : Bool) (v : ℝ) : ℝ := if s then -v else v

@[simp] theorem abs_signedReal (s : Bool) (v : ℝ) : |signedReal s v| = |v| := by cases s <;> simp [signedReal]

theorem signedReal_mul (s : Bool) (v w : ℝ) : signedReal s (v * w) = signedReal s v * w := by cases s <;> simp [signedReal]

theorem signedReal_sub (s : Bool) (v w : ℝ) : signedReal s (v - w) = signedReal s v - signedReal s w := by
  cases s <;> simp [signedReal]; ring

theorem signedReal_neg_iff {s : Bool} {v : ℝ} (pos : 0 < v) : signedReal s v < 0 ↔ s = true := by
  cases s <;> simp [signedReal, pos, pos.le]

theorem cast_signed (s : Bool) (t : Nat) : ((signed s t : ℤ) : ℝ) = signedReal s t := by cases s <;> simp [signed, signedReal]

/-! Truncation and rounding of a magnitude. -/

/-- `t` steps of width `u` are the magnitude `v` truncated; `g` and `x` are the first digit and the rest of what is cut. -/
structure Truncates (v u : ℝ) (t : Nat) (g x : Bool) : Prop where
  low : t * u ≤ v
  high : v < t * u + u
  guard : g = true ↔ u ≤ 2 * (v - t * u)
  sticky : x = true ↔ v - t * u ≠ 0 ∧ 2 * (v - t * u) ≠ u

/-- The magnitude that `m` stands for: `m`, or with `st` a little more. -/
def Approximates (m : Nat) (st : Bool) (v : ℝ) : Prop := if st then (m : ℝ) < v ∧ v < m + 1 else v = m

theorem Approximates.le {m : Nat} {st : Bool} {v : ℝ} (h : Approximates m st v) : (m : ℝ) ≤ v := by
  cases st
  · exact h.ge
  · exact h.1.le

theorem Approximates.lt {m : Nat} {st : Bool} {v : ℝ} (h : Approximates m st v) : v < (m : ℝ) + 1 := by
  cases st
  · exact (show v = m from h) ▸ lt_add_one v
  · exact h.2

/-- The digits of `m` around digit `j`. -/
theorem split_digit (m j : Nat) : m = (2 * (m / 2 ^ (j + 1)) + (m.testBit j).toNat) * 2 ^ j + m % 2 ^ j := by
  have bit : m / 2 ^ j % 2 = (m.testBit j).toNat := (Nat.toNat_testBit m j).symm
  have half : m / 2 ^ (j + 1) = m / 2 ^ j / 2 := by rw [pow_succ, Nat.div_div_eq_div_mul]
  rw [← bit, half, Nat.div_add_mod, mul_comm, Nat.div_add_mod]

/-- Cutting digits off truncates. -/
theorem cut_truncates {m k : Nat} {st : Bool} {v : ℝ} (h : Approximates m st v) (room : st = true → 0 < k) :
    Truncates v (2 ^ k) (cut m k st).1 (cut m k st).2.1 (cut m k st).2.2 := by
  cases k with
  | zero =>
    have exact : st = false := by
      cases st
      · rfl
      · exact absurd (room rfl) (lt_irrefl 0)
    subst exact
    have value : v = m := h
    subst value
    constructor <;> simp [cut]
  | succ j =>
    have digits : (m : ℝ) = (2 * (m / 2 ^ (j + 1) : ℕ) + ((m.testBit j).toNat : ℝ)) * 2 ^ j + (m % 2 ^ j : ℕ) :=
      mod_cast split_digit m j
    have below : ((m % 2 ^ j : ℕ) : ℝ) + 1 ≤ 2 ^ j := mod_cast Nat.mod_lt m (Nat.two_pow_pos j)
    have rest_nonneg : (0 : ℝ) ≤ (m % 2 ^ j : ℕ) := Nat.cast_nonneg _
    have width : (2 : ℝ) ^ (j + 1) = 2 * 2 ^ j := pow_succ' 2 j
    obtain ⟨ρ, rest⟩ : ∃ ρ, ρ = v - (2 * (m / 2 ^ (j + 1) : ℕ) + ((m.testBit j).toNat : ℝ)) * 2 ^ j := ⟨_, rfl⟩
    have rest_low : 0 ≤ ρ := by linarith [h.le]
    have rest_high : ρ < 2 ^ j := by linarith [h.lt]
    have more : (m % 2 ^ j != 0 || st) = true ↔ ρ ≠ 0 := by
      cases st with
      | true => exact iff_of_true (Bool.or_true _) (by linarith [h.1] : (0 : ℝ) < ρ).ne'
      | false =>
        have exact : ρ = (m % 2 ^ j : ℕ) := by linarith [show v = m from h]
        rw [exact, Nat.cast_ne_zero, Bool.or_false, bne_iff_ne]
    have cutRest : v - (m / 2 ^ (j + 1) : ℕ) * 2 ^ (j + 1) = (m.testBit j).toNat * 2 ^ j + ρ := by rw [rest, width]; ring
    simp only [cut]
    cases bit : m.testBit j <;> simp only [bit, Bool.toNat_false, Bool.toNat_true, Nat.cast_zero, Nat.cast_one, zero_mul,
      one_mul, zero_add] at cutRest
    · refine ⟨by linarith, by linarith, iff_of_false Bool.false_ne_true (by linarith), more.trans ?_⟩
      rw [cutRest, width]
      exact ⟨fun nonzero => ⟨nonzero, fun half => by linarith⟩, And.left⟩
    · refine ⟨by linarith, by linarith, iff_of_true rfl (by linarith), more.trans ?_⟩
      rw [cutRest, width]
      exact ⟨fun nonzero => ⟨by linarith, fun half => nonzero (by linarith)⟩, fun both zero => both.2 (by rw [zero]; ring)⟩

section
variable {v u : ℝ} {t : Nat} {g x : Bool} (h : Truncates v u t g x)
include h

theorem Truncates.width_pos : 0 < u := by linarith [h.low, h.high]

/-- Truncation does not depend on the unit. -/
theorem Truncates.scale {w : ℝ} (pos : 0 < w) : Truncates (v * w) (u * w) t g x := by
  have rest : v * w - t * (u * w) = (v - t * u) * w := by ring
  obtain ⟨low, high, guard, sticky⟩ := h
  have low' : t * u * w ≤ v * w := mul_le_mul_of_nonneg_right low pos.le
  have high' : v * w < (t * u + u) * w := mul_lt_mul_of_pos_right high pos
  refine ⟨by linarith, by linarith, guard.trans ?_, sticky.trans ?_⟩
  · rw [rest, ← mul_assoc, mul_le_mul_iff_left₀ pos]
  · rw [rest, ← mul_assoc, mul_ne_zero_iff_right pos.ne', Ne, Ne, Ne, mul_left_inj' pos.ne']

theorem Truncates.nonneg : 0 ≤ v :=
  (mul_nonneg (Nat.cast_nonneg t) h.width_pos.le).trans h.low

theorem Truncates.discards (s : Bool) {o : FpOut} (hg : o.g = g) (hx : o.x = x) :
    Discards (signedReal s v - (signed s t : ℤ) * u) u o := by
  have rest : |signedReal s v - (signed s t : ℤ) * u| = v - t * u := by
    rw [cast_signed, ← signedReal_mul, ← signedReal_sub, abs_signedReal, abs_of_nonneg (sub_nonneg.mpr h.low)]
  refine ⟨by rw [hg, rest]; exact h.guard, ?_⟩
  rw [hx, rest, ← abs_ne_zero, rest]
  exact h.sticky

theorem Truncates.truncated (s : Bool) : RoundedTo 1#2 (signedReal s v) u (signed s t) := by
  have steps : |((signed s t : ℤ) : ℝ) * u| = t * u := by
    rw [cast_signed, ← signedReal_mul, abs_signedReal, abs_of_nonneg (mul_nonneg (Nat.cast_nonneg t) h.width_pos.le)]
  have sign : 0 ≤ signedReal s v * (signed s t : ℤ) := by
    have product : 0 ≤ v * t := mul_nonneg h.nonneg (Nat.cast_nonneg t)
    rw [cast_signed]
    cases s <;> simpa [signedReal] using product
  refine ⟨sign, ?_, ?_⟩ <;> rw [steps, abs_signedReal, abs_of_nonneg h.nonneg]
  · exact h.low
  · exact h.high

/-- Where nothing is cut, the truncated number is the number. -/
theorem Truncates.exact (hg : g = false) (hx : x = false) : v = t * u := by
  have below : 2 * (v - t * u) < u := by
    by_contra above
    exact absurd (h.guard.mpr (not_lt.mp above)) (by rw [hg]; decide)
  by_contra rest
  exact absurd (h.sticky.mpr ⟨sub_ne_zero.mpr rest, below.ne⟩) (by rw [hx]; decide)

/-- Where something is cut, the truncated number is smaller. -/
theorem Truncates.inexact (cutOff : (g || x) = true) : t * u < v := by
  have pos := h.width_pos
  rcases Bool.or_eq_true_iff.mp cutOff with hg | hx
  · linarith [h.guard.mp hg]
  · exact lt_of_le_of_ne h.low fun same => (h.sticky.mp hx).1 (by linarith)

end

/-- The magnitude after rounding. -/
def roundedUp (rm : BitVec 2) (s g x : Bool) (t : Nat) : Nat := if roundUp rm s g x (t.testBit 0) then t + 1 else t

section
variable {v u : ℝ} {t : Nat} {g x : Bool} (h : Truncates v u t g x)
include h

/-- To nearest: up past the half, and from the half to an even number. -/
theorem Truncates.nearest (s : Bool) :
    2 * |v - (roundedUp 0#2 s g x t : ℝ) * u| ≤ u ∧
      (2 * |v - (roundedUp 0#2 s g x t : ℝ) * u| = u → Even (roundedUp 0#2 s g x t)) := by
  obtain ⟨low, high, guard, sticky⟩ := h
  have up : roundUp 0#2 s g x (t.testBit 0) = (g && (x || t.testBit 0)) := rfl
  have odd : t.testBit 0 = true ↔ ¬ Even t := by rw [Nat.testBit_zero, decide_eq_true_iff, Nat.not_even_iff]
  rw [roundedUp, up]
  split
  case isTrue rises =>
    obtain ⟨hg, more⟩ := Bool.and_eq_true_iff.mp rises
    have half := guard.mp hg
    have rest : |v - ((t + 1 : ℕ) : ℝ) * u| = u - (v - t * u) := by
      rw [abs_of_nonpos (by push_cast; linarith)]
      push_cast
      ring
    rw [rest]
    refine ⟨by linarith, fun tie => ?_⟩
    rcases Bool.or_eq_true_iff.mp more with hx | isOdd
    · exact absurd (by linarith : 2 * (v - t * u) = u) (sticky.mp hx).2
    · exact Nat.even_add_one.mpr (odd.mp isOdd)
  case isFalse stays =>
    rw [abs_of_nonneg (sub_nonneg.mpr low)]
    by_cases hg : g = true
    · obtain ⟨noMore, isEven⟩ : x = false ∧ t.testBit 0 = false := by simpa [hg] using stays
      have half := guard.mp hg
      have tie : 2 * (v - t * u) = u := by
        by_contra other
        have rest : v - t * u ≠ 0 := by intro none; linarith
        exact absurd (sticky.mpr ⟨rest, other⟩) (by rw [noMore]; decide)
      exact ⟨tie.le, fun _ => not_not.mp (mt odd.mpr (by rw [isEven]; decide))⟩
    · have below : 2 * (v - t * u) < u := not_le.mp (mt guard.mpr hg)
      exact ⟨below.le, fun tie => absurd tie below.ne⟩

/-- Away from zero: the next number, unless the number is exact. -/
theorem Truncates.away : v ≤ ((if g || x then t + 1 else t : ℕ) : ℝ) * u ∧
    ((if g || x then t + 1 else t : ℕ) : ℝ) * u < v + u := by
  have pos := h.width_pos
  split
  case isTrue cutOff =>
    push_cast
    constructor <;> linarith [h.high, h.inexact cutOff]
  case isFalse whole =>
    obtain ⟨hg, hx⟩ : g = false ∧ x = false := by simpa using whole
    constructor <;> linarith [h.exact hg hx]

theorem Truncates.rounded (rm : BitVec 2) (s : Bool) : RoundedTo rm (signedReal s v) u (signed s (roundedUp rm s g x t)) := by
  have modes : rm = 0#2 ∨ rm = 1#2 ∨ rm = 2#2 ∨ rm = 3#2 := by revert rm; decide
  obtain ⟨aboveOrEq, close⟩ := h.away
  rcases modes with rfl | rfl | rfl | rfl
  · obtain ⟨half, tie⟩ := h.nearest s
    have rest : |signedReal s v - (signed s (roundedUp 0#2 s g x t) : ℤ) * u| = |v - (roundedUp 0#2 s g x t : ℝ) * u| := by
      rw [cast_signed, ← signedReal_mul, ← signedReal_sub, abs_signedReal]
    refine ⟨rest ▸ half, fun isTie => ?_⟩
    have even : Even ((roundedUp 0#2 s g x t : ℕ) : ℤ) := (Int.even_coe_nat _).mpr (tie (rest ▸ isTie))
    cases s
    · exact even
    · exact even.neg
  · exact h.truncated s
  · cases s
    · have up : roundedUp 2#2 false g x t = if g || x then t + 1 else t := by simp [roundedUp, roundUp]
      rw [up]
      exact ⟨aboveOrEq, close⟩
    · have same : roundedUp 2#2 true g x t = t := by simp [roundedUp, roundUp]
      rw [same, RoundedTo, cast_signed]
      simp only [signedReal, if_true, neg_mul]
      constructor <;> linarith [h.low, h.high]
  · cases s
    · have same : roundedUp 3#2 false g x t = t := by simp [roundedUp, roundUp]
      rw [same]
      exact ⟨h.low, h.high⟩
    · have up : roundedUp 3#2 true g x t = if g || x then t + 1 else t := by simp [roundedUp, roundUp]
      rw [up, RoundedTo, cast_signed]
      simp only [signedReal, if_true, neg_mul]
      constructor <;> linarith
end

/-! Rounding to a format. -/

theorem Approximates.shift {m : Nat} {st : Bool} {v : ℝ} (h : Approximates m st v) {a : Nat} (whole : st = true → a = 0) :
    Approximates (m * 2 ^ a) st (v * 2 ^ a) := by
  cases st with
  | false =>
    have value : v = m := h
    rw [value]
    exact (by push_cast; rfl : (m : ℝ) * 2 ^ a = ((m * 2 ^ a : ℕ) : ℝ))
  | true =>
    rw [whole rfl, pow_zero, pow_zero, mul_one, mul_one]
    exact h

/-- A magnitude cut to `p` digits. -/
theorem cut_normalized {p m : Nat} {st : Bool} {v : ℝ} (e : ℤ) (h : Approximates m st v)
    (digits : st = true → p - 1 < m.log2) :
    Truncates (v * 2 ^ e) (2 ^ (e + m.log2 - ((p - 1 : ℕ) : ℤ)))
      (cut (m * 2 ^ (p - 1 - m.log2)) (m.log2 - (p - 1)) st).1 (cut (m * 2 ^ (p - 1 - m.log2)) (m.log2 - (p - 1)) st).2.1
      (cut (m * 2 ^ (p - 1 - m.log2)) (m.log2 - (p - 1)) st).2.2 := by
  have two : (2 : ℝ) ≠ 0 := two_ne_zero
  have truncated := cut_truncates (h.shift (a := p - 1 - m.log2) fun rest => by have := digits rest; omega)
    (k := m.log2 - (p - 1)) fun rest => by have := digits rest; omega
  have scaled := truncated.scale (w := 2 ^ (e - ((p - 1 - m.log2 : ℕ) : ℤ))) (by positivity)
  have magnitude : v * 2 ^ (p - 1 - m.log2) * 2 ^ (e - ((p - 1 - m.log2 : ℕ) : ℤ)) = v * (2 : ℝ) ^ e := by
    rw [mul_assoc, ← zpow_natCast, ← zpow_add₀ two, add_sub_cancel]
  have unit : (2 : ℝ) ^ (m.log2 - (p - 1)) * 2 ^ (e - ((p - 1 - m.log2 : ℕ) : ℤ)) = 2 ^ (e + m.log2 - ((p - 1 : ℕ) : ℤ)) := by
    rw [← zpow_natCast, ← zpow_add₀ two]
    congr 1
    omega
  rwa [magnitude, unit] at scaled

/-- A magnitude lies between the powers of two that its number of digits says. -/
theorem Approximates.binade {m : Nat} {st : Bool} {v : ℝ} (h : Approximates m st v) (some : m ≠ 0) (e : ℤ) :
    (2 : ℝ) ^ (e + m.log2) ≤ v * 2 ^ e ∧ v * 2 ^ e < 2 ^ (e + m.log2 + 1) := by
  have two : (2 : ℝ) ≠ 0 := two_ne_zero
  have pos : (0 : ℝ) < 2 ^ e := by positivity
  have low : (2 : ℝ) ^ m.log2 ≤ v := (by exact_mod_cast Nat.log2_self_le some : (2 : ℝ) ^ m.log2 ≤ m).trans h.le
  have high : v < 2 ^ (m.log2 + 1) :=
    h.lt.trans_le (by exact_mod_cast Nat.succ_le_of_lt Nat.lt_log2_self : (m : ℝ) + 1 ≤ 2 ^ (m.log2 + 1))
  have lower : (2 : ℝ) ^ (e + m.log2) = 2 ^ m.log2 * 2 ^ e := by rw [zpow_add₀ two, zpow_natCast, mul_comm]
  have upper : (2 : ℝ) ^ (e + m.log2 + 1) = 2 ^ (m.log2 + 1) * 2 ^ e := by
    rw [add_assoc, zpow_add₀ two, mul_comm, ← Nat.cast_succ, zpow_natCast]
  rw [lower, upper]
  exact ⟨mul_le_mul_of_nonneg_right low pos.le, mul_lt_mul_of_pos_right high pos⟩

/-! Powers of two in steps of the last of `p` digits. -/

theorem two_zpow_first (p : Nat) (e : ℤ) : (2 : ℝ) ^ e = 2 ^ (p - 1) * 2 ^ (e - ((p - 1 : ℕ) : ℤ)) := by
  rw [← zpow_natCast, ← zpow_add₀ two_ne_zero, add_sub_cancel]

theorem two_zpow_full {p : Nat} (pos : 0 < p) (e : ℤ) : (2 : ℝ) ^ (e + 1) = 2 ^ p * 2 ^ (e - ((p - 1 : ℕ) : ℤ)) := by
  rw [← zpow_natCast, ← zpow_add₀ two_ne_zero]
  congr 1
  omega

/-- The truncated significand has `p` digits. -/
theorem Truncates.digits {v : ℝ} {t p : Nat} {g x : Bool} {e : ℤ} (pos : 0 < p)
    (h : Truncates v (2 ^ (e - ((p - 1 : ℕ) : ℤ))) t g x) (low : (2 : ℝ) ^ e ≤ v) (high : v < 2 ^ (e + 1)) :
    2 ^ (p - 1) ≤ t ∧ t < 2 ^ p := by
  have unit := h.width_pos
  have above : (2 : ℝ) ^ (p - 1) < t + 1 := by
    refine lt_of_mul_lt_mul_right ?_ unit.le
    rw [← two_zpow_first]
    linarith [h.high]
  have below : (t : ℝ) < 2 ^ p := by
    refine lt_of_mul_lt_mul_right ?_ unit.le
    rw [← two_zpow_full pos]
    linarith [h.low]
  exact ⟨Nat.lt_succ_iff.mp (by exact_mod_cast above), by exact_mod_cast below⟩

/-- The significand and the exponent after a carry out of the highest digit. -/
def carried (p t : Nat) (e : ℤ) : Nat × ℤ := if t = 2 ^ p then (2 ^ (p - 1), e + 1) else (t, e)

theorem carried_spec {p t : Nat} (pos : 0 < p) (e : ℤ) (low : 2 ^ (p - 1) ≤ t) (high : t ≤ 2 ^ p) :
    2 ^ (p - 1) ≤ (carried p t e).1 ∧ (carried p t e).1 < 2 ^ p ∧ e ≤ (carried p t e).2 ∧
      ((carried p t e).1 : ℝ) * 2 ^ ((carried p t e).2 - ((p - 1 : ℕ) : ℤ)) = t * 2 ^ (e - ((p - 1 : ℕ) : ℤ)) := by
  rw [carried]
  split
  case isTrue full =>
    refine ⟨le_rfl, Nat.pow_lt_pow_right one_lt_two (Nat.sub_lt pos one_pos), Int.le_add_one le_rfl, ?_⟩
    rw [full]
    push_cast
    rw [← zpow_natCast, ← zpow_natCast, ← zpow_add₀ two_ne_zero, ← zpow_add₀ two_ne_zero]
    congr 1
    omega
  case isFalse other => exact ⟨low, lt_of_le_of_ne high other, le_rfl, rfl⟩

/-- A number of `p` digits lies between the powers of two that its exponent says. -/
theorem digits_binade {p t : Nat} (pos : 0 < p) {e : ℤ} (low : 2 ^ (p - 1) ≤ t) (high : t < 2 ^ p) :
    (2 : ℝ) ^ e ≤ t * 2 ^ (e - ((p - 1 : ℕ) : ℤ)) ∧ t * 2 ^ (e - ((p - 1 : ℕ) : ℤ)) < (2 : ℝ) ^ (e + 1) := by
  have unit : (0 : ℝ) < 2 ^ (e - ((p - 1 : ℕ) : ℤ)) := by positivity
  rw [two_zpow_first p, two_zpow_full pos]
  exact ⟨mul_le_mul_of_nonneg_right (by exact_mod_cast low) unit.le, mul_lt_mul_of_pos_right (by exact_mod_cast high) unit⟩

/-- Powers of two in order. -/
theorem binade_lt_iff {v : ℝ} {e k : ℤ} (low : (2 : ℝ) ^ e ≤ v) (high : v < 2 ^ (e + 1)) : v < 2 ^ k ↔ e < k :=
  ⟨fun below => (zpow_lt_zpow_iff_right₀ one_lt_two).mp (low.trans_lt below),
    fun less => high.trans_le (zpow_le_zpow_right₀ one_le_two less)⟩

/-- The words that a format packs stand for their numbers. -/
def FpFormat.Packs (f : FpFormat) (fits : Word → ℝ → Prop) : Prop :=
  ∀ (s : Bool) (e : ℤ) (t : Nat), f.emin ≤ e → e ≤ f.emax → 2 ^ (f.p - 1) ≤ t → t < 2 ^ f.p →
    fits (f.pack s e t) (signedReal s (t * 2 ^ (e - ((f.p - 1 : ℕ) : ℤ))))

/-- The outcome of rounding: `t` is the truncated significand, `e` its exponent, `r` the significand and the exponent after
rounding. -/
def roundOutcome (f : FpFormat) (s : Bool) (e : ℤ) (t : Nat) (g x : Bool) (r : Nat × ℤ) (big small : Word) : FpOut :=
  if f.emax < r.2 then ⟨false, false, true, false, false, false, big, some big, 0⟩
  else if r.2 < f.emin then ⟨false, false, false, true, false, false, small, some small, 0⟩
  else
    ⟨false, false, false, false, g, x, f.pack s r.2 r.1, if e < f.emin then none else some (f.pack s e t), f.bits⟩

theorem roundTo_eq (f : FpFormat) (rm : BitVec 2) (s : Bool) (m : Nat) (e : ℤ) (st : Bool) (big small : Word) :
    roundTo f rm s m e st big small =
      let c := cut (m * 2 ^ (f.p - 1 - m.log2)) (m.log2 - (f.p - 1)) st
      roundOutcome f s (e + m.log2) c.1 c.2.1 c.2.2 (carried f.p (roundedUp rm s c.2.1 c.2.2 c.1) (e + m.log2)) big small := rfl

theorem roundedUp_digits {p t : Nat} (rm : BitVec 2) (s g x : Bool) (low : 2 ^ (p - 1) ≤ t) (high : t < 2 ^ p) :
    2 ^ (p - 1) ≤ roundedUp rm s g x t ∧ roundedUp rm s g x t ≤ 2 ^ p := by
  rw [roundedUp]
  split
  · exact ⟨low.trans (Nat.le_succ t), high⟩
  · exact ⟨low, high.le⟩

/-- What the outcome of rounding says, from the truncated magnitude and the rounded one. -/
theorem roundOutcome_spec {f : FpFormat} {fits : Word → ℝ → Prop} (packs : f.Packs fits) (digits : 0 < f.p)
    (range : f.emin ≤ f.emax) {s : Bool}
    {e : ℤ} {t : Nat} {g x : Bool} {v : ℝ} (truncated : Truncates v (2 ^ (e - ((f.p - 1 : ℕ) : ℤ))) t g x)
    (low : (2 : ℝ) ^ e ≤ v) (high : v < 2 ^ (e + 1)) (rm : BitVec 2) (top sign small : Word) :
    FpRounds f.p (2 ^ f.emin) (2 ^ (f.emax + 1)) fits rm (signedReal s v) top sign small
      (roundOutcome f s e t g x (carried f.p (roundedUp rm s g x t) e) (if s then sign ||| top else top) small) := by
  have last : ((f.p - 1 : ℕ) : ℤ) = f.p - 1 := by omega
  have unit := truncated.width_pos
  have pos : 0 < v := lt_of_lt_of_le (by positivity) low
  obtain ⟨first, full⟩ := truncated.digits digits low high
  obtain ⟨first', full'⟩ := roundedUp_digits rm s g x first full
  obtain ⟨lowest, highest, risen, same⟩ := carried_spec digits e first' full'
  generalize carried f.p (roundedUp rm s g x t) e = r at lowest highest risen same ⊢
  obtain ⟨low', high'⟩ := digits_binade (e := r.2) digits lowest highest
  have steps (n : Nat) : ((signed s n : ℤ) : ℝ) * 2 ^ (e - ((f.p - 1 : ℕ) : ℤ)) =
      signedReal s (n * 2 ^ (e - ((f.p - 1 : ℕ) : ℤ))) := by rw [cast_signed, ← signedReal_mul]
  have size : |((signed s (roundedUp rm s g x t) : ℤ) : ℝ) * 2 ^ (e - ((f.p - 1 : ℕ) : ℤ))| =
      r.1 * 2 ^ (r.2 - ((f.p - 1 : ℕ) : ℤ)) := by
    rw [steps, abs_signedReal, same, abs_of_nonneg (by positivity)]
  have inRange : r.1 * 2 ^ (r.2 - ((f.p - 1 : ℕ) : ℤ)) < (2 : ℝ) ^ (f.emax + 1) ↔ ¬ f.emax < r.2 := by
    rw [binade_lt_iff low' high', not_lt, Int.lt_add_one_iff]
  have overflows : (2 : ℝ) ^ (f.emax + 1) ≤ r.1 * 2 ^ (r.2 - ((f.p - 1 : ℕ) : ℤ)) ↔ f.emax < r.2 := by
    rw [← not_lt, inRange, not_not]
  have underflows : r.1 * 2 ^ (r.2 - ((f.p - 1 : ℕ) : ℤ)) < (2 : ℝ) ^ f.emin ↔ r.2 < f.emin := binade_lt_iff low' high'
  have normal : (2 : ℝ) ^ f.emin ≤ v ↔ f.emin ≤ e := by rw [← not_lt, binade_lt_iff low high, not_lt]
  have sized : |signedReal s v| = v := by rw [abs_signedReal, abs_of_pos pos]
  have signs : (if signedReal s v < 0 then sign ||| top else top) = if s then sign ||| top else top :=
    if_congr (signedReal_neg_iff pos) rfl rfl
  rw [FpRounds, sized, signs]
  have fields : (roundOutcome f s e t g x r (if s then sign ||| top else top) small).inv = false ∧
      (roundOutcome f s e t g x r (if s then sign ||| top else top) small).dbz = false := by
    unfold roundOutcome
    split_ifs <;> exact ⟨rfl, rfl⟩
  refine ⟨fields.1, fields.2, e, signed s (roundedUp rm s g x t), signed s t, low, high, ?_⟩
  rw [← last]
  refine ⟨truncated.rounded rm s, truncated.truncated s, ?_⟩
  rw [size, overflows, underflows, ← not_lt, underflows, inRange, normal, roundOutcome]
  by_cases big : f.emax < r.2
  · have notSmall : ¬ r.2 < f.emin := by omega
    simp [big, notSmall]
  by_cases little : r.2 < f.emin
  · simp [big, little]
  simp only [big, little, if_false, not_false_eq_true, false_imp_iff, true_imp_iff, iff_self, and_true, true_and,
    Bool.false_eq_true]
  rw [steps, ← same]
  refine ⟨packs s r.2 r.1 (not_lt.mp little) (not_lt.mp big) lowest highest, truncated.discards s rfl rfl, fun isNormal => ?_⟩
  have below : e ≤ f.emax := risen.trans (not_lt.mp big)
  refine ⟨_, if_neg (not_lt.mpr isNormal), ?_⟩
  rw [steps]
  exact packs s e t isNormal below first full

/-- ROUNDING: the outcome of rounding the magnitude that `m` approximates, in units of `2 ^ e`. -/
theorem roundTo_spec {f : FpFormat} {fits : Word → ℝ → Prop} (packs : f.Packs fits) (pos : 0 < f.p)
    (range : f.emin ≤ f.emax) {m : Nat} {st : Bool}
    {v : ℝ} (h : Approximates m st v) (some : m ≠ 0) (digits : st = true → f.p - 1 < m.log2) (rm : BitVec 2) (s : Bool) (e : ℤ)
    (top sign small : Word) :
    FpRounds f.p (2 ^ f.emin) (2 ^ (f.emax + 1)) fits rm (signedReal s (v * 2 ^ e)) top sign small
      (roundTo f rm s m e st (if s then sign ||| top else top) small) := by
  obtain ⟨low, high⟩ := h.binade some e
  rw [roundTo_eq]
  exact roundOutcome_spec packs pos range (cut_normalized e h digits) low high rm top sign small

/-! Single precision. -/

/-- The value of a normalized number, with the model's sign, significand and power. -/
theorem fpValue_eq (v : Word) : fpValue v = signedReal (fSign v) (fSig v * 2 ^ fPow v) := by
  have sig : ((fSig v : ℕ) : ℝ) = 2 ^ 23 + fpF v := by
    rw [fSig, Nat.cast_add, Nat.cast_pow]
    rfl
  rw [fpValue, signedReal, sig]
  change (if v.msb then (-1 : ℝ) else 1) * _ * 2 ^ fPow v = if v.msb then _ else _
  split <;> ring

/-- A sign bit over the rest of a number. -/
theorem toNat_pack (s : Bool) {n y : Nat} (small : y < 2 ^ n) (fits : n < 32) :
    (BitVec.ofNat 32 ((if s then 1 else 0) * 2 ^ n) ||| BitVec.ofNat 32 y).toNat = s.toNat * 2 ^ n + y := by
  have bit : (if s then 1 else 0) = s.toNat := by cases s <;> rfl
  have word : 2 ^ n * 2 ≤ 2 ^ 32 := by rw [← pow_succ]; exact Nat.pow_le_pow_right two_pos fits
  have sign : s.toNat * 2 ^ n ≤ 2 ^ n := by cases s <;> simp
  rw [bit, BitVec.toNat_or, BitVec.toNat_ofNat, BitVec.toNat_ofNat, Nat.mod_eq_of_lt (by omega), Nat.mod_eq_of_lt (by omega),
    mul_comm s.toNat, ← Nat.two_pow_add_eq_or_of_lt small]

theorem single_packs : single.Packs fpIs := by
  intro s e t low high first full
  obtain ⟨k, exponent⟩ : ∃ k : ℕ, (k : ℤ) = e + 127 := ⟨(e + 127).toNat, Int.toNat_of_nonneg (by simp [single] at low; omega)⟩
  simp only [single] at low high first full
  have word : (single.pack s e t).toNat = s.toNat * 2 ^ 31 + (k * 2 ^ 23 + t % 2 ^ 23) := by
    have biased : (e + single.bias).toNat = k := by simp only [single]; omega
    rw [FpFormat.pack, biased]
    change (BitVec.ofNat 32 ((if s then 1 else 0) * 2 ^ 31) ||| BitVec.ofNat 32 (k * 2 ^ 23 + t % 2 ^ 23)).toNat = _
    exact toNat_pack s (by omega) (by decide)
  have sign := Bool.toNat_lt s
  have expo : fpE (single.pack s e t) = k := by
    rw [fpE, BitVec.extractLsb'_toNat, word, Nat.shiftRight_eq_div_pow]
    omega
  have frac : fpF (single.pack s e t) = t - 2 ^ 23 := by
    rw [fpF, BitVec.extractLsb'_toNat, word, Nat.shiftRight_eq_div_pow]
    omega
  have msb : (single.pack s e t).msb = s := by
    rw [BitVec.msb_eq_decide, word]
    cases s <;> simp; omega
  refine ⟨⟨by omega, by omega⟩, ?_⟩
  have significand : (2 : ℝ) ^ 23 + ((t - 2 ^ 23 : ℕ) : ℝ) = t := by
    rw [Nat.cast_sub first]
    push_cast
    ring
  have power : (k : ℤ) - 150 = e - ((single.p - 1 : ℕ) : ℤ) := by rw [exponent]; simp only [single]; omega
  rw [fpValue, msb, frac, expo, significand, power]
  cases s <;> simp [signedReal]

/-- `Calc` of a magnitude that is not zero. -/
theorem fCalc_spec {m : Nat} {st : Bool} {v : ℝ} (h : Approximates m st v) (some : m ≠ 0)
    (digits : st = true → 23 < m.log2) (rm : BitVec 2) (zs us s : Bool) (e : ℤ) :
    FpSingle rm (signedReal s (v * 2 ^ e)) (fZeroOf us) (fCalc rm zs us s m e st) := by
  have top : fMaxOf s = if s then 0x80000000#32 ||| 0x7F7FFFFF#32 else 0x7F7FFFFF#32 := by cases s <;> rfl
  have rounds := roundTo_spec single_packs (by decide) (by decide) h some digits rm s e 0x7F7FFFFF#32 0x80000000#32 (fZeroOf us)
  have highest : (2 : ℝ) ^ (single.emax + 1) = 2 ^ 128 := zpow_natCast 2 128
  rw [fCalc, if_neg some, top]
  rw [highest] at rounds
  exact rounds

/-- `Calc` of a number that is an integer times a power of two. -/
theorem fCalc_integer (rm : BitVec 2) (zs us : Bool) {n e : ℤ} {y : ℝ} (value : (n : ℝ) * 2 ^ e = y) :
    (y = 0 → fCalc rm zs us (decide (n < 0)) n.natAbs e false = FpOut.plain false (fZeroOf zs)) ∧
      (y ≠ 0 → FpSingle rm y (fZeroOf us) (fCalc rm zs us (decide (n < 0)) n.natAbs e false)) := by
  have scale : (2 : ℝ) ^ e ≠ 0 := zpow_ne_zero _ two_ne_zero
  have zero : y = 0 ↔ n.natAbs = 0 := by rw [← value, mul_eq_zero_iff_right scale, Int.cast_eq_zero, Int.natAbs_eq_zero]
  refine ⟨fun none => if_pos (zero.mp none), fun nonzero => ?_⟩
  have spec := fCalc_spec (m := n.natAbs) (st := false) rfl (mt zero.mpr nonzero) nofun rm zs us (decide (n < 0)) e
  have sign : signedReal (decide (n < 0)) ((n.natAbs : ℝ) * 2 ^ e) = y := by
    rw [signedReal_mul, ← cast_signed, ← value, signed]
    congr 2
    by_cases negative : n < 0
    · simp only [negative, decide_true, if_true]; omega
    · simp only [negative, decide_false, Bool.false_eq_true, if_false]; omega
  rw [sign] at spec
  exact spec

/-- The exact sum. -/
theorem exactSum_value (a ea b eb : ℤ) :
    ((exactSum a ea b eb).1 : ℝ) * 2 ^ (exactSum a ea b eb).2 = a * 2 ^ ea + b * 2 ^ eb := by
  have shift (e : ℤ) (le : min ea eb ≤ e) : (2 : ℝ) ^ (e - min ea eb).toNat * 2 ^ (min ea eb) = 2 ^ e := by
    rw [← zpow_natCast, ← zpow_add₀ two_ne_zero]
    congr 1
    omega
  simp only [exactSum]
  push_cast
  rw [add_mul, mul_assoc, mul_assoc, shift ea (min_le_left _ _), shift eb (min_le_right _ _)]

end Sys2Proof.Machine
end

section
/-! PROOF. What the floating-point operations compute (O54). -/

namespace Sys2Proof.Machine

section
variable {v a b : Word}

/-! Classes. -/

theorem fSpecial_eq (v : Word) : fSpecial v = fpSpecial v := by
  have frac : (fFrac v == 0 || fFrac v != 0) = true := by cases h : fFrac v == 0 <;> simp [bne, h]
  change (_ && _ || _ && _ || _) = decide (fExp v = 255 ∨ fExp v = 0 ∧ fFrac v ≠ 0)
  rw [← Bool.and_or_distrib_left, frac, Bool.and_true, Bool.decide_or, Bool.decide_and]
  simp [fDenorm, bne, beq_eq_decide]

theorem fNull_iff : fNull v = true ↔ fpE v = 0 := beq_iff_eq
theorem fHuge_iff : fHuge v = true ↔ fpE v = 255 := beq_iff_eq

theorem fNull_of (h : fpE v = 0) : fNull v = true ∧ fHuge v = false :=
  ⟨fNull_iff.mpr h, Bool.eq_false_iff.mpr (mt fHuge_iff.mp (by omega))⟩

theorem fHuge_of (h : fpE v = 255) : fNull v = false ∧ fHuge v = true ∧ fpSpecial v = true :=
  ⟨Bool.eq_false_iff.mpr (mt fNull_iff.mp (by omega)), fHuge_iff.mpr h, decide_eq_true (.inl h)⟩

theorem fNorm_of (h : fpNorm v) : fNull v = false ∧ fHuge v = false ∧ fpSpecial v = false := by
  obtain ⟨low, high⟩ := h
  exact ⟨Bool.eq_false_iff.mpr (mt fNull_iff.mp (by omega)), Bool.eq_false_iff.mpr (mt fHuge_iff.mp (by omega)),
    decide_eq_false (by omega)⟩

theorem fNorm_iff : fpNorm v ↔ fNull v = false ∧ fHuge v = false := by
  have small : fpE v < 256 := BitVec.isLt _
  rw [fpNorm, ← Bool.not_eq_true, ← Bool.not_eq_true, fNull_iff, fHuge_iff]
  omega

/-! Signs. -/

theorem and_sign (v : Word) : v &&& 0x80000000#32 = fZeroOf (fSign v) := by
  have bit : (0x80000000#32 : Word) = BitVec.twoPow 32 31 := by decide
  rw [bit, BitVec.and_twoPow, ← BitVec.msb_eq_getLsbD_last, fSign]
  cases v.msb <;> rfl

theorem fSign_xor (a b : Word) : fSign (a ^^^ b) = (fSign a != fSign b) := BitVec.msb_xor ..

theorem fZeroOf_or_top (s : Bool) : fZeroOf s ||| 0x7F7FFFFF#32 = fMaxOf s := by cases s <;> rfl

theorem zeroSign_eq (m : BitVec 2) : (if m = 3#2 then 0x80000000#32 else 0#32) = fZeroOf (isRM m) := by
  by_cases h : m = 3#2 <;> simp [h, isRM, fZeroOf, withSign]

theorem fZeroOf_inj (s t : Bool) : fZeroOf s = fZeroOf t ↔ s = t := by cases s <;> cases t <;> decide

/-! Values. -/

theorem fSig_bounds (v : Word) : 2 ^ 23 ≤ fSig v ∧ fSig v < 2 ^ 24 := by
  have small : fFrac v < 2 ^ 23 := BitVec.isLt _
  rw [fSig]
  omega

theorem fSig_ne (v : Word) : fSig v ≠ 0 := by have := fSig_bounds v; omega

theorem fpValue_signed (v : Word) : fpValue v = (signed (fSign v) (fSig v) : ℤ) * 2 ^ fPow v := by
  rw [fpValue_eq, cast_signed, ← signedReal_mul]

theorem fpValue_ne (v : Word) : fpValue v ≠ 0 := by
  have pos : (0 : ℝ) < fSig v * 2 ^ fPow v := mul_pos (by exact_mod_cast Nat.pos_of_ne_zero (fSig_ne v)) (by positivity)
  rw [fpValue_eq, ← abs_ne_zero, abs_signedReal, abs_of_pos pos]
  exact pos.ne'

theorem signedReal_mul_signedReal (s t : Bool) (x y : ℝ) :
    signedReal s x * signedReal t y = signedReal (s != t) (x * y) := by cases s <;> cases t <;> simp [signedReal]

theorem signedReal_div_signedReal (s t : Bool) (x y : ℝ) :
    signedReal s x / signedReal t y = signedReal (s != t) (x / y) := by
  cases s <;> cases t <;> simp [signedReal, neg_div, div_neg]

theorem fpValue_mul (a b : Word) :
    fpValue a * fpValue b = signedReal (fSign a != fSign b) ((fSig a * fSig b : ℕ) * 2 ^ (fPow a + fPow b)) := by
  rw [fpValue_eq, fpValue_eq, signedReal_mul_signedReal, zpow_add₀ two_ne_zero]
  congr 1
  push_cast
  ring

end

/-- `Calc` of an exact sum. -/
theorem calcSum_spec (m : BitVec 2) {r : Int × Int} {y : ℝ} (value : (r.1 : ℝ) * 2 ^ r.2 = y) :
    (y = 0 → calcSum m r = .plain false (fZeroOf (isRM m))) ∧ (y ≠ 0 → FpSingle m y (fZeroOf (isRM m)) (calcSum m r)) :=
  fCalc_integer m (isRM m) (isRM m) value

/-! Addition. -/

section
variable (m : BitVec 2) {a b : Word}

theorem fAdd_huge_left (ha : fpE a = 255) : fAdd m a b = .plain true (fMaxOf (fSign a)) := by
  obtain ⟨-, huge, special⟩ := fHuge_of ha
  simp [fAdd, fSpecial_eq, huge, special]

theorem fAdd_huge_right (ha : fpE a ≠ 255) (hb : fpE b = 255) : fAdd m a b = .plain true (fMaxOf (fSign b)) := by
  obtain ⟨-, huge, special⟩ := fHuge_of hb
  have other : fHuge a = false := Bool.eq_false_iff.mpr (mt fHuge_iff.mp ha)
  simp [fAdd, fSpecial_eq, huge, special, other]

theorem fAdd_null (ha : fpE a = 0) (hb : fpE b = 0) : fAdd m a b =
    .plain (fpSpecial a || fpSpecial b) (if fSign a = fSign b then fZeroOf (fSign a) else fZeroOf (isRM m)) := by
  obtain ⟨nullA, sizeA⟩ := fNull_of ha
  obtain ⟨nullB, sizeB⟩ := fNull_of hb
  simp [fAdd, fSpecial_eq, nullA, sizeA, nullB, sizeB]

theorem fAdd_null_right (ha : fpNorm a) (hb : fpE b = 0) : fAdd m a b = .plain (fpSpecial a || fpSpecial b) a := by
  obtain ⟨nullA, sizeA, -⟩ := fNorm_of ha
  obtain ⟨nullB, sizeB⟩ := fNull_of hb
  simp [fAdd, fSpecial_eq, nullA, sizeA, nullB, sizeB]

theorem fAdd_null_left (ha : fpE a = 0) (hb : fpNorm b) : fAdd m a b = .plain (fpSpecial a || fpSpecial b) b := by
  obtain ⟨nullA, sizeA⟩ := fNull_of ha
  obtain ⟨nullB, sizeB, -⟩ := fNorm_of hb
  simp [fAdd, fSpecial_eq, nullA, sizeA, nullB, sizeB]

theorem fAdd_norm (ha : fpNorm a) (hb : fpNorm b) :
    (fpValue a + fpValue b = 0 → fAdd m a b = .plain false (fZeroOf (isRM m))) ∧
      (fpValue a + fpValue b ≠ 0 → FpSingle m (fpValue a + fpValue b) (fZeroOf (isRM m)) (fAdd m a b)) := by
  obtain ⟨nullA, sizeA, -⟩ := fNorm_of ha
  obtain ⟨nullB, sizeB, -⟩ := fNorm_of hb
  have sum : fAdd m a b = calcSum m (exactSum (signed (fSign a) (fSig a)) (fPow a) (signed (fSign b) (fSig b)) (fPow b)) := by
    simp [fAdd, nullA, sizeA, nullB, sizeB]
  rw [sum]
  refine calcSum_spec m ?_
  rw [exactSum_value, ← fpValue_signed, ← fpValue_signed]

/-! Multiplication. -/

theorem fMul_null (h : fpE a = 0 ∨ fpE b = 0) :
    fMul m a b = .plain (fpSpecial a || fpSpecial b) (fZeroOf (fSign a != fSign b)) := by
  have null : (fNull a || fNull b) = true := Bool.or_eq_true_iff.mpr (h.imp fNull_iff.mpr fNull_iff.mpr)
  simp only [fMul, fSpecial_eq, null, if_true]

theorem special_of_huge (h : fpE a = 255 ∨ fpE b = 255) : (fpSpecial a || fpSpecial b) = true :=
  Bool.or_eq_true_iff.mpr (h.imp (fun h => (fHuge_of h).2.2) fun h => (fHuge_of h).2.2)

theorem fMul_huge (ha : fpE a ≠ 0) (hb : fpE b ≠ 0) (h : fpE a = 255 ∨ fpE b = 255) :
    fMul m a b = .plain true (fMaxOf (fSign a != fSign b)) := by
  have null : (fNull a || fNull b) = false :=
    Bool.or_eq_false_iff.mpr ⟨Bool.eq_false_iff.mpr (mt fNull_iff.mp ha), Bool.eq_false_iff.mpr (mt fNull_iff.mp hb)⟩
  have huge : (fHuge a || fHuge b) = true := Bool.or_eq_true_iff.mpr (h.imp fHuge_iff.mpr fHuge_iff.mpr)
  simp only [fMul, fSpecial_eq, null, huge, special_of_huge h, Bool.false_eq_true, if_false, if_true]

theorem fMul_norm (ha : fpNorm a) (hb : fpNorm b) :
    FpSingle m (fpValue a * fpValue b) (fZeroOf (fSign a != fSign b)) (fMul m a b) := by
  obtain ⟨nullA, sizeA, -⟩ := fNorm_of ha
  obtain ⟨nullB, sizeB, -⟩ := fNorm_of hb
  have product : fMul m a b = fCalc m (fSign a != fSign b) (fSign a != fSign b) (fSign a != fSign b) (fSig a * fSig b)
      (fPow a + fPow b) false := by
    simp only [fMul, nullA, sizeA, nullB, sizeB, Bool.or_self, Bool.false_eq_true, if_false]
  rw [product, fpValue_mul]
  exact fCalc_spec (st := false) rfl (mul_ne_zero (fSig_ne a) (fSig_ne b)) nofun m _ _ _ _

/-! Division. -/

theorem fDiv_huge_right (hb : fpE b = 255) : fDiv m a b = .plain true (fZeroOf (fSign a != fSign b)) := by
  obtain ⟨-, huge, special⟩ := fHuge_of hb
  simp [fDiv, fSpecial_eq, huge, special]

theorem fDiv_huge_left (hb : fpE b ≠ 255) (ha : fpE a = 255) : fDiv m a b = .plain true (fMaxOf (fSign a != fSign b)) := by
  obtain ⟨-, huge, special⟩ := fHuge_of ha
  have other : fHuge b = false := Bool.eq_false_iff.mpr (mt fHuge_iff.mp hb)
  simp [fDiv, fSpecial_eq, huge, special, other, FpOut.plain]

theorem fZero_iff {v : Word} : fZero v = true ↔ fpE v = 0 ∧ fpF v = 0 := by
  rw [fZero, Bool.and_eq_true_iff, beq_iff_eq, beq_iff_eq]
  rfl

theorem fDiv_zero (ha : fpNorm a) (hb : fpE b = 0) (zero : fpF b = 0) :
    fDiv m a b = { FpOut.plain false (fMaxOf (fSign a != fSign b)) with dbz := true } := by
  obtain ⟨nullA, sizeA, specialA⟩ := fNorm_of ha
  obtain ⟨nullB, sizeB⟩ := fNull_of hb
  have zeroB : fZero b = true := fZero_iff.mpr ⟨hb, zero⟩
  have zeroA : fZero a = false := Bool.eq_false_iff.mpr fun h => absurd (fZero_iff.mp h).1 (by have := ha.1; omega)
  have specialB : fpSpecial b = false := decide_eq_false (by omega)
  simp [fDiv, fSpecial_eq, nullB, sizeB, specialA, zeroA, zeroB, specialB, FpOut.plain]

theorem fDiv_invalid (hb : fpE b = 0) (h : fpE a = 0 ∨ fpNorm a ∧ fpF b ≠ 0) :
    fDiv m a b = .plain true (fMaxOf (fSign a != fSign b)) := by
  obtain ⟨nullB, sizeB⟩ := fNull_of hb
  have inv : (fpSpecial a || fpSpecial b || (fZero a && fZero b)) = true := by
    by_cases fracB : fpF b = 0
    · by_cases fracA : fpF a = 0
      · obtain zeroA | ⟨-, nonzero⟩ := h
        · rw [fZero_iff.mpr ⟨zeroA, fracA⟩, fZero_iff.mpr ⟨hb, fracB⟩, Bool.and_self, Bool.or_true]
        · exact absurd fracB nonzero
      · have specialA : fpSpecial a = true := by
          obtain zeroA | ⟨-, nonzero⟩ := h
          · exact decide_eq_true (.inr ⟨zeroA, fracA⟩)
          · exact absurd fracB nonzero
        rw [specialA, Bool.true_or, Bool.true_or]
    · have specialB : fpSpecial b = true := decide_eq_true (.inr ⟨hb, fracB⟩)
      rw [specialB, Bool.or_true, Bool.true_or]
  simp [fDiv, fSpecial_eq, nullB, sizeB, inv, FpOut.plain]

theorem fDiv_null_left (ha : fpE a = 0) (hb : fpNorm b) :
    fDiv m a b = .plain (fpSpecial a) (fZeroOf (fSign a != fSign b)) := by
  obtain ⟨nullB, sizeB, specialB⟩ := fNorm_of hb
  obtain ⟨nullA, sizeA⟩ := fNull_of ha
  have zeroB : fZero b = false := Bool.eq_false_iff.mpr fun h => absurd (fZero_iff.mp h).1 (by have := hb.1; omega)
  simp [fDiv, fSpecial_eq, nullA, sizeA, nullB, sizeB, specialB, zeroB]

/-- The quotient of the significands with 32 more digits. -/
theorem quotient_approximates (n k : Nat) (some : k ≠ 0) : Approximates (n / k) (n % k != 0) ((n : ℝ) / k) := by
  have pos : (0 : ℝ) < k := by exact_mod_cast Nat.pos_of_ne_zero some
  have divided : (n : ℝ) = k * (n / k : ℕ) + (n % k : ℕ) := by exact_mod_cast (Nat.div_add_mod n k).symm
  have below : ((n % k : ℕ) : ℝ) < k := by exact_mod_cast Nat.mod_lt n (Nat.pos_of_ne_zero some)
  by_cases rest : n % k = 0
  · rw [rest]
    change (n : ℝ) / k = (n / k : ℕ)
    rw [rest, Nat.cast_zero, add_zero] at divided
    rw [div_eq_iff pos.ne', divided, mul_comm]
  · have more : (n % k != 0) = true := bne_iff_ne.mpr rest
    have some : (0 : ℝ) < (n % k : ℕ) := by exact_mod_cast Nat.pos_of_ne_zero rest
    rw [more]
    exact ⟨by rw [lt_div_iff₀ pos]; linarith, by rw [div_lt_iff₀ pos]; linarith⟩

theorem fDiv_norm (ha : fpNorm a) (hb : fpNorm b) :
    FpSingle m (fpValue a / fpValue b) (fZeroOf (fSign a != fSign b)) (fDiv m a b) := by
  obtain ⟨nullA, sizeA, -⟩ := fNorm_of ha
  obtain ⟨nullB, sizeB, -⟩ := fNorm_of hb
  have quotient : fDiv m a b = fCalc m (fSign a != fSign b) (fSign a != fSign b) (fSign a != fSign b)
      (fSig a * 2 ^ 32 / fSig b) (fPow a - fPow b - 32) (fSig a * 2 ^ 32 % fSig b != 0) := by
    simp only [fDiv, nullA, sizeA, nullB, sizeB, Bool.or_self, Bool.false_eq_true, if_false]
  obtain ⟨lowA, highA⟩ := fSig_bounds a
  obtain ⟨lowB, highB⟩ := fSig_bounds b
  have large : 2 ^ 31 ≤ fSig a * 2 ^ 32 / fSig b := by
    rw [Nat.le_div_iff_mul_le (by omega)]
    omega
  have value : fpValue a / fpValue b = signedReal (fSign a != fSign b)
      (((fSig a * 2 ^ 32 : ℕ) : ℝ) / fSig b * 2 ^ (fPow a - fPow b - 32)) := by
    have powers : (2 : ℝ) ^ 32 * 2 ^ (fPow a - fPow b - 32) = 2 ^ fPow a / 2 ^ fPow b := by
      rw [← zpow_natCast, ← zpow_add₀ two_ne_zero, ← zpow_sub₀ two_ne_zero]
      congr 1
      omega
    rw [fpValue_eq, fpValue_eq, signedReal_div_signedReal, mul_div_mul_comm, ← powers]
    congr 1
    push_cast
    ring
  rw [quotient, value]
  refine fCalc_spec (quotient_approximates _ _ (fSig_ne b)) (by omega) (fun _ => ?_) m _ _ _ _
  exact lt_of_lt_of_le (by decide) ((Nat.le_log2 (by omega)).mpr large)

/-! Square root. -/

theorem fSqrt_null (ha : fpE a = 0) : fSqrt m a = .plain (fpSpecial a) (fZeroOf (fSign a)) := by
  obtain ⟨null, size⟩ := fNull_of ha
  have inv : (fpSpecial a || (fSign a && !fZero a)) = fpSpecial a := by
    by_cases frac : fpF a = 0
    · rw [fZero_iff.mpr ⟨ha, frac⟩, Bool.not_true, Bool.and_false, Bool.or_false]
    · have special : fpSpecial a = true := decide_eq_true (.inr ⟨ha, frac⟩)
      rw [special, Bool.true_or]
  simp only [fSqrt, fSpecial_eq, inv, null, if_true]

theorem fSqrt_huge (ha : fpE a = 255) (sign : fSign a = false) : fSqrt m a = .plain true (fMaxOf false) := by
  obtain ⟨null, huge, special⟩ := fHuge_of ha
  simp [fSqrt, fSpecial_eq, null, huge, special, sign]

theorem fSqrt_negative (ha : fpE a ≠ 0) (sign : fSign a = true) : fSqrt m a = .plain true (fZeroOf true) := by
  have null : fNull a = false := Bool.eq_false_iff.mpr (mt fNull_iff.mp ha)
  have zero : fZero a = false := Bool.eq_false_iff.mpr fun h => ha (fZero_iff.mp h).1
  simp [fSqrt, null, zero, sign]

/-- The digits found are those of the root. -/
theorem rootFrom_spec (n : Nat) {k r : Nat} (low : r * r ≤ n) (high : n < (r + 2 ^ k) * (r + 2 ^ k)) :
    rootFrom n k r * rootFrom n k r ≤ n ∧ n < (rootFrom n k r + 1) * (rootFrom n k r + 1) := by
  induction k generalizing r with
  | zero => exact ⟨low, high⟩
  | succ k ih =>
    rw [rootFrom]
    split
    case isTrue fits => exact ih fits (by rwa [add_assoc, ← two_mul, ← pow_succ'])
    case isFalse large => exact ih low (not_le.mp large)

theorem root_approximates {n r : Nat} (low : r * r ≤ n) (high : n < (r + 1) * (r + 1)) :
    Approximates r (r * r != n) (√(n : ℝ)) := by
  by_cases exact : r * r = n
  · have square : √(n : ℝ) = r := by rw [← exact, Nat.cast_mul, Real.sqrt_mul_self (Nat.cast_nonneg r)]
    simpa [Approximates, exact] using square
  · have below : r * r < n := lt_of_le_of_ne low exact
    have more : (r * r != n) = true := bne_iff_ne.mpr exact
    rw [more]
    refine ⟨Real.lt_sqrt_of_sq_lt ?_, (Real.sqrt_lt' (by positivity)).mpr ?_⟩
    · rw [sq]
      exact_mod_cast below
    · rw [sq]
      exact_mod_cast high

theorem fSqrt_norm (ha : fpNorm a) (sign : fSign a = false) :
    FpSingle m (√(fpValue a)) (fZeroOf (isRM m)) (fSqrt m a) := by
  obtain ⟨null, huge, -⟩ := fNorm_of ha
  obtain ⟨k, chosen⟩ : ∃ k : ℕ, k = if fPow a % 2 = 0 then 30 else 31 := ⟨_, rfl⟩
  obtain ⟨e, power⟩ : ∃ e : ℤ, fPow a = 2 * e + k := ⟨(fPow a - k) / 2, by split at chosen <;> omega⟩
  have small : 30 ≤ k ∧ k ≤ 31 := by split at chosen <;> omega
  obtain ⟨n, radicand⟩ : ∃ n, n = fSig a * 2 ^ k := ⟨_, rfl⟩
  obtain ⟨low, high⟩ := fSig_bounds a
  have lowN : 2 ^ 53 ≤ n := by
    rw [radicand]
    exact (Nat.mul_le_mul low (Nat.pow_le_pow_right two_pos small.1) : 2 ^ 23 * 2 ^ 30 ≤ _)
  have highN : n < 2 ^ 55 := by
    rw [radicand]
    exact (Nat.mul_lt_mul_of_lt_of_le high (Nat.pow_le_pow_right two_pos small.2) (by positivity) : _ < 2 ^ 24 * 2 ^ 31)
  obtain ⟨below, above⟩ := rootFrom_spec n (k := 28) (r := 0) (by omega) (by omega)
  have root : fSqrt m a = fCalc m (isRM m) (isRM m) false (rootFrom n 28 0) e (rootFrom n 28 0 * rootFrom n 28 0 != n) := by
    have half : (fPow a - k) / 2 = e := by omega
    simp only [fSqrt, null, huge, sign, Bool.false_eq_true, if_false, Bool.and_false, ← chosen, ← radicand, half]
  generalize rootFrom n 28 0 = r at below above root
  have large : 2 ^ 24 ≤ r := by
    by_contra small
    have : (r + 1) * (r + 1) ≤ 2 ^ 24 * 2 ^ 24 := Nat.mul_le_mul (by omega) (by omega)
    omega
  have value : √(fpValue a) = signedReal false (√(n : ℝ) * 2 ^ e) := by
    have square : fpValue a = n * (2 ^ e * 2 ^ e) := by
      rw [fpValue_eq, sign, power, radicand, ← zpow_add₀ two_ne_zero, ← two_mul, zpow_add₀ two_ne_zero, zpow_natCast]
      simp only [signedReal, Bool.false_eq_true, if_false]
      push_cast
      ring
    rw [square, Real.sqrt_mul (Nat.cast_nonneg n), Real.sqrt_mul_self (by positivity)]
    rfl
  rw [root, value]
  exact fCalc_spec (root_approximates below above) (by omega)
    (fun _ => lt_of_lt_of_le (by decide) ((Nat.le_log2 (by omega)).mpr large)) m _ _ _ _

end

/-! Multiply-add. -/

/-- The operand that goes into the sum: `d`, or `d` negated. -/
def addend (sub : Bool) (d : Word) : Word := if sub then d ^^^ 0x80000000#32 else d

section
variable (sub : Bool) (d : Word)

theorem fSign_addend : fSign (addend sub d) = (fSign d != sub) := by
  cases sub
  · exact (Bool.bne_false _).symm
  · exact fSign_xor d _

theorem fExp_addend : fpE (addend sub d) = fpE d := by
  have same : (d ^^^ 0x80000000#32).extractLsb' 23 8 = d.extractLsb' 23 8 := by
    rw [BitVec.extractLsb'_xor, (by decide : (0x80000000#32).extractLsb' 23 8 = 0#8), BitVec.xor_zero]
  cases sub
  · rfl
  · exact congrArg BitVec.toNat same

theorem fFrac_addend : fpF (addend sub d) = fpF d := by
  have same : (d ^^^ 0x80000000#32).extractLsb' 0 23 = d.extractLsb' 0 23 := by
    rw [BitVec.extractLsb'_xor, (by decide : (0x80000000#32).extractLsb' 0 23 = 0#23), BitVec.xor_zero]
  cases sub
  · rfl
  · exact congrArg BitVec.toNat same

theorem xor_and_distrib {w : Nat} (x y z : BitVec w) : (x ^^^ y) &&& z = (x &&& z) ^^^ (y &&& z) :=
  BitVec.eq_of_getElem_eq fun i h => by simp [Bool.and_xor_distrib_right]

/-- A word is its sign bit and the others. -/
theorem withSign_self (v : Word) : withSign (fSign v) (v &&& 0x7FFFFFFF#32) = v := by
  have parts : withSign (fSign v) (v &&& 0x7FFFFFFF#32) = fZeroOf (fSign v) ||| v &&& 0x7FFFFFFF#32 := by
    cases fSign v <;> simp [fZeroOf, withSign]
  rw [parts, ← and_sign, ← BitVec.and_or_distrib_left, (by decide : 0x80000000#32 ||| 0x7FFFFFFF#32 = BitVec.allOnes 32),
    BitVec.and_allOnes]

theorem addend_eq : addend sub d = withSign (fSign d != sub) (d &&& 0x7FFFFFFF#32) := by
  have rest : addend sub d &&& 0x7FFFFFFF#32 = d &&& 0x7FFFFFFF#32 := by
    cases sub
    · rfl
    · change (d ^^^ 0x80000000#32) &&& 0x7FFFFFFF#32 = _
      have none : 0x80000000#32 &&& 0x7FFFFFFF#32 = 0#32 := by decide
      rw [xor_and_distrib, none, BitVec.xor_zero]
  rw [← fSign_addend, ← rest, withSign_self]

theorem addend_value : fpValue (addend sub d) = (signed (fSign d != sub) (fSig d) : ℤ) * 2 ^ fPow d := by
  have sig : fSig (addend sub d) = fSig d := congrArg (2 ^ 23 + ·) (fFrac_addend sub d)
  have pow : fPow (addend sub d) = fPow d := congrArg (fun n : ℕ => (n : ℤ) - 150) (fExp_addend sub d)
  rw [fpValue_signed, fSign_addend, sig, pow]

end

section
variable (m : BitVec 2) (inv sd : Bool) {a b d : Word}

theorem fMAddSum_huge_product (ha : fpE a ≠ 0) (hb : fpE b ≠ 0) (h : fpE a = 255 ∨ fpE b = 255) :
    fMAddSum m inv sd a b d = .plain inv (fMaxOf (fSign a != fSign b)) := by
  have null : (fNull a || fNull b) = false :=
    Bool.or_eq_false_iff.mpr ⟨Bool.eq_false_iff.mpr (mt fNull_iff.mp ha), Bool.eq_false_iff.mpr (mt fNull_iff.mp hb)⟩
  have huge : (fHuge a || fHuge b) = true := Bool.or_eq_true_iff.mpr (h.imp fHuge_iff.mpr fHuge_iff.mpr)
  simp only [fMAddSum, null, huge, Bool.not_false, Bool.and_self, if_true]

/-- The product is no infinity and no NaN. -/
theorem product_not_huge (h : fpE a = 0 ∨ fpE b = 0 ∨ fpNorm a ∧ fpNorm b) :
    (!(fNull a || fNull b) && (fHuge a || fHuge b)) = false := by
  rcases h with ha | hb | ⟨ha, hb⟩
  · rw [(fNull_of ha).1, Bool.true_or, Bool.not_true, Bool.false_and]
  · rw [(fNull_of hb).1, Bool.or_true, Bool.not_true, Bool.false_and]
  · rw [(fNorm_of ha).2.1, (fNorm_of hb).2.1, Bool.or_self, Bool.and_false]

theorem fMAddSum_huge (h : fpE a = 0 ∨ fpE b = 0 ∨ fpNorm a ∧ fpNorm b) (hd : fpE d = 255) :
    fMAddSum m inv sd a b d = .plain inv (fMaxOf sd) := by
  simp only [fMAddSum, product_not_huge h, (fHuge_of hd).2.1, Bool.false_eq_true, if_false, if_true]

theorem fMAddSum_null (h : fpE a = 0 ∨ fpE b = 0) (hd : fpE d = 0) : fMAddSum m inv sd a b d =
    .plain inv (if (fSign a != fSign b) = sd then fZeroOf (fSign a != fSign b) else fZeroOf (isRM m)) := by
  have null : (fNull a || fNull b) = true := Bool.or_eq_true_iff.mpr (h.imp fNull_iff.mpr fNull_iff.mpr)
  obtain ⟨nullD, sizeD⟩ := fNull_of hd
  simp only [fMAddSum, null, nullD, sizeD, Bool.not_true, Bool.false_and, Bool.and_self, Bool.false_eq_true, if_false, if_true,
    beq_iff_eq]

theorem fMAddSum_null_product (h : fpE a = 0 ∨ fpE b = 0) (hd : fpNorm d) :
    fMAddSum m inv sd a b d = .plain inv (withSign sd (d &&& 0x7FFFFFFF#32)) := by
  have null : (fNull a || fNull b) = true := Bool.or_eq_true_iff.mpr (h.imp fNull_iff.mpr fNull_iff.mpr)
  obtain ⟨nullD, sizeD, -⟩ := fNorm_of hd
  simp only [fMAddSum, null, nullD, sizeD, Bool.not_true, Bool.false_and, Bool.true_and, Bool.false_eq_true, if_false, if_true]

/-- The sum of a product of normalized numbers and `d`, rounded once. -/
theorem fMAddSum_norm (ha : fpNorm a) (hb : fpNorm b) (hd : fpE d ≠ 255) {r : ℝ}
    (value : r = fpValue a * fpValue b + if fpE d = 0 then 0 else ((signed sd (fSig d) : ℤ) : ℝ) * 2 ^ fPow d) :
    ∃ q, fMAddSum m inv sd a b d = { q with inv := inv } ∧ q.inv = false ∧
      (r = 0 → q = .plain false (fZeroOf (isRM m))) ∧ (r ≠ 0 → FpSingle m r (fZeroOf (isRM m)) q) := by
  obtain ⟨nullA, sizeA, -⟩ := fNorm_of ha
  obtain ⟨nullB, sizeB, -⟩ := fNorm_of hb
  have sizeD : fHuge d = false := Bool.eq_false_iff.mpr (mt fHuge_iff.mp hd)
  obtain ⟨zero, nonzero⟩ := calcSum_spec m (r := exactSum (signed (fSign a != fSign b) (fSig a * fSig b)) (fPow a + fPow b)
    (if fNull d then 0 else signed sd (fSig d)) (if fNull d then fPow a + fPow b else fPow d)) (y := r) (by
      rw [exactSum_value, value, fpValue_mul, signedReal_mul, cast_signed]
      congr 1
      by_cases null : fpE d = 0
      · simp [null, (fNull_of null).1]
      · simp [null, Bool.eq_false_iff.mpr (mt fNull_iff.mp null)])
  refine ⟨_, by simp only [fMAddSum, nullA, nullB, sizeA, sizeB, sizeD, Bool.or_self, Bool.not_false, Bool.and_false,
    Bool.false_and, Bool.false_eq_true, if_false], ?_, zero, nonzero⟩
  by_cases none : r = 0
  · rw [zero none]
    rfl
  · exact (nonzero none).1

end

/-- `FMAdd` but for the negation. -/
theorem fMAdd_unnegated (m : BitVec 2) (k : MaddKind) (a b d : Word) :
    (if k.neg then (fMAdd m k a b d).map (· ^^^ 0x80000000#32) else fMAdd m k a b d) =
      (fMAddSum m (fpSpecial a || fpSpecial b || fpSpecial d) (fSign d != k.sub) a b d).quietInv := by
  have twice (o : FpOut) : (o.map (· ^^^ 0x80000000#32)).map (· ^^^ 0x80000000#32) = o := by
    have back (w : Word) : w ^^^ 0x80000000#32 ^^^ 0x80000000#32 = w := by
      rw [BitVec.xor_assoc, BitVec.xor_self, BitVec.xor_zero]
    simp [FpOut.map, Function.comp_def, back]
  simp only [fMAdd, fSpecial_eq]
  split
  · exact twice _
  · rfl

/-- An outcome that only reports an invalid operation is not made quieter. -/
theorem quietInv_plain (inv : Bool) (r : Word) : (FpOut.plain inv r).quietInv = FpOut.plain inv r := by cases inv <;> rfl

/-! Minimum and maximum. -/

/-- The order of elements, with -0 below +0. -/
def totalKey (v : Word) : Int := if v.msb then -1 - (v.extractLsb' 0 31).toNat else (v.extractLsb' 0 31).toNat

theorem fLtTotal_eq (a b : Word) : fLtTotal a b = decide (totalKey a < totalKey b) := by
  have magnitude (v : Word) : (v.extractLsb' 0 31).toNat = v.toNat % 2 ^ 31 := BitVec.extractLsb'_toNat 0 31 v
  have sign (v : Word) : v.getLsbD 31 = decide (2 ^ 31 ≤ v.toNat) := BitVec.msb_eq_decide v
  have range (v : Word) : v.toNat < 2 ^ 32 := v.isLt
  have rangeA := range a
  have rangeB := range b
  rw [Bool.eq_iff_iff]
  simp only [fLtTotal, fLt, fKey_eq, totalKey, BitVec.msb_eq_getLsbD_last, magnitude, sign, Bool.or_eq_true,
    Bool.and_eq_true, decide_eq_true_eq, beq_eq_toNat]
  by_cases negA : 2 ^ 31 ≤ a.toNat <;> by_cases negB : 2 ^ 31 ≤ b.toNat <;>
    simp only [negA, negB, if_true, if_false] <;> simp only [BitVec.toNat_ofNat] <;> omega

theorem fNan_eq (v : Word) : fNan v = fpNan v := by
  change (fExp v == 255 && fFrac v != 0) = decide (fExp v = 255 ∧ fFrac v ≠ 0)
  rw [Bool.decide_and, decide_not, beq_eq_decide, bne, beq_eq_decide]

theorem eq_zero_of {v : Word} (zero : fpE v = 0) (frac : fpF v = 0) : v = fZeroOf (fSign v) := by
  have magnitude : v &&& 0x7FFFFFFF#32 = 0#32 := by
    apply BitVec.eq_of_toNat_eq
    rw [BitVec.toNat_and]
    refine (Nat.and_two_pow_sub_one_eq_mod v.toNat 31).trans ?_
    rw [fpE, BitVec.extractLsb'_toNat, Nat.shiftRight_eq_div_pow] at zero
    rw [fpF, BitVec.extractLsb'_toNat, Nat.shiftRight_zero] at frac
    rw [BitVec.toNat_ofNat]
    omega
  conv_lhs => rw [← withSign_self v, magnitude]
  rfl

/-- A denormalized number or an infinity or a NaN is replaced by the zero or the largest number of its sign. -/
theorem replaced_eq (t : Word) : (if fDenorm t then fZeroOf (fSign t) else if fHuge t then fMaxOf (fSign t) else t) =
    if fpE t = 0 then fZeroOf (fSign t) else if fpE t = 255 then fMaxOf (fSign t) else t := by
  by_cases zero : fpE t = 0
  · rw [if_pos zero]
    obtain ⟨null, size⟩ := fNull_of zero
    by_cases frac : fpF t = 0
    · rw [size, if_neg Bool.false_ne_true, ← eq_zero_of zero frac, ite_self]
    · exact if_pos (Bool.and_eq_true_iff.mpr ⟨null, bne_iff_ne.mpr frac⟩)
  · have normal : fDenorm t = false := Bool.and_eq_false_iff.mpr (.inl (Bool.eq_false_iff.mpr (mt fNull_iff.mp zero)))
    rw [normal, if_neg Bool.false_ne_true, if_neg zero]
    exact if_congr fHuge_iff rfl rfl

theorem fMinMax_eq (big : Bool) (a b : Word) :
    fMinMax big a b =
      let t := if fpNan a && !fpNan b then b else if fpNan b && !fpNan a then a
        else if decide (totalKey a < totalKey b) = big then b else a
      .plain (fpSpecial a || fpSpecial b)
        (if fpE t = 0 then fZeroOf (fSign t) else if fpE t = 255 then fMaxOf (fSign t) else t) := by
  simp only [fMinMax, fSpecial_eq, fNan_eq, fLtTotal_eq, beq_iff_eq, replaced_eq]

/-- The multiply-adds, `c` the operand that is added. -/
theorem fMAdd_spec (m : BitVec 2) (k : MaddKind) (a b d : Word) :
    let c := if k.sub then d ^^^ 0x80000000#32 else d
    let o := if k.neg then (fMAdd m k a b d).map (· ^^^ 0x80000000#32) else fMAdd m k a b d
    let sp := fSign a != fSign b
    let inv := fpSpecial a || fpSpecial b || fpSpecial d
    let r := fpValue a * fpValue b + (if fpE d = 0 then 0 else fpValue c)
    (fpE a ≠ 0 → fpE b ≠ 0 → fpE a = 255 ∨ fpE b = 255 → o = .plain true (fMaxOf sp)) ∧
      (fpE a = 0 ∨ fpE b = 0 ∨ fpNorm a ∧ fpNorm b → fpE d = 255 → o = .plain true (fMaxOf (fSign c))) ∧
      (fpE a = 0 ∨ fpE b = 0 → fpE d = 0 →
        o = .plain inv (if fZeroOf sp = fZeroOf (fSign c) then fZeroOf sp else fZeroOf (isRM m))) ∧
      (fpE a = 0 ∨ fpE b = 0 → fpNorm d → o = .plain inv c) ∧
      (fpNorm a → fpNorm b → fpNorm d ∨ fpE d = 0 ∧ fpF d = 0 → r = 0 → o = .plain false (fZeroOf (isRM m))) ∧
      (fpNorm a → fpNorm b → fpNorm d ∨ fpE d = 0 ∧ fpF d = 0 → r ≠ 0 → FpSingle m r (fZeroOf (isRM m)) o) ∧
      (fpNorm a → fpNorm b → fpE d = 0 → fpF d ≠ 0 → ∃ q, FpSingle m r (fZeroOf (isRM m)) q ∧ o = .plain true q.result) := by
  intro c o sp inv r
  have sign : fSign c = (fSign d != k.sub) := fSign_addend k.sub d
  have sum : o = (fMAddSum m inv (fSign c) a b d).quietInv := by rw [sign]; exact fMAdd_unnegated m k a b d
  have plain {i : Bool} {w : Word} (h : fMAddSum m inv (fSign c) a b d = .plain i w) : o = .plain i w := by
    rw [sum, h, quietInv_plain]
  have value : r = fpValue a * fpValue b + if fpE d = 0 then 0 else ((signed (fSign c) (fSig d) : ℤ) : ℝ) * 2 ^ fPow d := by
    rw [sign, ← addend_value]
    rfl
  have special (h : fpE a = 255 ∨ fpE b = 255 ∨ fpE d = 255) : inv = true := by
    rcases h with h | h | h <;> simp [inv, (fHuge_of h).2.2]
  have valid (ha : fpNorm a) (hb : fpNorm b) (hd : fpNorm d ∨ fpE d = 0 ∧ fpF d = 0) : inv = false ∧ fpE d ≠ 255 := by
    have quiet : fpSpecial d = false ∧ fpE d ≠ 255 := by
      rcases hd with ⟨low, high⟩ | ⟨zero, frac⟩
      · exact ⟨decide_eq_false (by omega), by omega⟩
      · exact ⟨decide_eq_false (by omega), by omega⟩
    exact ⟨by simp [inv, (fNorm_of ha).2.2, (fNorm_of hb).2.2, quiet.1], quiet.2⟩
  have exact (ha : fpNorm a) (hb : fpNorm b) (hd : fpNorm d ∨ fpE d = 0 ∧ fpF d = 0) :
      (r = 0 → o = .plain false (fZeroOf (isRM m))) ∧ (r ≠ 0 → FpSingle m r (fZeroOf (isRM m)) o) := by
    obtain ⟨notInv, finite⟩ := valid ha hb hd
    obtain ⟨q, is, quiet, spec⟩ := fMAddSum_norm m inv (fSign c) ha hb finite value
    have same : o = q := by
      have kept : { q with inv := inv } = q := by rw [notInv, ← quiet]
      rw [sum, is, kept, FpOut.quietInv, quiet]
      rfl
    rw [same]
    exact spec
  refine ⟨fun ha hb h => ?_, fun h hd => ?_, fun h hd => ?_, fun h hd => ?_, fun ha hb hd => (exact ha hb hd).1,
    fun ha hb hd => (exact ha hb hd).2, fun ha hb hd frac => ?_⟩
  · rw [← special (h.imp_right .inl)]
    exact plain (fMAddSum_huge_product m inv (fSign c) ha hb h)
  · rw [← special (.inr (.inr hd))]
    exact plain (fMAddSum_huge m inv (fSign c) h hd)
  · simp only [fZeroOf_inj]
    exact plain (fMAddSum_null m inv (fSign c) h hd)
  · have word : c = withSign (fSign c) (d &&& 0x7FFFFFFF#32) := by rw [sign]; exact addend_eq k.sub d
    exact (plain (fMAddSum_null_product m inv (fSign c) h hd)).trans (congrArg _ word.symm)
  · have isInv : inv = true := by simp [inv, show fpSpecial d = true from decide_eq_true (.inr ⟨hd, frac⟩)]
    obtain ⟨q, is, -, -, spec⟩ := fMAddSum_norm m inv (fSign c) ha hb (by omega) value
    refine ⟨q, spec ?_, ?_⟩
    · rw [value, if_pos hd, add_zero]
      exact mul_ne_zero (fpValue_ne a) (fpValue_ne b)
    · rw [sum, is, isInv]
      rfl

/-- Settles O54: each operation on numbers is `Calc` of the exact result (`fCalc_spec`), the others are the default results. -/
theorem fpArithmetic : Obligations.FpArithmetic := by
  intro m a b d
  have same : (if fZeroOf (fSign a != fSign b) = 0#32 then fZeroOf (fSign a) else fZeroOf (isRM m)) =
      if fSign a = fSign b then fZeroOf (fSign a) else fZeroOf (isRM m) := by
    have agree : fZeroOf (fSign a != fSign b) = 0#32 ↔ fSign a = fSign b := by
      rw [← bne_eq_false_iff_eq (a := fSign a)]
      exact fZeroOf_inj _ false
    exact if_congr agree rfl rfl
  simp only [and_sign, fSign_xor, fZeroOf_or_top, zeroSign_eq, same]
  refine ⟨⟨fAdd_huge_left m, fAdd_huge_right m, fAdd_null m, fAdd_null_right m, fAdd_null_left m,
      fun ha hb => (fAdd_norm m ha hb).1, fun ha hb => (fAdd_norm m ha hb).2⟩,
    ⟨fMul_null m, fMul_huge m, fMul_norm m⟩,
    ⟨fDiv_huge_right m, fDiv_huge_left m, fDiv_zero m, fDiv_invalid m, fDiv_null_left m, fDiv_norm m⟩,
    ⟨fSqrt_null m, fSqrt_huge m, fSqrt_negative m, fSqrt_norm m⟩, ?_, fun big => fMinMax_eq big a b⟩
  simp only [List.forall_mem_cons, List.not_mem_nil, IsEmpty.forall_iff, implies_true, and_true]
  exact ⟨fMAdd_spec m .madd a b d, fMAdd_spec m .msub a b d, fMAdd_spec m .nmadd a b d, fMAdd_spec m .nmsub a b d⟩

end Sys2Proof.Machine
end

section
/-! PROOF. What the floating-point conversions compute (O55). -/

namespace Sys2Proof.Machine

/-! Numbers of integers and fractions. -/

theorem fCvtFrom_signed (m : BitVec 2) (b : Word) (e : ℤ) {y : ℝ} (value : (b.toInt : ℝ) * 2 ^ e = y) :
    (b = 0#32 → fCalc m false false b.msb b.toInt.natAbs e false = .plain false 0#32) ∧
      (b ≠ 0#32 → FpSingle m y 0#32 (fCalc m false false b.msb b.toInt.natAbs e false)) := by
  obtain ⟨zero, nonzero⟩ := fCalc_integer m false false value
  rw [← BitVec.msb_eq_toInt] at zero nonzero
  have none : y = 0 ↔ b = 0#32 := by
    rw [← value, mul_eq_zero_iff_right (zpow_ne_zero _ two_ne_zero), Int.cast_eq_zero, ← BitVec.toInt_inj]
    rfl
  exact ⟨fun h => zero (none.mpr h), fun h => nonzero (mt none.mp h)⟩

theorem fCvtFrom_unsigned (m : BitVec 2) (b : Word) (e : ℤ) {y : ℝ} (value : (b.toNat : ℝ) * 2 ^ e = y) :
    (b = 0#32 → fCalc m false false false b.toNat e false = .plain false 0#32) ∧
      (b ≠ 0#32 → FpSingle m y 0#32 (fCalc m false false false b.toNat e false)) := by
  obtain ⟨zero, nonzero⟩ := fCalc_integer m false false (n := b.toNat) (e := e) (y := y) (by exact_mod_cast value)
  rw [decide_eq_false (by omega)] at zero nonzero
  have none : y = 0 ↔ b = 0#32 := by
    rw [← value, mul_eq_zero_iff_right (zpow_ne_zero _ two_ne_zero), Nat.cast_eq_zero, ← BitVec.toNat_inj]
    rfl
  exact ⟨fun h => zero (none.mpr h), fun h => nonzero (mt none.mp h)⟩

/-! Integers and fractions of numbers. -/

/-- Rounding to an integer. -/
theorem toInteger_spec (m : BitVec 2) (b : Word) (e : ℤ) :
    FpInteger m (signedReal (fSign b) (fSig b * 2 ^ e)) (toInteger m b e) := by
  have cutOff := cut_truncates (m := fSig b * 2 ^ e.toNat) (k := (-e).toNat) (st := false) rfl nofun
  have scaled := cutOff.scale (w := 2 ^ (-((-e).toNat : ℤ))) (by positivity)
  have unit : (2 : ℝ) ^ (-e).toNat * 2 ^ (-((-e).toNat : ℤ)) = 1 := by
    rw [← zpow_natCast, ← zpow_add₀ two_ne_zero, add_neg_cancel, zpow_zero]
  have value : ((fSig b * 2 ^ e.toNat : ℕ) : ℝ) * 2 ^ (-((-e).toNat : ℤ)) = fSig b * 2 ^ e := by
    push_cast
    rw [mul_assoc, ← zpow_natCast, ← zpow_add₀ two_ne_zero]
    congr 2
    omega
  rw [unit, value] at scaled
  have discards := scaled.discards (fSign b) (o := toInteger m b e) rfl rfl
  rw [mul_one] at discards
  exact ⟨rfl, rfl, rfl, rfl, _, _, scaled.rounded m (fSign b), scaled.truncated (fSign b), discards, rfl, rfl⟩

theorem scaled_value {sc : ℤ} {c : ℝ} (scale : c = 2 ^ sc) (b : Word) :
    fpValue b * c = signedReal (fSign b) (fSig b * 2 ^ (fPow b + sc)) := by
  rw [fpValue_eq, scale, ← signedReal_mul, mul_assoc, zpow_add₀ two_ne_zero]

theorem fSig_binade (b : Word) (e : ℤ) : (2 : ℝ) ^ (e + 23) ≤ fSig b * 2 ^ e ∧ fSig b * 2 ^ e < (2 : ℝ) ^ (e + 23 + 1) := by
  obtain ⟨first, full⟩ := fSig_bounds b
  have binade := digits_binade (p := 24) (e := e + 23) (by decide) first full
  have unit : e + 23 - ((24 - 1 : ℕ) : ℤ) = e := by omega
  rwa [unit] at binade

/-- Where the magnitude is below a power of two. -/
theorem magnitude_lt_iff (b : Word) (e : ℤ) (k : ℕ) : fSig b * 2 ^ e < (2 : ℝ) ^ k ↔ e + 23 < k := by
  obtain ⟨low, high⟩ := fSig_binade b e
  rw [← zpow_natCast, binade_lt_iff low high]

theorem magnitude_pos (b : Word) (e : ℤ) : (0 : ℝ) < fSig b * 2 ^ e :=
  mul_pos (by exact_mod_cast Nat.pos_of_ne_zero (fSig_ne b)) (by positivity)

/-- The magnitude of the least number of a signed range. -/
theorem magnitude_eq_iff {b : Word} {e : ℤ} : fSig b * 2 ^ e = (2 : ℝ) ^ 31 ↔ e = 8 ∧ fFrac b = 0 := by
  constructor
  · intro same
    have power : e = 8 := by
      have notLess := mt (magnitude_lt_iff b e 31).mpr same.not_lt
      have less := (magnitude_lt_iff b e 32).mp (by rw [same]; norm_num)
      omega
    rw [power] at same
    have sig : fSig b = 2 ^ 23 := by
      have : (fSig b : ℝ) * 2 ^ (8 : ℕ) = 2 ^ 23 * 2 ^ 8 := by rw [← zpow_natCast]; exact same.trans (by norm_num)
      exact_mod_cast mul_right_cancel₀ (by norm_num) this
    exact ⟨power, by rw [fSig] at sig; omega⟩
  · rintro ⟨rfl, frac⟩
    rw [fSig, frac]
    norm_num

theorem fDenorm_of {b : Word} (zero : fpE b = 0) : fDenorm b = fpSpecial b := by
  rw [← fSpecial_eq, fSpecial, fInf, fNan]
  have finite : (fExp b == 255) = false := (fNull_of zero).2
  rw [finite, Bool.false_and, Bool.false_and, Bool.false_or, Bool.false_or]

theorem fNan_of_norm {b : Word} (norm : fpNorm b) : fNan b = false := by
  have finite : (fExp b == 255) = false := (fNorm_of norm).2.1
  rw [fNan, finite, Bool.false_and]

theorem fNan_of_infinite {b : Word} (frac : fpF b = 0) : fNan b = false :=
  Bool.and_eq_false_iff.mpr (.inr (bne_eq_false_iff_eq.mpr frac))

/-- Beyond the range of a signed kind. -/
theorem fToSigned_beyond (m : BitVec 2) {b : Word} {lim : ℕ} {sc : ℤ} (some : fpE b ≠ 0) (large : lim ≤ fpE b)
    (notLeast : ¬ (fpE b = lim ∧ fSign b = true ∧ fpF b = 0)) (number : fNan b = false) :
    fToSigned m lim sc b = .plain true (if fSign b then 0x80000000#32 else 0x7FFFFFFF#32) := by
  have notNull : fNull b = false := Bool.eq_false_iff.mpr (mt fNull_iff.mp some)
  have outside : ¬ fExp b < lim := not_lt.mpr large
  have other : (fExp b == lim && fSign b && fFrac b == 0) = false := by
    rw [Bool.eq_false_iff]
    simp only [ne_eq, Bool.and_eq_true, beq_iff_eq, and_assoc]
    exact notLeast
  simp only [fToSigned, notNull, outside, other, number, Bool.false_eq_true, if_false]

section
variable {b : Word} {sc : ℤ} {c : ℝ} {lim : ℕ} (scale : c = 2 ^ sc)
include scale

theorem scaled_abs (b : Word) : |fpValue b * c| = fSig b * 2 ^ (fPow b + sc) := by
  rw [scaled_value scale, abs_signedReal, abs_of_pos (magnitude_pos b _)]

theorem scaled_neg_iff (b : Word) : fpValue b * c < 0 ↔ fSign b = true := by
  rw [scaled_value scale, signedReal_neg_iff (magnitude_pos b _)]

section
variable (limit : (lim : ℤ) + sc = 158)
include limit

theorem signed_range : |fpValue b * c| < 2 ^ 31 ↔ fpE b < lim := by
  rw [scaled_abs scale, magnitude_lt_iff]
  change (fExp b : ℤ) - 150 + sc + 23 < 31 ↔ fExp b < lim
  omega

theorem signed_edge : |fpValue b * c| = 2 ^ 31 ↔ fpE b = lim ∧ fpF b = 0 := by
  rw [scaled_abs scale, magnitude_eq_iff]
  change (fExp b : ℤ) - 150 + sc = 8 ∧ fFrac b = 0 ↔ fExp b = lim ∧ fFrac b = 0
  omega

/-- To a signed integer or fraction: numbers of magnitude below 2^31 have exponents below `lim`. -/
theorem fToSigned_spec (m : BitVec 2) (finite : lim < 255) :
    (fpE b = 0 → fToSigned m lim sc b = .plain (fpSpecial b) 0#32) ∧
      (fpNorm b → |fpValue b * c| < 2 ^ 31 → FpInteger m (fpValue b * c) (fToSigned m lim sc b)) ∧
      (fpNorm b → fpValue b * c = -2 ^ 31 → fToSigned m lim sc b = .plain false 0x80000000#32) ∧
      (fpNorm b ∧ fpValue b * c < -2 ^ 31 ∨ fpE b = 255 ∧ fpF b = 0 ∧ b.msb = true →
        fToSigned m lim sc b = .plain true 0x80000000#32) ∧
      (fpNorm b ∧ 2 ^ 31 ≤ fpValue b * c ∨ fpE b = 255 ∧ fpF b = 0 ∧ b.msb = false →
        fToSigned m lim sc b = .plain true 0x7FFFFFFF#32) ∧
      (fpNan b = true → fToSigned m lim sc b = .plain true 0#32) := by
  have range := signed_range (b := b) scale limit
  have edge := signed_edge (b := b) scale limit
  refine ⟨fun zero => ?_, fun norm small => ?_, fun norm least => ?_, fun below => ?_, fun above => ?_, fun nan => ?_⟩
  · simp only [fToSigned, (fNull_of zero).1, fDenorm_of zero, if_true]
  · have inside : fExp b < lim := range.mp small
    have whole : fToSigned m lim sc b = toInteger m b (fPow b + sc) := by
      simp only [fToSigned, (fNorm_of norm).1, inside, Bool.false_eq_true, if_false, if_true]
    rw [whole, scaled_value scale]
    exact toInteger_spec m b _
  · have negative : fSign b = true := (scaled_neg_iff scale b).mp (by rw [least]; norm_num)
    obtain ⟨expo, frac⟩ : fExp b = lim ∧ fFrac b = 0 := edge.mp (by rw [least, abs_neg, abs_of_pos (by norm_num)])
    simp only [fToSigned, (fNorm_of norm).1, expo, negative, frac, lt_irrefl, beq_self_eq_true, Bool.and_self,
      Bool.false_eq_true, if_false, if_true]
  · rcases below with ⟨norm, low⟩ | ⟨expo, frac, sign⟩
    · have negative : fSign b = true := (scaled_neg_iff scale b).mp (low.trans (by norm_num))
      have size : (2 : ℝ) ^ 31 < |fpValue b * c| := lt_abs.mpr (.inr (lt_neg_of_lt_neg low))
      rw [fToSigned_beyond m (by have := norm.1; omega) (not_lt.mp (mt range.mpr size.not_gt))
        (fun h => size.ne' (edge.mpr ⟨h.1, h.2.2⟩)) (fNan_of_norm norm), negative, if_pos rfl]
    · have negative : fSign b = true := sign
      rw [fToSigned_beyond m (by omega) (by omega) (fun h => by omega) (fNan_of_infinite frac), negative, if_pos rfl]
  · rcases above with ⟨norm, high⟩ | ⟨expo, frac, sign⟩
    · have positive : fSign b = false := Bool.eq_false_iff.mpr fun h => by
        have := (scaled_neg_iff scale b).mpr h
        linarith
      rw [fToSigned_beyond m (by have := norm.1; omega) (not_lt.mp (mt range.mpr (high.trans (le_abs_self _)).not_gt))
        (fun h => by rw [positive] at h; exact absurd h.2.1 (by decide)) (fNan_of_norm norm), positive,
        if_neg Bool.false_ne_true]
    · have positive : fSign b = false := sign
      rw [fToSigned_beyond m (by omega) (by omega) (fun h => by omega) (fNan_of_infinite frac), positive,
        if_neg Bool.false_ne_true]
  · obtain ⟨expo, frac⟩ := of_decide_eq_true nan
    have notNull : fNull b = false := (fHuge_of expo).1
    have outside : ¬ fExp b < lim := by
      change ¬ fpE b < lim
      omega
    have other : (fExp b == lim) = false := by
      change (fpE b == lim) = false
      rw [beq_eq_false_iff_ne]
      omega
    have isNan : fNan b = true := by rw [fNan_eq]; exact nan
    simp only [fToSigned, notNull, outside, other, isNan, Bool.false_and, Bool.false_eq_true, if_false, if_true]

end

/-- To an unsigned integer or fraction: numbers below 2^32 have exponents below `lim`. -/
theorem fToUnsigned_spec (m : BitVec 2) (limit : (lim : ℤ) + sc = 159) (finite : lim < 255) :
    (fpE b = 0 → fToUnsigned m lim sc b = .plain (fpSpecial b) 0#32) ∧
      (fpNorm b → b.msb = true → fToUnsigned m lim sc b = .plain false 0#32) ∧
      (fpNorm b → b.msb = false → fpValue b * c < 2 ^ 32 → FpInteger m (fpValue b * c) (fToUnsigned m lim sc b)) ∧
      (fpNorm b ∧ 2 ^ 32 ≤ fpValue b * c ∨ fpE b = 255 ∧ fpF b = 0 ∧ b.msb = false →
        fToUnsigned m lim sc b = .plain true 0xFFFFFFFF#32) ∧
      (fpNan b = true ∨ fpE b = 255 ∧ b.msb = true → fToUnsigned m lim sc b = .plain true 0#32) := by
  have range : |fpValue b * c| < 2 ^ 32 ↔ fpE b < lim := by
    rw [scaled_abs scale, magnitude_lt_iff]
    change (fExp b : ℤ) - 150 + sc + 23 < 32 ↔ fExp b < lim
    omega
  have beyond (some : fpE b ≠ 0) (sign : fSign b = false) (large : lim ≤ fpE b) (number : fNan b = false) :
      fToUnsigned m lim sc b = .plain true 0xFFFFFFFF#32 := by
    have notNull : fNull b = false := Bool.eq_false_iff.mpr (mt fNull_iff.mp some)
    have outside : ¬ fExp b < lim := not_lt.mpr large
    simp only [fToUnsigned, notNull, sign, outside, number, Bool.false_eq_true, if_false]
  have negativeOf (some : fpE b ≠ 0) (sign : fSign b = true) : fToUnsigned m lim sc b = .plain (fHuge b) 0#32 := by
    have notNull : fNull b = false := Bool.eq_false_iff.mpr (mt fNull_iff.mp some)
    simp only [fToUnsigned, notNull, sign, Bool.false_eq_true, if_false, if_true]
  refine ⟨fun zero => ?_, fun norm sign => ?_, fun norm sign small => ?_, fun above => ?_, fun nan => ?_⟩
  · simp only [fToUnsigned, (fNull_of zero).1, fDenorm_of zero, if_true]
  · rw [negativeOf (by have := norm.1; omega) sign, (fNorm_of norm).2.1]
  · have positive : fSign b = false := sign
    have nonneg : 0 ≤ fpValue b * c := not_lt.mp (mt (scaled_neg_iff scale b).mp (by rw [positive]; decide))
    have inside : fExp b < lim := range.mp (by rwa [abs_of_nonneg nonneg])
    have whole : fToUnsigned m lim sc b = toInteger m b (fPow b + sc) := by
      simp only [fToUnsigned, (fNorm_of norm).1, positive, inside, Bool.false_eq_true, if_false, if_true]
    rw [whole, scaled_value scale]
    exact toInteger_spec m b _
  · rcases above with ⟨norm, high⟩ | ⟨expo, frac, sign⟩
    · have positive : fSign b = false := Bool.eq_false_iff.mpr fun h => by
        have := (scaled_neg_iff scale b).mpr h
        linarith
      exact beyond (by have := norm.1; omega) positive (not_lt.mp (mt range.mpr (high.trans (le_abs_self _)).not_gt))
        (fNan_of_norm norm)
    · exact beyond (by omega) sign (by omega) (fNan_of_infinite frac)
  · have expo : fpE b = 255 := nan.elim (fun h => (of_decide_eq_true h).1) And.left
    cases sign : fSign b
    case true => rw [negativeOf (by omega) sign, (fHuge_of expo).2.1]
    case false =>
      have isNan : fNan b = true := by
        rw [fNan_eq]
        exact nan.resolve_right fun h => absurd (h.2.symm.trans sign) (by decide)
      have outside : ¬ fExp b < lim := by
        change ¬ fpE b < lim
        omega
      simp only [fToUnsigned, (fHuge_of expo).1, sign, outside, isNan, Bool.false_eq_true, if_false, if_true]

end

/-! Half precision. -/

theorem or_eq_add (x : ℕ) {n y : ℕ} (small : y < 2 ^ n) : x * 2 ^ n ||| y = x * 2 ^ n + y := by
  rw [mul_comm, Nat.two_pow_add_eq_or_of_lt small]

/-- A half-precision number as a normalized number of single precision. -/
theorem halfWord_eq (s : Bool) (e f : ℕ) (small : f < 2 ^ 10) (low : 1 ≤ e) (high : e ≤ 30) :
    withSign s (BitVec.ofNat 32 ((e + 112) * 2 ^ 23) ||| BitVec.ofNat 32 f <<< 13) =
      single.pack s (e - 15) ((2 ^ 10 + f) * 2 ^ 13) := by
  have biased : ((e : ℤ) - 15 + single.bias).toNat = e + 112 := by simp only [single]; omega
  have fraction : (2 ^ 10 + f) * 2 ^ 13 % 2 ^ 23 = f * 2 ^ 13 := by omega
  have magnitude : BitVec.ofNat 32 ((e + 112) * 2 ^ 23) ||| BitVec.ofNat 32 f <<< 13 =
      BitVec.ofNat 32 ((e + 112) * 2 ^ 23 + f * 2 ^ 13) := by
    apply BitVec.eq_of_toNat_eq
    have shifted : (BitVec.ofNat 32 f <<< 13).toNat = f * 2 ^ 13 := by
      rw [BitVec.toNat_shiftLeft, BitVec.toNat_ofNat, Nat.shiftLeft_eq, Nat.mod_eq_of_lt (by omega : f < 2 ^ 32),
        Nat.mod_eq_of_lt (by omega)]
    rw [BitVec.toNat_or, shifted, BitVec.toNat_ofNat, BitVec.toNat_ofNat, Nat.mod_eq_of_lt (by omega),
      Nat.mod_eq_of_lt (by omega)]
    exact or_eq_add (e + 112) (by omega)
  rw [magnitude, FpFormat.pack, biased]
  change _ = BitVec.ofNat 32 ((if s then 1 else 0) * 2 ^ 31) |||
    BitVec.ofNat 32 ((e + 112) * 2 ^ 23 + (2 ^ 10 + f) * 2 ^ 13 % 2 ^ 23)
  rw [fraction]
  cases s <;> rfl

theorem fFromHalf_normal (h : BitVec 16) (some : (h.extractLsb' 10 5).toNat ≠ 0) (finite : (h.extractLsb' 10 5).toNat ≠ 31) :
    ∃ w, fFromHalf h = .plain false w ∧ fpIs w (halfValue h) := by
  have range : (h.extractLsb' 10 5).toNat < 32 := BitVec.isLt _
  have small : (h.extractLsb' 0 10).toNat < 2 ^ 10 := BitVec.isLt _
  have widened : (h.extractLsb' 0 10).zeroExtend 32 = BitVec.ofNat 32 (h.extractLsb' 0 10).toNat := by
    apply BitVec.eq_of_toNat_eq
    rw [BitVec.toNat_ofNat]
    exact BitVec.toNat_setWidth 32 _
  have value : halfValue h = signedReal h.msb (((2 ^ 10 + (h.extractLsb' 0 10).toNat) * 2 ^ 13 : ℕ) *
      2 ^ (((h.extractLsb' 10 5).toNat : ℤ) - 15 - ((single.p - 1 : ℕ) : ℤ))) := by
    have power : (2 : ℝ) ^ (((h.extractLsb' 10 5).toNat : ℤ) - 25) =
        2 ^ 13 * 2 ^ (((h.extractLsb' 10 5).toNat : ℤ) - 15 - ((single.p - 1 : ℕ) : ℤ)) := by
      rw [← zpow_natCast, ← zpow_add₀ two_ne_zero]
      congr 1
      simp only [single]
      omega
    rw [halfValue, power, signedReal]
    push_cast
    split <;> ring
  refine ⟨single.pack h.msb ((h.extractLsb' 10 5).toNat - 15) ((2 ^ 10 + (h.extractLsb' 0 10).toNat) * 2 ^ 13), ?_, ?_⟩
  · rw [← halfWord_eq _ _ _ small (by omega) (by omega), ← widened]
    simp only [fFromHalf, some, finite, if_false]
  · rw [value]
    exact single_packs h.msb _ _ (by simp only [single]; omega) (by simp only [single]; omega)
      (by simp only [single]; omega) (by simp only [single]; omega)

theorem half_packs : half.Packs halfIs := by
  intro s e t low high first full
  simp only [half] at low high first full
  obtain ⟨k, exponent⟩ : ∃ k : ℕ, (k : ℤ) = e + 15 := ⟨(e + 15).toNat, Int.toNat_of_nonneg (by omega)⟩
  have word : (half.pack s e t).toNat = s.toNat * 2 ^ 15 + (k * 2 ^ 10 + t % 2 ^ 10) := by
    have biased : (e + half.bias).toNat = k := by simp only [half]; omega
    rw [FpFormat.pack, biased]
    change (BitVec.ofNat 32 ((if s then 1 else 0) * 2 ^ 15) ||| BitVec.ofNat 32 (k * 2 ^ 10 + t % 2 ^ 10)).toNat = _
    exact toNat_pack s (by omega) (by decide)
  have sign := Bool.toNat_lt s
  have field (start len : ℕ) : ((half.pack s e t).extractLsb' start len).toNat =
      (s.toNat * 2 ^ 15 + (k * 2 ^ 10 + t % 2 ^ 10)) / 2 ^ start % 2 ^ len := by
    rw [BitVec.extractLsb'_toNat, word, Nat.shiftRight_eq_div_pow]
  have expo : (((half.pack s e t).extractLsb' 0 16).extractLsb' 10 5).toNat = k := by
    rw [BitVec.extractLsb'_toNat, field, Nat.shiftRight_eq_div_pow]
    omega
  have frac : (((half.pack s e t).extractLsb' 0 16).extractLsb' 0 10).toNat = t - 2 ^ 10 := by
    rw [BitVec.extractLsb'_toNat, field, Nat.shiftRight_eq_div_pow]
    omega
  have msb : ((half.pack s e t).extractLsb' 0 16).msb = s := by
    rw [BitVec.msb_eq_decide, field]
    cases s
    · exact decide_eq_false (by simp only [Bool.toNat_false]; omega)
    · exact decide_eq_true (by simp only [Bool.toNat_true]; omega)
  have significand : (2 : ℝ) ^ 10 + ((t - 2 ^ 10 : ℕ) : ℝ) = t := by
    rw [Nat.cast_sub first]
    push_cast
    ring
  have power : (k : ℤ) - 25 = e - ((half.p - 1 : ℕ) : ℤ) := by rw [exponent]; simp only [half]; omega
  refine ⟨?_, ?_, ?_, ?_⟩
  · apply BitVec.eq_of_toNat_eq
    rw [field, BitVec.toNat_ofNat]
    omega
  · rw [field]
    omega
  · rw [field]
    omega
  · rw [halfValue, msb, frac, expo, significand, power]
    cases s <;> simp [signedReal]

theorem fToHalf_normal (m : BitVec 2) (b : Word) (norm : fpNorm b) :
    FpRounds 11 (2 ^ (-14 : ℤ)) (2 ^ 16) halfIs m (fpValue b) 0x7BFF#32 0x8000#32 (if b.msb then 0x8000#32 else 0#32)
      (fToHalf m b) := by
  have sign : (if b.msb then 0x8000#32 else 0#32) ||| 0x7BFF#32 = if fSign b then 0x8000#32 ||| 0x7BFF#32 else 0x7BFF#32 := by
    rw [fSign]
    cases b.msb <;> rfl
  have narrowed : fToHalf m b = roundTo half m (fSign b) (fSig b) (fPow b) false
      (if fSign b then 0x8000#32 ||| 0x7BFF#32 else 0x7BFF#32) (if b.msb then 0x8000#32 else 0#32) := by
    rw [← sign]
    simp only [fToHalf, (fNorm_of norm).1, (fNorm_of norm).2.1, Bool.false_eq_true, if_false]
    rfl
  have rounds := roundTo_spec half_packs (by decide) (by decide) (st := false) rfl (fSig_ne b) nofun m (fSign b) (fPow b)
    0x7BFF#32 0x8000#32 (if b.msb then 0x8000#32 else 0#32)
  have highest : (2 : ℝ) ^ (half.emax + 1) = 2 ^ 16 := zpow_natCast 2 16
  rw [highest, ← fpValue_eq] at rounds
  rw [narrowed]
  exact rounds

/-- Settles O55: a number of an integer is `Calc` of it (`fCalc_integer`), an integer of a number is `toInteger_spec` in the
range of its kind, and half precision is `roundTo_spec` of another format. -/
theorem fpConversions : Obligations.FpConversions := by
  intro m b h neg x
  refine ⟨?_, ?_, ?_, ?_, ?_⟩
  · simp only [List.forall_mem_cons, List.not_mem_nil, IsEmpty.forall_iff, implies_true, and_true]
    exact ⟨fCvtFrom_signed m b 0 (by simp), fCvtFrom_unsigned m b 0 (by simp),
      fCvtFrom_signed m b (-31) (by rw [zpow_neg, ← div_eq_mul_inv]; rfl),
      fCvtFrom_unsigned m b (-32) (by rw [zpow_neg, ← div_eq_mul_inv]; rfl)⟩
  · simp only [List.forall_mem_cons, List.not_mem_nil, IsEmpty.forall_iff, implies_true, and_true]
    exact ⟨fToSigned_spec (sc := 0) (zpow_zero 2).symm rfl m (by decide),
      fToSigned_spec (sc := 31) (zpow_natCast 2 31).symm rfl m (by decide)⟩
  · simp only [List.forall_mem_cons, List.not_mem_nil, IsEmpty.forall_iff, implies_true, and_true]
    exact ⟨fToUnsigned_spec (sc := 0) (zpow_zero 2).symm m rfl (by decide),
      fToUnsigned_spec (sc := 32) (zpow_natCast 2 32).symm m rfl (by decide)⟩
  · intro e sign
    have signed : sign = fZeroOf h.msb := by cases bit : h.msb <;> simp [sign, bit, fZeroOf, withSign]
    refine ⟨fun zero => ?_, fun huge => ?_, fFromHalf_normal h⟩
    · have fraction : ((h.extractLsb' 0 10).zeroExtend 32 != 0#32) = decide (h.extractLsb' 0 10 ≠ 0#10) := by
        have zero : (h.extractLsb' 0 10).zeroExtend 32 = 0#32 ↔ h.extractLsb' 0 10 = 0#10 := by
          rw [← BitVec.toNat_inj, ← BitVec.toNat_inj]
          exact Eq.congr_left (BitVec.toNat_setWidth_of_le (by decide))
        rw [bne, beq_eq_decide, decide_not, decide_eq_decide.mpr zero]
      rw [signed, ← fraction]
      exact if_pos zero
    · rw [signed, fZeroOf_or_top]
      exact (if_neg fun zero => absurd (huge.symm.trans zero) (by decide)).trans (if_pos huge)
  · intro sign
    refine ⟨fun zero => ?_, fun huge => ?_, fToHalf_normal m b⟩
    · simp only [fToHalf, (fNull_of zero).1, fDenorm_of zero, if_true]
      rfl
    · simp only [fToHalf, (fHuge_of huge).1, (fHuge_of huge).2.1, Bool.false_eq_true, if_false, if_true]
      rfl

end Sys2Proof.Machine
end
